-- ==== Sys2Proof/Word.lean ====
section
/-! DEFINITION. The word types of the WNK6400 and their plainest arithmetic: octets, octet strings (most
significant octet first, R6), bit fields of a number (R5) and the sparse table that every register array is
kept in. -/

namespace Sys2Proof

/-- An octet. -/
abbrev Byte := BitVec 8

/-- A string of octets, the first one at the lowest address. -/
abbrev Bytes := List Byte

/-- A 64-bit working register. -/
abbrev Word64 := BitVec 64

/-- Bits [hi:lo] of a number, bit 0 least significant (R5). -/
def nf (n hi lo : Nat) : Nat := n / 2 ^ lo % 2 ^ (hi + 1 - lo)

/-- Bit `i` of a number. -/
def nb (n i : Nat) : Bool := n / 2 ^ i % 2 == 1

/-- A flag as a number. -/
def bn (b : Bool) : Nat := if b then 1 else 0

/-- The number an octet string spells, most significant octet first (R6). -/
def beNat (l : Bytes) : Nat := l.foldl (fun a b => a * 256 + b.toNat) 0

/-- The `k` octets of a number, most significant first (R6). -/
def beBytes : Nat → Nat → Bytes
  | 0, _ => []
  | k + 1, n => BitVec.ofNat 8 (n / 256 ^ k) :: beBytes k n

/-- A sparse array: pairs of index and content, indices strictly rising, no entry at the reset content. -/
abbrev Tab (α : Type) := List (Nat × α)

end Sys2Proof
end

