-- ==== Sys2Proof/Syntax.lean ====
section
/-! DEFINITION. The commands of the block: one constructor of `Instr` per row of spec/opcode_table.json, with the
row's operands. A Stavin row carries the fields of its instruction word but the opcode, which the constructor
stands for (R334). A hardware event carries the root cycle `t` of the edge at which it happens (R19) and what the
world outside brings to it. A host access carries `t` and the word written or the place read. -/

namespace Sys2Proof

/-- What a PCIe transfer that an operation asks for brings (R337): the octets read (an empty list for a write
that completed), a completion error, or nothing within the wait. -/
inductive HostXfer where
  | bytes (l : Bytes)
  | error
  | late
  deriving DecidableEq, Repr

/-- How a command fares on the command fabric (R320, R321): its status returns, or the status is lost before or
after the block applied the command. -/
inductive Via where
  | answered
  | lostBefore
  | lostAfter
  deriving DecidableEq, Repr

/-- What the Memory Guard answers a fill or a write-back (R136, R140). -/
inductive MemRes where
  | ok
  | poisoned
  | integrity
  deriving DecidableEq, Repr

/-- What the read of a codeword of a checkpoint copy found when a takeover restored from it: octets in error (R218, R220). -/
structure CkptRead where
  copy : Nat
  word : Nat
  errors : Nat
  deriving DecidableEq, Repr

/-- The fields of an instruction word of R334 other than the opcode, with what its HOST transfer brings, how its command
fares, how many reads of a SYS.RECONCILE have been answered when its next one is lost (R349), the adjacent cells that a
burst has struck in the slot row it reads (R32, R360), and what a SYS.SWITCH that takes over has read of the checkpoint. -/
structure IWord where
  src : BitVec 2
  x : BitVec 2
  rx : BitVec 4
  a : BitVec 16
  b : BitVec 32
  imm : BitVec 64
  host : HostXfer := .bytes []
  via : Via := .answered
  fill : MemRes := .ok
  back : MemRes := .ok
  reads : Nat := 0
  burst : Nat := 0
  found : List CkptRead := []
  deriving DecidableEq, Repr

/-- A complex that has a fault, and what the standby's reads of the checkpoint found as it restored (R220, R325). -/
structure CplxFault where
  cplx : Nat
  found : List CkptRead := []
  deriving DecidableEq, Repr

/-- When a staged record is read, and the octets of its codeword in error (R220). -/
structure StagedRead where
  t : Nat
  errors : Nat := 0
  deriving DecidableEq, Repr

/-- Raw bits of the entropy source by a root cycle, the latest first (R379). -/
structure RawBits where
  t : Nat
  bits : List Bool
  deriving DecidableEq, Repr

/-- When the Press takes an operation, and the adjacent cells that a burst has struck in its slot's row (R32, R360). -/
structure PressStart where
  t : Nat
  burst : Nat := 0
  deriving DecidableEq, Repr

/-- What the receiving MAC sees of a frame beside its octets (R55, R62): nothing wrong, a PCS error character, an
uncorrectable FEC codeword, or a fragment sequence that did not reassemble. -/
inductive RxMark where
  | clean
  | pcsError
  | uncorrectable
  | reassembly
  deriving DecidableEq, Repr

/-- What a port's FEC and reassembly have seen since the row before (R55, R56, R62): codewords received, corrected and
uncorrectable, symbol errors by lane of the port, and the fragments received. -/
structure RxSeen where
  codewords : Nat := 0
  corrected : Nat := 0
  uncorrectable : Nat := 0
  symbols : List Nat := []
  fragments : Nat := 0
  deriving DecidableEq, Repr

/-- What comes with a received frame beside its octets: the frame's own mark, and what was counted since the row before. -/
structure MacRx where
  mark : RxMark := .clean
  seen : RxSeen := {}
  deriving DecidableEq, Repr

/-- The link partner's page of Clause 73: its abilities by bit of R52, and whether it asks for the 25G RS-FEC. -/
structure Partner where
  ability : Nat
  rsFec : Bool := false
  deriving DecidableEq, Repr

/-- Bits that a lane has received. -/
structure LaneBits where
  lane : Nat
  received : List Bool
  deriving DecidableEq, Repr

/-- An output of synchronous Ethernet and the root cycle since which its source lane has held lock (R72). -/
structure LockHeld where
  output : Nat
  since : Nat
  deriving DecidableEq, Repr

/-- What takes a lane's port out of UP (R51): loss of signal, of CDR lock, of block lock or of alignment-marker lock, or a
high symbol-error ratio. -/
inductive LossCause where
  | signal
  | cdrLock
  | blockLock
  | markerLock
  | symbolErrors
  deriving DecidableEq, Repr

/-- A lane that is lost, and why. -/
structure LaneLoss where
  lane : Nat
  cause : LossCause
  deriving DecidableEq, Repr

/-- What a read of a frame's cells found: octets in error of each of its codewords, from its first cell's first one (R218,
R220); a codeword that is not listed has none. -/
structure CellRead where
  errors : List Nat := []
  deriving DecidableEq, Repr

/-- A port that sends its next frame, and what the read of the frame's cells found. -/
structure EgressPort where
  port : Nat
  read : CellRead := {}
  deriving DecidableEq, Repr

/-- A posted punt entry as it was read, and what the read of the cells of the frame that takes it found. -/
structure PuntBuffer where
  entry : Bytes
  read : CellRead := {}
  deriving DecidableEq, Repr

/-- What the scrubber finds in a codeword: octets in error, and whether the cell fails again when it is written and reread
(R218, R221). -/
structure ScrubRes where
  errors : Nat := 0
  again : Bool := false
  deriving DecidableEq, Repr

/-- The masters of the rights word (R426). -/
inductive MgMaster where
  | complexA
  | complexB
  | cacheEngine
  | pcieDma
  | debug
  deriving DecidableEq, Repr

/-- What the DRAM brings beside a line (R440, R441): nothing wrong; symbols of the line in error; a tag that does not fit; the
same of the metadata line of a level on the line's path. -/
inductive DramFault where
  | none
  | symbols (n : Nat)
  | tagFailure
  | metaSymbols (level n : Nat)
  | metaTag (level : Nat)
  deriving DecidableEq, Repr

/-- One line access of a master (R425): direction, physical address of R420, octets written by a mask, data, and
what the DRAM brings beside the line; and beside other lines of the page that the access makes the Memory Guard read (R437), by
line number. -/
structure MgAccess where
  write : Bool
  addr : Nat
  mask : Nat
  data : Bytes
  fault : DramFault
  others : List (Nat × DramFault) := []
  deriving DecidableEq, Repr

/-- What the DRAM brings beside the lines of a memory-port copy, in their order, and beside other lines of their pages by line
number (R426, R437). -/
structure CopyFaults where
  lines : List DramFault := []
  others : List (Nat × DramFault) := []
  deriving DecidableEq, Repr

/-- What the DRAM brings beside the line of an aperture write, and beside other lines of its page by line number (R437). -/
structure WindowFault where
  fault : DramFault := .none
  others : List (Nat × DramFault) := []
  deriving DecidableEq, Repr

/-- A region whose rotation ends, and what the DRAM brought beside lines of the pages that it moved, by line number (R443). -/
structure RotationEnd where
  region : Nat
  faults : List (Nat × DramFault) := []
  deriving DecidableEq, Repr

/-- A Trellis port that goes down: whether its lanes still hold lock (R497). -/
structure LinkLost where
  port : Nat
  locked : Bool := true
  deriving DecidableEq, Repr

/-- A scrub pass over a region ends: the region, and what the DRAM brought beside each line that was checked, in their order
(R446). -/
structure ScrubPass where
  region : Nat
  found : List DramFault := []
  deriving DecidableEq, Repr

/-- How far a Graft message is (R365 to R367): taken from the queue, past its check edge, its counter consumed, its journal
ARMED, committed. -/
inductive GraftStep where
  | taken
  | checked
  | counted
  | armed
  | committed
  deriving DecidableEq, Repr

/-- The Key Vault works on a message: when, how far it comes, how many writes of the Graft counter's cells fail their readback
before one passes, whether a write is torn (R361), and the bursts met in the rows of the slots it reads, as slot and adjacent
cells struck (R32, R360). -/
structure GraftRun where
  t : Nat
  upTo : GraftStep := .committed
  badWrites : Nat := 0
  torn : Bool := false
  bursts : List (Nat × Nat) := []
  deriving DecidableEq, Repr

/-- A re-mask pass: when it has come to row `upTo`, which of the rows it read had adjacent cells struck, as physical row and
number of cells (R32, R359, R360). -/
structure RemaskRun where
  t : Nat
  upTo : Nat := 256
  bursts : List (Nat × Nat) := []
  deriving DecidableEq, Repr

/-- A run of a Press function: when it is computed, and what a fault has put, by exclusive or, on the final step of its output,
which R398 checks: the result point, s of ECDSA, the response and hint of ML-DSA, or what else is compared or written. No
octets: no fault. -/
structure PressRun where
  t : Nat
  upset : Bytes := []
  deriving DecidableEq, Repr

/-- What a monitor of the Crust sees at an edge. -/
inductive CrustSight where
  /-- A sample of case input `n`; it is high when the switch is open (R455). -/
  | case (n : Nat) (high : Bool)
  /-- A step of wire loop `n`: MESH_INn at its cycles 6 and 14 (R456). -/
  | loop (n : Nat) (first second : Bool)
  /-- The rail of voltage monitor `m` in mV, and for how many root cycles without a break it has lain outside LOW to HIGH
  and beyond a threshold of the fast path (R458). -/
  | rail (m : Nat) (mv outside past : Nat)
  /-- Readings in °C: of the four on-die sensors, and of the Crust sensor (R459). -/
  | temp (die : List Int) (crust : Int)
  /-- PCLK cycles over 1 024 COSC-A cycles, and the shortest phase of QCLK in ps (R460). -/
  | clock (pclks phase : Nat)
  /-- Bits that have turned over in stored words of the Crust, by word (R461). -/
  | words (flips : List (Nat × Nat))
  /-- Root cycles for which an oscillator has given no edge (R451). -/
  | osc (still : Nat)
  deriving DecidableEq, Repr

/-- What a HELLO frame carries (R496). `east` is the port side of the sender. -/
structure Hello where
  east : Bool
  version : Nat
  two : Bool
  fast : Bool
  candidate : Bool
  prio : Nat
  node : Nat
  devid : Nat
  deriving DecidableEq, Repr

/-- The messages of the key exchange (R498): the identity keys, the ephemeral encapsulation key or the ciphertext,
the ephemeral point; then the signatures and the HMAC of the transcript. -/
inductive Keyx where
  | offer (idKeys kem point : Bytes)
  | answer (idKeys ct point : Bytes)
  | confirm (sigEc sigPq mac : Bytes)
  deriving DecidableEq, Repr

/-- One Wenok in a TOPO frame (R494, R508). -/
structure TopoNode where
  node : Nat
  devid : Nat
  prio : Nat
  candidate : Bool
  deriving DecidableEq, Repr

/-- A TOPO frame: the node list and the wrap state (R508). -/
structure Topo where
  nodes : List TopoNode
  wrapped : Bool
  deriving DecidableEq, Repr

/-- The commands, in the order of spec/opcode_table.json. -/
inductive Instr where
  /-- NOP (R341): Does nothing and costs 1 QCLK. -/
  | nop (w : IWord)
  /-- HALT (R316): Ends the program with ST_OK and writes its completion record, or ends a handler. -/
  | halt (w : IWord)
  /-- JMP (R342): Jumps to an absolute or relative target that has been checked under R312. -/
  | jmp (w : IWord)
  /-- BR_CC (R342): Jumps to the target if the condition on Z, C or E holds. -/
  | brCc (w : IWord)
  /-- CALL (R342): Saves the return address in w15 and jumps. -/
  | call (w : IWord)
  /-- RET (R342): Jumps to the address held in w15. -/
  | ret (w : IWord)
  /-- WAIT_EV (R343): Waits for a matching event, or for the completion of the context's last pending instruction, or for its timeout. -/
  | waitEv (w : IWord)
  /-- WAIT_T (R344): Waits for a delay on QCLK or until an absolute network time. -/
  | waitT (w : IWord)
  /-- FENCE (R309): Waits until every pending operation of the context has raised its completion event. -/
  | fence (w : IWord)
  /-- YIELD (R310): Ends the instruction slot so the sequencer chooses the next context again. -/
  | yield (w : IWord)
  /-- MOVI (R345): Writes the immediate into a register. -/
  | movi (w : IWord)
  /-- MOV (R345): Copies a register, or SR zero-extended, into a register. -/
  | mov (w : IWord)
  /-- ADD (R345): Adds modulo 2^64 and sets Z and C. -/
  | add (w : IWord)
  /-- SUB (R345): Subtracts modulo 2^64 and sets Z and C. -/
  | sub (w : IWord)
  /-- AND (R345): Bitwise and, setting Z and clearing C. -/
  | andW (w : IWord)
  /-- OR (R345): Bitwise or, setting Z and clearing C. -/
  | orW (w : IWord)
  /-- XOR (R345): Bitwise exclusive or, setting Z and clearing C. -/
  | xorW (w : IWord)
  /-- SHL (R345): Shifts left by op2[5:0] and sets Z and C. -/
  | shl (w : IWord)
  /-- SHR (R345): Shifts right logically by op2[5:0] and sets Z and C. -/
  | shr (w : IWord)
  /-- CMP (R345): Sets Z and C as SUB would, without writing a result. -/
  | cmp (w : IWord)
  /-- LD (R345): Loads 8, 16, 32 or 64 bits from permitted local memory, zero-extended. -/
  | ld (w : IWord)
  /-- ST (R345): Stores the low bits of a register into permitted local memory. -/
  | st (w : IWord)
  /-- LANE_CFG (R74): Writes the lane setting: polarity, FFE taps and SyncE source. -/
  | laneCfg (w : IWord)
  /-- LANE_TEST (R66): Writes the lane test setting: loops, pattern generator, checker and error injection. -/
  | laneTest (w : IWord)
  /-- LANE_CAL_ADAPT (R78): Re-adapts a lane hitlessly. -/
  | laneCalAdapt (w : IWord)
  /-- LANE_CAL_MARGIN (R78): Measures a lane's eye margins and returns them in w1. -/
  | laneCalMargin (w : IWord)
  /-- LANE_CAL_FULL (R78): Queues a full recalibration on the group's engine and returns ST_PENDING. -/
  | laneCalFull (w : IWord)
  /-- PORT_CFG (R48): Writes the port setting, disables overlapping ports and restarts bring-up. -/
  | portCfg (w : IWord)
  /-- PORT_STATE (R48): Returns the port setting and the port state word. -/
  | portState (w : IWord)
  /-- CLS_MAP (R87): Writes a VLAN Channel Map entry or a port record. -/
  | clsMap (w : IWord)
  /-- CLS_RULE (R91): Writes an Exception Rule from a descriptor. -/
  | clsRule (w : IWord)
  /-- PEER_ADD (R104): Places or binds a Peer Table entry. -/
  | peerAdd (w : IWord)
  /-- PEER_DEL (R111): Frees a Peer Table entry. -/
  | peerDel (w : IWord)
  /-- PEER_SEARCH (R111): Returns the entry for a key, or FREE with the key's set. -/
  | peerSearch (w : IWord)
  /-- PEER_NEXT (R112): Returns the next Peer Table entry after the cursor. -/
  | peerNext (w : IWord)
  /-- PEER_FLUSH (R113): Starts a sweep that frees the matching entries and returns ST_PENDING. -/
  | peerFlush (w : IWord)
  /-- CH_SET (R123): Writes a channel header, making the channel present, changing it, recovering it or removing it. -/
  | chSet (w : IWord)
  /-- SA_LOAD (R195): Copies a Key Vault key into an association and makes it LOADED. -/
  | saLoad (w : IWord)
  /-- SA_ARM (R201): Arms or disarms a LOADED transmit association for a roll at a packet number or a time. -/
  | saArm (w : IWord)
  /-- SA_ROLL (R203): Arms a transmit roll for the next assignment, or makes a receive association ACTIVE. -/
  | saRoll (w : IWord)
  /-- SA_RETIRE (R207): Retires an association, optionally after a delay and with WIPE. -/
  | saRetire (w : IWord)
  /-- CH_PIN (R141): Starts pinning a channel into the cache with reserved proofing slots. -/
  | chPin (w : IWord)
  /-- CH_UNPIN (R142): Unpins a channel and releases its proofing slots. -/
  | chUnpin (w : IWord)
  /-- CH_READ (R148): Copies a channel's entry into local memory without key material. -/
  | chRead (w : IWord)
  /-- CNT_READ (R346): Copies a counter block sampled at one edge, optionally clearing it. -/
  | cntRead (w : IWord)
  /-- CNT_CLEAR (R346): Clears a counter block at one edge. -/
  | cntClear (w : IWord)
  /-- CLASS_MAP (R244): Writes a port's PCP map and its scheduling weights and overhead. -/
  | classMap (w : IWord)
  /-- SHAPE_SET (R258): Replaces a class shaper setting and resets its tokens. -/
  | shapeSet (w : IWord)
  /-- POLICE_SET (R252): Replaces a meter descriptor and resets its tokens. -/
  | policeSet (w : IWord)
  /-- GATE_LOAD (R259): Copies a gate list into the port's admin list. -/
  | gateLoad (w : IWord)
  /-- GATE_SWAP (R262): Schedules the admin list to become oper at the change time. -/
  | gateSwap (w : IWord)
  /-- GATE_SWAP_CANCEL (R263): Withdraws a pending gate swap. -/
  | gateSwapCancel (w : IWord)
  /-- PREEMPT_SET (R269): Sets or releases the program hold of the preemptable MAC. -/
  | preemptSet (w : IWord)
  /-- TIME_SET (R277): Sets network time at one TCLK edge. -/
  | timeSet (w : IWord)
  /-- TIME_SET_AT_PPS (R277): Arms a time set for the next confirmed PPS_IN edge and returns ST_PENDING. -/
  | timeSetAtPps (w : IWord)
  /-- TIME_ADJ (R278): Steps network time by a signed offset. -/
  | timeAdj (w : IWord)
  /-- TIME_INCR (R274): Writes the permanent increment, or a temporary increment with a duration. -/
  | timeIncr (w : IWord)
  /-- TRIG_ARM (R294): Arms, replaces or disarms a trigger output descriptor. -/
  | trigArm (w : IWord)
  /-- CAPT_CFG (R283): Writes a port stamp setting or a pin capture setting. -/
  | captCfg (w : IWord)
  /-- PROBE_SEND (R300): Builds a delay probe request and queues it on the transmit channel's port. -/
  | probeSend (w : IWord)
  /-- PROBE_RESPONDER_WRITE (R301): Writes a responder table entry. -/
  | probeResponderWrite (w : IWord)
  /-- TS_POP (R290): Moves up to COUNT entries from a stamp, capture or probe queue. -/
  | tsPop (w : IWord)
  /-- GRAFT (R347): Queues a Graft message for the Key Vault and returns ST_PENDING. -/
  | graft (w : IWord)
  /-- SLOT_ERASE (R372): Erases a general, unlocked Key Vault slot. -/
  | slotErase (w : IWord)
  /-- SLOT_INFO (R347): Returns a slot's attribute word and whether it holds a key. -/
  | slotInfo (w : IWord)
  /-- BLK_KEY (R375): Copies a slot's key into a block-engine register. -/
  | blkKey (w : IWord)
  /-- BLK_OP (R376): Encrypts or decrypts blocks in place in ECB form under a block-engine register. -/
  | blkOp (w : IWord)
  /-- BLK_CMP (R348): Compares an AES result with expected blocks and reports only equality. -/
  | blkCmp (w : IWord)
  /-- UNWRAP (R374): Unwraps a key and its attributes into a destination slot. -/
  | unwrap (w : IWord)
  /-- DRBG_GET (R378): Returns one to four random words in registers. -/
  | drbgGet (w : IWord)
  /-- PK_LOAD (R386): Copies octets into a Press operand slot and makes it LOADED. -/
  | pkLoad (w : IWord)
  /-- PK_OP (R387): Checks a Press operation, queues it and returns ST_PENDING. -/
  | pkOp (w : IWord)
  /-- PK_SHAPE (R384): Makes a zeroed EMPTY operand slot of 2^k granules. -/
  | pkShape (t : Nat)
  /-- EC_PUB (R390): Computes the public point of a vault P-curve key. -/
  | ecPub (run : PressRun)
  /-- ECDSA_SIGN (R390): Signs a digest with a vault P-curve key. -/
  | ecdsaSign (run : PressRun)
  /-- ECDSA_VERIFY (R390): Verifies an ECDSA signature. -/
  | ecdsaVerify (run : PressRun)
  /-- ECDH_MAC (R392): Forms an ECDH key-confirmation tag under a vault key. -/
  | ecdhMac (run : PressRun)
  /-- EC_MUL (R390): Multiplies a point by a public scalar. -/
  | ecMul (run : PressRun)
  /-- MODEXP (R390): Performs modular exponentiation. -/
  | modexp (run : PressRun)
  /-- RSA_PKCS1 (R390): Verifies an RSASSA-PKCS1-v1_5 signature. -/
  | rsaPkcs1 (run : PressRun)
  /-- RSA_PSS (R390): Verifies an RSA-PSS signature. -/
  | rsaPss (run : PressRun)
  /-- KEM_PUB (R390): Computes the ML-KEM encapsulation key of a vault seed. -/
  | kemPub (run : PressRun)
  /-- KEM_MAC (R392): Decapsulates under a vault seed and forms a confirmation tag. -/
  | kemMac (run : PressRun)
  /-- DSA_PUB (R390): Computes the ML-DSA public key of a vault seed. -/
  | dsaPub (run : PressRun)
  /-- DSA_SIGN (R396): Signs with ML-DSA-87 using hedged signing. -/
  | dsaSign (run : PressRun)
  /-- DSA_VERIFY (R390): Verifies an ML-DSA-87 signature. -/
  | dsaVerify (run : PressRun)
  /-- PK_READ (R386): Copies octets out of a Press operand slot. -/
  | pkRead (w : IWord)
  /-- PK_ABORT (R401): Ends the running PK.OP with ST_ABORTED. -/
  | pkAbort (w : IWord)
  /-- MG_REGION_CREATE (R424): Creates a Memory Guard region with a freshly loaded key ID. -/
  | mgRegionCreate (w : IWord)
  /-- MG_REGION_REMOVE (R424): Removes a Memory Guard region and zeroes its keys. -/
  | mgRegionRemove (w : IWord)
  /-- MG_REKEY_ROTATE (R443): Switches a region to a new key ID and starts moving its pages in the background. -/
  | mgRekeyRotate (w : IWord)
  /-- MG_REKEY_REBUILD (R444): Rebuilds quarantined lines, or a revoked region, as fresh. -/
  | mgRekeyRebuild (w : IWord)
  /-- MG_SCRUB_START (R446): Starts a scrub pass over a region. -/
  | mgScrubStart (w : IWord)
  /-- MG_SCRUB_STOP (R446): Ends a running scrub pass at its next line. -/
  | mgScrubStop (w : IWord)
  /-- MG_RIGHTS (R426): Replaces a region's rights at one KCLK edge. -/
  | mgRights (w : IWord)
  /-- LOG_WRITE (R488): Records a host event with the HOST flag set. -/
  | logWrite (w : IWord)
  /-- LOG_FREEZE (R484): Freezes the Cellar Book after writing record 0xB000. -/
  | logFreeze (w : IWord)
  /-- LOG_THAW (R485): Thaws the Cellar Book, writes record 0xB001 and clears MISSED. -/
  | logThaw (w : IWord)
  /-- LOG_CLEAR (R486): Zeroes the Cellar Book and writes record 0xB002 as record 0. -/
  | logClear (w : IWord)
  /-- TR_SEND (R500): Queues a Trellis service frame to a node or to all nodes. -/
  | trSend (w : IWord)
  /-- TR_RECV (R500): Takes a frame from the Trellis receive queue. -/
  | trRecv (w : IWord)
  /-- TR_ROLE (R493): Rereads the Trellis setting and sets the election role. -/
  | trRole (w : IWord)
  /-- SYS_CKPT (R322): Writes a checkpoint base image. -/
  | sysCkpt (w : IWord)
  /-- SYS_SWITCH_GO (R329): Makes a planned switch-over to the standby complex. -/
  | sysSwitchGo (w : IWord)
  /-- SYS_SWITCH_STAGE (R332): Starts loading and checking a new rootstock image into the standby. -/
  | sysSwitchStage (w : IWord)
  /-- SYS_SWITCH_HOLDOFF (R329): Sets the return hold-off. -/
  | sysSwitchHoldoff (w : IWord)
  /-- SYS_RECONCILE (R146): Compares state words with the management view and corrects the view. -/
  | sysReconcile (w : IWord)
  /-- SYS_VINTAGE (R350): Requests a signed Vintage statement for a nonce. -/
  | sysVintage (w : IWord)
  /-- EV_BIND (R318): Binds a handler to an event code and mask. -/
  | evBind (w : IWord)
  /-- EV_UNBIND (R318): Removes the binding with an exact code and mask. -/
  | evUnbind (w : IWord)
  /-- CRUST_CFG (R454): Writes a Crust monitor setting. -/
  | crustCfg (w : IWord)
  /-- CRUST_ARM (R470): Arms the Crust and seeds the wire loops. -/
  | crustArm (w : IWord)
  /-- CRUST_DISARM (R470): Returns the Crust mode to DISARMED. -/
  | crustDisarm (w : IWord)
  /-- CRUST_TEST (R470): Puts the Crust in TEST mode. -/
  | crustTest (w : IWord)
  /-- CRUST_INJECT (R472): Forces a monitor's condition in TEST mode. -/
  | crustInject (w : IWord)
  /-- CRUST_CLEAR (R470): Clears the NOTIFY and QUIESCE latches and releases ALARM_OUT. -/
  | crustClear (w : IWord)
  /-- CRUST_LOGCLEAR (R470): Empties the Crust log. -/
  | crustLogclear (w : IWord)
  /-- HOST_FRAME_RECEIVE (R83): A frame arriving on a host port is checked, classified, metered and admitted or dropped. -/
  | hostFrameReceive (t : Nat) (port : Nat) (frame : Bytes) (rx : MacRx)
  /-- LINE_FRAME_RECEIVE (R83): A frame arriving on a line port is classified, looked up and judged for decryption, or handled in clear. -/
  | lineFrameReceive (t : Nat) (port : Nat) (frame : Bytes) (rx : MacRx)
  /-- SPILL_READ_COMPLETE (R103): A spill-way read completes and the frame is matched or treated as an unknown SCI. -/
  | spillReadComplete (t : Nat) (k : Nat)
  /-- SPILL_TIMEOUT (R103): A frame whose spill read has not completed after 10 µs is dropped. -/
  | spillTimeout (t : Nat) (k : Nat)
  /-- PENDING_AGE_EXPIRY (R107): A PENDING peer entry whose AGE reaches zero becomes FREE. -/
  | pendingAgeExpiry (t : Nat) (set way : Nat)
  /-- PEER_FLUSH_COMPLETE (R113): A flush sweep ends and raises its completion event. -/
  | peerFlushComplete (t : Nat)
  /-- PAUSE_FRAME_RECEIVE (R58): A received PAUSE or PFC frame pauses the honoured classes. -/
  | pauseFrameReceive (t : Nat) (port : Nat) (frame : Bytes) (rx : MacRx)
  /-- PAUSE_TIME_EXPIRY (R60): A class's pause time ends. -/
  | pauseTimeExpiry (t : Nat) (port : Nat) (cls : Nat)
  /-- PAUSE_LIMIT_RELEASE (R59): A class whose continuous pause reaches PLIMIT is released and then ignores pause. -/
  | pauseLimitRelease (t : Nat) (port : Nat) (cls : Nat)
  /-- PAUSE_REFRESH (R232): The pause request is refreshed every half pause time while the charge stays above XON. -/
  | pauseRefresh (t : Nat) (port : Nat) (cls : Nat)
  /-- EGRESS_SELECT (R241): A port scheduler selects the first eligible queue and grants its egress lane. -/
  | egressSelect (t : Nat) (port : Nat)
  /-- CALENDAR_SLOT_REACHED (R257): The calendar wheel reaches a shaped queue's slot and the queue becomes eligible. -/
  | calendarSlotReached (t : Nat) (port : Nat) (cls : Nat)
  /-- FRAME_TRANSMIT (R281): A frame passes the commit point and leaves the egress MAC with its wire stamp. -/
  | frameTransmit (t : Nat) (out : EgressPort)
  /-- ICV_CHECK (R175): After the last ICV octet the tag is checked and the tail is released, stomped or the frame dropped. -/
  | icvCheck (t : Nat) (port : Nat)
  /-- PROBE_TIMEOUT (R302): A probe with no response after TMO ends with STATUS 1. -/
  | probeTimeout (t : Nat) (id : Nat)
  /-- FILL_COMPLETE (R137): A cache fill completes and the waiting frames proceed. -/
  | fillComplete (t : Nat) (ch : Nat) (res : MemRes)
  /-- FILL_TIMEOUT (R136): A fill not complete after 50 µs drops its waiting frames. -/
  | fillTimeout (t : Nat) (ch : Nat)
  /-- CACHE_EVICT (R139): The clock chooses a victim line, and its changed DRAM lines are written back. -/
  | cacheEvict (t : Nat)
  /-- WRITE_BACK_COMPLETE (R139): The Memory Guard acknowledges a victim's writes, and the line becomes free or the channel becomes COLD_FAILED. -/
  | writeBackComplete (t : Nat) (ch : Nat) (res : MemRes)
  /-- PROOF_REFILL (R163): A proofing refill computes its blocks and sets VALID, completing a pin where that is due. -/
  | proofRefill (t : Nat) (array group : Nat)
  /-- SLICE_FAULT (R185): A faulty slice result places the ready spare and reissues the pipeline. -/
  | sliceFault (t : Nat) (array pos : Nat) (ghash : Bool)
  /-- ROTATION_STEP (R187): Every 1 ms the spare slices rotate through the positions. -/
  | rotationStep (t : Nat) (array : Nat)
  /-- SLICE_TEST_COMPLETE (R188): A test-seat slice passes or is marked failed. -/
  | sliceTestComplete (t : Nat) (array : Nat) (pass : Bool)
  /-- RETIRE_TIME_REACHED (R205): A DRAINING association reaches its retire time and becomes RETIRED. -/
  | retireTimeReached (t : Nat) (ch an : Nat)
  /-- CASK_SCRUB (R222): The scrubber reads a codeword, corrects it and handles uncorrectable cells. -/
  | caskScrub (t : Nat) (cell cw : Nat) (res : ScrubRes)
  /-- AGE_CHECK (R236): Every 1 ms queue heads older than 2 s are dropped. -/
  | ageCheck (t : Nat)
  /-- PUNT_DELIVER (R522): A waiting punted frame is written to a posted host buffer. -/
  | puntDeliver (t : Nat) (side : Nat) (buffer : PuntBuffer)
  /-- PUNT_WAIT_EXPIRY (R522): A punted frame that has waited 1 ms is dropped. -/
  | puntWaitExpiry (t : Nat) (side : Nat)
  /-- INJECT_TAKE (R523): An inject descriptor is taken when its frame fits, checked and its frame admitted. -/
  | injectTake (t : Nat) (side : Nat) (entry : Bytes) (frame : HostXfer)
  /-- GATE_ENTRY_CHANGE (R261): A gate list entry boundary or cycle start changes the gate states and hold. -/
  | gateEntryChange (t : Nat) (port : Nat)
  /-- GATE_SWAP_CHANGE (R262): At the change time the admin list becomes oper and the event is raised. -/
  | gateSwapChange (t : Nat) (port : Nat)
  /-- TEMPORARY_INCREMENT_END (R275): A temporary increment's duration ends and the permanent increment applies. -/
  | temporaryIncrementEnd (t : Nat)
  /-- SECONDS_WRAP (R273): SEC carries out and wraps to zero. -/
  | secondsWrap (t : Nat)
  /-- PPS_SET_EDGE (R277): A confirmed PPS_IN edge completes a pending TIME.SET. -/
  | ppsSetEdge (t : Nat) (rising : Bool) (width : Nat)
  /-- PPS_SET_TIMEOUT (R277): A pending TIME.SET with no edge within 2 s ends with ST_TIMEOUT. -/
  | ppsSetTimeout (t : Nat)
  /-- CAPTURE_EDGE (R293): A filtered edge at a capture input pushes its ball time, or is rejected. -/
  | captureEdge (t : Nat) (pin : Nat) (rising : Bool) (width : Nat)
  /-- TRIGGER_PULSE (R296): A scheduled trigger edge is driven at its network time. -/
  | triggerPulse (t : Nat) (output : Nat)
  /-- VERIFY_TIMEOUT (R63): An unanswered preemption verify attempt is retried, or the port becomes FAILED after three. -/
  | verifyTimeout (t : Nat) (port : Nat)
  /-- VERIFY_RESPOND_RECEIVE (R63): A respond mPacket makes preemption VERIFIED. -/
  | verifyRespondReceive (t : Nat) (port : Nat)
  /-- AN_RESOLVED (R51): Auto-negotiation resolves a common mode. -/
  | anResolved (t : Nat) (port : Nat) (partner : Partner)
  /-- TRAINING_COMPLETE (R51): Every lane reports training complete. -/
  | trainingComplete (t : Nat) (port : Nat)
  /-- TRAINING_TIMEOUT (R53): The training timer expires and the best-common-mode rule applies. -/
  | trainingTimeout (t : Nat) (port : Nat)
  /-- ALIGNMENT_HELD (R51): Alignment held for 10 ms brings the port UP. -/
  | alignmentHeld (t : Nat) (port : Nat)
  /-- ALIGNMENT_TIMEOUT (R51): The 100 ms alignment timer restarts bring-up. -/
  | alignmentTimeout (t : Nat) (port : Nat)
  /-- NEGOTIATION_RESTART_WAIT (R53): After the 1 s wait the full ABILITY set is renegotiated. -/
  | negotiationRestartWait (t : Nat) (port : Nat)
  /-- LINK_LOSS (R51): Loss of signal, lock or alignment on a lane takes the port out of UP. -/
  | linkLoss (t : Nat) (loss : LaneLoss)
  /-- SYNCE_UNSQUELCH (R72): A source lane that has held lock for 10 ms unsquelches its output. -/
  | synceUnsquelch (t : Nat) (lock : LockHeld)
  /-- EYE_MARGIN_CHECK (R77): Once a second each lane's eye margin is measured and the lane re-adapted if needed. -/
  | eyeMarginCheck (t : Nat) (lane before after : Nat)
  /-- CALIBRATION_START (R79): A queued FULL calibration starts when its group engine is free. -/
  | calibrationStart (t : Nat) (group : Nat)
  /-- CALIBRATION_COMPLETE (R78): A FULL calibration ends and raises its event. -/
  | calibrationComplete (t : Nat) (group vmargin : Nat)
  /-- REFERENCE_LOSS (R22): A reference input declared lost changes the selection, or both being lost begins holdover. -/
  | referenceLoss (t : Nat) (input : Nat)
  /-- REFERENCE_GOOD (R539): An input good for 100 ms is declared good and selected if none is. -/
  | referenceGood (t : Nat) (input : Nat)
  /-- ROOT_PLL_LOCK_LOSS (R24): The active root PLL loses lock and the Wenok changes over. -/
  | rootPllLockLoss (t : Nat)
  /-- ROOT_PLL_RELOCK (R25): A recalibrated root PLL relocks as hot spare, or is marked failed after 10 ms. -/
  | rootPllRelock (t : Nat) (locked : Bool)
  /-- PROGRAM_START (R315): The next descriptor of a queue is checked, copied and its program started. -/
  | programStart (t : Nat) (q : Nat) (desc : Bytes) (prog : HostXfer) (data : HostXfer)
  /-- PROGRAM_COPY_TIMEOUT (R315): A program copy not complete in 100 µs ends with ST_TIMEOUT. -/
  | programCopyTimeout (t : Nat) (q : Nat)
  /-- PROGRAM_TIME_LIMIT (R307): A program's time limit expires and it ends with ST_TIMEOUT. -/
  | programTimeLimit (t : Nat) (q : Nat)
  /-- COMMAND_TIMEOUT (R321): A command without status after 100 µs ends its instruction with ST_TIMEOUT. -/
  | commandTimeout (t : Nat) (ctx : Nat)
  /-- COMMAND_COMPLETION (R309): A pending operation raises its completion event. -/
  | commandCompletion (t : Nat) (cseq : Nat)
  /-- INSTRUCTION_WATCHDOG (R306): An instruction not finished after 200 µs is a complex fault. -/
  | instructionWatchdog (t : Nat) (ctx : Nat)
  /-- COMPLEX_FAULT (R325): A lockstep, memory or self-check fault starts a switch-over or marks the standby unavailable. -/
  | complexFault (t : Nat) (fault : CplxFault)
  /-- STANDBY_SELF_TEST (R330): Once a second the standby runs its 2 ms self-test. -/
  | standbySelfTest (t : Nat) (pass : Bool)
  /-- REPAIR_SELF_TEST (R330): A failed complex's self-test ends, repairing it or marking it failed. -/
  | repairSelfTest (t : Nat) (pass : Bool)
  /-- HOLDOFF_EXPIRY (R330): The hold-off expires and the repaired complex takes control back. -/
  | holdoffExpiry (t : Nat)
  /-- STAGE_COMPLETE (R332): Staging of a rootstock image ends with its status. -/
  | stageComplete (t : Nat) (image : Bytes)
  /-- EVENT_RECORD (R478): A raised event is recorded in the Cellar Book and dispatched. -/
  | eventRecord (read : StagedRead)
  /-- HANDLER_START (R319): A queued activation starts its handler when the level's context is free. -/
  | handlerStart (t : Nat) (level : Nat)
  /-- GRAFT_PROCESS (R365): The Key Vault dequeues a Graft message, checks it and applies it. -/
  | graftProcess (run : GraftRun)
  /-- REMASK_PASS (R359): Once a second the vault rows are rewritten under a new mask key. -/
  | remaskPass (run : RemaskRun)
  /-- DRBG_RESEED (R378): The DRBG reseeds after 2^16 requests or 100 ms. -/
  | drbgReseed (t : Nat)
  /-- HEALTH_TEST_FAILURE (R379): An entropy health test fails, the DRBG stops and reinstantiation begins. -/
  | healthTestFailure (raw : RawBits)
  /-- DRBG_REINSTANTIATE (R379): A reinstantiation attempt, made 10 ms apart, completes or fails. -/
  | drbgReinstantiate (t : Nat) (pass : Bool)
  /-- DRBG_POST_ERASE_INSTANTIATE (R381): After an erase response the DRBG is instantiated afresh within 1 ms. -/
  | drbgPostEraseInstantiate (t : Nat) (pass : Bool)
  /-- PRESS_OP_START (R388): The Press takes the next operation from its queue and reads its vault slot. -/
  | pressOpStart (start : PressStart)
  /-- PRESS_OP_COMPLETE (R402): A Press operation ends, sets the slot states and raises its completion event. -/
  | pressOpComplete (t : Nat)
  /-- VINTAGE_COMPLETE (R414): The statement is signed, written to host memory and its event raised. -/
  | vintageComplete (run : PressRun)
  /-- POWER_GOOD (R535): Power-good asserts and the Wenok starts, selecting its reference and running the Boot ROM. -/
  | powerGood (t : Nat) (edgeA edgeB role : Bool)
  /-- BOOT_ROM (R408): The Boot ROM tests, derives identity, checks an image and releases Complex A or enters recovery. -/
  | bootRom (t : Nat) (selfTest drbg : Bool) (header imageA imageB : Bytes)
  /-- RECOVERY_READ_COMPLETE (R514): A recovery image read ends and the image is started or rejected. -/
  | recoveryReadComplete (t : Nat) (image : HostXfer)
  /-- NPOR (R528): nPOR asserted holds the main domain in reset. -/
  | npor (t : Nat)
  /-- NRESET (R529): nRESET resets the main domain. -/
  | nreset (t : Nat)
  /-- RAIL_WARNING (R536): A rail below its warning threshold raises 0xC008. -/
  | railWarning (t : Nat) (rail : Nat)
  /-- RAIL_WARNING_CLEAR (R536): A rail above its warning threshold for 1 ms closes the record. -/
  | railWarningClear (t : Nat) (rail : Nat)
  /-- BROWN_OUT (R537): A rail below its fall threshold stops the main domain. -/
  | brownOut (t : Nat) (rail : Nat)
  /-- MG_TRAINING_COMPLETE (R419): DDR5 training completes or fails. -/
  | mgTrainingComplete (t : Nat) (ok : Bool) (place : Nat)
  /-- MG_ACCESS (R425): A master's line access is checked, then read and verified or written. -/
  | mgAccess (t : Nat) (m : MgMaster) (acc : MgAccess)
  /-- MEMORY_PORT_COPY (R426): GO in the memory-port descriptor copies lines between local memory and DRAM. -/
  | memoryPortCopy (t : Nat) (faults : CopyFaults)
  /-- MG_ROTATION_COMPLETE (R443): A rotation pass ends, the old key is zeroed and the event raised. -/
  | mgRotationComplete (t : Nat) (rotation : RotationEnd)
  /-- MG_REBUILD_COMPLETE (R444): A rebuild ends and raises its completion event. -/
  | mgRebuildComplete (t : Nat) (region : Nat)
  /-- MG_SCRUB_COMPLETE (R446): A region scrub pass ends and reports its counts. -/
  | mgScrubComplete (t : Nat) (pass : ScrubPass)
  /-- PATROL_SCRUB (R446): The patrol scrub checks and rewrites lines continuously. -/
  | patrolScrub (t : Nat) (line : Nat) (fault : DramFault)
  /-- CRUST_ALARM (R464): A monitor condition is confirmed and the union of responses is executed. -/
  | crustAlarm (t : Nat) (sights : List CrustSight)
  /-- CRUST_INJECT_TIMEOUT (R472): An injection not confirmed within 40 ms ends with ST_FAULT. -/
  | crustInjectTimeout (t : Nat)
  /-- CRUST_COLD_START (R450): The Crust domain powers up fresh and resets its state. -/
  | crustColdStart (t : Nat)
  /-- TRELLIS_LINK_LOCK (R496): A Trellis port's lane locks to its partner. -/
  | trellisLinkLock (t : Nat) (port : Nat)
  /-- HELLO_RECEIVE (R496): A HELLO frame is taken and the link mode is negotiated. -/
  | helloReceive (t : Nat) (port : Nat) (hello : Hello)
  /-- LINK_MODE_HELD (R496): A Trellis link mode held for 1 ms settles, or a failure falls one mode. -/
  | linkModeHeld (t : Nat) (port : Nat) (held : Bool)
  /-- KEYX_RECEIVE (R498): A key-exchange frame advances the link session set-up. -/
  | keyxReceive (run : PressRun) (port : Nat) (msg : Keyx)
  /-- TRELLIS_STEP_TIMEOUT (R496): A bring-up step not done in 10 ms waits 100 ms and restarts. -/
  | trellisStepTimeout (t : Nat) (port : Nat)
  /-- TRELLIS_FRAME_RECEIVE (R499): A Trellis frame is validated and taken or forwarded. -/
  | trellisFrameReceive (t : Nat) (port : Nat) (frame : Bytes)
  /-- SERVICE_RECEIVE (R501): A service frame delivers a program, a Graft fragment, a result or events. -/
  | serviceReceive (t : Nat)
  /-- GRAFT_FRAGMENT_TIMEOUT (R502): Graft fragments incomplete after 1 ms are discarded. -/
  | graftFragmentTimeout (t : Nat) (src relay : Nat)
  /-- TSYNC_RECEIVE (R503): A TSYNC updates OFFSET and, with FOLLOW, the increment. -/
  | tsyncReceive (t : Nat) (port : Nat) (frame : Bytes)
  /-- TSYNC_SEND (R503): The manager broadcasts TSYNC every SYNCP period. -/
  | tsyncSend (t : Nat)
  /-- DELAY_REQUEST (R503): Every 1 ms a link end sends DREQ and measures the link delay from DRESP. -/
  | delayRequest (t : Nat) (port : Nat) (t1 t2 t3 t4 : Nat)
  /-- TOPO_RECEIVE (R508): TOPO updates the topology, unwraps a restored span and triggers the election. -/
  | topoReceive (t : Nat) (port : Nat) (topo : Topo)
  /-- KEEPALIVE_SEND (R497): A link with nothing else to send sends KEEPALIVE within 2 µs. -/
  | keepaliveSend (t : Nat) (port : Nat)
  /-- TRELLIS_LINK_DOWN (R507): A port goes down and the Wenok wraps the ring. -/
  | trellisLinkDown (t : Nat) (loss : LinkLost)
  /-- NODE_LOST (R507): A node that no frame has reached for 1 ms is lost. -/
  | nodeLost (t : Nat) (node : Nat)
  /-- LINK_REKEY (R499): At LSEQ 2^48 or after 24 h the link repeats its key exchange. -/
  | linkRekey (t : Nat) (port : Nat)
  /-- EVENT_BATCH_SEND (R506): A worker sends a batch of its Cellar Book records within 10 µs. -/
  | eventBatchSend (t : Nat)
  /-- PCIE_FUNCTION_RESET (R512): A function-level or hot reset resets only the host interface. -/
  | pcieFunctionReset (t : Nat)
  /-- PCIE_LINK_CHANGE (R513): The PCIe link goes up or down. -/
  | pcieLinkChange (t : Nat) (up : Bool)
  /-- QDOOR_WRITE (R519): A producer index written to a queue doorbell is accepted or ignored. -/
  | qdoorWrite (t : Nat) (q value : Nat)
  /-- QUEUE_ENABLE (R517): QCTL EN = 1 enables a queue or is refused with CFGERR. -/
  | queueEnable (t : Nat) (q value : Nat)
  /-- QUEUE_DISABLE (R518): QCTL EN = 0 aborts the running program and discards fetched descriptors. -/
  | queueDisable (t : Nat) (q value : Nat)
  /-- RING_ENABLE (R517): RCTL EN = 1 enables a punt or inject ring. -/
  | ringEnable (t : Nat) (r value : Nat)
  /-- RING_DISABLE (R523): RCTL EN = 0 stops a punt or inject ring. -/
  | ringDisable (t : Nat) (r value : Nat)
  /-- RDOOR_WRITE (R519): A producer index written to a ring doorbell is accepted or ignored. -/
  | rdoorWrite (t : Nat) (r value : Nat)
  /-- REC_CTL_GO (R514): GO starts a recovery image read while RWAIT = 1. -/
  | recCtlGo (t : Nat) (value : Nat)
  /-- INT_CAUSE_WRITE (R520): A W1C write clears interrupt causes. -/
  | intCauseWrite (t : Nat) (value : Nat)
  /-- INT_ENABLE_WRITE (R520): Enabling a set cause signals its vector. -/
  | intEnableWrite (t : Nat) (value : Nat)
  /-- TOD_LATCH (R516): A write latches network time at the next TCLK edge. -/
  | todLatch (t : Nat) (value : Nat)
  /-- CB_WINDOW_READ (R482): A read of word 0 latches a record, and word 7 advances the cursor with AUTOINC. -/
  | cbWindowRead (t : Nat) (word : Nat)
  /-- CRUST_WINDOW_READ (R515): A read of CRUST_WIN0 latches a log record, and CRUST_WIN3 advances the cursor. -/
  | crustWindowRead (t : Nat) (word : Nat)
  /-- MGWIN_READ (R521): An aperture read returns verified DRAM octets or 0xFFFF_FFFF. -/
  | mgwinRead (t : Nat) (offset : Nat) (fault : DramFault)
  /-- MGWIN_WRITE (R521): An aperture write makes a partial write to DRAM. -/
  | mgwinWrite (t : Nat) (offset value : Nat) (fault : WindowFault)
  /-- MGWIN_STAT_READ (R521): A read returns and clears the first refused aperture status. -/
  | mgwinStatRead (t : Nat)
  /-- REGISTER_WRITE (R511): A write to a register with no behaviour of its own sets it or is ignored and counted. -/
  | registerWrite (t : Nat) (bar offset octets value : Nat)
  /-- FAULT_SEQUENCE_CHANGE (R54): An UP port begins or ceases to receive local-fault or remote-fault sequences, which stops or resumes its MAC's transmission. -/
  | faultSequenceChange (t : Nat) (port : Nat) (lfault rfault : Bool)
  /-- CHECKER_LOCK (R68): The lane checker declares lock after 256 consecutive error-free bits, and its counters start to advance. -/
  | checkerLock (t : Nat) (rx : LaneBits)
  /-- CHECKER_LOSS_OF_LOCK (R68): The checker sees 128 or more errors in 1 024 checked bits, counts a lock loss and reseeds. -/
  | checkerLossOfLock (t : Nat) (lane : Nat) (before window behind : List Bool)
  /-- RATE_INJECTION (R69): With INJ = 3, the injector inverts one transmitted bit each time 2^EXP bits have passed. -/
  | rateInjection (t : Nat) (lane : Nat)
  /-- WAIT_EV_TIMEOUT (R343): A WAIT.EV whose timeout expires reports ST_TIMEOUT and makes its context ready again. -/
  | waitEvTimeout (t : Nat) (ctx : Nat)
  /-- WAIT_T_EXPIRY (R344): A WAIT.T ends when its QCLK delay has elapsed or network time reaches its absolute value, and it reports ST_OK. -/
  | waitTExpiry (t : Nat) (ctx : Nat)
  /-- HOST_TRANSFER_TIMEOUT (R337): A PCIe DMA transfer of a HOST-flag instruction or an inject descriptor that has not completed in 100 µs ends with ST_TIMEOUT. -/
  | hostTransferTimeout (t : Nat) (ctx : Nat)
  /-- RECOVERY_READ_TIMEOUT (R514): A recovery image read that has not completed in 100 ms ends with ST_TIMEOUT, sets RWAIT and raises cause 23. -/
  | recoveryReadTimeout (t : Nat)
  /-- RESERVOIR_CHARGED (R466): The Crust reservoir finishes recharging, sets RESOK and lets ARM be accepted again. -/
  | reservoirCharged (t : Nat)
  /-- HELLO_SEND (R496): Every 100 µs during bring-up each Trellis port end sends a HELLO frame. -/
  | helloSend (t : Nat) (port : Nat)
  /-- PULL_IN_COMPLETE (R539): At the end of the root pull-in to a re-selected reference, the lane PLLs return from the root to the reference. -/
  | pullInComplete (t : Nat)
  /-- ROLL_STRADDLE_WINDOW (R166): 2 µs before the time of an armed transmit roll, one proofing slot of the channel is refilled for the successor's first packet number. -/
  | rollStraddleWindow (t : Nat) (ch : Nat)
  deriving DecidableEq, Repr

end Sys2Proof
end

