-- ==== Sys2Proof/WellFormed.lean ====
section
/-! DEFINITION. Which commands are well formed: every operand in the range that the spec gives the thing it names. The
fields of an instruction word are bit vectors and always are; what the part thinks of their values is a status, not
a matter of form. -/

namespace Sys2Proof

/-- A host port identifier (R46). -/
def hostPort (p : Nat) : Bool := decide (32 ≤ p) && decide (p < 64)
/-- A line port identifier (R46). -/
def linePort (p : Nat) : Bool := decide (p < 32)

/-- Ports by R46 below 64 (Trellis ports 0 W and 1 E), lanes below 68, classes, channels and so on as numbered by the
spec; register writes of 32 bits. -/
def Instr.wf : Instr → Bool
  | .nop _ => true
  | .halt _ => true
  | .jmp _ => true
  | .brCc _ => true
  | .call _ => true
  | .ret _ => true
  | .waitEv _ => true
  | .waitT _ => true
  | .fence _ => true
  | .yield _ => true
  | .movi _ => true
  | .mov _ => true
  | .add _ => true
  | .sub _ => true
  | .andW _ => true
  | .orW _ => true
  | .xorW _ => true
  | .shl _ => true
  | .shr _ => true
  | .cmp _ => true
  | .ld _ => true
  | .st _ => true
  | .laneCfg _ => true
  | .laneTest _ => true
  | .laneCalAdapt _ => true
  | .laneCalMargin _ => true
  | .laneCalFull _ => true
  | .portCfg _ => true
  | .portState _ => true
  | .clsMap _ => true
  | .clsRule _ => true
  | .peerAdd _ => true
  | .peerDel _ => true
  | .peerSearch _ => true
  | .peerNext _ => true
  | .peerFlush _ => true
  | .chSet _ => true
  | .saLoad _ => true
  | .saArm _ => true
  | .saRoll _ => true
  | .saRetire _ => true
  | .chPin _ => true
  | .chUnpin _ => true
  | .chRead _ => true
  | .cntRead _ => true
  | .cntClear _ => true
  | .classMap _ => true
  | .shapeSet _ => true
  | .policeSet _ => true
  | .gateLoad _ => true
  | .gateSwap _ => true
  | .gateSwapCancel _ => true
  | .preemptSet _ => true
  | .timeSet _ => true
  | .timeSetAtPps _ => true
  | .timeAdj _ => true
  | .timeIncr _ => true
  | .trigArm _ => true
  | .captCfg _ => true
  | .probeSend _ => true
  | .probeResponderWrite _ => true
  | .tsPop _ => true
  | .graft _ => true
  | .slotErase _ => true
  | .slotInfo _ => true
  | .blkKey _ => true
  | .blkOp _ => true
  | .blkCmp _ => true
  | .unwrap _ => true
  | .drbgGet _ => true
  | .pkLoad _ => true
  | .pkOp _ => true
  | .pkShape _ => true
  | .ecPub _ => true
  | .ecdsaSign _ => true
  | .ecdsaVerify _ => true
  | .ecdhMac _ => true
  | .ecMul _ => true
  | .modexp _ => true
  | .rsaPkcs1 _ => true
  | .rsaPss _ => true
  | .kemPub _ => true
  | .kemMac _ => true
  | .dsaPub _ => true
  | .dsaSign _ => true
  | .dsaVerify _ => true
  | .pkRead _ => true
  | .pkAbort _ => true
  | .mgRegionCreate _ => true
  | .mgRegionRemove _ => true
  | .mgRekeyRotate _ => true
  | .mgRekeyRebuild _ => true
  | .mgScrubStart _ => true
  | .mgScrubStop _ => true
  | .mgRights _ => true
  | .logWrite _ => true
  | .logFreeze _ => true
  | .logThaw _ => true
  | .logClear _ => true
  | .trSend _ => true
  | .trRecv _ => true
  | .trRole _ => true
  | .sysCkpt _ => true
  | .sysSwitchGo _ => true
  | .sysSwitchStage _ => true
  | .sysSwitchHoldoff _ => true
  | .sysReconcile _ => true
  | .sysVintage _ => true
  | .evBind _ => true
  | .evUnbind _ => true
  | .crustCfg _ => true
  | .crustArm _ => true
  | .crustDisarm _ => true
  | .crustTest _ => true
  | .crustInject _ => true
  | .crustClear _ => true
  | .crustLogclear _ => true
  | .hostFrameReceive _ port _ _ => hostPort port
  | .lineFrameReceive _ port _ _ => linePort port
  | .spillReadComplete _ _ => true
  | .spillTimeout _ _ => true
  | .pendingAgeExpiry _ set way => decide (set < 4096) && decide (way < 16)
  | .peerFlushComplete _ => true
  | .pauseFrameReceive _ port _ _ => decide (port < 64)
  | .pauseTimeExpiry _ port cls => decide (port < 64) && decide (cls < 8)
  | .pauseLimitRelease _ port cls => decide (port < 64) && decide (cls < 8)
  | .pauseRefresh _ port cls => decide (port < 64) && decide (cls < 8)
  | .egressSelect _ port => decide (port < 64)
  | .calendarSlotReached _ port cls => decide (port < 64) && decide (cls < 8)
  | .frameTransmit _ out => decide (out.port < 64)
  | .icvCheck _ port => linePort port
  | .probeTimeout _ id => decide (id < 65536)
  | .fillComplete _ ch _ => decide (ch < 65536)
  | .fillTimeout _ ch => decide (ch < 65536)
  | .cacheEvict _ => true
  | .writeBackComplete _ ch _ => decide (ch < 65536)
  | .proofRefill _ array group => decide (array < 2) && decide (group < 4)
  | .sliceFault _ array pos _ => decide (array < 2) && decide (pos < 16)
  | .rotationStep _ array => decide (array < 2)
  | .sliceTestComplete _ array _ => decide (array < 2)
  | .retireTimeReached _ ch an => decide (ch < 65536) && decide (an < 4)
  | .caskScrub _ cell cw _ => decide (cell < 524288) && decide (cw < 4)
  | .ageCheck _ => true
  | .puntDeliver _ side _ => decide (side < 2)
  | .puntWaitExpiry _ side => decide (side < 2)
  | .injectTake _ side _ _ => decide (side < 2)
  | .gateEntryChange _ port => decide (port < 64)
  | .gateSwapChange _ port => decide (port < 64)
  | .temporaryIncrementEnd _ => true
  | .secondsWrap _ => true
  | .ppsSetEdge _ _ _ => true
  | .ppsSetTimeout _ => true
  | .captureEdge _ pin _ _ => decide (pin < 9)
  | .triggerPulse _ output => decide (output < 8)
  | .verifyTimeout _ port => decide (port < 64)
  | .verifyRespondReceive _ port => decide (port < 64)
  | .anResolved _ port partner => decide (port < 64) && decide (partner.ability < 512)
  | .trainingComplete _ port => decide (port < 64)
  | .trainingTimeout _ port => decide (port < 64)
  | .alignmentHeld _ port => decide (port < 64)
  | .alignmentTimeout _ port => decide (port < 64)
  | .negotiationRestartWait _ port => decide (port < 64)
  | .linkLoss _ loss => decide (loss.lane < 68)
  | .synceUnsquelch _ lock => decide (lock.output < 2)
  | .eyeMarginCheck _ lane _ _ => decide (lane < 68)
  | .calibrationStart _ group => decide (group < 9)
  | .calibrationComplete _ group _ => decide (group < 9)
  | .referenceLoss _ input => decide (input < 2)
  | .referenceGood _ input => decide (input < 2)
  | .rootPllLockLoss _ => true
  | .rootPllRelock _ _ => true
  | .programStart _ q desc _ _ => decide (q < 16) && decide (desc.length = 64)
  | .programCopyTimeout _ q => decide (q < 16)
  | .programTimeLimit _ q => decide (q < 16)
  | .commandTimeout _ ctx => decide (ctx < 32)
  | .commandCompletion _ cseq => decide (cseq < 18446744073709551616)
  | .instructionWatchdog _ ctx => decide (ctx < 32)
  | .complexFault _ fault => decide (fault.cplx < 2)
  | .standbySelfTest _ _ => true
  | .repairSelfTest _ _ => true
  | .holdoffExpiry _ => true
  | .stageComplete _ _ => true
  | .eventRecord _ => true
  | .handlerStart _ level => decide (level < 16)
  | .graftProcess _ => true
  | .remaskPass _ => true
  | .drbgReseed _ => true
  | .healthTestFailure _ => true
  | .drbgReinstantiate _ _ => true
  | .drbgPostEraseInstantiate _ _ => true
  | .pressOpStart _ => true
  | .pressOpComplete _ => true
  | .vintageComplete _ => true
  | .powerGood _ _ _ _ => true
  | .bootRom _ _ _ _ _ _ => true
  | .recoveryReadComplete _ _ => true
  | .npor _ => true
  | .nreset _ => true
  | .railWarning _ rail => decide (rail < 6)
  | .railWarningClear _ rail => decide (rail < 6)
  | .brownOut _ rail => decide (rail < 6)
  | .mgTrainingComplete _ _ _ => true
  | .mgAccess _ _ _ => true
  | .memoryPortCopy _ _ => true
  | .mgRotationComplete _ rotation => decide (rotation.region < 16)
  | .mgRebuildComplete _ region => decide (region < 16)
  | .mgScrubComplete _ pass => decide (pass.region < 16)
  | .patrolScrub _ line _ => decide (line < 1099511627776)
  | .crustAlarm _ _ => true
  | .crustInjectTimeout _ => true
  | .crustColdStart _ => true
  | .trellisLinkLock _ port => decide (port < 2)
  | .helloReceive _ port _ => decide (port < 2)
  | .linkModeHeld _ port _ => decide (port < 2)
  | .keyxReceive _ port _ => decide (port < 2)
  | .trellisStepTimeout _ port => decide (port < 2)
  | .trellisFrameReceive _ port _ => decide (port < 2)
  | .serviceReceive _ => true
  | .graftFragmentTimeout _ src relay => decide (src < 32) && decide (relay < 65536)
  | .tsyncReceive _ port _ => decide (port < 2)
  | .tsyncSend _ => true
  | .delayRequest _ port _ _ _ _ => decide (port < 2)
  | .topoReceive _ port _ => decide (port < 2)
  | .keepaliveSend _ port => decide (port < 2)
  | .trellisLinkDown _ loss => decide (loss.port < 2)
  | .nodeLost _ node => decide (node < 32)
  | .linkRekey _ port => decide (port < 2)
  | .eventBatchSend _ => true
  | .pcieFunctionReset _ => true
  | .pcieLinkChange _ _ => true
  | .qdoorWrite _ q value => decide (q < 16) && decide (value < 4294967296)
  | .queueEnable _ q value => decide (q < 16) && decide (value < 4294967296)
  | .queueDisable _ q value => decide (q < 16) && decide (value < 4294967296)
  | .ringEnable _ r value => decide (r < 4) && decide (value < 4294967296)
  | .ringDisable _ r value => decide (r < 4) && decide (value < 4294967296)
  | .rdoorWrite _ r value => decide (r < 4) && decide (value < 4294967296)
  | .recCtlGo _ value => decide (value < 4294967296)
  | .intCauseWrite _ value => decide (value < 4294967296)
  | .intEnableWrite _ value => decide (value < 4294967296)
  | .todLatch _ value => decide (value < 4294967296)
  | .cbWindowRead _ word => decide (word < 8)
  | .crustWindowRead _ word => decide (word < 4)
  | .mgwinRead _ offset _ => decide (offset < 65536)
  | .mgwinWrite _ offset value _ => decide (offset < 65536) && decide (value < 4294967296)
  | .mgwinStatRead _ => true
  | .registerWrite _ _ _ _ value => decide (value < 4294967296)
  | .faultSequenceChange _ port _ _ => decide (port < 64)
  | .checkerLock _ rx => decide (rx.lane < 68)
  | .checkerLossOfLock _ lane _ _ _ => decide (lane < 68)
  | .rateInjection _ lane => decide (lane < 68)
  | .waitEvTimeout _ ctx => decide (ctx < 32)
  | .waitTExpiry _ ctx => decide (ctx < 32)
  | .hostTransferTimeout _ ctx => decide (ctx < 32)
  | .recoveryReadTimeout _ => true
  | .reservoirCharged _ => true
  | .helloSend _ port => decide (port < 2)
  | .pullInComplete _ => true
  | .rollStraddleWindow _ ch => decide (ch < 65536)

end Sys2Proof
end

