-- ==== Sys2Proof/Decode.lean ====
section
/-! DEFINITION. Reading a command from table bits: no row of spec/opcode_table.json has any. -/

namespace Sys2Proof

/-- The command that the table's bits spell: the table gives no row any bits, so no word spells a command. -/
def decodeTableWord (_nbits _w : Nat) : Option Instr := none

end Sys2Proof
end

