-- ==== Sys2Proof/Config.lean ====
section
/-! DEFINITION. What one part fixes and the spec does not number (fuses, Boot ROM version, flash size), the free
values the spec leaves open (log entries 7, 8, 42, 58, 63, 64, 69, 77, 79, 106, 107). What is free is opaque: no proof can see a
value of it. -/

namespace Sys2Proof

/-- The `i`-th string of `n` octets that the spec leaves open (R400). -/
opaque Config.openOctets : Nat → Nat → Bytes

/-- What the ring-oscillator source supplies when it is asked for the `i`-th time: 1 024 raw bits and a nonce of 128 (R378). -/
opaque Config.rawBits : Nat → Bytes
opaque Config.entropyNonce : Nat → Bytes

/-- The `i`-th measured or otherwise open value (margins of R78, open values of R395). -/
opaque Config.measured : Nat → Nat

/-- The unique device secret of the fuses (R404). -/
opaque Config.uds : Bytes

/-- The factory anchor of the fuses (R404). -/
opaque Config.factoryAnchor : Bytes

/-- The ordering code of the fuses: true for WNK6400-T (R2, R404). -/
opaque Config.orderT : Bool

/-- Boot ROM version (R412). -/
opaque Config.romVer : Nat

/-- The next bit of SSPRQ (IEEE 802.3) after the bits before it, latest first; the spec names the pattern by its standard. -/
opaque Config.ssprqNext : List Bool → Bool

/-- The bits before the first one of a generator's pattern, by pattern code, latest first: where a pattern begins is not stated
(R66). -/
opaque Config.patternStart : Nat → Nat → Bool

/-- Tap `i` of a lane whose taps come from training or the mode's default (R74). -/
opaque Config.autoTap : Nat → Nat → Int

/-- SHA-384 of the Boot ROM (R411). -/
opaque Config.romDigest : Bytes

/-- How far the boot flash goes beyond 4 MiB (R558). -/
opaque Config.flashBeyond : Nat
/-- Size of the boot flash in octets, 4 to 256 MiB (R558). -/
def Config.flashSize : Nat := 2 ^ 22 + Config.flashBeyond % (2 ^ 28 - 2 ^ 22 + 1)

/-- The page at which the association table begins. -/
opaque Config.assocPage : Nat
/-- Base of the association table, on a 4 KiB boundary (R118). -/
def Config.assocBase : Nat := 4096 * Config.assocPage

/-- The page at which the statistics table begins. -/
opaque Config.statsPage : Nat
/-- Base of the statistics table, on a 4 KiB boundary (R118). -/
def Config.statsBase : Nat := 4096 * Config.statsPage

/-- Which place in the division of R224 a physical cell of the Cask has: the spec gives the partitions' sizes and not which
cells they are. -/
opaque Config.cellPlace : Nat → Nat

/-- The page at which the spill area of the Peer Table begins (R114). -/
opaque Config.spillPage : Nat

/-- What the rootstock gives its region `i` (0 the tables', 1 the spill area's): number, KEYID, RIGHTS and bits RETAIN and
PATROL; the spec names none of them (R114). -/
opaque Config.rootNumber : Nat → Nat
opaque Config.rootKeyId : Nat → Nat
opaque Config.rootRights : Nat → Nat
opaque Config.rootFlags : Nat → Nat

/-- OBJ of an access that lies in no region (R425). -/
opaque Config.noRegion : Nat

/-- DATA of event 0xA005, lanes and rate, by link mode (R489). -/
opaque Config.linkModeData : Nat → Nat

/-- One round of the permutation of rows, by scramble key and round, and the `i`-th choice that makes the permutation of the bit
lines of a row (R358). -/
opaque Config.scrambleRound : Nat → Nat → BitVec 4 → BitVec 4
opaque Config.bitChoice : Nat → Nat → Nat
/-- The ECC bits of a row of the Key Vault over its 576 bits (R32, R357): the spec gives what it corrects and not its code. -/
opaque Config.rowEcc : List Bool → Nat
/-- The block that a mask is made of, by row and block index, and the check of a row, by mask key, payload and attribute word
(R357): the spec says what they are taken over and not how. -/
opaque Config.maskBlock : Nat → Nat → Nat
opaque Config.rowCheck : Nat → Bytes → Nat → BitVec 31

/-- How the period of the Crust oscillator departs from its shortest (R451), in root cycles for each Crust clock count. -/
opaque Config.coscPeriod : Nat

end Sys2Proof
end

