-- ==== Sys2Proof/Machine/State.lean ====
section
/-! DEFINITION. The state of the WNK6400 as plain data: everything the spec gives the part, block by block, the
queue of the commands that are waiting, and what the model adds of its own (marked). Every reset value the spec
states is a field's default; a value the spec does not state is named in the assumption log. -/

namespace Sys2Proof.Machine

/-! ### Clocks and network time (R19, R273 to R277, R516) -/

/-- A pending TIME.SET with ATPPS (R277): the time, the 2 s expiry in root cycles, its CSEQ. -/
structure PpsSet where
  time : Nat
  expiry : Nat
  cseq : Nat
  deriving DecidableEq, Repr

/-- The root count and the time base. `tod` is SEC, NS and the 32-bit internal fraction as one number in units of
2^-32 ns, so that the carries of R273 are plain addition. -/
structure Clk where
  /-- Root cycles of 0.1 ns since the alignment edge at the start (R19). -/
  root : Nat := 0
  /-- Network time (R272, R273). -/
  tod : Nat := 0
  /-- Permanent increment (R274). -/
  incr : Nat := 0x100000000
  /-- Temporary increment and the TCLK edges it has left (R274, R275). -/
  temp : Option (Nat × Nat) := none
  /-- SEC has carried out and its event is not yet raised (R273). -/
  wrapped : Bool := false
  /-- Pending TIME.SET at PPS (R277). -/
  ppsSet : Option PpsSet := none
  /-- Steps of the last 20 000 root cycles: root cycle, and how far network time moved (R293). -/
  jumps : List (Nat × Int) := []
  deriving DecidableEq, Repr

/-! ### Lanes (02_lanes_and_ports.md); lane identifier SIDE * 32 + LANE, side 2 the Trellis (R46) -/

/-- The checker of a lane (R68): the bits its sequence goes on from, latest first, how many bits in a row were right before
its lock, whether it is locked, and which of the last bits checked under lock were wrong, latest first. -/
structure Checker where
  hist : List Bool := []
  run : Nat := 0
  lock : Bool := false
  window : List Bool := []
  /-- Whether an odd number of bits has come since the test began: on a PAM4 lane the next bit is the second of its symbol. -/
  odd : Bool := false
  /-- The first bit of a PAM4 symbol was checked and was wrong. -/
  half : Bool := false
  deriving DecidableEq, Repr

/-- One SerDes lane. -/
structure Lane where
  /-- Lane setting of R74. -/
  setting : Nat := 0
  /-- Lane test setting of R66. -/
  test : Nat := 0
  /-- The lane is under a test (R67). -/
  testing : Bool := false
  /-- The lane is under a FULL calibration (R78). -/
  calibrating : Bool := false
  check : Checker := {}
  /-- The last bits of the generator's pattern, latest first, and how many of the next bits the injector inverts in a near-end
  loop (R66, R69). -/
  gen : List Bool := []
  inject : Nat := 0
  /-- Root cycle at which rate injection began, and the errors it has made since (R69). -/
  injFrom : Nat := 0
  injDone : Nat := 0
  /-- Signal and CDR lock, and the root cycle since which it is held or lost (R72). -/
  cdrLock : Bool := false
  lockSince : Nat := 0
  /-- The taps in force at the last change of the setting, PRE2, PRE1, MAIN, POST1, and its root cycle (R76); empty while
  the taps are those of the setting. -/
  tapsFrom : List Int := []
  tapsAt : Nat := 0
  /-- Vertical margin at the last training or FULL calibration, mV (R77). -/
  recorded : Nat := 0
  deriving DecidableEq, Repr

/-- The calibration engine of a group (R79): lanes waiting with their CSEQ, and the lane running. -/
structure CalEngine where
  waiting : List (Nat × Nat) := []
  running : Option (Nat × Nat) := none
  since : Nat := 0
  deriving DecidableEq, Repr

/-- A recovered clock output (R71, R72). -/
structure SyncE where
  source : Option Nat := none
  squelched : Bool := false
  deriving DecidableEq, Repr

/-! ### Ports (02); port identifier SIDE * 32 + PORT, 0 to 63 (R46) -/

/-- Port states, in the encoding of the port state word. -/
inductive PortState where
  | disabled
  | negotiating
  | training
  | aligning
  | up
  | test
  deriving DecidableEq, Repr

/-- Preemption states of R62. -/
inductive Preempt where
  | off
  | verifying
  | verified
  | failed
  | activeUnverified
  deriving DecidableEq, Repr

/-- The pause of one class (R58 to R60). -/
structure Pause where
  until_ : Option Nat := none
  since : Nat := 0
  ignoring : Bool := false
  deriving DecidableEq, Repr

/-- A pause frame of the port's own that waits for the next frame boundary on the wire (R232): class vector, quanta, root cycle
of the request, and, once it is on the wire, the one at which its last octet leaves. -/
structure PauseTx where
  vector : Nat
  quanta : Nat
  at_ : Nat
  ends : Option Nat := none
  deriving DecidableEq, Repr

/-- One port. -/
structure Port where
  /-- Port setting of R48. -/
  setting : Nat := 0
  state : PortState := .disabled
  /-- Abilities still advertised (R53). -/
  advert : Nat := 0
  /-- Speed code in use, 0 while unresolved (R339 table, port state word). -/
  speedNow : Nat := 0
  /-- Root cycle at which the present state's timer started (R51). -/
  since : Nat := 0
  /-- End of the 1 s wait of R53. -/
  waitUntil : Option Nat := none
  /-- The partner requested RS-FEC in the negotiation (R52). -/
  partnerFec : Bool := false
  /-- Local-fault and remote-fault sequences received (R54). -/
  lfault : Bool := false
  rfault : Bool := false
  preempt : Preempt := .off
  /-- Verify attempts made and the root cycle of the last one (R62). -/
  attempts : Nat := 0
  verifyAt : Nat := 0
  pause : Tab Pause := []
  /-- MAC control frames whose last octet has not come: its root cycle, and the frame (R58). -/
  ctl : List (Nat × Bytes) := []
  /-- Pause frames that wait for the wire or are on it, oldest first (R232). -/
  pauses : List PauseTx := []
  /-- Classes 0 to 5 whose XOFF is requested, by bit (R232). -/
  xoff : Nat := 0
  /-- Root cycle of the last pause request, per class, and 6 for the port's PAUSE timer (R232). -/
  xoffAt : Tab Nat := []
  /-- PCP map and scheduling setting of R244. -/
  pcpMap : Nat := 0
  sched : Nat := 0
  /-- Deficits of classes 0 to 5, in octets (R242). -/
  deficit : Tab Nat := []
  /-- Class the round robin visits (5 down to 0), and whether its visit has begun (R242). -/
  rrClass : Nat := 5
  rrOpen : Bool := false
  /-- Root cycle at which the last scheduling decision started (R243). -/
  decisionAt : Option Nat := none
  /-- PREEMPT.SET hold (R269). -/
  hold : Bool := false
  /-- Port stamp setting of R283. -/
  stamp : Nat := 0
  deriving DecidableEq, Repr

/-! ### Shapers and gates (08) -/

/-- A class shaper (R253 to R258). Tokens in units of 1/80 000 000 octet, so that a rate in kb/s adds itself every root
cycle; `wheel` is the calendar slot's root cycle. -/
structure Shaper where
  rate : Nat := 0
  burst : Nat := 0
  tokens : Int := 0
  last : Nat := 0
  wheel : Option Nat := none
  /-- Debits of frames granted before their length was known: root cycle of the last octet, shaped length (R256, R258). -/
  owed : List (Nat × Nat) := []
  deriving DecidableEq, Repr

/-- A gate list entry (R259). -/
structure GateEntry where
  op : Nat
  gates : Nat
  duration : Nat
  deriving DecidableEq, Repr

/-- A gate list (R259); the base time in units of 2^-32 ns. -/
structure GateList where
  enable : Bool := false
  lock7 : Bool := true
  base : Nat := 0
  cycle : Nat := 0
  ext : Nat := 0
  entries : List GateEntry := []
  deriving DecidableEq, Repr

/-- The gates of one port: lists, pending change time (R263), whether the cycle before it is suppressed (R262),
the entry state the scheduler sees, and the hold the list sets (R268). -/
structure Gates where
  oper : GateList := {}
  admin : GateList := {}
  change : Option Nat := none
  suppress : Option Nat := none
  open_ : Nat := 0xFF
  hold : Bool := false
  /-- Start of the oper cycle last counted as begun (R271). -/
  cycleSeen : Int := 0
  deriving DecidableEq, Repr

/-- An ingress meter (R246 to R252). Tokens in units of 2^-16 octet. -/
structure Meter where
  desc : Nat := 0
  tc : Int := 0
  tp : Int := 0
  last : Nat := 0
  lastGreen : Option Nat := none
  /-- Debits of frames coloured and not yet at their last octet: its root cycle, whether green, length (R248, R252). -/
  owed : List (Nat × Bool × Nat) := []
  deriving DecidableEq, Repr

/-! ### Frames -/

/-- The account that a frame's cells are charged to (R225, R233 to R235). -/
inductive Account where
  | portClass (port cls : Nat)
  | reserve (port cls : Nat)
  | punt (side : Nat)
  | inject (side : Nat)
  | management
  deriving DecidableEq, Repr

/-- Where a queued frame came from, beside its port. -/
inductive Origin where
  | port
  | inject (tsreq : Bool) (id : Nat)
  | probe (id : Nat)
  | response
  deriving DecidableEq, Repr

/-- A frame in the Cask. `octets` run from DA to FCS in clear. -/
structure QFrame where
  octets : Bytes
  cls : Nat
  inPort : Nat
  outPort : Nat
  /-- Transmit channel of a PROTECT decision. -/
  channel : Option Nat
  account : Account
  cells : Nat
  /-- The cells of the frame, in order, by place in the division of R224 (R219). -/
  chain : List Nat := []
  admitted : Nat
  /-- Root cycle of its ingress reference point (R26). -/
  ref : Nat := 0
  /-- Root cycle of its last octet; its length is known from then on. -/
  ends : Nat := 0
  /-- The frame flows through (R227, R228): it is eligible before its last octet. -/
  flow : Bool := false
  /-- Its tail is withheld until the check of the received frame with this number (R175). -/
  tail : Option Nat := none
  /-- SecTAG octets of a decrypted frame that flows through, from which W and w follow (R177, R229); 0 for any other frame. -/
  tag : Nat := 0
  /-- Header of its transmit channel when the frame was classified (R123). -/
  header : Nat := 0
  /-- Ingress stamp, network time (R282). -/
  stamp : Nat
  origin : Origin
  /-- The frame leaves with a stomped FCS (R56, R176). -/
  stomp : Bool
  /-- PTP event frame (R282). -/
  ptp : Bool
  /-- Its ingress stamp is to be pushed (RXQ when it was recognised, R283, R289). -/
  rxq : Bool := false
  /-- Deferral causes already counted for it at the head of its queue (R271): bits shaper, gate, fit. -/
  deferred : Nat := 0
  deriving DecidableEq, Repr

/-- What a suspended context holds (R180, R183): the counter of the next keystream block, the GHASH sums of the k stripes,
the octets of A and C so far, a partial block. The slot handle, the association and the packet number are the frame's. -/
structure LaneCtx where
  counter : Nat
  sums : List Nat
  lenA : Nat
  lenC : Nat
  part : Bytes
  deriving DecidableEq, Repr

/-- What the insertion of time fields did (R288, R304). -/
inductive Inserted where
  | nothing
  | written
  | short
  | unchanged
  deriving DecidableEq, Repr

/-- A frame past the commit point (R281, R286): its egress stamp, its octets without the FCS, what was inserted, and
whether its stamp is to be pushed. -/
structure Commit where
  stamp : Nat
  body : Bytes
  ins : List Inserted
  txq : Bool
  deriving DecidableEq, Repr

/-- A frame in an encrypt lane or at a host egress MAC (R152, R180): the frame, and for a protected frame its
association, packet number and what forms its nonce. -/
structure TxFrame where
  frame : QFrame
  an : Nat := 0
  pn : Nat := 0
  key : Nat := 0
  header : Nat := 0
  salt : Nat := 0
  ssci : Nat := 0
  /-- Keystream taken from a proofing slot (R160); empty when computed in flight. -/
  proofed : List Nat := []
  /-- The proofing slot that the frame keeps in use (R164). -/
  slot : Option Nat := none
  /-- Root cycle of the selection, which tells the frames of a port apart: a port starts at most one decision a CCLK (R243). -/
  granted : Nat := 0
  /-- Its assignment edge (cycle 7 of R171) and the network time of that edge, while the assignment is still to come. -/
  due : Option (Nat × Nat) := none
  /-- Root cycle of its egress reference point (R26), and the one at which the lane has handed off its last octet. -/
  egress : Nat := 0
  laneEnds : Nat := 0
  /-- Root cycle from which the lane works on it, and the octets it had done by then (R152, R180, R181). -/
  laneFrom : Nat := 0
  laneDone : Nat := 0
  /-- Cells of its chain that have been read and freed (R225). -/
  read : Nat := 0
  ctx : Option LaneCtx := none
  commit : Option Commit := none
  /-- The frame is on the wire: root cycles at which its present fragment began and at which it ends. -/
  wire : Option (Nat × Nat) := none
  /-- Octets that earlier fragments took (R64, R268). -/
  sent : Nat := 0
  /-- How often its fragments have been cut on the wire (R268). -/
  cuts : Nat := 0
  /-- Octets of the fragment on the wire after which it is cut: the first permitted point has not come yet (R64, R268). -/
  cutAt : Option Nat := none
  deriving DecidableEq, Repr

/-- One egress lane: the active frame and the held ones (R152), and the frames that the lane has handed off to the MAC and
whose last octet has not left, oldest first. -/
structure TxLane where
  mac : List TxFrame := []
  active : Option TxFrame := none
  held6 : Option TxFrame := none
  held05 : Option TxFrame := none
  deriving DecidableEq, Repr

/-- A received MACsec frame accepted in cycle 4, waiting for its ICV check (R172, R175). -/
structure RxFrame where
  octets : Bytes
  port : Nat
  channel : Nat
  an : Nat
  pn : Nat
  key : Nat
  header : Nat
  salt : Nat
  ssci : Nat
  cls : Nat
  stamp : Nat
  /-- The model's own number of the frame, by which the part of it in the Cask is known. -/
  num : Nat
  /-- Root cycles of its ingress reference point, of its acceptance, and of its last octet. -/
  ref : Nat
  arrived : Nat
  ends : Nat
  account : Account
  cells : Nat
  chain : List Nat := []
  loadGen : Nat
  mark : RxMark
  proofed : List Nat := []
  /-- The proofing slot that the frame keeps in use (R164). -/
  slot : Option Nat := none
  /-- The frame flows through (R228). -/
  flow : Bool
  /-- Its meter, its host port or the Cask has dropped it; its check still runs. -/
  lost : Bool := false
  /-- Octets that had come before its present fragment, and the root cycle at which that one began (R183). -/
  came : Nat := 0
  cameFrom : Nat := 0
  /-- Its context has been saved for an express frame: the context, and the root cycle of that frame's ingress reference point
  (R183). -/
  saved : Option LaneCtx := none
  cutBy : Nat := 0
  /-- Root cycle at which its next fragment has come (R183). -/
  resumes : Nat := 0
  /-- Its ingress stamp is to be pushed, and it is a PTP event frame (R282, R283). -/
  ptp : Bool := false
  rxq : Bool := false
  deriving DecidableEq, Repr

/-- A decrypt lane (R152): the frames whose octets are all past it and whose check is due, oldest first, the active
context and the held one. -/
structure RxLane where
  checks : List RxFrame := []
  active : Option RxFrame := none
  held : Option RxFrame := none
  deriving DecidableEq, Repr

/-- A frame in the spill path or in the decrypt miss buffer (R103, R135). -/
structure Parked where
  octets : Bytes
  port : Nat
  channel : Nat
  sci : Nat
  since : Nat
  /-- Root cycle of its ingress reference point. -/
  ref : Nat
  /-- Header of its channel when it was classified (R123); set in the miss buffer. -/
  header : Option Nat := none
  stamp : Nat
  mark : RxMark
  deriving DecidableEq, Repr

/-- A punted frame waiting for a host buffer (R522). -/
structure PuntFrame where
  octets : Bytes
  inPort : Nat
  reason : Nat
  rule : Nat
  cls : Nat
  stamp : Nat
  since : Nat
  cells : Nat
  chain : List Nat := []
  ptp : Bool := false
  rxq : Bool := false
  deriving DecidableEq, Repr

/-! ### Classification and peers (03) -/

/-- A Peer Table entry (R102). `expires` is the root cycle at which a PENDING entry's AGE reaches zero. -/
structure Peer where
  sci : Nat
  port : Nat
  bound : Bool
  channel : Nat
  expires : Nat
  deriving DecidableEq, Repr

/-- A flush in progress (R113): mode, filter, CSEQ, start, and how many sets have been swept. -/
structure Flush where
  mode : Nat
  filter : Nat
  cseq : Nat
  since : Nat
  done : Nat := 0
  deriving DecidableEq, Repr

/-- What the tables held before the writes of a CCLK edge; a lookup at that edge sees it (R110). -/
structure OldTables where
  edge : Nat
  map : Tab Nat
  rules : Tab Nat
  peers : Tab Peer
  deriving DecidableEq, Repr

/-- Classification state. -/
structure Cls where
  /-- VLAN Channel Map and port records, key port * 4096 + index (R86 to R89). -/
  map : Tab Nat := []
  /-- Exception Rules, 256 bits each (R91). -/
  rules : Tab Nat := []
  /-- Peer Table, key set * 16 + way (R100). A free way has no entry. -/
  peers : Tab Peer := []
  /-- The seed of R101. -/
  seed : Nat := 0
  /-- A spill area is assigned (R114). -/
  spillArea : Bool := false
  /-- The tables before the last writes (R110). -/
  before : Option OldTables := none
  /-- Peer Table instructions carried out, by opcode (R111). -/
  ops : Tab Nat := []
  /-- The spill path of line frames (R103). -/
  spillPath : List Parked := []
  flush : Option Flush := none
  deriving DecidableEq, Repr

/-! ### The Association Table (04, 06) -/

/-- Association states, in the encoding of R125. -/
inductive AState where
  | empty
  | loaded
  | active
  | draining
  | retired
  | exhausted
  deriving DecidableEq, Repr

/-- A sub-entry (R127), with what the Wenok holds beside it on die: INITPN and the admission mark M (R212), the load
count (R160), the WIPE that waits (R207), whether the threshold event was raised (R211), and the packet numbers
accepted and not yet validated (R213). -/
structure Sub where
  state : AState := .empty
  key : Nat := 0
  hkey : Nat := 0
  salt : Nat := 0
  ssci : Nat := 0
  nextPn : Nat := 0
  rollPn : Nat := 0
  rollSec : Nat := 0
  rollNs : Nat := 0
  rollMode : Nat := 0
  slot : Nat := 0
  kgen : Nat := 0
  kcv : Nat := 0
  loadSec : Nat := 0
  initPn : Nat := 0
  mark : Nat := 0
  loadGen : Nat := 0
  wipe : Bool := false
  exhRaised : Bool := false
  inFlight : List Nat := []
  /-- The last packet number of the suite has been validated (R215). -/
  lastSeen : Bool := false
  deriving DecidableEq, Repr

/-- One channel: the state word's own fields (R125), header (R121), sub-entries, and pinning in progress (R141). -/
structure Chan where
  seq : Nat := 0
  cold : Bool := false
  pinned : Bool := false
  resident : Bool := false
  txan : Nat := 0
  /-- An association of the channel has been ACTIVE since it was made present (R191). -/
  ever : Bool := false
  /-- Header of R121, 512 bits, STATE field zero. -/
  header : Nat := 0
  subs : Tab Sub := []
  /-- CSEQ of the CH.PIN in progress (R141). -/
  pinning : Option Nat := none
  /-- DRAM lines of the entry changed since the fill, by bit (R139). -/
  dirty : Nat := 0
  deriving DecidableEq, Repr

/-- What a cache line is doing (R131, R132, R139). -/
inductive LineUse where
  | valid
  | filling
  | writeBack
  deriving DecidableEq, Repr

/-- A line of the association cache (R131, R132). -/
structure CacheLine where
  channel : Nat
  use : LineUse
  ref : Bool
  used : Bool
  since : Nat
  /-- CCLK edge at which a frame last looked its channel up (R133). -/
  looked : Option Nat := none
  /-- The lines of the entry that a write-back under way writes, bit `k` for line `k` (R139). -/
  back : Nat := 0
  /-- Side array of the line: the second to fourth power of each association's GHASH subkey (R158). -/
  side : Tab (List Nat) := []
  deriving DecidableEq, Repr

/-- Association cache and cache engine. -/
structure Assoc where
  chans : Tab Chan := []
  lines : Tab CacheLine := []
  /-- Hand of the clock (R132). -/
  hand : Nat := 0
  /-- Channels waiting in the fill request queue (R136). -/
  fillQueue : List Nat := []
  /-- Decrypt miss buffer, in arrival order (R135). -/
  missBuf : List Parked := []
  /-- On-die deltas of the statistics of resident entries, key channel * 16 + counter (R130). -/
  deltas : Tab Nat := []
  /-- Increments posted for channels that are not resident and perhaps not yet taken by the cache engine, per side
  (R130). -/
  posts : Tab Nat := []
  deriving DecidableEq, Repr

/-! ### The line cipher (05) -/

/-- Role of a slice (R150). -/
inductive Role where
  | position (n : Nat)
  | readySpare
  | testSeat
  | failed
  deriving DecidableEq, Repr

/-- A proofing slot (05, contents of a proofing slot). -/
structure PSlot where
  an : Nat
  loadGen : Nat
  pn : Nat
  valid : Bool
  keystream : List Nat
  /-- A frame has matched it and still reads it (R164). -/
  inUse : Bool := false
  deriving DecidableEq, Repr

/-- A queued refill (R163): channel and slot index. -/
structure Refill where
  channel : Nat
  idx : Nat
  cls7 : Bool
  deriving DecidableEq, Repr

/-- One slice array (R149, R150, R163, R187). -/
structure Array where
  roles : Tab Role := []
  /-- Position that rotation visits next (R187). -/
  rotPos : Nat := 0
  /-- The slice in the test seat has passed its test (R187). -/
  seatPassed : Bool := false
  testSince : Nat := 0
  refills : Tab (List Refill) := []
  deriving DecidableEq, Repr

/-- The line cipher. -/
structure Cipher where
  arrays : Tab Array := []
  /-- Proofing slots, key channel * 4 + index (R141, R161, R162). -/
  slots : Tab PSlot := []
  /-- Egress lanes by port identifier (R152). -/
  tx : Tab TxLane := []
  /-- Decrypt lanes by line port (R152). -/
  rx : Tab RxLane := []
  /-- Received frames between their lookup and cycle 4 of R172, in order; `since` is the edge of their cycle 4. -/
  waiting : List Parked := []
  /-- The model's own: frames accepted so far, which numbers them. -/
  accepted : Nat := 0
  deriving DecidableEq, Repr

/-! ### The Cask (07) -/

/-- The Cask. Charges in cells; keys: port-class port * 8 + class, egress reserve the same, queue the same. -/
structure Cask where
  queues : Tab (List QFrame) := []
  /-- Frames that are stored whole and whose last octet has not come (R228). -/
  arriving : List QFrame := []
  /-- Frames that will be found bad at their last octet, which drops them: its root cycle, account, cells and chain (R225,
  R228). -/
  doomed : List (Nat × Account × Nat × List Nat) := []
  charge : Tab Nat := []
  puntCharge : Tab Nat := []
  injectCharge : Tab Nat := []
  /-- Cells of the management partition in use (R224, R235). -/
  mgmt : Nat := 0
  /-- Free cells of the shared pool (R224). -/
  free : Nat := 482304
  /-- Cells that hold something or are out of the free lists, by place in the division of R224, rising (R219, R221). -/
  held : List Nat := []
  /-- Cells retired, and cells out of the free list for their retest with the times they passed (R221). -/
  retired : List Nat := []
  retest : Tab Nat := []
  /-- Frames that an uncorrectable codeword dropped (R220). -/
  hurt : Nat := 0
  /-- Charges that are still provisional: root cycle of the frame's last octet, account, cells given back then (R225). -/
  provs : List (Nat × Account × Nat) := []
  /-- Next cell and codeword of the scrub pass (R222). -/
  scrubNext : Nat := 0
  /-- Punted frames waiting, per side, oldest first (R522). -/
  punts : Tab (List PuntFrame) := []
  /-- The head descriptor of the side's inject ring has been refused once (R235). -/
  injectRefused : Tab Nat := []
  /-- Root cycle of the last age scan (R236). -/
  ageAt : Nat := 0
  deriving DecidableEq, Repr

/-! ### Stamps, captures, triggers, probes (09) -/

/-- A stamp queue (R289, R291): entries oldest first, as numbers of 128 or 512 bits; a loss waits to be marked. -/
structure StampQ where
  entries : List Nat := []
  lost : Bool := false
  deriving DecidableEq, Repr

/-- A capture pin (R292, R293): setting (FILT resets to 3) and capture count. -/
structure Pin where
  setting : Nat := 3 * 2 ^ 52
  count : Nat := 0
  deriving DecidableEq, Repr

/-- A trigger output (R294 to R298). `start` and `period` are in units of 2^-32 ns; `k` counts the pulses of the
descriptor that are past, produced or not; `endAt` is the root cycle at which the pulse in progress ends, `last` that it is
the last one of the descriptor in force. -/
structure Trigger where
  mode : Nat := 0
  idle : Bool := false
  align : Bool := false
  level : Bool := false
  start : Nat := 0
  width : Nat := 0
  period : Nat := 0
  count : Nat := 0
  k : Nat := 0
  out : Bool := false
  endAt : Option Nat := none
  last : Bool := false
  /-- Network time of the pulse's first edge less that of the row that drove it, in units of `tod`. -/
  skew : Int := 0
  deriving DecidableEq, Repr

/-- An outstanding probe (R300, R302). -/
structure Probe where
  txch : Nat
  rxch : Nat
  expiry : Nat
  t1 : Nat
  deriving DecidableEq, Repr

/-- A responder entry (R301). -/
structure Responder where
  rxch : Nat
  txch : Nat
  cls : Nat
  meten : Bool
  meter : Nat
  deriving DecidableEq, Repr

/-- Time functions other than the time base. -/
structure TimeFn where
  stamps : Tab StampQ := []
  pins : Tab Pin := []
  outputs : Tab Trigger := []
  probes : Tab Probe := []
  responders : Tab Responder := []
  deriving DecidableEq, Repr

/-! ### Events (17) -/

/-- A raised event (R478) on its way through staging. -/
structure Ev where
  code : Nat
  obj : Nat := 0
  status : Nat := 0
  aux : Nat := 0
  data : Nat := 0
  flags : Nat := 0
  at_ : Nat := 0
  time : Nat := 0
  lost : Nat := 0
  /-- Further occurrences at the same edge, of a (repeat) event. -/
  more : Nat := 0
  /-- The raising rule ended the condition before the event was recorded (R480). -/
  shut : Bool := false
  deriving DecidableEq, Repr

/-! ### Control complexes and programs (10, 11) -/

/-- What a context is doing (R310, R343, R344). -/
inductive Run where
  | idle
  | copying (since : Nat)
  | ready
  | waitEv (code mask : Nat) (expiry : Option Nat)
  | waitSeq (cseq : Nat) (expiry : Option Nat)
  | waitQ (expiry : Nat)
  | waitAbs (time : Nat)
  | fence
  | waitStatus (cseq since : Nat)
  | waitHost (since : Nat)
  | waitSlot
  deriving DecidableEq, Repr

/-- What a context owes its next instruction boundary: the status of an instruction whose wait has ended, the record that
ends its wait, the end of its program after the status of a command or of GO, or the end of a program whose copy has failed.
Nothing of it happens while no program runs (R326), nor at the edge at which a status returns (R327). -/
inductive Due where
  | status (st : Nat)
  | record (r : Nat)
  | ends (st : Nat)
  | unstarted (st : Nat)
  deriving DecidableEq, Repr

/-- One context (10, contexts, registers and flags). Registers w1 to w15 by number; w0 is no entry. -/
structure Ctx where
  pc : Nat := 0
  regs : Tab Word64 := []
  z : Bool := false
  c : Bool := false
  e : Bool := false
  sr : Nat := 0
  run : Run := .idle
  /-- Index of the last instruction executed (R317). -/
  last : Nat := 0
  /-- Resumed across a switch-over (R317). -/
  switched : Bool := false
  /-- CSEQ of the latest instruction that returned ST_PENDING (R343). -/
  lastPending : Option Nat := none
  /-- Its completion event, once raised (R343). -/
  doneEv : Option Ev := none
  /-- CSEQ under which the context re-sends its command after a takeover (R327). -/
  resend : Option Nat := none
  /-- Group mask of the handler's binding (R318); queues have their own. -/
  mask : Nat := 0x1FFF
  due : Option Due := none
  deriving DecidableEq, Repr

/-- A queue's program (R314, R316): the descriptor's fields and the time limit's expiry. -/
structure Prog where
  len : Nat
  dlen : Nat
  stoperr : Bool
  rdata : Bool
  irq : Bool
  tag : Nat
  data : Nat
  expiry : Nat
  /-- A descriptor that came in a Trellis program frame: source node and RELAYID (R501). -/
  relay : Option (Nat × Nat) := none
  /-- Its queue is being disabled: it ends at its next instruction boundary, with its record (R316, R518) or, after a
  reset of the host interface, without one (R512). -/
  cut : Option Bool := none
  deriving DecidableEq, Repr

/-- A program queue (R314 to R319, R517). -/
structure Queue where
  qd : Nat := 0
  qc : Nat := 0
  size : Nat := 0
  enabled : Bool := false
  cfgErr : Bool := false
  producer : Nat := 0
  consumer : Nat := 0
  /-- Group mask of R313, every group permitted by the B0 rootstock. -/
  mask : Nat := 0x1FFF
  prog : Option Prog := none
  /-- The next descriptor, fetched while a program runs (R316). -/
  fetched : Option Bytes := none
  deriving DecidableEq, Repr

/-- An event binding (R318); `groups` is the group mask index. -/
structure Binding where
  code : Nat
  mask : Nat
  level : Nat
  groups : Nat
  entry : Nat
  deriving DecidableEq, Repr

/-- An operation that returned ST_PENDING and has not raised its completion event (R309). `ended` is the result of
an operation that a side effect has ended and whose event is still to be raised. -/
structure PendOp where
  cseq : Nat
  ctx : Nat
  event : Nat
  ended : Option (Nat × Nat × Nat) := none
  deriving DecidableEq, Repr

/-- A command a block keeps (R320, R321): CSEQ, content (its digest) and status. -/
structure Kept where
  cseq : Nat
  digest : List Nat
  status : Nat
  deriving DecidableEq, Repr

/-- What the checkpoint holds of the active complex as of the last commit (R322, R323). -/
structure Image where
  ctxs : Tab Ctx := []
  bindings : Tab Binding := []
  mem : Tab Byte := []
  cseq : Nat := 1
  holdoff : Nat := 5
  consumers : Tab Nat := []
  enables : Tab Bool := []
  masks : Tab Nat := []
  /-- Root cycles left of the time limit of each queue's program. -/
  limits : Tab Nat := []
  /-- The flash offset of the image staged. -/
  stagedId : Option Nat := none
  /-- Journal entries up to the commit. -/
  entries : Nat := 0
  deriving DecidableEq, Repr

/-- Commands whose statuses have returned at one QCLK edge, by context and CSEQ, and the image before their commits: a
takeover at that edge finds them not committed (R327). -/
structure Returned where
  edge : Nat
  sent : List (Nat × Nat)
  image : Image
  deriving DecidableEq, Repr

/-- A block-engine register (R375): key, length in bits, source slot and generation, ENC and DEC. -/
structure BKey where
  key : Nat
  bits : Nat
  slot : Nat
  gen : Nat
  enc : Bool
  dec : Bool
  deriving DecidableEq, Repr

/-- Health of a complex (R305, R330). -/
inductive Health where
  | active
  | standby
  | untested
  | repairing
  | failed
  deriving DecidableEq, Repr

/-- Control complexes, programs, handlers, checkpoint. -/
structure Seq where
  healthA : Health := .untested
  healthB : Health := .untested
  /-- Complex faults, which R32 counts and no counter block holds. -/
  faults : Nat := 0
  /-- The active complex: 0 A, 1 B, none when no complex is active (R331). -/
  active : Option Nat := none
  /-- Contexts in the order of R310: handler level l at 2l, queue q at 2q + 1. -/
  ctxs : Tab Ctx := []
  queues : Tab Queue := []
  /-- Local memory of the active complex (R312). -/
  mem : Tab Byte := []
  bindings : Tab Binding := []
  /-- The QCLK edge at which a binding last changed, and the bindings before that edge (R319). -/
  boundBefore : Nat × Tab Binding := (0, [])
  /-- Activations waiting per level: handler entry, group mask index, record (R319). -/
  activations : Tab (List (Nat × Nat × Nat)) := []
  /-- Activations discarded (R319). -/
  discarded : Nat := 0
  /-- CSEQ of the next command (R320). -/
  cseq : Nat := 1
  /-- Commands each block keeps, by opcode group (R320). -/
  kept : Tab (List Kept) := []
  /-- Highest CSEQ each block has applied (R321). -/
  applied : Tab Nat := []
  pendOps : List PendOp := []
  /-- Checkpoint: the image as of the last commit, the journal length, its validity (R322 to R324). -/
  image : Image := {}
  journal : Nat := 0
  baseGen : Nat := 0
  ckptValid : Bool := false
  /-- Uncorrectable checkpoint codewords not yet rewritten: copy and codeword (R220, R324). -/
  badCw : List (Nat × Nat) := []
  /-- Root cycle until which base image or gap stops program execution (R322, R325). -/
  stoppedUntil : Nat := 0
  holdoff : Nat := 5
  /-- A planned switch-over has been accepted and waits for outstanding commands (R329). -/
  goOwed : Bool := false
  /-- The planned switch-over whose base image is being written: its takeover edge, and whether it is the automatic return
  (R329, R330). -/
  going : Option (Nat × Bool) := none
  /-- The root cycle of the last takeover, and the complex that was active until then (R325). -/
  took : Nat × Option Nat := (0, none)
  /-- Statuses that returned at the last edge at which any did (R327). -/
  returned : Option Returned := none
  /-- The complex under repair was active when it failed, and since when it is under repair (R330). -/
  repairBack : Bool := false
  repairFrom : Nat := 0
  /-- Root cycle of the standby's last self-test (R330). -/
  testedAt : Nat := 0
  /-- Hold-off running towards an automatic return (R330). -/
  holdoffEnd : Option Nat := none
  /-- Complexes that have had a complex fault, and the root cycle at which each of them last returned to active (R330). -/
  faulted : List Nat := []
  returnedAt : Tab Nat := []
  /-- Staging in progress: flash offset and CSEQ; and the image staged, with its flash offset (R332). -/
  staging : Option (Nat × Nat) := none
  staged : Option (Nat × Bytes) := none
  deriving DecidableEq, Repr

/-! ### Key Vault, DRBG, block engine (12) -/

/-- A slot (R352, R353): payload octets and attribute word. -/
structure Slot where
  payload : Bytes := []
  attr : Nat := 0
  deriving DecidableEq, Repr

/-- A queued Graft message (R366): octets, CSEQ, and the source and RELAYID of a Trellis service (R502). -/
structure GraftMsg where
  octets : Bytes
  cseq : Nat
  relay : Option (Nat × Nat) := none
  deriving DecidableEq, Repr

/-- The journal of R367: domain, counter, old rows. -/
structure Journal where
  domain : Nat
  counter : Nat
  rows : List (Nat × Slot)
  deriving DecidableEq, Repr

/-- The 64 MRAM cells of a Graft counter (R361), each of 16 octets as a number: a value, its CRC-32C and 4 zero octets; a cell
that is not listed holds value 0. And the map of those retired. -/
structure Mram where
  cells : Tab Nat := []
  retired : List Nat := []
  deriving DecidableEq, Repr

/-- An operation on a slot: code, slot, EXPGEN, attribute word and payload (R362). -/
structure SlotOp where
  op : Nat
  slot : Nat
  expgen : Nat
  attr : Nat
  payload : Bytes
  deriving DecidableEq, Repr

/-- The Graft message that the Key Vault has taken (R365 to R367): how far it is, the digest of the signer's keys as of the edge
at which it was dequeued, its operations once it has passed, and the slots that are erased after its commit edge (R370). -/
structure Serving where
  msg : GraftMsg
  phase : GraftStep
  keys : Bytes
  ops : List SlotOp := []
  erases : List Nat := []
  deriving DecidableEq, Repr

/-- Key Vault, domain counters, DRBG, block engine. -/
structure Vault where
  slots : Tab Slot := []
  /-- The MRAM cells that hold the Graft counters, by domain (R361). -/
  mram : Tab Mram := []
  vaultEmpty : Bool := false
  /-- The cells of the mask area hold nothing valid (R360). -/
  areaLost : Bool := false
  journal : Option Journal := none
  grafts : List GraftMsg := []
  serving : Option Serving := none
  bk : Tab BKey := []
  /-- Key and V of the CTR_DRBG (R378). -/
  drbgKey : Nat := 0
  drbgV : Nat := 0
  drbgStopped : Bool := false
  /-- Instantiation after an erase is under way (R381). -/
  drbgErased : Bool := false
  drbgRequests : Nat := 0
  drbgReseedAt : Nat := 0
  drbgAttempts : Nat := 0
  drbgFailedAt : Nat := 0
  /-- Epoch of the mask key, the rows that a pass under way has rewritten, and start of the last re-mask pass (R357, R359). -/
  epoch : Nat := 0
  remaskRow : Nat := 0
  remaskAt : Nat := 0
  /-- The mask area: mask key by epoch, and the scramble key (R357 to R359). -/
  maskKeys : Tab Nat := []
  scramble : Nat := 0
  deriving DecidableEq, Repr

/-! ### The Press (13) -/

/-- Operand slot states (R385). -/
inductive SlotState where
  | empty
  | loaded
  | result
  | stale
  deriving DecidableEq, Repr

/-- An operand slot, at its first granule (R383): k, state and content. -/
structure OpSlot where
  k : Nat := 0
  state : SlotState := .empty
  data : Bytes := []
  deriving DecidableEq, Repr

/-- A PK.OP queued or running (R387, R388). `result` is what the function computed: status and output; `work` counts the
attempts of DSA.SIGN (R396) or the granules that SHAPE zeroes (R384). -/
structure PressOp where
  func : Nat
  vault : Bool
  slot : Nat
  imm : Nat
  cseq : Nat
  since : Nat := 0
  secret : Bytes := []
  result : Option (Nat × Bytes) := none
  /-- The redundant path did not agree (R398). -/
  mismatch : Bool := false
  work : Nat := 0
  deriving DecidableEq, Repr

/-- A Vintage statement asked for (R350, R414): nonce, buffer length, host address and CSEQ. -/
structure VintReq where
  nonce : Bytes
  len : Nat
  addr : Nat
  cseq : Nat
  /-- The snapshot edge, at which the Press starts the statement, with its network time; and octets 0 to S - 1 once that edge
  has passed (R414). -/
  began : Option (Nat × Nat) := none
  snap : Option Bytes := none
  deriving DecidableEq, Repr

/-- The Press. -/
structure Press where
  /-- Operand slots by first granule; a granule without entry and in no slot is an EMPTY slot of 64 octets. -/
  ops : Tab OpSlot := []
  queue : List PressOp := []
  running : Option PressOp := none
  /-- Root cycle until which the working registers are being cleared, or an internal request is served (R388, R399). -/
  freeAt : Nat := 0
  vintages : List VintReq := []
  deriving DecidableEq, Repr

/-! ### Boot (14) -/

/-- Secure boot: MRAM records (the fuses are `Config`), measurement registers, running rootstock, recovery. -/
structure Boot where
  /-- Anchor in force; none while it is still the factory anchor of the fuses (R404). -/
  anchor : Option Bytes := none
  minSvn : Nat := 1
  bootCount : Nat := 0
  /-- The cell in use of the MRAM records, of 64 each: 0 the anchor, 1 the minimum SVN, 2 the boot count (R404). -/
  cells : Tab Nat := []
  regs : Tab Bytes := []
  devid : Bytes := []
  flagDebug : Bool := false
  flagImageB : Bool := false
  flagRecovery : Bool := false
  running : Bool := false
  /-- The image of the running rootstock and its flash offset; SVN, BUILD, image digest and PROVANCHOR are fields of it. -/
  image : Bytes := []
  offset : Nat := 0
  code : Nat := 0
  statA : Nat := 0
  statB : Nat := 0
  rwait : Bool := false
  rstatus : Nat := 0
  /-- Recovery read in progress since (R514). -/
  reading : Option Nat := none
  jtagOpen : Bool := false
  deriving DecidableEq, Repr

/-! ### The Memory Guard (15) -/

/-- A key ID of the key table (R421). -/
structure KeyId where
  kenc : Nat
  ktag : Nat
  major : Nat
  source : Option Nat
  deriving DecidableEq, Repr

/-- A region (R422 to R424, R442 to R446). `rotCseq` is none for a rotation that R438 began. -/
structure Region where
  ksrc : Bool
  retain_ : Bool
  patrol : Bool
  keyid : Nat
  alias_ : Option Nat := none
  slot : Nat
  kgen : Nat
  base : Nat
  pages : Nat
  rights : Nat
  birth : Nat
  revoked : Bool := false
  rotating : Bool := false
  rotCseq : Option Nat := none
  /-- CSEQ of the rebuild and of the scrub pass in progress. -/
  rebuilding : Option Nat := none
  scrubbing : Option Nat := none
  deriving DecidableEq, Repr

/-- A data line as DRAM holds it: 64 octets of ciphertext, the tag (R428), and the 8 check octets (R427). -/
structure DLine where
  cipher : Bytes
  tag : Nat
  check : Nat
  deriving DecidableEq, Repr

/-- The counter block of a page (R430), and the key ID its lines are encrypted under (R436, R443). -/
structure CBlock where
  major : Nat
  minors : Tab Nat
  kid : Nat
  deriving DecidableEq, Repr

/-- A line of the node cache (R434): level and node index; it is dirty until its write-back. -/
structure MgNode where
  level : Nat
  idx : Nat
  dirty : Bool
  deriving DecidableEq, Repr

/-- Memory Guard training (R419). -/
inductive MgReady where
  | off
  | training
  | ready (pages : Nat)
  | unavailable
  deriving DecidableEq, Repr

/-- The Memory Guard. Metadata lines are keyed level * 2^30 + node index; the memory-port descriptor is in local memory
(R426). -/
structure Mg where
  ready : MgReady := .off
  /-- Start of training (R419). -/
  since : Nat := 0
  setting : Nat := 0
  regions : Tab Region := []
  keys : Tab KeyId := []
  metaKey : Nat := 0
  treeClock : Nat := 1
  /-- Quarantine list: level and node index (R441). -/
  quarantine : List (Nat × Nat) := []
  blocks : Tab CBlock := []
  lines : Tab DLine := []
  /-- The counter that its parent holds for a metadata line; the root's for level 7 (R431). -/
  parents : Tab Nat := []
  /-- Tags of metadata lines in DRAM (R428). -/
  tags : Tab Nat := []
  /-- The node cache, least recently used first (R434). -/
  nodes : List MgNode := []
  /-- The last line that the patrol scrub checked (R446). -/
  patrolLast : Nat := 0
  deriving DecidableEq, Repr

/-! ### The Crust (16) -/

/-- The modes of the Crust (R461). -/
inductive CrustMode where
  | disarmed
  | armed
  | test
  deriving DecidableEq, Repr

/-- What a monitor has seen last: the sight, its root cycle and sampling period, how many samples in a row have shown the
condition, and the root cycle at which its filter last started again (R454). -/
structure Watch where
  sight : CrustSight
  at_ : Nat
  period : Nat
  count : Nat
  since : Nat
  deriving DecidableEq, Repr

/-- A Crust log record (R473). -/
structure CrustRec where
  ctime : Nat
  source : Nat
  levels : Nat
  repeat_ : Nat
  detail : Nat
  seq : Nat
  deriving DecidableEq, Repr

/-- The Crust domain. -/
structure Crust where
  /-- Monitor settings, by number; no entry is the reset value of the monitor's map (R453). -/
  settings : Tab Nat := []
  mode : CrustMode := .disarmed
  notify : Bool := false
  quiesce : Bool := false
  eraseFlag : Bool := false
  /-- Erase flag as found at this start (CRUST_STAT.ERASED). -/
  erased : Bool := false
  alarmOut : Bool := false
  onVbat : Bool := false
  /-- The last reading of VBAT in mV, from which VBATOK of CRUST_STAT follows. -/
  vbat : Nat := 0
  charged : Bool := false
  chargeAt : Nat := 0
  /-- Root cycle of the cold start, from which the Crust clock counts (R451). -/
  clockFrom : Nat := 0
  /-- The generators' seeds, and the root cycle at which ARM drew them (R457). -/
  seeds : Tab Nat := []
  seedsAt : Nat := 0
  /-- What each monitor has seen last (R452). -/
  watches : Tab Watch := []
  /-- Root cycle of each monitor's last CRUST.CFG, at which its filter started again (R454). -/
  filterFrom : Tab Nat := []
  /-- Bits in which an uncorrectable stored word differs from its codeword (R461). -/
  flips : Tab Nat := []
  /-- An oscillator gives no edge (R451). -/
  oscStopped : Bool := false
  /-- The PCLK edge at which settings or mode last changed, and what they were before it (R476). -/
  before : Nat × Tab Nat × CrustMode := (0, [], .disarmed)
  /-- Injection running: monitor, CSEQ, since (R472). -/
  injecting : Option (Nat × Nat × Nat) := none
  log : List CrustRec := []
  /-- SEQ of the next record (R473). -/
  seq : Nat := 0
  /-- Records of the log's first area since cold start or LOGCLEAR (R474). -/
  kept : Nat := 0
  /-- SEQs of records written on VBAT and not yet raised (R475). -/
  unraised : List Nat := []
  /-- Cause bits kept for the next start record (R534). -/
  cause : Nat := 0
  deriving DecidableEq, Repr

/-! ### The Cellar Book (17) -/

/-- A Cellar Book record (R478). -/
structure Rec where
  ev : Ev
  rep : Nat := 0
  /-- PCLK edge of the last repeats, and how many of `rep` came at it (R10, R482). -/
  repAt : Nat := 0
  repNew : Nat := 0
  deriving DecidableEq, Repr

/-- The Cellar Book. -/
structure Book where
  /-- Records by position (R481). -/
  recs : Tab Rec := []
  count : Nat := 0
  frozen : Bool := false
  missed : Nat := 0
  cursor : Nat := 0
  autoinc : Bool := false
  /-- PCLK edge of the last write of CB_CURSOR (R482). -/
  cursorAt : Option Nat := none
  latch : Bytes := []
  /-- Open records, the one least recently added to first: code, object, record number (R480). -/
  opens : List (Nat × Nat × Nat) := []
  /-- Events raised and not yet recorded (R478). -/
  staged : List Ev := []
  /-- Records lost in staging since the last one staged (R235). -/
  lost : Nat := 0
  deriving DecidableEq, Repr

/-! ### The Trellis (18) -/

/-- Bring-up steps of a Trellis port (R496). -/
inductive LinkStep where
  | off
  | lock
  | hello
  | mode
  | session
  | up
  | waiting
  deriving DecidableEq, Repr

/-- A Trellis port (R490, R496 to R499). -/
structure TPort where
  step : LinkStep := .off
  since : Nat := 0
  mode : Nat := 0
  peer : Option Hello := none
  /-- Frames in a row that failed (R497), last frame validated, last frame sent. -/
  fails : Nat := 0
  lastRx : Nat := 0
  lastTx : Nat := 0
  keyTx : Nat := 0
  keyRx : Nat := 0
  seqTx : Nat := 1
  seqRx : Nat := 0
  phase : Bool := false
  /-- The receive key before the last exchange and the last LSEQ validated under it, until a frame comes under the new keys
  (R499). -/
  oldRx : Option (Nat × Nat) := none
  keyedAt : Nat := 0
  /-- Start of the present try of a link mode (R496). -/
  heldFrom : Nat := 0
  /-- The key exchange in progress (R498): the two messages of its transcript, and this end's ephemeral secrets: seed of
  the KEM key or the shared secret of the ciphertext, and the scalar. -/
  offer : Option Keyx := none
  answer : Option Keyx := none
  /-- Messages of the exchange that wait for the running operation of the Press (R388), each with what a fault puts on its
  computation. -/
  waits : List (Keyx × Bytes) := []
  ephKem : Bytes := []
  ephEc : Nat := 0
  /-- Link delay in units of 2^-16 ns (R503, R509). -/
  delay : Nat := 0
  deriving DecidableEq, Repr

/-- A kept service result (R502). -/
structure KeptSvc where
  src : Nat
  relay : Nat
  result : Bytes
  deriving DecidableEq, Repr

/-- Graft fragments being joined (R502). -/
structure Frags where
  src : Nat
  relay : Nat
  nfrag : Nat
  parts : Tab Bytes
  since : Nat
  deriving DecidableEq, Repr

/-- The Trellis unit. -/
structure Trellis where
  setting : Nat := 0
  strap : Bool := false
  role : Nat := 0
  isManager : Bool := false
  node : Option Nat := none
  portW : TPort := {}
  portE : TPort := {}
  wrapped : Bool := false
  members : List TopoNode := []
  lastHeard : Tab Nat := []
  /-- Nodes that were not admitted, as the 33rd of a ring (R491). -/
  refusedNodes : Nat := 0
  rxq : List (Nat × Bytes) := []
  /-- Service frames taken and not yet delivered: source and payload. -/
  taken : List (Nat × Bytes) := []
  keptSvc : List KeptSvc := []
  frags : List Frags := []
  offset : Int := 0
  offsetSeq : Nat := 0
  tsyncSeq : Nat := 0
  tsyncAt : Nat := 0
  stepAt : Nat := 0
  /-- Cellar Book records waiting to be sent to the manager (R506). -/
  evBatch : List Bytes := []
  evSince : Nat := 0
  deriving DecidableEq, Repr

/-! ### Host interface (19) -/

/-- A BAR2 ring (R517, R522, R523). -/
structure Ring where
  base : Nat := 0
  enabled : Bool := false
  cfgErr : Bool := false
  size : Nat := 0
  producer : Nat := 0
  consumer : Nat := 0
  deriving DecidableEq, Repr

/-- The host interface's own registers. -/
structure HostIf where
  linkUp : Bool := false
  rstat : Nat := 0
  traffic : Bool := false
  recAddr : Nat := 0
  recLen : Nat := 0
  intCause : Nat := 0
  /-- By cause: the PCLK edge of its last occurrence, and whether the cause was set before that edge (R9, R520). -/
  causeAt : Tab (Nat × Bool) := []
  intEnable : Nat := 0
  pinEn : Bool := false
  todCount : Nat := 0
  todLatch : Nat := 0
  cbIrq : Nat := 0xFFFF
  crustCursor : Nat := 0
  crustLatch : Bytes := []
  mgBase : Nat := 0
  mgStat : Nat := 0
  /-- The last aperture access that was refused: its PCLK edge, its status, and the MGWIN_STAT before that edge (R10). -/
  mgNew : Option (Nat × Nat × Nat) := none
  /-- MSI-X table by 32-bit word (R510); a vector's mask is bit 0 of its fourth word. -/
  msixTable : Tab Nat := []
  msixPend : Nat := 0
  rings : Tab Ring := []
  /-- Inject descriptors whose frame is being read, by side: since when, and the entry (R523). -/
  injectRead : Tab (Nat × Bytes) := []
  deriving DecidableEq, Repr

/-! ### Power, references, reset (20) -/

/-- State of the root PLL that is not active (R24, R25). -/
inductive SparePll where
  | ready
  | relocking (since : Nat)
  | failed
  deriving DecidableEq, Repr

/-- Power and clock sources. -/
structure Power where
  powerGood : Bool := true
  /-- The main domain is held in reset (R528, R529). -/
  held : Bool := false
  /-- The Boot ROM has not yet released Complex A (R532). -/
  booting : Bool := false
  faultN : Bool := false
  refAGood : Bool := true
  refBGood : Bool := true
  /-- Root cycles of the inputs' last fault: a missing edge, or a frequency beyond its bound (R21). -/
  refAFault : Nat := 0
  refBFault : Nat := 0
  /-- Faults of R32 that no counter block holds: changes of the root PLL, and of the reference input. -/
  pllFaults : Nat := 0
  refFaults : Nat := 0
  /-- Bursts corrected in an on-die SRAM that has no counter of its own (R32). -/
  sramFixed : Nat := 0
  /-- Selected reference: 0 A, 1 B, none in holdover (R22, R23). -/
  selected : Option Nat := some 0
  /-- The lane PLLs run from the root (R538, R539). -/
  lanesOnRoot : Bool := false
  /-- Active root PLL, and the state of the other one (R24, R25). -/
  pll : Nat := 0
  spare : SparePll := .ready
  /-- The active root PLL has lost lock too and runs on its VCO (R540). -/
  onVco : Bool := false
  /-- Rail warnings open, by rail (R536). -/
  warnings : List Nat := []
  /-- 0xC004 is owed at the first start that succeeds (R533). -/
  owesC004 : Bool := false
  deriving DecidableEq, Repr

/-! ### Outputs -/

/-- What leaves the part, in order (the model's own record of it). -/
inductive Output where
  /-- A frame on a port's wire: octets, egress stamp. -/
  | frame (port : Nat) (octets : Bytes) (stamp : Nat)
  /-- A verify mPacket (R62). -/
  | verify (port : Nat)
  /-- So many consecutive bits of a lane's transmit stream leave inverted (R69). -/
  | inverted (lane bits : Nat)
  /-- A pause frame: port, source address, class vector (all ones for PAUSE), quanta. -/
  | pause (port src vector quanta : Nat)
  /-- Octets written to host memory. -/
  | hostWrite (addr : Nat) (octets : Bytes)
  /-- An MSI-X message. -/
  | msix (vector : Nat)
  /-- A read answered to the host. -/
  | readData (value : Nat)
  /-- A trigger output edge: output, level, network time. -/
  | edge (output : Nat) (level : Bool) (time : Nat)
  /-- A Trellis frame: port (0 W, 1 E), frame octets on the wire. -/
  | trellis (port : Nat) (octets : Bytes)
  /-- The Memory Guard's answer to a master: status and, for a read, the line. -/
  | mgAnswer (status : Nat) (data : Bytes)
  /-- A Trellis frame whose payload layout the spec leaves open, by port: HELLO, KEYX, TOPO, and DREQ. -/
  | hello (port : Nat) (h : Hello)
  | keyx (port : Nat) (k : Keyx)
  | topo (port : Nat) (x : Topo)
  | dreq (port : Nat)
  deriving DecidableEq, Repr

/-! ### The machine -/

/-- Why the machine stops. No meaning of this model ends in a fault. -/
inductive Fault where
  /-- Raised by no meaning: the spec gives every command an effect. Safe. -/
  | outsideTheManual
  deriving DecidableEq, Repr

/-- Why a command has no meaning. -/
inductive Refusal where
  /-- The command has no meaning yet. Safe: nothing is claimed of it. -/
  | notModelled (mnemonic : String)
  deriving DecidableEq, Repr

/-- The state of the part. -/
structure State where
  /-- Commands that wait, first in, first out. -/
  pending : List Instr := []
  clk : Clk := {}
  lanes : Tab Lane := []
  cals : Tab CalEngine := []
  synce : Tab SyncE := []
  ports : Tab Port := []
  shapers : Tab Shaper := []
  gates : Tab Gates := []
  meters : Tab Meter := []
  cls : Cls := {}
  assoc : Assoc := {}
  cipher : Cipher := {}
  cask : Cask := {}
  timeFn : TimeFn := {}
  seq : Seq := {}
  vault : Vault := {}
  press : Press := {}
  boot : Boot := {}
  mg : Mg := {}
  crust : Crust := {}
  book : Book := {}
  trellis : Trellis := {}
  hostIf : HostIf := {}
  power : Power := {}
  /-- Every counter of R346, by scope, index and place in the block. -/
  cnt : Tab Nat := []
  /-- The model's own: free values drawn so far. -/
  drawn : Nat := 0
  /-- The model's own: what has left the part, latest first. -/
  out : List Output := []
  deriving DecidableEq, Repr

/-- The state right after reset: the power-good edge of the first power-up, with both reference inputs good, ROLE low, and
the Crust cold-started with the main domain. What the spec gives is in the fields' defaults; record 0 of the Cellar Book is
0xC001 with the cold start in its cause (R487, R534), the Crust log holds the cold-start record (R450), the cells of the
Key Vault hold nothing valid (R360), and the Boot ROM is about to run (R408). -/
def State.reset : State :=
  { vault := { areaLost := true }
    crust := { chargeAt := 5000000, log := [⟨0, 30, 0, 0, 0, 0⟩], seq := 1, kept := 1 }
    book := { recs := [(0, { ev := { code := 0xC001, data := 2 } })], count := 1 }
    power := { booting := true, faultN := true } }

end Sys2Proof.Machine
end

