-- ==== Sys2Proof/Machine/Flags.lean ====
section
/-! DEFINITION. Status codes (R351), the order of checks (R37, R336), and the flags of the data group (R308, R340,
the table of data instructions). -/

namespace Sys2Proof.Machine

/-! ### Status codes (R351) -/

/-- ST_OK. -/
def stOk : Nat := 0x00
/-- ST_PENDING. -/
def stPending : Nat := 0x01
/-- ST_RANGE. -/
def stRange : Nat := 0x10
/-- ST_LENGTH. -/
def stLength : Nat := 0x11
/-- ST_ALIGN. -/
def stAlign : Nat := 0x12
/-- ST_RESERVED. -/
def stReserved : Nat := 0x13
/-- ST_TIMEOUT. -/
def stTimeout : Nat := 0x20
/-- ST_BUSY. -/
def stBusy : Nat := 0x21
/-- ST_AUTH. -/
def stAuth : Nat := 0x30
/-- ST_REPLAY. -/
def stReplay : Nat := 0x31
/-- ST_IDENTITY. -/
def stIdentity : Nat := 0x32
/-- ST_KEY_ERASED. -/
def stKeyErased : Nat := 0x33
/-- ST_ATTR. -/
def stAttr : Nat := 0x34
/-- ST_NOT_ON_CURVE. -/
def stNotOnCurve : Nat := 0x40
/-- ST_NOT_IN_FIELD. -/
def stNotInField : Nat := 0x41
/-- ST_SCALAR. -/
def stScalar : Nat := 0x42
/-- ST_INTEGRITY. -/
def stIntegrity : Nat := 0x50
/-- ST_POISONED. -/
def stPoisoned : Nat := 0x51
/-- ST_PN_EXHAUSTED. -/
def stPnExhausted : Nat := 0x60
/-- ST_NO_ROOM. -/
def stNoRoom : Nat := 0x61
/-- ST_STANDBY. -/
def stStandby : Nat := 0x70
/-- ST_ABORTED. -/
def stAborted : Nat := 0x71
/-- ST_FAULT. -/
def stFault : Nat := 0x7F

/-- E is set by every code from 0x10 upward (R308, R351). -/
def statusSetsE (st : Nat) : Bool := decide (0x10 ≤ st)

/-- A check: whether it fails, and the status it gives. -/
abbrev Check := Bool × Nat

/-- The first failing check of a list, ST_OK if none fails: the order of the checks that are specific to an
operation (R37, R336). -/
def firstFail : List Check → Nat
  | [] => stOk
  | (true, st) :: _ => st
  | (false, _) :: l => firstFail l

/-- The status of the field checks of R37: among those that fail, ST_RESERVED before ST_ALIGN before ST_LENGTH before
ST_RANGE. The four codes are 0x13, 0x12, 0x11 and 0x10, so the first in this order is the largest. -/
def fieldFail : List Check → Nat
  | [] => stOk
  | (true, st) :: l => max st (fieldFail l)
  | (false, _) :: l => fieldFail l

/-! ### Data group results (R345 and its table) -/

/-- A result of the data group with the flags it leaves. -/
structure Alu where
  val : Word64
  z : Bool
  c : Bool
  deriving DecidableEq, Repr

/-- ADD: sum modulo 2^64, C the carry out of bit 63. -/
def aluAdd (a b : Word64) : Alu :=
  ⟨a + b, a + b == 0, decide (2 ^ 64 ≤ a.toNat + b.toNat)⟩

/-- SUB: difference modulo 2^64, C set if the first operand is below the second, unsigned. -/
def aluSub (a b : Word64) : Alu :=
  ⟨a - b, a - b == 0, decide (a.toNat < b.toNat)⟩

/-- AND, OR, XOR: C clear. -/
def aluLogic (r : Word64) : Alu := ⟨r, r == 0, false⟩

/-- SHL by op2[5:0]: C the last bit shifted out, 0 for a shift of 0. -/
def aluShl (a b : Word64) : Alu :=
  let n := b.toNat % 64
  ⟨a <<< n, a <<< n == 0, n != 0 && a.getLsbD (64 - n)⟩

/-- SHR by op2[5:0], logical: C the last bit shifted out, 0 for a shift of 0. -/
def aluShr (a b : Word64) : Alu :=
  let n := b.toNat % 64
  ⟨a >>> n, a >>> n == 0, n != 0 && a.getLsbD (n - 1)⟩

/-- Whether condition code `cc` of BR.cc holds; none for the reserved codes 8 to 15 (R342). -/
def branchTaken (cc : Nat) (z c e : Bool) : Option Bool :=
  match cc with
  | 0 => some z
  | 1 => some (!z)
  | 2 => some c
  | 3 => some (!c)
  | 4 => some e
  | 5 => some (!e)
  | 6 => some (c || z)
  | 7 => some true
  | _ => none

end Sys2Proof.Machine
end

