-- ==== Sys2Proof/Machine/Ops.lean ====
section
/-! DEFINITION. The named operations over the state: sparse tables, the advance of the clocks, counters, free values,
what leaves the part, interrupt causes (R520) and the raising of events (R478). -/

namespace Sys2Proof.Machine

/-! ### Sparse tables -/

/-- The entry at `k`, if the table lists one. -/
def tabFind {α : Type} : Tab α → Nat → Option α
  | [], _ => none
  | (j, a) :: t, k => if j = k then some a else tabFind t k

/-- The entry at `k`, `d` where none is listed. -/
def tabGet {α : Type} (d : α) (t : Tab α) (k : Nat) : α := (tabFind t k).getD d

/-- The table without an entry at `k`. -/
def tabDel {α : Type} : Tab α → Nat → Tab α
  | [], _ => []
  | (j, a) :: t, k => if j = k then t else (j, a) :: tabDel t k

/-- The table with `v` at `k`, indices kept rising. -/
def tabPut {α : Type} : Tab α → Nat → α → Tab α
  | [], k, v => [(k, v)]
  | (j, a) :: t, k, v =>
    if k < j then (k, v) :: (j, a) :: t
    else if j = k then (k, v) :: t
    else (j, a) :: tabPut t k v

/-- The table with `v` at `k`, in the canonical form: the default `d` is not listed. -/
def tabSet {α : Type} [DecidableEq α] (d : α) (t : Tab α) (k : Nat) (v : α) : Tab α :=
  if v = d then tabDel t k else tabPut t k v

/-- Indices strictly rising from `lo` on. -/
def tabSorted {α : Type} : Nat → Tab α → Bool
  | _, [] => true
  | lo, (j, _) :: t => decide (lo ≤ j) && tabSorted (j + 1) t

/-- The canonical form: indices strictly rising, no entry equal to the default. -/
def tabWf {α : Type} [DecidableEq α] (d : α) (t : Tab α) : Bool :=
  tabSorted 0 t && t.all (fun p => decide (p.2 ≠ d))

/-- The entry at `k` changed by `f`. -/
def tabMod {α : Type} [DecidableEq α] (d : α) (t : Tab α) (k : Nat) (f : α → α) : Tab α :=
  tabSet d t k (f (tabGet d t k))

/-- Whether the table lists an entry at `k`. -/
def tabHas {α : Type} (t : Tab α) (k : Nat) : Bool := (tabFind t k).isSome

/-! ### Octet strings -/

/-- Octets cut or filled up with zeros to `n`. -/
def fit (n : Nat) (l : Bytes) : Bytes := (l ++ List.replicate n 0).take n

/-- `n` octets at `o` of a string as a number; octets beyond its end read as zero. -/
def mf (m : Bytes) (o n : Nat) : Nat := beNat (fit n (m.drop o))

/-! ### Arrays of the state -/

/-- A lane (R46). -/
def getLane (s : State) (i : Nat) : Lane := tabGet {} s.lanes i
/-- Writes a lane. -/
def setLane (s : State) (i : Nat) (v : Lane) : State := { s with lanes := tabSet {} s.lanes i v }
/-- A port (R46). -/
def getPort (s : State) (i : Nat) : Port := tabGet {} s.ports i
/-- Writes a port. -/
def setPort (s : State) (i : Nat) (v : Port) : State := { s with ports := tabSet {} s.ports i v }
/-- The gates of a port (R259). -/
def getGates (s : State) (i : Nat) : Gates := tabGet {} s.gates i
/-- Writes the gates of a port. -/
def setGates (s : State) (i : Nat) (v : Gates) : State := { s with gates := tabSet {} s.gates i v }
/-- The shaper of port `p`, class `c` (R253). -/
def getShaper (s : State) (p c : Nat) : Shaper := tabGet {} s.shapers (p * 8 + c)
/-- Writes a shaper. -/
def setShaper (s : State) (p c : Nat) (v : Shaper) : State :=
  { s with shapers := tabSet {} s.shapers (p * 8 + c) v }
/-- A meter (R246). -/
def getMeter (s : State) (i : Nat) : Meter := tabGet {} s.meters i
/-- Writes a meter. -/
def setMeter (s : State) (i : Nat) (v : Meter) : State := { s with meters := tabSet {} s.meters i v }
/-- A channel (R121 to R127). -/
def getChan (s : State) (c : Nat) : Chan := tabGet {} s.assoc.chans c
/-- Writes a channel. -/
def setChan (s : State) (c : Nat) (v : Chan) : State :=
  { s with assoc := { s.assoc with chans := tabSet {} s.assoc.chans c v } }
/-- Sub-entry `an` of a channel (R127). -/
def getSub (h : Chan) (an : Nat) : Sub := tabGet {} h.subs an
/-- A channel with sub-entry `an` written. -/
def setSub (h : Chan) (an : Nat) (v : Sub) : Chan := { h with subs := tabSet {} h.subs an v }
/-- A context: handler level l at 2l, queue q at 2q + 1 (R310). -/
def getCtx (s : State) (k : Nat) : Ctx := tabGet {} s.seq.ctxs k
/-- Writes a context. -/
def setCtx (s : State) (k : Nat) (v : Ctx) : State :=
  { s with seq := { s.seq with ctxs := tabSet {} s.seq.ctxs k v } }
/-- A program queue (R314). -/
def getQueue (s : State) (q : Nat) : Queue := tabGet {} s.seq.queues q
/-- Writes a program queue. -/
def setQueue (s : State) (q : Nat) (v : Queue) : State :=
  { s with seq := { s.seq with queues := tabSet {} s.seq.queues q v } }
/-- An empty slot (R352): a system slot has LOCK set. -/
def slotReset (i : Nat) : Slot := { payload := [], attr := if i < 16 then 2 ^ 15 else 0 }
/-- A key slot. -/
def getSlot (s : State) (i : Nat) : Slot := tabGet (slotReset i) s.vault.slots i
/-- Writes a key slot. -/
def setSlot (s : State) (i : Nat) (v : Slot) : State :=
  { s with vault := { s.vault with slots := tabSet (slotReset i) s.vault.slots i v } }
/-- A BAR2 ring (R517). -/
def getRing (s : State) (r : Nat) : Ring := tabGet {} s.hostIf.rings r
/-- Writes a BAR2 ring. -/
def setRing (s : State) (r : Nat) (v : Ring) : State :=
  { s with hostIf := { s.hostIf with rings := tabSet {} s.hostIf.rings r v } }
/-- A class queue of the Cask (R239). -/
def getQ (s : State) (p c : Nat) : List QFrame := tabGet [] s.cask.queues (p * 8 + c)
/-- Writes a class queue. -/
def setQ (s : State) (p c : Nat) (v : List QFrame) : State :=
  { s with cask := { s.cask with queues := tabSet [] s.cask.queues (p * 8 + c) v } }
/-- An egress lane (R152). -/
def getTx (s : State) (p : Nat) : TxLane := tabGet {} s.cipher.tx p
/-- Writes an egress lane. -/
def setTx (s : State) (p : Nat) (v : TxLane) : State :=
  { s with cipher := { s.cipher with tx := tabSet {} s.cipher.tx p v } }
/-- The decrypt lane of a line port (R152). -/
def getRx (s : State) (p : Nat) : RxLane := tabGet {} s.cipher.rx p
/-- Writes the decrypt lane of a line port. -/
def setRx (s : State) (p : Nat) (v : RxLane) : State :=
  { s with cipher := { s.cipher with rx := tabSet {} s.cipher.rx p v } }
/-- A slice array: 0 encrypt, 1 decrypt (R149). -/
def getArray (s : State) (a : Nat) : Array := tabGet {} s.cipher.arrays a
/-- Writes a slice array. -/
def setArray (s : State) (a : Nat) (v : Array) : State :=
  { s with cipher := { s.cipher with arrays := tabSet {} s.cipher.arrays a v } }
/-- A Memory Guard region (R422). -/
def getRegion (s : State) (r : Nat) : Option Region := tabFind s.mg.regions r
/-- Writes a region. -/
def setRegion (s : State) (r : Nat) (v : Region) : State :=
  { s with mg := { s.mg with regions := tabPut s.mg.regions r v } }

/-! ### Identifiers of R46 -/

/-- SIDE of a port or lane identifier: 0 line, 1 host, 2 Trellis. -/
def sideOf (p : Nat) : Nat := p / 32
/-- Whether a port is on the line side. -/
def isLine (p : Nat) : Bool := p / 32 == 0

/-! ### Clocks (R19) and the time base (R273 to R275) -/

/-- Units of `tod` in a second. -/
def secUnits : Nat := 1000000000 * 2 ^ 32
/-- Units of `tod` after which SEC wraps (R273). -/
def todWrap : Nat := 2 ^ 48 * secUnits

/-- The first edge of a clock of division `d` at or after root cycle `n` (R19). -/
def edgeAt (d n : Nat) : Nat := (n + d - 1) / d * d

/-- Whether a timeout that expires at root cycle `d` has run out: what arrives on cycle `d` itself is in time, so the
expiry acts on a later cycle (R41). -/
def expired (s : State) (d : Nat) : Bool := decide (d < s.clk.root)

/-- Network time after `n` TCLK edges (R273, R275): the temporary increment applies to the edges it has left, the
permanent one to the rest. -/
def ticks (n : Nat) (c : Clk) : Clk :=
  let m := match c.temp with
    | some (_, left) => min n left
    | none => 0
  let inc := match c.temp with
    | some (i, _) => i
    | none => 0
  let sum := c.tod + m * inc + (n - m) * c.incr
  { c with
    tod := sum % todWrap
    wrapped := c.wrapped || decide (todWrap ≤ sum)
    temp := match c.temp with
      | some (i, left) => if left ≤ n then none else some (i, left - n)
      | none => none }

/-- The clocks at root cycle `t`, with the TCLK edges in between taken; a cycle already past changes nothing. -/
def clkTo (t : Nat) (c : Clk) : Clk :=
  if t ≤ c.root then c else { ticks (t / 10 - c.root / 10) c with root := t }

/-- The state at root cycle `t`. -/
def advance (t : Nat) (s : State) : State := { s with clk := clkTo t s.clk }

/-- The CCLK edge at which what happens now takes effect, and its network time: the time base at the last TCLK edge at or
before it (R339, R571). -/
def cclkEdge (s : State) : Nat := edgeAt 3 s.clk.root
/-- The network time of the CCLK edge of now. -/
def edgeTod (s : State) : Nat := (clkTo (cclkEdge s) s.clk).tod

/-- The seconds of network time. -/
def todSec (tod : Nat) : Nat := tod / secUnits
/-- The nanoseconds of network time. -/
def todNs (tod : Nat) : Nat := tod % secUnits / 2 ^ 32
/-- FRAC of network time: the upper 16 bits of the internal fraction (R272). -/
def todFrac (tod : Nat) : Nat := tod / 2 ^ 16 % 2 ^ 16

/-- The 96-bit form of R272: SEC in [95:48], NS in [47:18], FRAC in [17:2]. -/
def todForm (tod : Nat) : Nat := todSec tod * 2 ^ 48 + todNs tod * 2 ^ 18 + todFrac tod * 4

/-- Network time of a 96-bit form of R272. -/
def todOfForm (n : Nat) : Nat :=
  nf n 95 48 * secUnits + nf n 47 18 * 2 ^ 32 + nf n 17 2 * 2 ^ 16

/-- The checks of a time value (R272): its two reserved bits, and an NS below 10^9. -/
def todFormChecks (n : Nat) : List Check :=
  [(decide (n % 4 ≠ 0), stReserved), (decide (1000000000 ≤ nf n 47 18), stRange)]

/-- Whether network time `x` has reached the time value `y`: unsigned, with no modular arithmetic (R570). -/
def timeReached (x y : Nat) : Bool := decide (y ≤ x)

/-! ### Counters (R346) -/

/-- The place of a counter in the one table of counters. -/
def cntKey (scope idx k : Nat) : Nat := scope * 2 ^ 40 + idx * 2 ^ 12 + k

/-- A counter. -/
def getCnt (s : State) (scope idx k : Nat) : Nat := tabGet 0 s.cnt (cntKey scope idx k)

/-- Writes a counter. -/
def setCnt (s : State) (scope idx k v : Nat) : State :=
  { s with cnt := tabSet 0 s.cnt (cntKey scope idx k) v }

/-- Adds `n` to a counter of `w` bits, which saturates (R70, R116, R129, R238, R271, R304, R524). -/
def bump (scope idx k w n : Nat) (s : State) : State :=
  setCnt s scope idx k (min (getCnt s scope idx k + n) (2 ^ w - 1))

/-- Raises a highest-seen value (R31, R238). -/
def bumpMax (scope idx k v : Nat) (s : State) : State :=
  setCnt s scope idx k (max (getCnt s scope idx k) v)

/-! ### Free values and outputs -/

/-- Takes a free value: nothing fixes it, and the next one taken is another. -/
def draw (s : State) : Nat × State := (Config.measured s.drawn, { s with drawn := s.drawn + 1 })

/-- `n` octets that the spec leaves open. -/
def drawOctets (n : Nat) (s : State) : Bytes × State :=
  let l := Config.openOctets s.drawn n
  ((l ++ List.replicate n 0).take n, { s with drawn := s.drawn + 1 })

/-- Something leaves the part. -/
def emit (o : Output) (s : State) : State := { s with out := o :: s.out }

/-! ### Interrupts (R520) -/

/-- MSI-X vector `k` is signalled, or pends if it is masked in the table. -/
def signalVector (k : Nat) (s : State) : State :=
  if nb (tabGet 1 s.hostIf.msixTable (4 * k + 3)) 0 then
    { s with hostIf := { s.hostIf with msixPend := s.hostIf.msixPend ||| 2 ^ k } }
  else bump 20 0 18 48 1 (emit (.msix k) s)

/-- The PCLK edge at which something of now is registered (R19, R20). -/
def pclkEdge (s : State) : Nat := edgeAt 40 s.clk.root

/-- The note of an occurrence of a cause: its PCLK edge, and whether the cause was set before that edge. -/
def causeNote (k : Nat) (s : State) : Nat × Bool :=
  match tabFind s.hostIf.causeAt k with
  | some (e, b) => if e = pclkEdge s then (e, b) else (pclkEdge s, nb s.hostIf.intCause k)
  | none => (pclkEdge s, nb s.hostIf.intCause k)

/-- Interrupt cause `k` is set; it signals its vector when it becomes set while enabled (R520). -/
def setCause (k : Nat) (s : State) : State :=
  let was := nb s.hostIf.intCause k
  let s := { s with hostIf := { s.hostIf with
    intCause := s.hostIf.intCause ||| 2 ^ k, causeAt := tabPut s.hostIf.causeAt k (causeNote k s) } }
  if !was && nb s.hostIf.intEnable k then signalVector k s else s

/-! ### Events (R478, R489) -/

/-- The codes that the list of R489 marks (repeat), and 0xC008, which R536 marks. -/
def isRepeat (code : Nat) : Bool :=
  [0x1002, 0x2004, 0x2005, 0x3002, 0x3003, 0x3004, 0x300A, 0x300F, 0x3013, 0x4001, 0x4004, 0x4005, 0x4006, 0x4007,
   0x5005, 0x5007, 0x6008, 0x8003, 0x8004, 0x8005, 0xA007, 0xC008].contains code

/-- One millisecond in root cycles. -/
def msec : Nat := 10000000
/-- One microsecond in root cycles. -/
def usec : Nat := 10000

/-- The QCLK edge of now (R19). -/
def qclkEdge (s : State) : Nat := edgeAt 8 s.clk.root

/-- The complex that is active now; what time brings about from before the last takeover finds the one of that time (R325). -/
def activeNow (s : State) : Option Nat := if s.clk.root < s.seq.took.1 then s.seq.took.2 else s.seq.active

/-- FLAGS of a record raised now: bit 7 names the active complex (R478). -/
def cplxFlag (s : State) : Nat := if activeNow s = some 1 then 0x80 else 0

/-- Records in staging: the staging partition of 1 024 cells of R235 holds one record a cell. -/
def stagingCells : Nat := 1024

/-- Raises an event: it enters staging with the time of its edge, or is lost when staging is full (R235, R478). -/
def raiseEv (e : Ev) (s : State) : State :=
  if s.book.staged.length < stagingCells then
    { s with book := { s.book with
        staged := s.book.staged ++
          [{ e with at_ := s.clk.root, time := s.clk.tod, flags := e.flags ||| cplxFlag s,
                    lost := min s.book.lost 255 }]
        lost := 0 } }
  else
    bump 10 0 11 48 1 { s with book := { s.book with lost := s.book.lost + 1 } }

/-- Raises code `code` with OBJ and DATA, ST_OK and AUX 0. -/
def raise (code obj data : Nat) (s : State) : State := raiseEv { code := code, obj := obj, data := data } s

/-- Causes 18 of R520 follow complex events at once. -/
def raiseComplex (code obj : Nat) (s : State) : State := setCause 18 (raise code obj 0 s)

/-- Raises a completion event: CSEQ[31:0] in OBJ, the result in DATA (R479). -/
def raiseDone (code cseq st aux data : Nat) (s : State) : State :=
  raiseEv { code := code, obj := cseq % 2 ^ 32, status := st, aux := aux, data := data } s

/-- The open record of a code and object is closed: the next event starts a new one. An event raised at an earlier edge
and not yet recorded still joins the old record; one of this edge opens the new one (R480). -/
def closeRec (code obj : Nat) (s : State) : State :=
  { s with book := { s.book with
      opens := s.book.opens.filter (fun o => !(o.1 == code && o.2.1 == obj))
      staged := s.book.staged.map (fun e =>
        if e.code = code && e.obj == obj && decide (e.at_ < s.clk.root) then { e with shut := true } else e) } }

end Sys2Proof.Machine
end

