-- ==== Sys2Proof/Machine/Hash.lean ====
section
/-! DEFINITION. The hash functions that the spec names by their standard: SHA-256, SHA-384, SHA-512 (FIPS 180-4), HMAC (FIPS 198-1),
SHA3-256, SHA3-512, SHAKE128 and SHAKE256 (FIPS 202). Octet strings in, octet strings out. -/

namespace Sys2Proof.Machine

/-- Rotation of a 64-bit word to the right. -/
def rotr64 (n x : Nat) : Nat := (x >>> n ||| x <<< (64 - n)) % 2 ^ 64

/-- Pieces of `n` octets. -/
def pieces (n k : Nat) (l : Bytes) : List Bytes := (List.range k).map (fun i => (l.drop (n * i)).take n)

/-! ### SHA-384 -/

/-- The first 40 round constants. -/
def shaK1 : List Nat :=
  [0x428A2F98D728AE22, 0x7137449123EF65CD, 0xB5C0FBCFEC4D3B2F, 0xE9B5DBA58189DBBC, 0x3956C25BF348B538,
   0x59F111F1B605D019, 0x923F82A4AF194F9B, 0xAB1C5ED5DA6D8118, 0xD807AA98A3030242, 0x12835B0145706FBE,
   0x243185BE4EE4B28C, 0x550C7DC3D5FFB4E2, 0x72BE5D74F27B896F, 0x80DEB1FE3B1696B1, 0x9BDC06A725C71235,
   0xC19BF174CF692694, 0xE49B69C19EF14AD2, 0xEFBE4786384F25E3, 0x0FC19DC68B8CD5B5, 0x240CA1CC77AC9C65,
   0x2DE92C6F592B0275, 0x4A7484AA6EA6E483, 0x5CB0A9DCBD41FBD4, 0x76F988DA831153B5, 0x983E5152EE66DFAB,
   0xA831C66D2DB43210, 0xB00327C898FB213F, 0xBF597FC7BEEF0EE4, 0xC6E00BF33DA88FC2, 0xD5A79147930AA725,
   0x06CA6351E003826F, 0x142929670A0E6E70, 0x27B70A8546D22FFC, 0x2E1B21385C26C926, 0x4D2C6DFC5AC42AED,
   0x53380D139D95B3DF, 0x650A73548BAF63DE, 0x766A0ABB3C77B2A8, 0x81C2C92E47EDAEE6, 0x92722C851482353B]
/-- The other 40 round constants. -/
def shaK2 : List Nat :=
  [0xA2BFE8A14CF10364, 0xA81A664BBC423001, 0xC24B8B70D0F89791, 0xC76C51A30654BE30, 0xD192E819D6EF5218,
   0xD69906245565A910, 0xF40E35855771202A, 0x106AA07032BBD1B8, 0x19A4C116B8D2D0C8, 0x1E376C085141AB53,
   0x2748774CDF8EEB99, 0x34B0BCB5E19B48A8, 0x391C0CB3C5C95A63, 0x4ED8AA4AE3418ACB, 0x5B9CCA4F7763E373,
   0x682E6FF3D6B2B8A3, 0x748F82EE5DEFB2FC, 0x78A5636F43172F60, 0x84C87814A1F0AB72, 0x8CC702081A6439EC,
   0x90BEFFFA23631E28, 0xA4506CEBDE82BDE9, 0xBEF9A3F7B2C67915, 0xC67178F2E372532B, 0xCA273ECEEA26619C,
   0xD186B8C721C0C207, 0xEADA7DD6CDE0EB1E, 0xF57D4F7FEE6ED178, 0x06F067AA72176FBA, 0x0A637DC5A2C898A6,
   0x113F9804BEF90DAE, 0x1B710B35131C471B, 0x28DB77F523047D84, 0x32CAAB7B40C72493, 0x3C9EBE0A15C9BEBC,
   0x431D67C49C100D4C, 0x4CC5D4BECB3E42B6, 0x597F299CFC657E2A, 0x5FCB6FAB3AD6FAEC, 0x6C44198C4A475817]
/-- The initial value of SHA-384. -/
def sha384Init : List Nat :=
  [0xCBBB9D5DC1059ED8, 0x629A292A367CD507, 0x9159015A3070DD17, 0x152FECD8F70E5939, 0x67332667FFC00B31,
   0x8EB44A8768581511, 0xDB0C2E0D64F98FA7, 0x47B5481DBEFA4FA4]

/-- The message schedule, newest word first, `n` words on. -/
def shaSchedule : Nat → List Nat → List Nat
  | 0, w => w
  | n + 1, w =>
    let a := w.getD 1 0
    let b := w.getD 14 0
    let s1 := rotr64 19 a ^^^ rotr64 61 a ^^^ a >>> 6
    let s0 := rotr64 1 b ^^^ rotr64 8 b ^^^ b >>> 7
    shaSchedule n ((s1 + w.getD 6 0 + s0 + w.getD 15 0) % 2 ^ 64 :: w)

/-- One round on the eight working words, with constant and schedule word. -/
def shaRound (v : List Nat) (kw : Nat × Nat) : List Nat :=
  match v with
  | [a, b, c, d, e, f, g, h] =>
    let t1 := h + (rotr64 14 e ^^^ rotr64 18 e ^^^ rotr64 41 e) + (e &&& f ^^^ (2 ^ 64 - 1 - e) &&& g) + kw.1 + kw.2
    let t2 := (rotr64 28 a ^^^ rotr64 34 a ^^^ rotr64 39 a) + (a &&& b ^^^ a &&& c ^^^ b &&& c)
    [(t1 + t2) % 2 ^ 64, a, b, c, (d + t1) % 2 ^ 64, e, f, g]
  | _ => v

/-- One block of 128 octets. -/
def shaBlock (h : List Nat) (m : Bytes) : List Nat :=
  let w := (shaSchedule 64 ((pieces 8 16 m).map beNat).reverse).reverse
  let v := ((shaK1 ++ shaK2).zip w).foldl shaRound h
  (h.zip v).map (fun p => (p.1 + p.2) % 2 ^ 64)

/-- The message with its padding: one bit, zeros, and its length in bits in 16 octets. -/
def shaPad (l : Bytes) : Bytes :=
  l ++ beBytes 1 0x80 ++ List.replicate ((239 - l.length % 128) % 128) 0 ++ beBytes 16 (8 * l.length)

/-- The initial value of SHA-512. -/
def sha512Init : List Nat :=
  [0x6A09E667F3BCC908, 0xBB67AE8584CAA73B, 0x3C6EF372FE94F82B, 0xA54FF53A5F1D36F1, 0x510E527FADE682D1,
   0x9B05688C2B3E6C1F, 0x1F83D9ABFB41BD6B, 0x5BE0CD19137E2179]

/-- SHA-384. -/
@[irreducible] def sha384 (l : Bytes) : Bytes :=
  let m := shaPad l
  ((pieces 128 (m.length / 128) m).foldl shaBlock sha384Init).take 6 |>.flatMap (beBytes 8)

/-- SHA-512. -/
@[irreducible] def sha512 (l : Bytes) : Bytes :=
  let m := shaPad l
  ((pieces 128 (m.length / 128) m).foldl shaBlock sha512Init).flatMap (beBytes 8)

/-- Rotation of a 32-bit word to the right. -/
def rotr32 (n x : Nat) : Nat := (x >>> n ||| x <<< (32 - n)) % 2 ^ 32

/-- The message schedule of SHA-256, newest word first, `n` words on. -/
def shaSchedule32 : Nat → List Nat → List Nat
  | 0, w => w
  | n + 1, w =>
    let a := w.getD 1 0
    let b := w.getD 14 0
    let s1 := rotr32 17 a ^^^ rotr32 19 a ^^^ a >>> 10
    let s0 := rotr32 7 b ^^^ rotr32 18 b ^^^ b >>> 3
    shaSchedule32 n ((s1 + w.getD 6 0 + s0 + w.getD 15 0) % 2 ^ 32 :: w)

/-- One round of SHA-256. -/
def shaRound32 (v : List Nat) (kw : Nat × Nat) : List Nat :=
  match v with
  | [a, b, c, d, e, f, g, h] =>
    let t1 := h + (rotr32 6 e ^^^ rotr32 11 e ^^^ rotr32 25 e) + (e &&& f ^^^ (2 ^ 32 - 1 - e) &&& g) + kw.1 + kw.2
    let t2 := (rotr32 2 a ^^^ rotr32 13 a ^^^ rotr32 22 a) + (a &&& b ^^^ a &&& c ^^^ b &&& c)
    [(t1 + t2) % 2 ^ 32, a, b, c, (d + t1) % 2 ^ 32, e, f, g]
  | _ => v

/-- One block of 64 octets. Constants and initial value are the upper halves of those of SHA-512. -/
def shaBlock32 (h : List Nat) (m : Bytes) : List Nat :=
  let w := (shaSchedule32 48 ((pieces 4 16 m).map beNat).reverse).reverse
  let v := (((shaK1 ++ shaK2).map (· / 2 ^ 32)).zip w).foldl shaRound32 h
  (h.zip v).map (fun p => (p.1 + p.2) % 2 ^ 32)

/-- SHA-256. -/
@[irreducible] def sha256 (l : Bytes) : Bytes :=
  let m := l ++ beBytes 1 0x80 ++ List.replicate ((119 - l.length % 64) % 64) 0 ++ beBytes 8 (8 * l.length)
  ((pieces 64 (m.length / 64) m).foldl shaBlock32 (sha512Init.map (· / 2 ^ 32))).flatMap (beBytes 4)

/-- HMAC over a hash function with blocks of `b` octets (FIPS 198-1). -/
def hmacOf (hash : Bytes → Bytes) (b : Nat) (key l : Bytes) : Bytes :=
  let k := fit b (if b < key.length then hash key else key)
  hash (k.map (· ^^^ 0x5C) ++ hash (k.map (· ^^^ 0x36) ++ l))

/-- HMAC-SHA-384 of a key and a message. -/
@[irreducible] def hmac384 (key l : Bytes) : Bytes :=
  let k := fit 128 (if 128 < key.length then sha384 key else key)
  sha384 (k.map (· ^^^ 0x5C) ++ sha384 (k.map (· ^^^ 0x36) ++ l))

/-! ### SHA-3 -/

/-- The register of FIPS 202, algorithm 5, after `n` steps: bit i of the number is R[i], with feedback at 0, 4, 5, 6. -/
def keccakReg : Nat → Nat
  | 0 => 1
  | n + 1 => let r := 2 * keccakReg n; if nb r 8 then r ^^^ 0x171 else r

/-- What step iota of round `i` adds to lane 0: bit 2^j - 1 is the output of the register at step j + 7 i. -/
def iotaWord (i : Nat) : Nat :=
  ((List.range 7).map (fun j => bn (nb (keccakReg ((j + 7 * i) % 255)) 0) * 2 ^ (2 ^ j - 1))).sum

/-- Where step pi moves lane x + 5 y: to lane y + 5 (2 x + 3 y). -/
def piTarget (i : Nat) : Nat := i / 5 + 5 * ((2 * (i % 5) + 3 * (i / 5)) % 5)

/-- Steps rho and pi from lane `i` on: pi visits the 24 lanes other than lane 0 in one cycle, and the `t`-th of them turns
by (t + 1) (t + 2) / 2 on its way to the next. The moved lanes, each under its new place. -/
def rhoPi (a : List Nat) : Nat → Nat → Nat → Tab Nat
  | 0, _, _ => [(0, a.getD 0 0)]
  | n + 1, t, i =>
    tabPut (rhoPi a n (t + 1) (piTarget i)) (piTarget i)
      (rotr64 (64 - (t + 1) * (t + 2) / 2 % 64) (a.getD i 0))

/-- The five rows of five lanes. -/
def laneRows (a : List Nat) : List (List Nat) := (List.range 5).map (fun y => (a.drop (5 * y)).take 5)

/-- The parity of the column `x` of lanes. -/
def columnParity (a : List Nat) (x : Nat) : Nat :=
  ((laneRows a).map (fun row => row.getD (x % 5) 0)).foldr (· ^^^ ·) 0

/-- Step chi on one row of five lanes. -/
def chiRow (row : List Nat) : List Nat :=
  match row with
  | [p, q, r, s, t] =>
    let f := fun (u v w : Nat) => u ^^^ (w ^^^ (v &&& w))
    [f p q r, f q r s, f r s t, f s t p, f t p q]
  | _ => row

/-- Round `i` of the permutation on 25 lanes, lane x + 5 y. -/
def keccakRound (a : List Nat) (i : Nat) : List Nat :=
  let mixed := a.mapIdx (fun n v => v ^^^ columnParity a (n + 4) ^^^ rotr64 63 (columnParity a (n + 1)))
  match (laneRows ((rhoPi mixed 24 0 1).map (·.2))).flatMap chiRow with
  | [] => []
  | v :: rest => (v ^^^ iotaWord i) :: rest

/-- The permutation of 1 600 bits. -/
def keccak (a : List Nat) : List Nat := (List.range 24).foldl keccakRound a

/-- A block enters the lanes. -/
def keccakIn (a : List Nat) (m : Bytes) : List Nat :=
  let w := (pieces 8 (m.length / 8) m).map (fun l => beNat l.reverse)
  keccak ((List.range 25).map (fun i => a.getD i 0 ^^^ w.getD i 0))

/-- The first `rate` octets of the lanes. -/
def keccakOut (rate : Nat) (a : List Nat) : Bytes := (a.take (rate / 8)).flatMap (fun n => (beBytes 8 n).reverse)

/-- The message with its padding, `dom` the octet of the domain bits. -/
def keccakPad (rate : Nat) (dom : Byte) (l : Bytes) : Bytes :=
  let z := rate - 1 - l.length % rate
  l ++ if z = 0 then [dom ||| 0x80] else [dom] ++ List.replicate (z - 1) 0 ++ beBytes 1 0x80

/-- The lanes once a message has been absorbed. -/
def keccakAbsorb (rate : Nat) (dom : Byte) (l : Bytes) : List Nat :=
  let m := keccakPad rate dom l
  (pieces rate (m.length / rate) m).foldl keccakIn (List.replicate 25 0)

/-- `n` blocks of output. -/
def keccakSqueeze (rate : Nat) : Nat → List Nat → Bytes
  | 0, _ => []
  | n + 1, a => keccakOut rate a ++ keccakSqueeze rate n (keccak a)

/-- `n` octets out of a sponge of `rate` octets. -/
@[irreducible] def sponge (rate : Nat) (dom : Byte) (l : Bytes) (n : Nat) : Bytes :=
  (keccakSqueeze rate ((n + rate - 1) / rate) (keccakAbsorb rate dom l)).take n

/-- SHA3-256. -/
def sha3 (l : Bytes) : Bytes := sponge 136 0x06 l 32

/-- SHA3-512. -/
def sha3Long (l : Bytes) : Bytes := sponge 72 0x06 l 64

/-- SHAKE256 with an output length in octets. -/
def shake256 (l : Bytes) (n : Nat) : Bytes := sponge 136 0x1F l n

/-- SHAKE128 with an output length in octets. -/
def shake128 (l : Bytes) (n : Nat) : Bytes := sponge 168 0x1F l n

end Sys2Proof.Machine
end

