-- ==== Sys2Proof/Machine/Crypto.lean ====
section
/-! DEFINITION. The standard functions that the model computes itself: AES (FIPS 197), GHASH and GCM (NIST SP 800-38D),
AES key wrap with padding (RFC 5649, R374), the frame check sequence of IEEE 802.3 and CRC-32C. Blocks of 128 bits
are numbers, first octet most significant (R6). -/

namespace Sys2Proof.Machine

/-! ### AES -/

/-- The S-box of FIPS 197, entry 0 in the lowest octet. -/
def aesSboxTable : Nat :=
  0x16bb54b00f2d99416842e6bf0d89a18cdf2855cee9871e9b948ed9691198f8e19e1dc186b95735610ef6034866b53e708a8bbd4b1f74dde8c6b4a61c2e2578ba08ae7a65eaf4566ca94ed58d6d37c8e779e4959162acd3c25c2406490a3a32e0db0b5ede14b8ee4688902a22dc4f816073195d643d7ea7c41744975fec130ccdd2f3ff1021dab6bcf5389d928f40a351a89f3c507f02f94585334d43fbaaefd0cf584c4a39becb6a5bb1fc20ed00d153842fe329b3d63b52a05a6e1b1a2c830975b227ebe28012079a059618c323c7041531d871f1e5a534ccf73f362693fdb7c072a49cafa2d4adf04759fa7dc982ca76abd7fe2b670130c56f6bf27b777c63

/-- The inverse S-box of FIPS 197. -/
def aesInvSboxTable : Nat :=
  0x7d0c2155631469e126d677ba7e042b17619953833cbbebc8b0f52aae4d3be0a0ef9cc9939f7ae52d0d4ab519a97f51605fec8027591012b131c7078833a8dd1ff45acd78fec0db9a2079d2c64b3e56fc1bbe18aa0e62b76f89c5291d711af1476edf751ce837f9e28535ade72274ac9673e6b4f0cecff297eadc674f4111913a6b8a130103bdafc1020f3fca8f1e2cd00645b3b80558e4f70ad3bc8c00abd890849d8da75746155edab9edfd5048706c92b6655dcc5ca4d41698688664f6f87225d18b6d49a25b76b224d92866a12e084ec3fa420b954cee3d23c2a632947b54cbe9dec444438e3487ff2f9b8239e37cfbd7f3819ea340bf38a53630d56a0952

/-- S-box. -/
def aesSub (b : Nat) : Nat := aesSboxTable / 2 ^ (8 * b) % 256
/-- Inverse S-box. -/
def aesInvSub (b : Nat) : Nat := aesInvSboxTable / 2 ^ (8 * b) % 256

/-- Multiplication by x in the field of FIPS 197. -/
def aesXtime (b : Nat) : Nat := if b < 128 then 2 * b else (2 * b - 256) ^^^ 0x1b

/-- Multiplication in the field of FIPS 197, over the low `k` bits of the second factor. -/
def aesMul : Nat → Nat → Nat → Nat
  | 0, _, _ => 0
  | k + 1, a, b => (if b % 2 = 1 then a else 0) ^^^ aesMul k (aesXtime a) (b / 2)

/-- The `k` octets of a number as numbers, most significant first. -/
def octs : Nat → Nat → List Nat
  | 0, _ => []
  | k + 1, n => n / 256 ^ k % 256 :: octs k n

/-- The number that octets spell. -/
def unocts (l : List Nat) : Nat := l.foldl (fun a b => a * 256 + b) 0

/-- The `n` low octets of `x` changed one by one. -/
def mapOcts (f : Nat → Nat) (n x : Nat) : Nat := unocts ((octs n x).map f)

/-- Words of the key schedule, latest first, until `n` are there; `nk` words of key, round constant `rc`. -/
def aesExpand (nk : Nat) : Nat → Nat → Nat → List Nat → List Nat
  | 0, _, _, ws => ws
  | n + 1, i, rc, ws =>
    let prev := ws.headD 0
    let back := ws.getD (nk - 1) 0
    let t :=
      if i % nk = 0 then mapOcts aesSub 4 (prev * 256 % 2 ^ 32 + prev / 2 ^ 24) ^^^ (rc * 2 ^ 24)
      else if 6 < nk && i % nk = 4 then mapOcts aesSub 4 prev
      else prev
    aesExpand nk n (i + 1) (if i % nk = 0 then aesXtime rc else rc) ((back ^^^ t) :: ws)

/-- Round keys of a key of `bits` bits (128 or 256), in order. -/
def aesKeys (bits key : Nat) : List Nat :=
  let nk := bits / 32
  let rounds := nk + 6
  let first := (List.range nk).map (fun i => key / 2 ^ (32 * (nk - 1 - i)) % 2 ^ 32)
  let ws := (aesExpand nk (4 * (rounds + 1) - nk) nk 1 first.reverse).reverse
  (List.range (rounds + 1)).map (fun r =>
    (List.range 4).foldl (fun a j => a * 2 ^ 32 + ws.getD (4 * r + j) 0) 0)

/-- Octets of a block permuted: octet `i` of the result is octet `p i` of the block. -/
def aesPerm (p : Nat → Nat) (l : List Nat) : List Nat := (List.range 16).map (fun i => l.getD (p i) 0)

/-- One column under a matrix whose first row is `m`. -/
def aesColumn (m c : List Nat) : List Nat :=
  (List.range 4).map (fun r =>
    (List.range 4).foldl (fun a j => a ^^^ aesMul 8 (c.getD j 0) (m.getD ((j + 4 - r) % 4) 0)) 0)

/-- The four columns of a block under a matrix. -/
def aesMix (m l : List Nat) : List Nat :=
  aesColumn m (l.take 4) ++ aesColumn m ((l.drop 4).take 4) ++ aesColumn m ((l.drop 8).take 4) ++
    aesColumn m (l.drop 12)

/-- SubBytes and ShiftRows. -/
def aesSubShift (b : Nat) : List Nat := aesPerm (fun i => (i + 4 * (i % 4)) % 16) ((octs 16 b).map aesSub)

/-- The rounds of encryption under the round keys that are left. -/
def aesRounds : List Nat → Nat → Nat
  | [], b => b
  | [k], b => unocts (aesSubShift b) ^^^ k
  | k :: ks, b => aesRounds ks (unocts (aesMix [2, 3, 1, 1] (aesSubShift b)) ^^^ k)

/-- AES encryption of a block. -/
def aesEnc (bits key block : Nat) : Nat :=
  match aesKeys bits key with
  | [] => 0
  | k :: ks => aesRounds ks (block ^^^ k)

/-- Inverse SubBytes and ShiftRows. -/
def aesInvSubShift (b : Nat) : Nat :=
  unocts ((aesPerm (fun i => (i + 16 - 4 * (i % 4)) % 16) (octs 16 b)).map aesInvSub)

/-- The rounds of decryption under the round keys that are left, last first. -/
def aesInvRounds : List Nat → Nat → Nat
  | [], b => b
  | [k], b => aesInvSubShift b ^^^ k
  | k :: ks, b => aesInvRounds ks (unocts (aesMix [14, 11, 13, 9] (octs 16 (aesInvSubShift b ^^^ k))))

/-- AES decryption of a block. -/
def aesDec (bits key block : Nat) : Nat :=
  match (aesKeys bits key).reverse with
  | [] => 0
  | k :: ks => aesInvRounds ks (block ^^^ k)

/-! ### GHASH and GCM -/

/-- Multiplication in the field of SP 800-38D, over the `n` leading bits of `x` that are left. -/
def gfMulStep : Nat → Nat → Nat → Nat → Nat
  | 0, _, _, z => z
  | n + 1, x, v, z =>
    gfMulStep n x (if v % 2 = 1 then v / 2 ^^^ (0xe1 * 2 ^ 120) else v / 2)
      (if x / 2 ^ n % 2 = 1 then z ^^^ v else z)

/-- Multiplication in the field of SP 800-38D. -/
def gfMul (x y : Nat) : Nat := gfMulStep 128 x y 0

/-- Octets as blocks of 128 bits, the last one padded with zeros. -/
def blocksOf : Nat → Bytes → List Nat
  | 0, _ => []
  | k + 1, l => beNat ((l.take 16) ++ List.replicate (16 - l.length) 0) :: blocksOf k (l.drop 16)

/-- The blocks of an octet string. -/
def blocks (l : Bytes) : List Nat := blocksOf ((l.length + 15) / 16) l

/-- GHASH under `h` of blocks. -/
def ghash (h : Nat) (l : List Nat) : Nat := l.foldl (fun y b => gfMul (y ^^^ b) h) 0

/-- GHASH of associated data and ciphertext with their lengths. -/
def gcmHash (h : Nat) (aad ct : Bytes) : Nat :=
  ghash h (blocks aad ++ blocks ct ++ [aad.length * 8 * 2 ^ 64 + ct.length * 8])

/-- Octets combined with keystream blocks. -/
def xorStream (l : Bytes) (ks : List Nat) : Bytes :=
  (l.zip (ks.flatMap (beBytes 16))).map (fun p => p.1 ^^^ p.2)

/-- Keystream blocks `from` on, of a 96-bit nonce: counter 1 is the tag mask, counter 2 the first payload block. -/
def keystream (bits key nonce start n : Nat) : List Nat :=
  (List.range n).map (fun i => aesEnc bits key (nonce * 2 ^ 32 + (start + i)))

/-- GCM encryption: ciphertext and tag. -/
def gcmSeal (bits key nonce : Nat) (aad pt : Bytes) : Bytes × Bytes :=
  let ct := xorStream pt (keystream bits key nonce 2 ((pt.length + 15) / 16))
  (ct, beBytes 16 (gcmHash (aesEnc bits key 0) aad ct ^^^ aesEnc bits key (nonce * 2 ^ 32 + 1)))

/-- GCM decryption: the plaintext if the tag verifies. -/
def gcmOpen (bits key nonce : Nat) (aad ct tag : Bytes) : Option Bytes :=
  if beBytes 16 (gcmHash (aesEnc bits key 0) aad ct ^^^ aesEnc bits key (nonce * 2 ^ 32 + 1)) = tag then
    some (xorStream ct (keystream bits key nonce 2 ((ct.length + 15) / 16)))
  else none

/-! ### Key wrap with padding (RFC 5649) -/

/-- One step of the unwrapping of RFC 3394, at step number `t`, over semiblocks `r` (R1 first). -/
def kwStep (bits key n : Nat) (t : Nat) (a : Nat) (r : List Nat) : Nat × List Nat :=
  let i := (t - 1) % n
  let b := aesDec bits key ((a ^^^ t) * 2 ^ 64 + r.getD i 0)
  (b / 2 ^ 64, r.set i (b % 2 ^ 64))

/-- Steps `t` down to 1. -/
def kwSteps (bits key n : Nat) : Nat → Nat → List Nat → Nat × List Nat
  | 0, a, r => (a, r)
  | t + 1, a, r =>
    let p := kwStep bits key n (t + 1) a r
    kwSteps bits key n t p.1 p.2

/-- Unwrapping: the plaintext octets if the alternative initial value and the padding check. -/
def kwpUnwrap (bits key : Nat) (c : Bytes) : Option Bytes :=
  let n := c.length / 8 - 1
  let p : Nat × Bytes :=
    if n = 1 then
      let b := aesDec bits key (beNat c)
      (b / 2 ^ 64, beBytes 8 (b % 2 ^ 64))
    else
      let semi := (List.range n).map (fun i => beNat ((c.drop (8 * (i + 1))).take 8))
      let q := kwSteps bits key n (6 * n) (beNat (c.take 8)) semi
      (q.1, q.2.flatMap (beBytes 8))
  let len := p.1 % 2 ^ 32
  if p.1 / 2 ^ 32 = 0xA65959A6 && decide (8 * (n - 1) < len) && decide (len ≤ 8 * n) &&
      (p.2.drop len).all (· == 0) then
    some (p.2.take len)
  else none

/-! ### Cyclic redundancy checks -/

/-- Eight bit steps of a reflected CRC of polynomial `p`. -/
def crcBits (p : Nat) : Nat → Nat → Nat
  | 0, c => c
  | k + 1, c => crcBits p k (if c % 2 = 1 then c / 2 ^^^ p else c / 2)

/-- A reflected 32-bit CRC with all-ones start and complement. -/
def crc32 (p : Nat) (l : Bytes) : Nat :=
  l.foldl (fun c b => crcBits p 8 (c ^^^ b.toNat)) 0xFFFFFFFF ^^^ 0xFFFFFFFF

/-- The frame check sequence of IEEE 802.3 as the four octets on the wire. -/
def fcsOf (l : Bytes) : Bytes := (beBytes 4 (crc32 0xEDB88320 l)).reverse

/-- Whether the last four octets are the frame check sequence of the others. -/
def fcsGood (l : Bytes) : Bool := decide (fcsOf (l.take (l.length - 4)) = l.drop (l.length - 4))

/-- CRC-32C. -/
def crc32c (l : Bytes) : Nat := crc32 0x82F63B78 l

end Sys2Proof.Machine
end

