-- ==== Sys2Proof/Machine/Curves.lean ====
section
/-! DEFINITION. The public-key arithmetic that the Press computes itself (R390): modular exponentiation, the P-curves of
FIPS 186-5 in affine form, ECDSA, and the RSA signature checks of RFC 8017. Curve 1 is P-256, 2 P-384, 3 P-521. -/

namespace Sys2Proof.Machine

/-- `b` to the power of the low `k` bits of `e`, times `acc`, modulo `m`. -/
def powBits (m : Nat) : Nat → Nat → Nat → Nat → Nat
  | 0, _, _, acc => acc
  | k + 1, b, e, acc => powBits m k (b * b % m) (e / 2) (if e % 2 = 1 then acc * b % m else acc)

/-- Modular exponentiation of an exponent of at most `k` bits. -/
def powMod (m k b e : Nat) : Nat := powBits m k (b % m) e (1 % m)

/-- Field prime of a curve. -/
def curveP (c : Nat) : Nat :=
  if c = 1 then 0xffffffff00000001000000000000000000000000ffffffffffffffffffffffff
  else if c = 2 then 2 ^ 384 - 2 ^ 128 - 2 ^ 96 + 2 ^ 32 - 1
  else 2 ^ 521 - 1

/-- Coefficient b of a curve; a is -3. -/
def curveB (c : Nat) : Nat :=
  if c = 1 then 0x5ac635d8aa3a93e7b3ebbd55769886bc651d06b0cc53b0f63bce3c3e27d2604b
  else if c = 2 then
    0xb3312fa7e23ee7e4988e056be3f82d19181d9c6efe8141120314088f5013875ac656398d8a2ed19d2a85c8edd3ec2aef
  else
    0x51953eb9618e1c9a1f929a21a0b68540eea2da725b99b315f3b8b489918ef109e156193951ec7e937b1652c0bd3bb1bf073573df883d2c34f1ef451fd46b503f00

/-- Order of the group of a curve. -/
def curveN (c : Nat) : Nat :=
  if c = 1 then 0xffffffff00000000ffffffffffffffffbce6faada7179e84f3b9cac2fc632551
  else if c = 2 then
    0xffffffffffffffffffffffffffffffffffffffffffffffffc7634d81f4372ddf581a0db248b0a77aecec196accc52973
  else
    0x1fffffffffffffffffffffffffffffffffffffffffffffffffffffffffffffffffa51868783bf2f966b7fcc0148f709a5d03bb5c9b8899c47aebb6fb71e91386409

/-- Base point of a curve. -/
def curveG (c : Nat) : Nat × Nat :=
  if c = 1 then
    (0x6b17d1f2e12c4247f8bce6e563a440f277037d812deb33a0f4a13945d898c296,
     0x4fe342e2fe1a7f9b8ee7eb4a7c0f9e162bce33576b315ececbb6406837bf51f5)
  else if c = 2 then
    (0xaa87ca22be8b05378eb1c71ef320ad746e1d3b628ba79b9859f741e082542a385502f25dbf55296c3a545e3872760ab7,
     0x3617de4a96262c6f5d9e98bf9292dc29f8f41dbd289a147ce9da3113b5f0b8c00a60b1ce1d7e819d7a431d7c90ea0e5f)
  else
    (0xc6858e06b70404e9cd9e3ecb662395b4429c648139053fb521f828af606b4d3dbaa14b5e77efe75928fe1dc127a2ffa8de3348b3c1856a429bf97e7e31c2e5bd66,
     0x11839296a789a3bc0045c8a5fb42c7d1bd998f54449579b446817afbd17273e662c97ee72995ef42640c550b9013fad0761353c7086a272c24088be94769fd16650)

/-- Octets of a field element (R391): 32, 48 or 66. -/
def curveF (c : Nat) : Nat := if c = 1 then 32 else if c = 2 then 48 else 66

/-- Whether a point satisfies the curve equation. -/
def onCurve (c x y : Nat) : Bool :=
  (y * y + 3 * x) % curveP c == (x * x * x + curveB c) % curveP c

/-- Difference modulo `p`. -/
def subMod (p a b : Nat) : Nat := (a + (p - b % p)) % p

/-- Inverse modulo a prime. -/
def invMod (p a : Nat) : Nat := powMod p 528 a (p - 2)

/-- The third point of a chord or tangent of slope `l`. -/
def ecSlope (p l x1 y1 x2 : Nat) : Nat × Nat :=
  let x := subMod p (subMod p (l * l) x1) x2
  (x, subMod p (l * subMod p x1 x) y1)

/-- Sum of two points; none is the point at infinity. -/
def ecAdd (c : Nat) (a b : Option (Nat × Nat)) : Option (Nat × Nat) :=
  match a, b with
  | none, q => q
  | q, none => q
  | some (x1, y1), some (x2, y2) =>
    let p := curveP c
    if x1 = x2 then
      if (y1 + y2) % p = 0 then none
      else some (ecSlope p (subMod p (3 * x1 * x1) 3 * invMod p (2 * y1) % p) x1 y1 x2)
    else some (ecSlope p (subMod p y2 y1 * invMod p (subMod p x2 x1) % p) x1 y1 x2)

/-- The multiple of a point by the low `n` bits of `k`, added to `acc`. -/
def ecMulBits (c : Nat) : Nat → Nat → Option (Nat × Nat) → Option (Nat × Nat) → Option (Nat × Nat)
  | 0, _, _, acc => acc
  | n + 1, k, q, acc => ecMulBits c n (k / 2) (ecAdd c q q) (if k % 2 = 1 then ecAdd c acc q else acc)

/-- Multiple of a point. -/
def ecMul (c k : Nat) (q : Nat × Nat) : Option (Nat × Nat) := ecMulBits c 521 k (some q) none

/-- A point as it stands in an operand: x ‖ y (R391); infinity is x = y = 0. -/
def pointBytes (c : Nat) (q : Option (Nat × Nat)) : Bytes :=
  match q with
  | some (x, y) => beBytes (curveF c) x ++ beBytes (curveF c) y
  | none => List.replicate (2 * curveF c) 0

/-- The coordinates of a point operand. -/
def pointOf (c : Nat) (l : Bytes) : Nat × Nat :=
  (beNat (l.take (curveF c)), beNat ((l.drop (curveF c)).take (curveF c)))

/-- ECDSA signature of a digest with the nonce `k`: r and s (FIPS 186-5). -/
def ecdsaSig (c d k : Nat) (digest : Bytes) : Nat × Nat :=
  let n := curveN c
  let r := (match ecMul c k (curveG c) with | some q => q.1 | none => 0) % n
  (r, invMod n k * (beNat digest + r * d) % n)

/-! ### The hedged nonce (R397, RFC 6979) -/

/-- The hash of a curve (R390), its length and that of its blocks. -/
def curveHash (c : Nat) : (Bytes → Bytes) × Nat × Nat :=
  if c = 1 then (sha256, 32, 64) else if c = 2 then (sha384, 48, 128) else (sha512, 64, 128)

/-- HMAC over the hash of a curve. -/
def curveHmac (c : Nat) (key l : Bytes) : Bytes := hmacOf (curveHash c).1 (curveHash c).2.2 key l

/-- The bits of the group order. -/
def orderBits (c : Nat) : Nat := if c = 1 then 256 else if c = 2 then 384 else 521

/-- The leftmost bits of a string, as many as the group order has, as a number. -/
def bitsToInt (c : Nat) (l : Bytes) : Nat :=
  if 8 * l.length ≤ orderBits c then beNat l else beNat l / 2 ^ (8 * l.length - orderBits c)

/-- HMAC-DRBG takes in a string: key and value after it. -/
def nonceUpdate (c : Nat) (b : Byte) (x : Bytes) (kv : Bytes × Bytes) : Bytes × Bytes :=
  let k := curveHmac c kv.1 (kv.2 ++ [b] ++ x)
  (k, curveHmac c k kv.2)

/-- As many octets as the group order has, and the value after them. -/
def nonceBlocks (c : Nat) : Nat → Bytes × Bytes → Bytes × Bytes
  | 0, kv => ([], kv.2)
  | n + 1, kv =>
    let v := curveHmac c kv.1 kv.2
    let r := nonceBlocks c n (kv.1, v)
    (v ++ r.1, r.2)

/-- The first candidate from 1 to n - 1, of at most `fuel`. -/
def nonceLoop (c : Nat) : Nat → Bytes × Bytes → Nat
  | 0, _ => 1
  | fuel + 1, kv =>
    let r := nonceBlocks c (if c = 3 then 2 else 1) kv
    let k := bitsToInt c r.1
    if 1 ≤ k ∧ k < curveN c then k else nonceLoop c fuel (nonceUpdate c 0 [] (kv.1, r.2))

/-- The nonce of an ECDSA signature: HMAC-DRBG seeded with d, the digest and the octets of the DRBG. More than 256 candidates
are never needed: each fails with a chance below 2^-31. -/
@[irreducible] def hedgedNonce (c d : Nat) (digest rnd : Bytes) : Nat :=
  let seed := beBytes (curveF c) d ++ beBytes (curveF c) (bitsToInt c digest % curveN c) ++ rnd
  let h := (curveHash c).2.1
  nonceLoop c 256 (nonceUpdate c 1 seed (nonceUpdate c 0 seed (List.replicate h 0, List.replicate h 1)))

/-- Whether a point has an abscissa that is `r` modulo `n`. -/
def abscissaIs (n r : Nat) (p : Option (Nat × Nat)) : Bool :=
  match p with
  | some x => x.1 % n == r
  | none => false

/-- The result point of an ECDSA verification (FIPS 186-5). -/
def ecdsaPoint (c : Nat) (q : Nat × Nat) (digest : Bytes) (r s : Nat) : Option (Nat × Nat) :=
  let n := curveN c
  let w := invMod n s
  ecAdd c (ecMul c (beNat digest * w % n) (curveG c)) (ecMul c (r * w % n) q)

/-- ECDSA verification, of values in range (FIPS 186-5). -/
def ecdsaOk (c : Nat) (q : Nat × Nat) (digest : Bytes) (r s : Nat) : Bool :=
  abscissaIs (curveN c) r (ecdsaPoint c q digest r s)

/-- RSASSA-PKCS1-v1_5 over a SHA-384 digest in `b` octets (RFC 8017). -/
def pkcs1Encoded (b : Nat) (digest : Bytes) : Bytes :=
  let t := beBytes 19 0x3041300d060960864801650304020205000430 ++ digest
  beBytes 2 1 ++ List.replicate (b - t.length - 3) 0xFF ++ [0] ++ t

/-- MGF1 with SHA-384, `k` blocks. -/
def mgf1 (seed : Bytes) (k : Nat) : Bytes := (List.range k).flatMap (fun i => sha384 (seed ++ beBytes 4 i))

/-- EMSA-PSS verification with SHA-384 and a salt of 48 octets, of an encoded message of `b` octets whose top bit is
unused (RFC 8017). -/
def pssOk (b : Nat) (digest em : Bytes) : Bool :=
  let n := b - 49
  let masked := em.take n
  let h := (em.drop n).take 48
  let db : Bytes := (masked.zip (mgf1 h ((n + 47) / 48))).map (fun p => p.1 ^^^ p.2)
  let db : Bytes := match db with
    | x :: l => (x &&& 0x7F) :: l
    | [] => []
  let pad := n - 49
  decide (em.getD (b - 1) 0 = 0xBC) && decide ((masked.getD 0 0).toNat < 128) &&
    (db.take pad).all (· == 0) && decide ((db.getD pad 0).toNat = 1) &&
    decide (sha384 (List.replicate 8 0 ++ digest ++ db.drop (pad + 1)) = h)

end Sys2Proof.Machine
end

