-- ==== Sys2Proof/Machine/Lattice.lean ====
section
/-! DEFINITION. The module-lattice functions that the spec names by their standard: ML-KEM-1024 (FIPS 203) and ML-DSA-87
(FIPS 204, pure and hedged). A polynomial is the list of its 256 coefficients. -/

namespace Sys2Proof.Machine

/-- A polynomial of 256 coefficients. -/
abbrev Poly := List Nat

/-- `n` bits of a number in reverse order. -/
def bitRev : Nat → Nat → Nat
  | 0, _ => 0
  | n + 1, x => x % 2 * 2 ^ n + bitRev n (x / 2)

/-- The value of a polynomial, lowest coefficient first, at a point modulo `q`. -/
def evalAt (q x : Nat) (f : List Nat) : Nat := f.foldr (fun c n => (c + n * x) % q) 0

/-- Sum, coefficient by coefficient. -/
def polyAdd (q : Nat) (f g : Poly) : Poly := (f.zip g).map (fun p => (p.1 + p.2) % q)

/-- Difference. -/
def polySub (q : Nat) (f g : Poly) : Poly := (f.zip g).map (fun p => (p.1 + q - p.2 % q) % q)

/-- The sum of a list of polynomials. -/
def polySum (q : Nat) (l : List Poly) : Poly := l.foldl (polyAdd q) (List.replicate 256 0)

/-- 256 values of `d` bits each in octets, the first one lowest. -/
def packBits (d : Nat) (f : List Nat) : Bytes := (beBytes (32 * d) (f.foldr (fun c n => c + n * 2 ^ d) 0)).reverse

/-- 256 values of `d` bits each out of octets. -/
def unpackBits (d : Nat) (l : Bytes) : List Nat :=
  let n := beNat (fit (32 * d) l).reverse
  (List.range 256).map (fun i => n / 2 ^ (d * i) % 2 ^ d)

/-- A number in `k` octets, least significant first. -/
def leBytes (k n : Nat) : Bytes := (beBytes k n).reverse

/-! ### ML-KEM-1024 -/

/-- The prime of ML-KEM. -/
def kemQ : Nat := 3329

/-- 17^e modulo the prime; 17 has order 256. -/
def kemRoot (e : Nat) : Nat := powMod kemQ 8 17 (e % 256)

/-- Coefficients of even or odd index. -/
def kemPart (b : Nat) (f : Poly) : List Nat := (List.range 128).map (fun j => f.getD (2 * j + b) 0)

/-- The number-theoretic transform: remainders modulo X^2 - 17^(2 brv(i) + 1). -/
def kemNtt (f : Poly) : Poly :=
  let e := kemPart 0 f
  let o := kemPart 1 f
  (List.range 128).flatMap (fun i =>
    let g := kemRoot (2 * bitRev 7 i + 1)
    [evalAt kemQ g e, evalAt kemQ g o])

/-- The inverse transform. -/
def kemInv (f : Poly) : Poly :=
  let e := (List.range 128).map (fun r => f.getD (2 * bitRev 7 r) 0)
  let o := (List.range 128).map (fun r => f.getD (2 * bitRev 7 r + 1) 0)
  (List.range 128).flatMap (fun j =>
    let k := 3303 * kemRoot (256 - j)
    let x := kemRoot (512 - 2 * j)
    [k * evalAt kemQ x e % kemQ, k * evalAt kemQ x o % kemQ])

/-- Products of pairs from pair `i` on. -/
def kemMulFrom : Nat → Poly → Poly → Poly
  | i, a :: b :: f, c :: d :: g =>
    (a * c + b * d * kemRoot (2 * bitRev 7 i + 1)) % kemQ :: (a * d + b * c) % kemQ :: kemMulFrom (i + 1) f g
  | _, _, _ => []

/-- The sum of the products of two vectors of transforms. -/
def kemDot (a b : List Poly) : Poly := polySum kemQ ((a.zip b).map (fun p => kemMulFrom 0 p.1 p.2))

/-- Candidates of 12 bits, two from three octets. -/
def kemCands : Bytes → List Nat
  | a :: b :: c :: l => (a.toNat + 256 * (b.toNat % 16)) :: (b.toNat / 16 + 16 * c.toNat) :: kemCands l
  | _ => []

/-- A uniform transform out of a seed: entry (i, j) of the matrix. Of 896 candidates 256 are taken. -/
def kemEntry (rho : Bytes) (i j : Nat) : Poly :=
  ((kemCands (shake128 (rho ++ beBytes 1 j ++ beBytes 1 i) 1344)).filter (fun c => decide (c < kemQ))).take 256

/-- A polynomial of the centred binomial distribution with eta = 2. -/
def kemNoise (seed : Bytes) (n : Nat) : Poly :=
  let f := fun x : Nat => (x % 2 + x / 2 % 2 + kemQ - x / 4 % 2 - x / 8 % 2) % kemQ
  (shake256 (seed ++ beBytes 1 n) 128).flatMap (fun b => [f (b.toNat % 16), f (b.toNat / 16)])

/-- The transforms of the secret vector, of a seed. -/
def kemSecret (d : Bytes) : List Poly :=
  (List.range 4).map (fun i => kemNtt (kemNoise ((sha3Long (d ++ beBytes 1 4)).drop 32) i))

/-- ML-KEM-1024: the encapsulation key of a seed d and z of 64 octets. -/
@[irreducible] def kemPub (seed : Bytes) : Bytes :=
  let d := fit 32 seed
  let g := sha3Long (d ++ beBytes 1 4)
  let rho := g.take 32
  let s := kemSecret d
  (List.range 4).flatMap (fun i => packBits 12 (polyAdd kemQ (kemDot ((List.range 4).map (kemEntry rho i)) s)
    (kemNtt (kemNoise (g.drop 32) (4 + i))))) ++ rho

/-- The coefficients of an encapsulation key. -/
def kemCoeffs (ek : Bytes) : List Poly := (pieces 384 4 (fit 1536 ek)).map (unpackBits 12)

/-- The modulus check of FIPS 203 on an encapsulation key (R393). -/
@[irreducible] def kemKeyOk (ek : Bytes) : Bool :=
  decide (ek.length = 1568) && (kemCoeffs ek).all (fun f => f.all (fun c => decide (c < kemQ)))

/-- A coefficient in `d` bits. -/
def kemCompress (d x : Nat) : Nat := (x * 2 ^ (d + 1) + kemQ) / (2 * kemQ) % 2 ^ d

/-- A coefficient out of `d` bits. -/
def kemDecompress (d y : Nat) : Nat := (kemQ * y * 2 + 2 ^ d) / 2 ^ (d + 1)

/-- Encryption of 32 octets under an encapsulation key with 32 octets of randomness. -/
def kemEncrypt (ek m r : Bytes) : Bytes :=
  let t := kemCoeffs ek
  let rho := (ek.drop 1536).take 32
  let y := (List.range 4).map (fun i => kemNtt (kemNoise r i))
  let u := (List.range 4).map (fun i =>
    polyAdd kemQ (kemInv (kemDot ((List.range 4).map (fun j => kemEntry rho j i)) y)) (kemNoise r (4 + i)))
  let mu := (unpackBits 1 m).map (kemDecompress 1)
  let v := polyAdd kemQ (polyAdd kemQ (kemInv (kemDot t y)) (kemNoise r 8)) mu
  u.flatMap (fun f => packBits 11 (f.map (kemCompress 11))) ++ packBits 5 (v.map (kemCompress 5))

/-- ML-KEM-1024 encapsulation under a key with 32 octets of randomness: ciphertext and shared secret. -/
@[irreducible] def kemEncaps (ek m : Bytes) : Bytes × Bytes :=
  let g := sha3Long (m ++ sha3 ek)
  (kemEncrypt ek m (g.drop 32), g.take 32)

/-- ML-KEM-1024 decapsulation of a ciphertext under a seed; a ciphertext that does not encrypt again to itself gives the
implicit rejection. -/
@[irreducible] def kemDecaps (seed ct : Bytes) : Bytes :=
  let ek := kemPub seed
  let u := (pieces 352 4 ct).map (fun l => kemNtt ((unpackBits 11 l).map (kemDecompress 11)))
  let v := (unpackBits 5 (ct.drop 1408)).map (kemDecompress 5)
  let w := polySub kemQ v (kemInv (kemDot (kemSecret (fit 32 seed)) u))
  let m := packBits 1 (w.map (kemCompress 1))
  let g := sha3Long (m ++ sha3 ek)
  if kemEncrypt ek m (g.drop 32) = ct then g.take 32 else shake256 ((fit 64 seed).drop 32 ++ ct) 32

/-! ### ML-DSA-87 -/

/-- The prime of ML-DSA. -/
def dsaQ : Nat := 8380417

/-- 1753^e modulo the prime; 1753 has order 512. -/
def dsaRoot (e : Nat) : Nat := powMod dsaQ 9 1753 (e % 512)

/-- The transform: values at 1753^(2 brv(i) + 1). -/
def dsaNtt (f : Poly) : Poly := (List.range 256).map (fun i => evalAt dsaQ (dsaRoot (2 * bitRev 8 i + 1)) f)

/-- The inverse transform. -/
def dsaInv (f : Poly) : Poly :=
  let g := (List.range 256).map (fun r => f.getD (bitRev 8 r) 0)
  (List.range 256).map (fun j => 8347681 * dsaRoot (512 - j) % dsaQ * evalAt dsaQ (dsaRoot (1024 - 2 * j)) g % dsaQ)

/-- Product of transforms. -/
def dsaMul (f g : Poly) : Poly := (f.zip g).map (fun p => p.1 * p.2 % dsaQ)

/-- The sum of the products of two vectors of transforms. -/
def dsaDot (a b : List Poly) : Poly := polySum dsaQ ((a.zip b).map (fun p => dsaMul p.1 p.2))

/-- A coefficient as a number of least absolute value. -/
def dsaCentred (x : Nat) : Int := if x ≤ dsaQ / 2 then (x : Int) else (x : Int) - dsaQ

/-- A whole number modulo the prime. -/
def dsaMod (x : Int) : Nat := (x % dsaQ).toNat

/-- Whether every coefficient of every polynomial is below a bound in absolute value. -/
def dsaSmall (bound : Nat) (v : List Poly) : Bool :=
  v.all (fun f => f.all (fun c => decide ((dsaCentred c).natAbs < bound)))

/-- Candidates of 23 bits, one from three octets. -/
def dsaCands : Bytes → List Nat
  | a :: b :: c :: l => (a.toNat + 256 * b.toNat + 65536 * (c.toNat % 128)) :: dsaCands l
  | _ => []

/-- Entry (r, s) of the matrix of transforms. -/
def dsaEntry (rho : Bytes) (r s : Nat) : Poly :=
  ((dsaCands (shake128 (rho ++ beBytes 1 s ++ beBytes 1 r) 1344)).filter (fun c => decide (c < dsaQ))).take 256

/-- A polynomial with coefficients of at most 2 in absolute value. -/
def dsaShort (seed : Bytes) (n : Nat) : Poly :=
  let l := (shake256 (seed ++ leBytes 2 n) 408).flatMap (fun b => [b.toNat % 16, b.toNat / 16])
  ((l.filter (fun z => decide (z < 15))).map (fun z => (dsaQ + 2 - z % 5) % dsaQ)).take 256

/-- What a seed expands to: the public seed, the seed of the secrets, and the key of the masks. -/
structure DsaKey where
  rho : Bytes
  key : Bytes
  s1 : List Poly
  s2 : List Poly
  deriving DecidableEq, Repr

/-- The key of a seed. -/
def dsaKey (xi : Bytes) : DsaKey :=
  let h := shake256 (xi ++ beBytes 1 8 ++ beBytes 1 7) 128
  let p := (h.drop 32).take 64
  { rho := h.take 32, key := h.drop 96, s1 := (List.range 7).map (dsaShort p)
    s2 := (List.range 8).map (fun r => dsaShort p (r + 7)) }

/-- The vector t = A s1 + s2. -/
def dsaT (k : DsaKey) : List Poly :=
  let s := k.s1.map dsaNtt
  (List.range 8).map (fun r =>
    polyAdd dsaQ (dsaInv (dsaDot ((List.range 7).map (dsaEntry k.rho r)) s)) (k.s2.getD r []))

/-- The upper part of a coefficient of t, above 13 bits. -/
def dsaT1 (x : Nat) : Nat := (x + 4095) / 8192

/-- The public key that goes with t. -/
def dsaPubOf (k : DsaKey) (t : List Poly) : Bytes := k.rho ++ t.flatMap (fun f => packBits 10 (f.map dsaT1))

/-- ML-DSA-87: the public key of a seed. -/
@[irreducible] def dsaPub (xi : Bytes) : Bytes := dsaPubOf (dsaKey xi) (dsaT (dsaKey xi))

/-- Upper and lower part of a coefficient, by twice gamma2 = 523776. -/
def dsaDecompose (x : Nat) : Nat × Int :=
  let h := (x + 261887) / 523776
  if h = 16 then (0, (x : Int) - 8380416 - 1) else (h, (x : Int) - 523776 * h)

/-- The representative of a message in pure mode, under the digest of the public key. -/
def dsaMu (pk m ctx : Bytes) : Bytes :=
  shake256 (shake256 pk 64 ++ beBytes 1 0 ++ beBytes 1 ctx.length ++ ctx ++ m) 64

/-- One octet of the stream places a sign in the challenge: the polynomial and the next index. -/
def dsaBallStep (signs : Nat) (p : Poly × Nat) (b : Byte) : Poly × Nat :=
  if p.2 < 256 ∧ b.toNat ≤ p.2 then
    ((p.1.set p.2 (p.1.getD b.toNat 0)).set b.toNat (if nb signs (p.2 - 196) then dsaQ - 1 else 1), p.2 + 1)
  else p

/-- The challenge: 60 coefficients of absolute value 1. -/
def dsaBall (c : Bytes) : Poly :=
  let s := shake256 c 544
  ((s.drop 8).foldl (dsaBallStep (beNat (s.take 8).reverse)) (List.replicate 256 0, 196)).1

/-- The mask vector of an attempt. -/
def dsaMask (seed : Bytes) (kappa : Nat) : List Poly :=
  (List.range 7).map (fun r => (unpackBits 20 (shake256 (seed ++ leBytes 2 (kappa + r)) 640)).map (fun v =>
    (dsaQ + 524288 - v) % dsaQ))

/-- The hints as octets: their places, then for each polynomial where its places end. -/
def dsaHintBytes (h : List (List Nat)) : Bytes :=
  fit 75 (h.flatMap (fun l => l.map (BitVec.ofNat 8))) ++
    (List.range 8).map (fun i => BitVec.ofNat 8 ((h.take (i + 1)).map List.length).sum)

/-- One attempt at a signature of the representative `mu` with the mask of `kappa`, if it is not rejected. -/
def dsaTry (k : DsaKey) (t : List Poly) (mu seed : Bytes) (kappa : Nat) : Option Bytes :=
  let y := dsaMask seed kappa
  let yh := y.map dsaNtt
  let w := (List.range 8).map (fun r => dsaInv (dsaDot ((List.range 7).map (dsaEntry k.rho r)) yh))
  let c := shake256 (mu ++ w.flatMap (fun f => packBits 4 (f.map (fun x => (dsaDecompose x).1)))) 64
  let ch := dsaNtt (dsaBall c)
  let by_ := fun (v : List Poly) => v.map (fun f => dsaInv (dsaMul ch (dsaNtt f)))
  let z := (y.zip (by_ k.s1)).map (fun p => polyAdd dsaQ p.1 p.2)
  let r := (w.zip (by_ k.s2)).map (fun p => polySub dsaQ p.1 p.2)
  if !dsaSmall (524288 - 120) z || !r.all (fun f => f.all (fun x => decide ((dsaDecompose x).2.natAbs < 261888 - 120))) then none
  else
    let ct0 := by_ (t.map (fun f => f.map (fun x => (x + dsaQ - dsaT1 x * 8192) % dsaQ)))
    let h := (r.zip ct0).map (fun p => (List.range 256).filter (fun i =>
      decide ((dsaDecompose (p.1.getD i 0)).1 ≠ (dsaDecompose ((p.1.getD i 0 + p.2.getD i 0) % dsaQ)).1)))
    if !dsaSmall 261888 ct0 || decide (75 < (h.map List.length).sum) then none
    else some (c ++ z.flatMap (fun f => packBits 20 (f.map (fun x => (524288 - dsaCentred x).toNat))) ++ dsaHintBytes h)

/-- The first attempt that is not rejected, of `n` from attempt `i` on, and its number. -/
def dsaSearch (f : Nat → Option Bytes) : Nat → Nat → Option (Bytes × Nat)
  | 0, _ => none
  | n + 1, i => match f (7 * i) with
    | some sig => some (sig, i + 1)
    | none => dsaSearch f n (i + 1)

/-- The signature under a seed of a message and context with 32 octets of randomness, and the attempts it took; none after
814 (R396). -/
def dsaSigned (xi m ctx rnd : Bytes) : Option (Bytes × Nat) :=
  let k := dsaKey xi
  let t := dsaT k
  let mu := dsaMu (dsaPubOf k t) m ctx
  dsaSearch (dsaTry k t mu (shake256 (k.key ++ rnd ++ mu) 64)) 814 0

/-- ML-DSA-87: the signature. -/
@[irreducible] def dsaSign (xi m ctx rnd : Bytes) : Option Bytes := (dsaSigned xi m ctx rnd).map (·.1)

/-- The attempts that a signature takes. -/
@[irreducible] def dsaAttempts (xi m ctx rnd : Bytes) : Nat := match dsaSigned xi m ctx rnd with
  | some p => p.2
  | none => 814

/-- Whether places rise from one to the next. -/
def rising : List Nat → Bool
  | a :: b :: l => decide (a < b) && rising (b :: l)
  | _ => true

/-- The hints of a signature, none if they are not encoded as they must be. -/
def dsaHints (l : Bytes) : Option (List (List Nat)) :=
  let ends := (l.drop 75).map BitVec.toNat
  let h := ((0 :: ends).zip ends).map (fun p => ((l.take p.2).drop p.1).map BitVec.toNat)
  if ((0 :: ends).zip ends).all (fun p => decide (p.1 ≤ p.2 ∧ p.2 ≤ 75)) && h.all rising &&
      ((l.take 75).drop (ends.getD 7 0)).all (fun b => b == 0) then some h
  else none

/-- The upper part of a coefficient corrected by its hint. -/
def dsaUseHint (hint : Bool) (x : Nat) : Nat :=
  let d := dsaDecompose x
  if !hint then d.1 else if 0 < d.2 then (d.1 + 1) % 16 else (d.1 + 15) % 16

/-- ML-DSA-87: whether a signature of a message and context verifies under a public key. -/
@[irreducible] def dsaVerify (pk m ctx sig : Bytes) : Bool :=
  if pk.length ≠ 2592 ∨ sig.length ≠ 4627 ∨ 255 < ctx.length then false
  else
    match dsaHints (sig.drop 4544) with
    | none => false
    | some h =>
      let c := sig.take 64
      let z := (pieces 640 7 (sig.drop 64)).map (fun l => (unpackBits 20 l).map (fun v => (dsaQ + 524288 - v) % dsaQ))
      let zh := z.map dsaNtt
      let ch := dsaNtt (dsaBall c)
      let w := (List.range 8).map (fun r =>
        let t := (unpackBits 10 ((pk.drop (32 + 320 * r)).take 320)).map (fun x => x * 8192)
        let a := polySub dsaQ (dsaDot ((List.range 7).map (dsaEntry (pk.take 32) r)) zh) (dsaMul ch (dsaNtt t))
        (dsaInv a).zipIdx.map (fun p => dsaUseHint ((h.getD r []).contains p.2) p.1))
      dsaSmall (524288 - 120) z && decide (shake256 (dsaMu pk m ctx ++ w.flatMap (packBits 4)) 64 = c)

end Sys2Proof.Machine
end

