-- ==== Sys2Proof/Machine/TrellisLink.lean ====
section
/-! DEFINITION. Sending on the Trellis (R497 to R502): frames in the form of 18_trellis.md, their protection, the
choice of the port, services and the results that a worker keeps. Port 0 is W, port 1 is E. -/

namespace Sys2Proof.Machine

/-- A Trellis port. -/
def getTPort (s : State) (p : Nat) : TPort := if p = 0 then s.trellis.portW else s.trellis.portE

/-- Writes a Trellis port. -/
def setTPort (s : State) (p : Nat) (v : TPort) : State :=
  if p = 0 then { s with trellis := { s.trellis with portW := v } }
  else { s with trellis := { s.trellis with portE := v } }

/-- Adds to a counter of scope 19 (R509). -/
def bumpTr (k n : Nat) (s : State) : State := bump 19 0 k 48 n s

/-- The node number a frame carries in SRC: 0x3F before admission. -/
def nodeField (s : State) : Nat := s.trellis.node.getD 0x3F

/-- The 24 header octets of a Trellis frame. -/
def trHeader (typ dst src ttl flags lseq len : Nat) : Bytes :=
  beBytes 2 0x5452 ++ beBytes 1 1 ++ beBytes 1 typ ++ beBytes 1 dst ++ beBytes 1 src ++ beBytes 1 ttl ++
    beBytes 1 flags ++ beBytes 8 lseq ++ beBytes 2 len ++ beBytes 6 0

/-- A frame as it stands on the wire of port `p`: protected once the session is up (R499), under a CRC before. -/
def trWire (p : TPort) (hdr payload : Bytes) : Bytes :=
  if p.step = .up then
    let c := gcmSeal 256 p.keyTx p.seqTx hdr payload
    hdr ++ c.1 ++ c.2
  else hdr ++ payload ++ beBytes 4 (crc32c (hdr ++ payload)) ++ List.replicate 12 0

/-- Sends a frame out of port `p`: LSEQ is the port's, and advances by one on a link whose session is up (R499). -/
def trEmit (p typ dst src ttl : Nat) (wrapped : Bool) (payload : Bytes) (s : State) : State :=
  let q := getTPort s p
  let up := q.step == .up
  let hdr := trHeader typ dst src ttl (bn q.phase + 2 * bn wrapped) (if up then q.seqTx else 0) payload.length
  let s := emit (.trellis p (trWire q hdr payload)) s
  bumpTr (8 * p + 3) 1
    (setTPort s p { q with seqTx := if up then q.seqTx + 1 else q.seqTx, lastTx := s.clk.root })

/-- The port that a frame for the ring leaves on, and whether it leaves there because the other is down (R507). Port
E is taken while it is up. DESIGN CHOICE (log entry 80): the spec names no port for a frame at its source. -/
def trPortOut (s : State) : Option (Nat × Bool) :=
  if s.trellis.portE.step = .up then some (1, false)
  else if s.trellis.portW.step = .up then some (0, true)
  else none

/-- Sends a frame from this node to `dst`. -/
def trSendFrame (typ dst : Nat) (payload : Bytes) (s : State) : State :=
  match trPortOut s with
  | some (p, wrapped) => trEmit p typ dst (nodeField s) 32 wrapped payload s
  | none => s

/-- A service header (R500) with one fragment. -/
def svcHeader (service relay : Nat) : Bytes :=
  beBytes 1 service ++ beBytes 1 0 ++ beBytes 1 1 ++ beBytes 1 0 ++ beBytes 2 relay ++ beBytes 2 0

/-- Sends a service frame (R500) and counts it. -/
def sendService (dst service relay : Nat) (content : Bytes) (s : State) : State :=
  bumpTr 18 1 (trSendFrame 0x10 dst (svcHeader service relay ++ content) s)

/-- A worker keeps the results of the last 64 services from each source (R502), newest first. -/
def keepSvc (src relay service : Nat) (content : Bytes) (l : List KeptSvc) : List KeptSvc :=
  let others := l.filter (fun k => k.src != src)
  let mine := (l.filter (fun k => k.src == src)).take 63
  { src := src, relay := relay, result := beBytes 1 service ++ content } :: mine ++ others

/-- Returns a service's result to its sender and keeps it (R501, R502). -/
def answerService (src relay service : Nat) (content : Bytes) (s : State) : State :=
  let s := { s with trellis := { s.trellis with keptSvc := keepSvc src relay service content s.trellis.keptSvc } }
  sendService src service relay content (bumpTr 19 1 s)

end Sys2Proof.Machine
end

