-- ==== Sys2Proof/Machine/Operands.lean ====
section
/-! DEFINITION. Operand forms of the instruction word: SRC substitution (R335), word checks (R334, R336), local memory
and the areas a program or handler may reach (R312), pointers and the HOST flag (R337). -/

namespace Sys2Proof.Machine

/-! ### Contexts (R310) -/

/-- Context `k` is a queue context; the other ones are handler contexts. -/
def isQueueCtx (k : Nat) : Bool := k % 2 == 1
/-- The queue, or the handler level, of a context. -/
def ctxNum (k : Nat) : Nat := k / 2
/-- The context of queue `q`. -/
def queueCtx (q : Nat) : Nat := 2 * q + 1
/-- The context of handler level `l`. -/
def handlerCtx (l : Nat) : Nat := 2 * l
/-- OBJ of what a context writes itself: queue number, or 16 plus the level (R488). -/
def ctxObj (k : Nat) : Nat := if isQueueCtx k then ctxNum k else 16 + ctxNum k

/-- Whether context `k` is ready. -/
def ctxReady (s : State) (k : Nat) : Bool := decide ((getCtx s k).run = .ready ∧ (getCtx s k).due = none)

/-- The context that the sequencer runs: the first ready one in the order H0, Q0, H1, Q1 (R310), none while no complex
is active or the active one waits to switch over (R329). -/
def readyCtx (s : State) : Option Nat :=
  if s.seq.active = none ∨ s.seq.goOwed = true then none else (List.range 32).find? (ctxReady s)

/-- The group mask of a context (R313, R318). -/
def ctxMask (s : State) (k : Nat) : Nat :=
  if isQueueCtx k then (getQueue s (ctxNum k)).mask else (getCtx s k).mask

/-- A register of a context; w0 reads as zero. -/
def readReg (c : Ctx) (r : Nat) : Word64 := if r = 0 then 0 else tabGet 0 c.regs r

/-- A context with a register written; a write to w0 is discarded. -/
def writeReg (c : Ctx) (r : Nat) (v : Word64) : Ctx :=
  if r = 0 then c else { c with regs := tabSet 0 c.regs r v }

/-- A context with several registers written, in order. -/
def writeRegs (c : Ctx) (l : List (Nat × Word64)) : Ctx := l.foldl (fun c p => writeReg c p.1 p.2) c

/-! ### Local memory (R312) -/

/-- Octets of local memory. -/
def readMem (s : State) (a n : Nat) : Bytes := (List.range n).map (fun i => tabGet 0 s.seq.mem (a + i))

/-- Local memory with octets written from `a` on. -/
def memWrite (m : Tab Byte) : Nat → Bytes → Tab Byte
  | _, [] => m
  | a, b :: l => memWrite (tabSet 0 m a b) (a + 1) l

/-- The canonical form of local memory: addresses strictly rising, no octet listed that is 0, which is what an unlisted
address reads as. -/
def Memory.wf (m : Tab Byte) : Bool := tabWf 0 m

/-- The state with octets of local memory written. -/
def writeMem (s : State) (a : Nat) (l : Bytes) : State :=
  { s with seq := { s.seq with mem := memWrite s.seq.mem a l } }

/-- An entry joins the journal (R323). -/
def journalEntry (s : State) : State := { s with seq := { s.seq with journal := s.seq.journal + 1 } }

/-- Octets are stored to local memory, with a journal entry for each eight of them: an entry has 16 octets, so that one holds
no more than a word and its address (R323; DEDUCED, log entry 123). -/
def storeMem (s : State) (a : Nat) (l : Bytes) : State :=
  let s := writeMem s a l
  { s with seq := { s.seq with journal := s.seq.journal + (l.length + 7) / 8 } }

/-- Start of the program buffer of queue `q`. -/
def bufBase (q : Nat) : Nat := 0x70000 + 0x800 * q
/-- Start of the data window of queue `q`. -/
def winBase (q : Nat) : Nat := 0x78000 + 0x800 * q

/-- The area of the local memory map that holds address `a` and that context `k` may read or write: its start and end. -/
def dataArea (k : Nat) (write : Bool) (a : Nat) : Option (Nat × Nat) :=
  if isQueueCtx k then
    if decide (winBase (ctxNum k) ≤ a) && decide (a < winBase (ctxNum k) + 0x800) then
      some (winBase (ctxNum k), winBase (ctxNum k) + 0x800)
    else if !write && decide (0x20000 ≤ a) && decide (a < 0x60000) then some (0x20000, 0x60000)
    else none
  else if decide (0x20000 ≤ a) && decide (a < 0x60000) then some (0x20000, 0x60000)
  else if decide (0x60000 ≤ a) && decide (a < 0x70000) then some (0x60000, 0x70000)
  else if decide (0x70000 ≤ a) && decide (a < 0x78000) then some (0x70000, 0x78000)
  else if decide (0x78000 ≤ a) && decide (a < 0x80000) then some (0x78000, 0x80000)
  else none

/-- Whether `len` octets at `a` lie in one area that context `k` may reach. -/
def areaOk (k : Nat) (write : Bool) (a len : Nat) : Bool :=
  match dataArea k write a with
  | some (_, e) => decide (a + len ≤ e)
  | none => false

/-- The checks of a pointer to `len` octets (R312, R337). -/
def ptrChecks (k : Nat) (write : Bool) (align a len : Nat) : List Check :=
  [(decide (a % align ≠ 0), stAlign),
   ((dataArea k write a).isNone, stRange),
   ((dataArea k write a).isSome && !areaOk k write a len, stLength)]

/-- Whether a pointer passes its checks. -/
def ptrOk (k : Nat) (write : Bool) (align a len : Nat) : Bool :=
  decide (a % align = 0) && areaOk k write a len

/-- Whether context `k` may execute at `a`: a program in its own buffer, a handler in the code area. -/
def execOk (k a : Nat) : Bool :=
  if isQueueCtx k then decide (bufBase (ctxNum k) ≤ a) && decide (a < bufBase (ctxNum k) + 0x800)
  else decide (a < 0x20000)

/-- The checks of a jump target (R312, R342). -/
def targetChecks (k a : Nat) : List Check := [(decide (a % 16 ≠ 0), stAlign), (!execOk k a, stRange)]

/-! ### The instruction word -/

/-- What an instruction works with: its context, X, operands after SRC substitution, what its HOST transfer brings,
and for a command its CSEQ. -/
structure Env where
  k : Nat
  x : Nat
  a : Nat
  b : Nat
  imm : Nat
  host : HostXfer
  /-- What the Memory Guard answers to a fill that the instruction makes, and to the write-back of the victim whose line the
  fill takes (R136 to R140). -/
  fill : MemRes := .ok
  back : MemRes := .ok
  /-- Adjacent cells struck in the slot row that the command reads (R32). -/
  burst : Nat := 0
  cseq : Nat := 0
  deriving DecidableEq, Repr

/-- The operands of a word in context `k` (R335): SRC 1 takes IMM, SRC 2 takes B from w[RX]; RX = 0 supplies zero. -/
def resolve (s : State) (k : Nat) (w : IWord) : Env :=
  let v := (readReg (getCtx s k) w.rx.toNat).toNat
  { k := k, x := w.x.toNat, a := w.a.toNat
    b := if w.src = 2 then v % 2 ^ 32 else w.b.toNat
    imm := if w.src = 1 then v else w.imm.toNat
    host := w.host, fill := w.fill, back := w.back, burst := w.burst }

/-- The checks of the flags octet (R334, R335) of an instruction whose named X bits are those of `xm`. -/
def wordChecks (xm : Nat) (w : IWord) : List Check :=
  [(decide (w.src = 3), stReserved),
   (decide (w.src = 0) && decide (w.rx ≠ 0), stReserved),
   (decide (w.src = 1) && decide (w.imm ≠ 0), stReserved),
   (decide (w.src = 2) && decide (w.b ≠ 0), stReserved),
   (decide (w.x.toNat &&& xm ≠ w.x.toNat), stReserved)]

/-- Operands that a table marks with a dash are zero (R11, R334). -/
def zeroA (e : Env) : Check := (decide (e.a ≠ 0), stReserved)
/-- B is zero. -/
def zeroB (e : Env) : Check := (decide (e.b ≠ 0), stReserved)
/-- IMM is zero. -/
def zeroI (e : Env) : Check := (decide (e.imm ≠ 0), stReserved)
/-- A has no bit at or above `n`. -/
def highA (e : Env) (n : Nat) : Check := (decide (2 ^ n ≤ e.a), stReserved)
/-- B has no bit at or above `n`. -/
def highB (e : Env) (n : Nat) : Check := (decide (2 ^ n ≤ e.b), stReserved)
/-- IMM has no bit at or above `n`. -/
def highI (e : Env) (n : Nat) : Check := (decide (2 ^ n ≤ e.imm), stReserved)

/-- The HOST flag of an instruction whose table names HOST for X[0] (R337). -/
def hostFlag (e : Env) : Bool := e.x % 2 == 1

/-- The checks of an address that the HOST flag turns into a host address, for `len` octets. -/
def addrChecks (e : Env) (write : Bool) (align len : Nat) : List Check :=
  if hostFlag e then [(decide (e.imm % 16 ≠ 0), stAlign)] else ptrChecks e.k write align e.imm len

/-- The octets that an instruction reads at its address: local memory, or what its transfer brought. -/
def addrRead (e : Env) (s : State) (len : Nat) : Bytes :=
  if hostFlag e then
    match e.host with
    | .bytes l => (l ++ List.replicate len 0).take len
    | _ => List.replicate len 0
  else readMem s e.imm len

/-- Whether the structure at the address can be read at all, so that its fields can be checked. -/
def addrOk (e : Env) (write : Bool) (align len : Nat) : Bool :=
  if hostFlag e then decide (e.imm % 16 = 0) else ptrOk e.k write align e.imm len

/-- Octets written at an instruction's address: local memory or host memory. -/
def addrWrite (e : Env) (l : Bytes) (s : State) : State :=
  if hostFlag e then emit (.hostWrite e.imm l) s else storeMem s e.imm l

/-- A signed number of `n` bits. -/
def signed (n v : Nat) : Int := if v % 2 ^ n < 2 ^ (n - 1) then (v % 2 ^ n : Nat) else (v % 2 ^ n : Nat) - (2 : Int) ^ n

end Sys2Proof.Machine
end

