-- ==== Sys2Proof/Machine/Context.lean ====
section
/-! DEFINITION. Programs and contexts: the instruction boundary with base images and the checkpoint (R322, R323), the
end of programs and their completion records (R316, R317), statuses (R308), and operations that complete later (R309). -/

namespace Sys2Proof.Machine

/-- Whether programs and handlers run: a complex is active, and no base image, gap or planned switch-over holds it (R322,
R325, R329). -/
def executing (s : State) : Bool :=
  s.seq.active.isSome && decide (s.seq.stoppedUntil ≤ s.clk.root) && !s.seq.goOwed && s.seq.going.isNone

/-! ### Checkpoint -/

/-- What a base image or a commit holds of the active complex (R322, R323). -/
def snapshot (root : Nat) (q : Seq) : Image :=
  { ctxs := q.ctxs, bindings := q.bindings, mem := q.mem, cseq := q.cseq, holdoff := q.holdoff
    consumers := q.queues.map (fun p => (p.1, p.2.consumer))
    enables := q.queues.map (fun p => (p.1, p.2.enabled))
    masks := q.queues.map (fun p => (p.1, p.2.mask))
    limits := q.queues.filterMap (fun p => p.2.prog.map (fun g => (p.1, g.expiry - root)))
    stagedId := q.staged.map (·.1), entries := q.journal }

/-- A commit: an entry that closes a command status, a program start or end, a YIELD or a wait (R323). -/
def commit (s : State) : State :=
  let q := { s.seq with journal := s.seq.journal + 1 }
  { s with seq := { q with image := snapshot s.clk.root q } }

/-- A base image is written: program execution stops for 8 320 QCLK (R322). -/
def baseImage (s : State) : State :=
  { s with seq := { s.seq with
      journal := 0, baseGen := s.seq.baseGen + 1, ckptValid := true, badCw := []
      image := { snapshot s.clk.root s.seq with entries := 0 }
      stoppedUntil := max s.clk.root s.seq.stoppedUntil + 8320 * 8 } }

/-- The instruction boundary: a full journal or a bad copy makes a base image first (R322, R324). -/
def boundary (s : State) : State :=
  if decide (8192 ≤ s.seq.journal) || !s.seq.badCw.isEmpty then baseImage s else s

/-- The clock when an instruction that costs `n` QCLK has been issued (R341), after any stop of program execution. -/
def issue (n : Nat) (s : State) : State := advance (max s.clk.root s.seq.stoppedUntil + 8 * n) s

/-! ### Ends of programs and handlers -/

/-- The completion record (R317) of queue `q` ending with status `st`. -/
def completionRecord (s : State) (q st : Nat) (p : Prog) (c : Ctx) : Bytes :=
  let n := getQueue s q
  let phase := if (n.consumer / 2 ^ n.size) % 2 = 0 then 1 else 0
  let bits := bn c.switched * 2 ^ 15 + bn (activeNow s == some 1) * 2 ^ 14 + phase * 2 ^ 13
  beBytes 4 p.tag ++ beBytes 1 st ++ beBytes 1 (c.last % 128) ++ beBytes 2 bits ++ beBytes 8 (readReg c 1).toNat ++
    beBytes 12 (todForm s.clk.tod) ++ beBytes 4 0

/-- The program of queue `q` ends with status `st`: data window written back, record written, consumer index advanced,
interrupt cause set, in this order (R316, R519). A record that the link cannot carry counts as lost (R513). The
record of a program that came over the Trellis returns as service 3 (R501). A queue that was to be disabled is disabled
with it (R518), and after a reset of the host interface nothing is written (R512). -/
def endProgram (q st : Nat) (s : State) : State :=
  let n := getQueue s q
  match n.prog with
  | none => s
  | some p =>
    let c := getCtx s (queueCtx q)
    let rec_ := completionRecord s q st p c
    let win := readMem s (winBase q) (p.dlen * 16)
    let s := setCtx s (queueCtx q) { c with run := .idle }
    let n := { n with enabled := n.enabled && decide (p.cut ≠ some true) }
    let s :=
      if p.cut = some false then setQueue s q { n with prog := none } else
      match p.relay with
      | some (src, relay) =>
        answerService src relay 3 (rec_ ++ if p.rdata then win else [])
          (setQueue s q { n with prog := none })
      | none =>
        let s := journalEntry (setQueue s q { n with prog := none, consumer := (n.consumer + 1) % 2 ^ 16 })
        if s.hostIf.linkUp then
          let s := if p.rdata then emit (.hostWrite p.data win) s else s
          let s := emit (.hostWrite (n.qc + 32 * (n.consumer % 2 ^ n.size)) rec_) s
          if p.irq then setCause q s else s
        else bump 20 0 3 48 1 s
    commit s

/-- A handler ends (R319): its context is free. -/
def endHandler (k : Nat) (s : State) : State := commit (setCtx s k { getCtx s k with run := .idle })

/-- A program or handler ends: a handler has no status. -/
def endContext (k st : Nat) (s : State) : State :=
  if isQueueCtx k then endProgram (ctxNum k) st s else endHandler k s

/-! ### Statuses -/

/-- SR and E take a status (R308). -/
def reportStatus (st : Nat) (c : Ctx) : Ctx := { c with sr := st, e := statusSetsE st }

/-- The address of the instruction after the one at the program counter. -/
def nextPc (c : Ctx) : Nat := c.pc + 16

/-- Index of the instruction at the program counter of a queue context. -/
def pcIndex (k : Nat) (c : Ctx) : Nat := if isQueueCtx k then (c.pc - bufBase (ctxNum k)) / 16 else c.last

/-- Whether the instruction at the program counter is the last one of its program, or of its buffer (R316). -/
def atLast (s : State) (k : Nat) : Bool :=
  match (getQueue s (ctxNum k)).prog with
  | some p => isQueueCtx k && (pcIndex k (getCtx s k) + 1 == p.len || pcIndex k (getCtx s k) == 127)
  | none => false

/-- Whether the program of context `k` stops at an instruction that sets E (R314). -/
def stopsOnErr (s : State) (k : Nat) : Bool :=
  match (getQueue s (ctxNum k)).prog with
  | some p => isQueueCtx k && p.stoperr
  | none => false

/-- Whether a context stands at an instruction boundary, or in a wait that the time limit ends (R306, R307). -/
def atBoundary : Run → Bool
  | .ready | .waitEv _ _ _ | .waitSeq _ _ | .waitQ _ | .waitAbs _ | .fence | .waitSlot => true
  | _ => false

/-- At an instruction boundary of context `k`: the program of a queue that is being disabled ends (R316, R512). -/
def cutAtBoundary (k : Nat) (s : State) : State :=
  match (getQueue s (ctxNum k)).prog with
  | some p => if isQueueCtx k && p.cut.isSome then endContext k stAborted s else s
  | none => s

/-- The instruction at the program counter of context `k` is done with status `st` (none: it reports none); its program
stands at the next one. -/
def stepOver (k : Nat) (st : Option Nat) (s : State) : State :=
  let c := getCtx s k
  setCtx s k { (match st with | some v => reportStatus v c | none => c) with
    pc := nextPc c, last := pcIndex k c, run := .ready }

/-- The status with which a program ends after the instruction at the program counter, if it ends: STOPERR, then the last
instruction (R316). -/
def endOf (k : Nat) (st : Option Nat) (s : State) : Option Nat :=
  if st.any statusSetsE && stopsOnErr s k then st else if atLast s k then some stOk else none

/-- The instruction at the program counter is done: STOPERR, the last instruction and a queue being disabled end the program
(R316). -/
def finish (k : Nat) (st : Option Nat) (s : State) : State :=
  let s' := stepOver k st s
  match endOf k st s with
  | some v => endContext k v s'
  | none => cutAtBoundary k s'

/-- The instruction at the program counter keeps its context waiting; it is not done. One that has begun is the last
instruction executed of its program (R317; DEDUCED); one that waits for a place on the fabric has not begun. The change of
its run state joins the journal (R323). -/
def wait (k : Nat) (r : Run) (s : State) : State :=
  let c := getCtx s k
  journalEntry (setCtx s k { c with run := r, last := if r = .waitSlot then c.last else pcIndex k c })

/-! ### Operations that complete later (R309, R479) -/

/-- The operation with CSEQ `cseq` raises its completion event `code`: status, AUX, DATA. Its context's FENCE ends when
nothing more is pending, and a WAIT.EV with SEQ that comes later finds the event (R309, R343). -/
def complete (code cseq st aux data : Nat) (s : State) : State :=
  let e : Ev := { code := code, obj := cseq % 2 ^ 32, status := st, aux := aux, data := data
                  at_ := s.clk.root, time := s.clk.tod, flags := cplxFlag s, lost := min s.book.lost 255 }
  let owner := (s.seq.pendOps.find? (fun p => p.cseq == cseq)).map (·.ctx)
  let rest := s.seq.pendOps.filter (fun p => p.cseq != cseq)
  let s := raiseEv e { s with seq := { s.seq with pendOps := rest } }
  match owner with
  | none => s
  | some k =>
    let c := getCtx s k
    let s := if c.lastPending = some cseq then setCtx s k { c with doneEv := some e } else s
    if c.run = .fence && rest.all (fun p => p.ctx != k) && executing s then commit (finish k (some stOk) s) else s

/-- An operation that a side effect has ended: its event is raised by COMMAND_COMPLETION (R309). -/
def endPending (cseq st aux data : Nat) (s : State) : State :=
  { s with seq := { s.seq with pendOps := s.seq.pendOps.map (fun p =>
      if p.cseq = cseq then { p with ended := some (st, aux, data) } else p) } }

/-! ### Waits and programs that end later -/

/-- The 32 octets of a Cellar Book record (R478). -/
def recBytes (e : Ev) (rep : Nat) : Bytes :=
  beBytes 2 e.code ++ beBytes 2 rep ++ beBytes 1 e.status ++ beBytes 1 e.aux ++ beBytes 1 e.flags ++
    beBytes 1 e.lost ++ beBytes 12 (todForm e.time) ++ beBytes 4 e.obj ++ beBytes 8 e.data

/-- The four words of a record, octets 0 to 7 in w1 (R319, R343). -/
def recRegs (l : Bytes) : List (Nat × Word64) :=
  (List.range 4).map (fun i => (i + 1, BitVec.ofNat 64 (beNat ((l.drop (8 * i)).take 8))))

/-- A wait ends on an event: its record goes to w1 to w4 and ST_OK is reported (R343). -/
def endWaitOn (k : Nat) (l : Bytes) (s : State) : State :=
  commit (finish k (some stOk) (setCtx s k (writeRegs (getCtx s k) (recRegs l))))

/-- TLIMIT in root cycles: 0 means 10 000 µs (R314). -/
def limitOfProg (v : Nat) : Nat := (if nf v 331 312 = 0 then 10000 else nf v 331 312) * usec

/-- The program of a descriptor, its time limit counted from now. -/
def progOf (root v : Nat) : Prog :=
  { len := nf v 383 376, dlen := nf v 375 368, stoperr := nb v 367, rdata := nb v 366, irq := nb v 365
    tag := nf v 363 332, data := nf v 447 384, expiry := root + limitOfProg v }

/-- A program ends before its first instruction: it has no data window to write back (R315). -/
def endUnstarted (q : Nat) (p : Prog) (st : Nat) (s : State) : State :=
  endProgram q st (setQueue s q { getQueue s q with prog := some { p with rdata := false } })

/-- What a context owes its boundary is done (R316, R337, R343). -/
def payDue (k : Nat) (d : Due) (s : State) : State :=
  match d with
  | .status st => commit (finish k (some st) s)
  | .record r => endWaitOn k (beBytes 32 r) s
  | .ends st => endProgram (ctxNum k) st s
  | .unstarted st =>
    match (getQueue s (ctxNum k)).prog with
    | some p => endUnstarted (ctxNum k) p st s
    | none => s

/-- Whether a FENCE has nothing left to wait for (R309). -/
def fenceOver (s : State) (k : Nat) : Bool :=
  decide ((getCtx s k).run = .fence) && s.seq.pendOps.all (fun p => p.ctx != k)

/-- Whether the program of a context is to end at the boundary at which it stands (R316, R512). -/
def cutDue (s : State) (k : Nat) : Bool :=
  isQueueCtx k && atBoundary (getCtx s k).run && ((getQueue s (ctxNum k)).prog.bind (·.cut)).isSome

/-- Whether something awaits the next boundary of a context. -/
def owing (s : State) (k : Nat) : Bool := (getCtx s k).due.isSome || fenceOver s k || cutDue s k

/-- A context comes to its boundary. -/
def settleCtx (s : State) (k : Nat) : State :=
  match (getCtx s k).due with
  | some d => payDue k d (setCtx s k { getCtx s k with due := none })
  | none => if fenceOver s k then commit (finish k (some stOk) s) else if cutDue s k then cutAtBoundary k s else s

end Sys2Proof.Machine
end

