-- ==== Sys2Proof/Machine/Rootstock.lean ====
section
/-! DEFINITION. The rootstock image and what follows from it (14_boot_and_vintage.md): header fields, measurement
registers (R411), commits (R406), and the rootstock's start (R408). -/

namespace Sys2Proof.Machine

/-! ### Image header fields -/

/-- Octets of a string from offset `o`, `n` of them. -/
def mb (m : Bytes) (o n : Nat) : Bytes := fit n (m.drop o)

/-- FLAGS of an image: bit 0 ANCHORUPD, bit 1 COMMITSVN, bit 2 DEBUG. -/
def imgFlags (m : Bytes) : Nat := mf m 5 1
/-- SVN. -/
def imgSvn (m : Bytes) : Nat := mf m 12 4
/-- CODELEN. -/
def imgCodeLen (m : Bytes) : Nat := mf m 24 4
/-- DATALEN. -/
def imgDataLen (m : Bytes) : Nat := mf m 28 4
/-- ENTRY. -/
def imgEntry (m : Bytes) : Nat := mf m 32 4
/-- The code. -/
def imgCode (m : Bytes) : Bytes := mb m 8192 (imgCodeLen m)
/-- The data. -/
def imgData (m : Bytes) : Bytes := mb m (8192 + imgCodeLen m) (imgDataLen m)
/-- PROVANCHOR. -/
def imgProvAnchor (m : Bytes) : Bytes := mb m 96 48
/-- NEXTANCHOR. -/
def imgNextAnchor (m : Bytes) : Bytes := mb m 144 48
/-- The image digest. -/
def imgDigest (m : Bytes) : Bytes := sha384 (mb m 0 2944)

/-! ### Anchor, minimum SVN, measurement registers (R404, R406, R411) -/

/-- The anchor in force. -/
def anchorNow (s : State) : Bytes := s.boot.anchor.getD Config.factoryAnchor

/-- A measurement register. -/
def measReg (s : State) (i : Nat) : Bytes := tabGet (List.replicate 48 0) s.boot.regs i

/-- Register `i` is extended with `v`. -/
def extendReg (i : Nat) (v : Bytes) (s : State) : State :=
  { s with boot := { s.boot with
      regs := tabSet (List.replicate 48 0) s.boot.regs i (sha384 (measReg s i ++ v)) } }

/-- An update of MRAM record `k` goes to the cell after the one in use (R404). -/
def turnRecord (k : Nat) (s : State) : State :=
  { s with boot := { s.boot with cells := tabSet 0 s.boot.cells k ((tabGet 0 s.boot.cells k + 1) % 64) } }

/-- The commits of an image (R406); an anchor that is installed extends M2. -/
def commitImage (m : Bytes) (s : State) : State :=
  let s :=
    if nb (imgFlags m) 0 then
      let s := turnRecord 0 s
      extendReg 2 (imgNextAnchor m) { s with boot := { s.boot with anchor := some (imgNextAnchor m) } }
    else s
  if nb (imgFlags m) 1 && decide (s.boot.minSvn < imgSvn m) then
    let s := turnRecord 1 s
    { s with boot := { s.boot with minSvn := imgSvn m } }
  else s

/-- The boot flags, FLAGS of the Vintage statement. -/
def bootFlags (s : State) : Nat :=
  bn s.vault.vaultEmpty + 2 * bn s.boot.flagDebug + 4 * bn s.boot.flagImageB + 8 * bn s.boot.flagRecovery

/-! ### Local memory of a rootstock -/

/-- The area [`lo`, `hi`) of local memory filled with octets from its start and zeros after them. -/
def loadArea (lo hi : Nat) (l : Bytes) (s : State) : State :=
  { s with seq := { s.seq with
      mem := memWrite (s.seq.mem.filter (fun p => decide (p.1 < lo) || decide (hi ≤ p.1))) lo l } }

/-- The code area takes the code of an image (R332, R408). -/
def loadCode (m : Bytes) (s : State) : State := loadArea 0 0x20000 (imgCode m) s

/-- The rootstock starts afresh (R408): code and data in place, the context of handler level 0 at ENTRY, w1 the flash
offset and w2 the boot flags. That it starts in this context is DEDUCED (log entry 18): it is the first in the order of R310, and
only handler contexts execute the code area. -/
def startRootstock (s : State) : State :=
  let m := s.boot.image
  let s := loadArea 0x60000 0x70000 (imgData m) (loadCode m s)
  setCtx s (handlerCtx 0)
    (writeRegs { pc := imgEntry m, run := .ready }
      [(1, BitVec.ofNat 64 s.boot.offset), (2, BitVec.ofNat 64 (bootFlags s))])

/-- A staged image takes over (R332, R411, R413): its code is in place; on a planned switch-over it is committed (R406). -/
def takeStaged (m : Bytes) (offset : Nat) (planned : Bool) (s : State) : State :=
  let s := if planned then commitImage m s else s
  let s := extendReg 1 (imgDigest m) s
  { s with boot := { s.boot with image := m, offset := offset, flagImageB := false, flagRecovery := false } }

end Sys2Proof.Machine
end

