-- ==== Sys2Proof/Machine/VaultStore.lean ====
section
/-! DEFINITION. What stands behind the Key Vault: the MRAM cells of the Graft counters (R361) and the DRBG (R378). -/

namespace Sys2Proof.Machine

/-! ### The cells of a Graft counter (R361) -/

/-- A cell with a value: 8 octets, their CRC-32C, 4 zero octets. -/
def cellOf (v : Nat) : Nat := v * 2 ^ 64 + crc32c (beBytes 8 v) * 2 ^ 32

/-- The value of a cell. -/
def cellValue (w : Nat) : Nat := w / 2 ^ 64

/-- Whether the CRC of a cell holds. -/
def cellGood (w : Nat) : Bool := decide (crc32c (beBytes 8 (cellValue w)) = w / 2 ^ 32 % 2 ^ 32)

/-- A cell whose write was torn or failed: its CRC does not hold. What else it holds nothing reads. -/
def tornCell (v : Nat) : Nat := v * 2 ^ 64 + (crc32c (beBytes 8 v) ^^^ 1) * 2 ^ 32

/-- The cell with the largest value whose CRC holds, and that value; with none written, cell 0 and 0 (DESIGN CHOICE: the spec does
not say which of equal cells is the current one). -/
def currentCell (m : Mram) : Nat × Nat :=
  m.cells.foldl (fun b p =>
    if cellGood p.2 && !m.retired.contains p.1 && decide (b.2 < cellValue p.2) then (p.1, cellValue p.2) else b) (0, 0)

/-- The Graft counter of a domain. -/
def graftCounter (s : State) (d : Nat) : Nat := (currentCell (tabGet {} s.vault.mram d)).2

/-- The cell after the current one that is not retired. -/
def nextCell (m : Mram) : Option Nat :=
  ((List.range 64).map (fun i => ((currentCell m).1 + 1 + i) % 64)).find? (fun i => !m.retired.contains i)

/-- A cell is written. -/
def putCell (domain i w : Nat) (s : State) : State :=
  let m := tabGet {} s.vault.mram domain
  { s with vault := { s.vault with mram := tabPut s.vault.mram domain { m with cells := tabPut m.cells i w } } }

/-! ### The DRBG (R378) -/

/-- `n` blocks of the counter, from V + 1 on. -/
def ctrBlocks (key : Nat) : Nat → Nat → Bytes
  | 0, _ => []
  | n + 1, v => beBytes 16 (aesEnc 256 key ((v + 1) % 2 ^ 128)) ++ ctrBlocks key n ((v + 1) % 2 ^ 128)

/-- The update of CTR_DRBG with AES-256 (SP 800-90A): key and V after 48 octets have been taken in. -/
@[irreducible] def ctrUpdate (data : Bytes) (kv : Nat × Nat) : Nat × Nat :=
  let t := (ctrBlocks kv.1 3 kv.2).zipWith (· ^^^ ·) (fit 48 data)
  (beNat (t.take 32), beNat (t.drop 32))

/-- The chaining function of the derivation function. -/
def ctrBcc (key : Nat) (l : Bytes) : Nat := (blocks l).foldl (fun c b => aesEnc 256 key (c ^^^ b)) 0

/-- Its key: the octets 0 to 31. -/
def dfKey : Nat := beNat ((List.range 32).flatMap (beBytes 1))

/-- The derivation function (SP 800-90A): 48 octets of a string. -/
@[irreducible] def ctrDf (l : Bytes) : Bytes :=
  let m := beBytes 4 l.length ++ beBytes 4 48 ++ l ++ beBytes 1 0x80
  let m := m ++ List.replicate ((16 - m.length % 16) % 16) 0
  let t := (List.range 3).flatMap (fun i => beBytes 16 (ctrBcc dfKey (beBytes 4 i ++ List.replicate 12 0 ++ m)))
  let k := beNat (t.take 32)
  let x1 := aesEnc 256 k (beNat (t.drop 32))
  let x2 := aesEnc 256 k x1
  beBytes 16 x1 ++ beBytes 16 x2 ++ beBytes 16 (aesEnc 256 k x2)

/-- What the source supplies: 384 bits of entropy input, conditioned by SHA-384 out of 1 024 raw bits, with a nonce. -/
def entropyInput (s : State) : Bytes × State :=
  (sha384 (fit 128 (Config.rawBits s.drawn)) ++ fit 16 (Config.entropyNonce s.drawn), { s with drawn := s.drawn + 1 })

/-- The DRBG takes new entropy into its key and V. -/
def drbgSeed (kv : Nat × Nat) (s : State) : State :=
  let e := entropyInput s
  let n := ctrUpdate (ctrDf e.1) kv
  { e.2 with vault := { e.2.vault with drbgKey := n.1, drbgV := n.2 } }

/-- A generate request for `n` octets (R378). -/
def internalRandom (n : Nat) (s : State) : Bytes × State :=
  let v := s.vault
  let k := (n + 15) / 16
  let kv := ctrUpdate [] (v.drbgKey, (v.drbgV + k) % 2 ^ 128)
  (fit n (ctrBlocks v.drbgKey k v.drbgV),
    { s with vault := { v with drbgRequests := v.drbgRequests + 1, drbgKey := kv.1, drbgV := kv.2 } })

end Sys2Proof.Machine
end

