-- ==== Sys2Proof/Machine/Vintage.lean ====
section
/-! DEFINITION. The attribute words of Key Vault slots (R353 to R355), the body of the Vintage statement (R412) and the edge at
which the Press starts one (R414). -/

namespace Sys2Proof.Machine

/-! ### Attribute words -/

/-- TYPE of an attribute word. -/
def attrType (a : Nat) : Nat := nf a 31 28
/-- DOMAIN of an attribute word. -/
def attrDomain (a : Nat) : Nat := nf a 19 16
/-- GENERATION of an attribute word. -/
def attrGen (a : Nat) : Nat := nf a 11 0

/-- The usage bits [27:20] that a type permits (R354). -/
def usageOf (typ : Nat) : Nat :=
  match typ with
  | 1 => 0xF1
  | 2 => 0xC0
  | 3 | 4 | 5 => 0x0C
  | 6 => 0x04
  | 7 => 0x08
  | 8 => 0x02
  | _ => 0

/-- Octets of payload that a type uses (R354); an anchor digest has 48 (R355). -/
def usedLength (attr : Nat) : Nat :=
  match attrType attr with
  | 1 | 3 | 7 => 32
  | 2 => 16
  | 4 => 48
  | 8 => if nb attr 14 && !nb attr 21 then 48 else 64
  | 0 => 0
  | _ => 64

/-! ### The Vintage statement -/

/-- General slots with PROOF = 1, in ascending order. -/
def proofSlots (s : State) : List Nat := ((List.range 240).map (· + 16)).filter (fun i => nb (getSlot s i).attr 13)

/-- Octets of the statement. -/
def vintageLength (s : State) : Nat := 4992 + 32 * (proofSlots s).length + 4723

/-- "VKCV". -/
def proofLabel : Bytes := beBytes 4 0x564B4356

/-- A proof entry. -/
def proofEntry (s : State) (i : Nat) : Bytes :=
  let k := getSlot s i
  beBytes 1 i ++ beBytes 3 0 ++ beBytes 4 k.attr ++
    (sha384 (proofLabel ++ beBytes 1 i ++ beBytes 4 k.attr ++ fit (usedLength k.attr) k.payload)).take 24

/-- The identification word: silicon revision B0 and the ordering code of the part (R1, R2, R412). -/
def identWord : Nat := if Config.orderT then 0x6400B054 else 0x6400B055

/-- The public key of a P-384 system slot. -/
def slotPoint (s : State) (i : Nat) : Bytes :=
  pointBytes 2 (ecMul 2 (beNat (fit 48 (getSlot s i).payload)) (curveG 2))

/-- The part of a statement body before the measurement registers. -/
def vintageHead (nonce : Bytes) (tod : Nat) (s : State) : Bytes :=
  beBytes 4 0x56494E54 ++ beBytes 1 1 ++ beBytes 1 (bootFlags s) ++ beBytes 2 (proofSlots s).length ++
  beBytes 4 identWord ++ beBytes 4 Config.romVer ++ fit 32 nonce ++ fit 32 s.boot.devid ++
  beBytes 12 (todForm tod) ++ beBytes 4 s.boot.bootCount ++ beBytes 4 s.boot.minSvn ++
  beBytes 4 (imgSvn s.boot.image) ++ mb s.boot.image 16 8 ++ imgDigest s.boot.image ++ fit 48 (anchorNow s)

/-- Its measurement registers and counters. -/
def vintageRegs (s : State) : Bytes :=
  (List.range 6).flatMap (measReg s) ++ (List.range 16).flatMap (fun i => beBytes 8 (graftCounter s i))

/-- Its public keys and proof entries. -/
def vintageKeys (s : State) : Bytes :=
  beBytes 16 0 ++ slotPoint s 0 ++ fit 2592 (dsaPub (fit 32 (getSlot s 1).payload)) ++ slotPoint s 3 ++
  fit 1568 (kemPub (fit 64 (getSlot s 2).payload)) ++ (proofSlots s).flatMap (proofEntry s)

/-- Octets 0 to S - 1, with the network time of the snapshot edge (R412). -/
def vintageBody (nonce : Bytes) (tod : Nat) (s : State) : Bytes := vintageHead nonce tod s ++ vintageRegs s ++ vintageKeys s

/-- Whether a statement is under way in the Press. -/
def vintageRuns (s : State) : Bool :=
  match s.press.vintages with
  | v :: _ => v.began.isSome
  | [] => false

/-- Whether a statement waits for the Press. -/
def vintageWaits (s : State) : Bool := !s.press.vintages.isEmpty && !vintageRuns s

/-- Whether the Press is idle: nothing runs, and its working registers are clear (R388, R399). -/
def pressIdle (s : State) : Bool :=
  s.press.running.isNone && !vintageRuns s && decide (s.press.freeAt ≤ s.clk.root)

/-- The Press starts the first statement asked for once it is idle: this is the snapshot edge (R388, R414). -/
def startVintage (s : State) : State :=
  match s.press.vintages with
  | v :: rest =>
    if pressIdle s then
      { s with press := { s.press with vintages := { v with began := some (s.clk.root, s.clk.tod) } :: rest } }
    else s
  | [] => s

/-- A statement that waits starts by root cycle `t` if the Press is idle by then. -/
def settleStart (t : Nat) (s : State) : State :=
  if vintageWaits s && s.press.running.isNone && decide (s.press.freeAt ≤ t) then
    startVintage (advance s.press.freeAt s)
  else s

/-- Once root cycle `t` lies behind the snapshot edge of a statement, its body is what stood at that edge: what changes at the
edge itself is included (R414). -/
def settleSnap (t : Nat) (s : State) : State :=
  match s.press.vintages with
  | v :: rest =>
    match v.began with
    | some (e, tod) =>
      if v.snap.isNone && decide (e < t) then
        { s with press := { s.press with vintages := { v with snap := some (vintageBody v.nonce tod s) } :: rest } }
      else s
    | none => s
  | [] => s

/-- What the Press has begun by itself by root cycle `t`. -/
def settlePress (t : Nat) (s : State) : State := settleSnap t (settleStart t s)

end Sys2Proof.Machine
end

