-- ==== Sys2Proof/Machine/Takeover.lean ====
section
/-! DEFINITION. Takeover (R324 to R331): what the new active complex restores, the takeover edge of a planned switch-over, the
boundaries that wait for the end of a gap; and the form of a hardware event. -/

namespace Sys2Proof.Machine

/-- A context as the new active complex finds it: a command whose status was not committed is sent again under its CSEQ,
a completion event raised since the last commit is not lost, and a program that ran or waited is marked (R327). `now` is
the context at takeover, `sent` the CSEQ of its command whose status returned at the takeover edge. -/
def restoredCtx (sent : Option Nat) (now c : Ctx) : Ctx :=
  { c with
    run := match c.run with
      | .waitStatus _ _ | .waitHost _ | .waitSlot => .ready
      | r => r
    resend := match now.run with
      | .waitStatus q _ => some q
      | _ => sent.orElse (fun _ => now.resend)
    doneEv := if c.lastPending = now.lastPending then now.doneEv else c.doneEv
    due := if c.run = now.run ∧ c.pc = now.pc then now.due else c.due
    switched := c.switched || decide (c.run ≠ .idle) }

/-- The statuses that returned at the edge of now, if any did. -/
def returnedNow (s : State) : Option Returned :=
  match s.seq.returned with
  | some r => if r.edge = qclkEdge s then some r else none
  | none => none

/-- The image that a takeover now restores: that of the last commit before the takeover edge (R327). -/
def imageNow (s : State) : Image :=
  match returnedNow s with
  | some r => r.image
  | none => s.seq.image

/-- The CSEQ of a context's command whose status returned at the edge of now. -/
def sentNow (s : State) (k : Nat) : Option Nat := (returnedNow s).bind (fun r => tabFind r.sent k)

/-- The contexts restored from the checkpoint. -/
def restoreCtxs (s : State) : State :=
  (List.range 32).foldl (fun s k =>
    setCtx s k (restoredCtx (sentNow s k) (getCtx s k) (tabGet {} (imageNow s).ctxs k))) s

/-- A queue as the checkpoint restores it: its group mask, and the time limit of its program, which runs on from the
takeover with what was left of it (R313). Indices and enables are held outside the complexes (R317). -/
def restoredQueue (i : Image) (root q : Nat) (n : Queue) : Queue :=
  { n with
    mask := tabGet 0x1FFF i.masks q
    prog := n.prog.map (fun p => match tabFind i.limits q with
      | some left => { p with expiry := root + left }
      | none => p) }

/-- The queues restored from the checkpoint. -/
def restoreQueues (s : State) : State :=
  (List.range 16).foldl (fun s q => setQueue s q (restoredQueue (imageNow s) s.clk.root q (getQueue s q))) s

/-- Local memory, bindings and hold-off come back from an image, with its journal, whose later entries are discarded; programs run again after a gap of root cycles (R325). -/
def imageBack (i : Image) (gap : Nat) (s : State) : State :=
  { s with seq := { s.seq with
      mem := i.mem, bindings := i.bindings, holdoff := i.holdoff, journal := i.entries, stoppedUntil := s.clk.root + gap } }

/-- Root cycles that the base image of R322 takes away from a gap: it is written before the first instruction where the journal
is full or a copy bad. -/
def baseOwed (s : State) : Nat := if 8192 ≤ (imageNow s).entries ∨ s.seq.badCw ≠ [] then 66560 else 0

/-- A takeover that restores from the checkpoint (R325): the gap is not stated beyond its bound `most`, in root cycles, within
which the base image of R322 falls. -/
def restore (most : Nat) (s : State) : State :=
  let d := draw s
  imageBack (imageNow d.2) (d.1 % (most - baseOwed s + 1)) (restoreQueues (restoreCtxs d.2))

/-- The program of a fetched descriptor ends before it starts (R324). -/
def abortFetched (q : Nat) (s : State) : State :=
  match (getQueue s q).fetched with
  | some d =>
    let s := setQueue s q { getQueue s q with fetched := none }
    endUnstarted q (progOf s.clk.root (beNat (fit 64 d))) stAborted
      (setCtx s (queueCtx q) { getCtx s (queueCtx q) with last := 0 })
  | none => s

/-- Programs that have started or been fetched end with ST_ABORTED and SWITCHED = 1 (R324). -/
def abortAll (s : State) : State :=
  (List.range 16).foldl (fun s q =>
    abortFetched q (endProgram q stAborted (setCtx s (queueCtx q) { getCtx s (queueCtx q) with switched := true }))) s

/-- A cold takeover (R324): the rootstock starts afresh from its image, with empty bindings and view; its base
image falls within the 40 ms. -/
def coldTakeover (s : State) : State :=
  let s := abortAll (raise 0x6007 0 0 s)
  let d := draw s
  baseImage (startRootstock { d.2 with seq := { d.2.seq with
    ctxs := [], bindings := [], mem := [], holdoff := 5
    stoppedUntil := d.2.clk.root + d.1 % (40 * msec - 66560 + 1) } })

/-- Health of a complex. -/
def health (s : State) (x : Nat) : Health := if x = 0 then s.seq.healthA else s.seq.healthB

/-- Writes the health of a complex. -/
def setHealth (x : Nat) (h : Health) (s : State) : State :=
  if x = 0 then { s with seq := { s.seq with healthA := h } } else { s with seq := { s.seq with healthB := h } }

/-- A new base image at a takeover, within its gap (R332). -/
def freshBase (s : State) : State :=
  { s with seq := { s.seq with
      journal := 0, baseGen := s.seq.baseGen + 1, image := { snapshot s.clk.root s.seq with entries := 0 } } }

/-- The restore of a takeover: from the checkpoint, with staged code in place and a new base image where an image is
staged (R332); cold where the checkpoint is not valid. -/
def restoreOrCold (most : Nat) (s : State) : State :=
  if s.seq.ckptValid then
    let c := restore most s
    match s.seq.staged with
    | some (_, m) => freshBase (loadCode m c)
    | none => c
  else coldTakeover s

/-- Complex `x` becomes active (R325), with the block-engine registers empty (R375) and its event; one that has had a complex
fault returns to active so (R330). `go` is whether the switch-over is a planned one. -/
def takeControl (go : Bool) (x most : Nat) (s : State) : State :=
  let back := if s.seq.faulted.contains x then tabPut s.seq.returnedAt x s.clk.root else s.seq.returnedAt
  let s := { s with seq := { s.seq with
                      active := some x, goOwed := false, going := none, holdoffEnd := none
                      took := (s.clk.root, s.seq.active), returnedAt := back }
                    vault := { s.vault with bk := [] } }
  let s := setHealth x .active s
  let s := match s.seq.staged with
    | some (o, m) => takeStaged m o go s
    | none => s
  let s := restoreOrCold most s
  raiseComplex 0x6002 x { s with seq := { s.seq with staged := none } }

/-- The longest gap after a fault, 30 µs (R325). -/
def faultGap : Nat := 30 * usec

/-- The restore of a planned switch-over: its gap is at most 14.9 µs with the base image before the takeover edge, 21.6 µs with a
staged image (R329, R332). -/
def plannedGap (s : State) : Nat := (if s.seq.staged.isSome then 216000 else 149000) - 66568

/-- The takeover edge of a planned switch-over has come (R329): the other complex becomes active, with an event where it is the
automatic return (R330). -/
def goesOver (auto : Bool) (s : State) : State :=
  match s.seq.active with
  | none => s
  | some x =>
    let t := takeControl true (1 - x) (plannedGap s) (setHealth x .standby s)
    if auto then raise 0x6003 (1 - x) 0 t else t

/-- A planned switch-over whose edge lies before root cycle `t` has been made: a fault detected at the edge itself abandons it
(R331). -/
def settleGo (t : Nat) (s : State) : State :=
  match s.seq.going with
  | some g => if g.1 < t then goesOver g.2 (advance g.1 s) else s
  | none => s

/-- Whether a boundary awaits the end of a stop, or the end of the edge of now. -/
def anyOwing (s : State) : Bool := (List.range 32).any (owing s)

/-- Contexts come to their boundaries once programs run again, and after the edge at which a status returned (R326, R327). -/
def settleDue (t : Nat) (s : State) : State :=
  let e := max s.clk.root s.seq.stoppedUntil
  if e ≤ t && decide (s.clk.root < t) && s.seq.active.isSome && !s.seq.goOwed && s.seq.going.isNone && anyOwing s then
    (List.range 32).foldl settleCtx (advance e s)
  else s

/-- Root cycle `t`, or the takeover edge of a planned switch-over before it. -/
def beforeGo (s : State) (t : Nat) : Nat :=
  match s.seq.going with
  | some g => min t g.1
  | none => t

/-- What the sequencer and the Press have done by themselves by root cycle `t`. -/
def settleSeq (t : Nat) (s : State) : State := settlePress t (settleDue t (settleGo t (settlePress (beforeGo s t) s)))

/-- The state in which the next instruction is issued: a planned switch-over is made, and a stop is over. -/
def toBoundary (s : State) : State :=
  let s := match s.seq.going with
    | some g => settleSeq (g.1 + 1) s
    | none => s
  settleSeq (max s.clk.root s.seq.stoppedUntil + 1) s

/-- The state at root cycle `t`, with what the sequencer and the Press have done by themselves by then. -/
def comeTo (t : Nat) (s : State) : State := advance t (settleSeq t s)

/-- A hardware event at root cycle `t`: the clock comes to `t`; where its condition does not hold then, nothing else
happens. -/
def event (t : Nat) (guard : State → Bool) (eff : State → State) (s : State) : State :=
  let s := comeTo t s
  if guard s then eff s else s

end Sys2Proof.Machine
end

