-- ==== Sys2Proof/Machine/Command.lean ====
section
/-! DEFINITION. How an instruction runs: commands with their sequence numbers (R320, R321), their statuses, and the
instructions inside the sequencer. -/

namespace Sys2Proof.Machine

/-! ### Commands -/

/-- What a command's effect answers: the state, the status, result registers (R338), with ST_PENDING the code of the
completion event, and its result where the operation has already ended and only its event is owed. -/
structure Res where
  s : State
  st : Nat := 0
  regs : List (Nat × Word64) := []
  event : Option Nat := none
  ended : Option (Nat × Nat × Nat) := none
  deriving DecidableEq, Repr

/-- A command: opcode, named X bits, whether its words ask for a PCIe transfer, whether it reads the row of a slot (the burst of
its word is then one of that row), the checks of its fields (R37), its own checks in the order of its chapter, and its effect. -/
structure Cmd where
  op : Nat
  xm : Nat := 0
  host : Env → Bool := fun _ => false
  slotRow : Bool := false
  fmt : Env → State → List Check := fun _ _ => []
  own : Env → State → List Check := fun _ _ => []
  eff : Env → State → Res

/-- The opcode group (R313). -/
def groupOf (op : Nat) : Nat := op / 16

/-- The content of a command, which stands for its digest (R320). -/
def digestOf (op : Nat) (e : Env) : List Nat := [op, e.a, e.b, e.imm, e.x]

/-- Commands outstanding on the fabric (R311). -/
def outstanding (s : State) : Nat :=
  ((List.range 32).filter (fun k => match (getCtx s k).run with | .waitStatus _ _ => true | _ => false)).length

/-- The checks of the word and its fields: the status that the instruction ends with before any command leaves. -/
def cmdFieldStatus (c : Cmd) (w : IWord) (e : Env) (s : State) : Nat :=
  let st := fieldFail (wordChecks c.xm w ++ c.fmt e s)
  if st ≠ 0 then st
  else if nb (ctxMask s e.k) (groupOf c.op) then stOk else stAttr

/-- The block's SRAM as a command finds it struck by a burst: one of up to 16 adjacent bits is corrected on read and counted
(R32). -/
def sramRead (n : Nat) (s : State) : State :=
  if n = 0 ∨ 16 < n then s else { s with power := { s.power with sramFixed := s.power.sramFixed + 1 } }

/-- The block applies a command: a transfer that fails or that the link cannot carry (R337, R513: both are completion
errors, DEDUCED), its own checks, then its effect. A burst in the block's SRAM that its ECC cannot correct ends the command with
ST_FAULT (DEDUCED; log entry 124). -/
def applyCmd (c : Cmd) (e : Env) (s : State) : Res :=
  if c.host e && (!s.hostIf.linkUp || decide (e.host = .error)) then { s := bump 20 0 1 48 1 s, st := stFault }
  else
    let s := if c.slotRow then s else sramRead e.burst s
    let st := if !c.slotRow && decide (16 < e.burst) then stFault else firstFail (c.own e s)
    if st ≠ 0 then { s := s, st := st } else c.eff e s

/-- A block keeps the last 16 commands it applied (R320). -/
def keepCmd (op : Nat) (e : Env) (st : Nat) (s : State) : State :=
  let g := groupOf op
  let l := ({ cseq := e.cseq, digest := digestOf op e, status := st } :: tabGet [] s.seq.kept g).take 16
  { s with seq := { s.seq with kept := tabSet [] s.seq.kept g l
                               applied := tabSet 0 s.seq.applied g (max e.cseq (tabGet 0 s.seq.applied g)) } }

/-- An operation that answered ST_PENDING is pending until it raises its completion event (R309). -/
def addPending (e : Env) (r : Res) : State :=
  match r.event with
  | some ev =>
    if r.st = stPending then
      { r.s with seq := { r.s.seq with
          pendOps := r.s.seq.pendOps ++ [{ cseq := e.cseq, ctx := e.k, event := ev, ended := r.ended }] } }
    else r.s
  | none => r.s

/-- A command arrives at its block (R321): a new CSEQ is applied; a kept one with the same content answers its kept
status; any other one is refused with ST_ABORTED and an event. What the result registers of a command answered from
its kept status hold is not stated: they take free values. -/
def deliver (c : Cmd) (e : Env) (s : State) : Res :=
  if tabGet 0 s.seq.applied (groupOf c.op) < e.cseq then
    let r := applyCmd c e s
    { r with s := keepCmd c.op e r.st (addPending e r) }
  else
    match (tabGet [] s.seq.kept (groupOf c.op)).find? (fun k => k.cseq == e.cseq) with
    | some k =>
      if k.digest = digestOf c.op e then
        let regs := (applyCmd c e s).regs
        { s := { s with drawn := s.drawn + regs.length }, st := k.status
          regs := regs.mapIdx (fun i p => (p.1, BitVec.ofNat 64 (Config.measured (s.drawn + i)))) }
      else { s := raise 0x6009 (e.cseq % 2 ^ 32) 0 s, st := stAborted }
    | none => { s := raise 0x6009 (e.cseq % 2 ^ 32) 0 s, st := stAborted }

/-- What a takeover at the edge of now must know of a command whose status returns at it (R327). -/
def noteReturn (k cseq : Nat) (s : State) : State :=
  let r : Returned := match s.seq.returned with
    | some r => if r.edge = qclkEdge s then r else ⟨qclkEdge s, [], s.seq.image⟩
    | none => ⟨qclkEdge s, [], s.seq.image⟩
  { s with seq := { s.seq with returned := some { r with sent := (k, cseq) :: r.sent } } }

/-- The status of a command returns to its context (R308, R338) and is committed (R323). A program that ends with it ends
after the edge: a takeover at it sends the command again (R327), and that of GO comes first (R329). -/
def returnStatus (e : Env) (r : Res) : State :=
  let s := r.s
  let c := getCtx s e.k
  let c := if statusSetsE r.st then c else writeRegs c r.regs
  let c := if r.st = stPending then { c with lastPending := some e.cseq, doneEv := none } else c
  let s := setCtx (noteReturn e.k e.cseq s) e.k c
  let s' := stepOver e.k (some r.st) s
  commit (setCtx s' e.k { getCtx s' e.k with due := (endOf e.k (some r.st) s).map Due.ends })

/-- The next CSEQ (R320), or the one under which the context re-sends its command (R327). -/
def takeCseq (k : Nat) (s : State) : Nat × State :=
  match (getCtx s k).resend with
  | some q => (q, setCtx s k { getCtx s k with resend := none })
  | none => (s.seq.cseq, { s with seq := { s.seq with cseq := s.seq.cseq + 1 } })

/-- A command whose fields pass leaves for its block with its CSEQ. -/
def launch (c : Cmd) (w : IWord) (e : Env) (s : State) : State :=
  let e := { e with cseq := (takeCseq e.k s).1 }
  let s := (takeCseq e.k s).2
  match w.via with
  | .answered => returnStatus e (deliver c e s)
  | .lostBefore => wait e.k (.waitStatus e.cseq s.clk.root) s
  | .lostAfter => wait e.k (.waitStatus e.cseq s.clk.root) (deliver c e s).s

/-- A command instruction in context `k`. -/
def runCmdIn (c : Cmd) (w : IWord) (k : Nat) (s : State) : State :=
  let e := resolve s k w
  let st := cmdFieldStatus c w e s
  if st ≠ 0 then finish k (some st) s
  else if 4 ≤ outstanding s then wait k .waitSlot s
  else if c.host e && decide (e.host = .late) && s.hostIf.linkUp then wait k (.waitHost s.clk.root) s
  else launch c w e s

/-- A command instruction: the context of R310 issues it at a cost of 2 QCLK (R341). With no context ready nothing
runs. -/
def runCmd (c : Cmd) (w : IWord) (s : State) : State :=
  match readyCtx (toBoundary s) with
  | none => s
  | some k => runCmdIn c w k (issue 2 (boundary (toBoundary s)))

/-! ### Instructions inside the sequencer (R339, R340) -/

/-- An instruction of the flow or data group: opcode, cost in QCLK, checks in the order of R37 (the group mask comes
last, R336), and its effect on context and state, which also moves the program counter. -/
structure Loc where
  op : Nat
  cost : Env → State → Nat := fun _ _ => 1
  fmt : IWord → Env → State → List Check
  own : Env → State → List Check := fun _ _ => []
  eff : Env → State → State

/-- A flow or data instruction: a failure reports its status and the next instruction follows. -/
def runLoc (c : Loc) (w : IWord) (s : State) : State :=
  match readyCtx (toBoundary s) with
  | none => s
  | some k =>
    let b := boundary (toBoundary s)
    let e := resolve b k w
    let s := issue (c.cost e b) b
    let st := fieldFail (c.fmt w e s)
    if st ≠ 0 then finish k (some st) s
    else if !nb (ctxMask s k) (groupOf c.op) then finish k (some stAttr) s
    else
      let st := firstFail (c.own e s)
      if st ≠ 0 then finish k (some st) s else c.eff e s

end Sys2Proof.Machine
end

