-- ==== Sys2Proof/Machine/Ports.lean ====
section
/-! DEFINITION. Ports: modes (R47), the port setting (R48 to R50), bring-up (R51 to R54), pause (R57 to R60, R572) and
preemption states (R62, R63). -/

namespace Sys2Proof.Machine

/-! ### Port modes (R47) -/

/-- A row of the port modes table: speed code, WIDTH code, lane rate (1 is 10.3125, 2 is 25.78125, 3 is 53.125, 4 is
106.25, 5 is 212.5 Gb/s), FEC codes permitted. -/
structure ModeRow where
  speed : Nat
  width : Nat
  rate : Nat
  fecs : List Nat
  deriving DecidableEq, Repr

/-- The port modes table. -/
def modeTable : List ModeRow :=
  [⟨1, 0, 1, [0]⟩, ⟨2, 0, 2, [0, 1]⟩, ⟨3, 0, 3, [2]⟩, ⟨4, 2, 2, [0, 1]⟩, ⟨4, 1, 3, [2]⟩, ⟨4, 0, 4, [2]⟩,
   ⟨5, 2, 3, [2]⟩, ⟨5, 1, 4, [2]⟩, ⟨5, 0, 5, [2]⟩, ⟨6, 3, 3, [2]⟩, ⟨6, 2, 4, [2]⟩, ⟨6, 1, 5, [2]⟩,
   ⟨7, 3, 4, [2]⟩, ⟨7, 2, 5, [2]⟩, ⟨8, 3, 5, [2]⟩]

/-- The row of a speed and a width. -/
def modeOf (speed width : Nat) : Option ModeRow :=
  modeTable.find? (fun r => r.speed == speed && r.width == width)

/-- Speed in Gb/s of a speed code. -/
def speedGb (code : Nat) : Nat := [0, 10, 25, 50, 100, 200, 400, 800, 1600].getD code 0

/-! ### Fields of the port setting (R48) -/

/-- EN. -/
def psEn (v : Nat) : Bool := nb v 63
/-- SPEED. -/
def psSpeed (v : Nat) : Nat := nf v 62 59
/-- WIDTH. -/
def psWidth (v : Nat) : Nat := nf v 58 57
/-- FEC. -/
def psFec (v : Nat) : Nat := nf v 56 55
/-- MEDIA. -/
def psMedia (v : Nat) : Nat := nf v 54 53
/-- AN. -/
def psAn (v : Nat) : Bool := nb v 52
/-- LT. -/
def psLt (v : Nat) : Bool := nb v 51
/-- ABILITY. -/
def psAbility (v : Nat) : Nat := nf v 50 43
/-- MTU. -/
def psMtu (v : Nat) : Nat := nf v 42 29
/-- FC. -/
def psFc (v : Nat) : Nat := nf v 28 27
/-- HONOUR. -/
def psHonour (v : Nat) : Nat := nf v 26 21
/-- PLIMIT. -/
def psPlimit (v : Nat) : Nat := nf v 20 13
/-- PGEN. -/
def psPgen (v : Nat) : Bool := nb v 12
/-- PREEMPT. -/
def psPreempt (v : Nat) : Bool := nb v 11
/-- ADDFRAG. -/
def psAddfrag (v : Nat) : Nat := nf v 10 9
/-- NOVERIFY. -/
def psNoverify (v : Nat) : Bool := nb v 8
/-- VTIME. -/
def psVtime (v : Nat) : Nat := nf v 7 1

/-- Lanes of a port by its setting. -/
def psLanes (v : Nat) : Nat := 2 ^ psWidth v

/-- A port is enabled unless it is DISABLED (R50). -/
def portEnabled (s : State) (p : Nat) : Bool := (getPort s p).state != .disabled

/-- Lane `l` belongs to port `p` by the port's setting. -/
def laneIn (s : State) (p l : Nat) : Bool :=
  decide (p ≤ l) && decide (l < p + psLanes (getPort s p).setting) && p / 32 == l / 32

/-- The enabled port that a line or host lane belongs to. -/
def portOfLane (s : State) (l : Nat) : Option Nat :=
  (List.range 64).find? (fun p => portEnabled s p && laneIn s p l)

/-- Speed code in use of a port (port state word): 0 while negotiation is unresolved. -/
def portSpeed (s : State) (p : Nat) : Nat := (getPort s p).speedNow

/-- Root cycles that `n` octets take at a port's speed, rounded up. -/
def octTime (s : State) (p n : Nat) : Nat :=
  let g := speedGb (portSpeed s p)
  if g = 0 then 0 else (n * 80 + g - 1) / g

/-- The lane rate of a port's mode in use. -/
def portRate (s : State) (p : Nat) : Nat :=
  ((modeOf (portSpeed s p) (psWidth (getPort s p).setting)).map (·.rate)).getD 0

/-- The FEC in use: the one that the mode requires; where it permits RS(528,514) or none, the setting's, and after a
negotiation RS-FEC if either end requested it, as Clause 73 resolves it (R47, R52). -/
def portFec (s : State) (p : Nat) : Nat :=
  let v := (getPort s p).setting
  match modeOf (portSpeed s p) (psWidth v) with
  | some r => match r.fecs with
    | [c] => c
    | _ => if psAn v then bn (decide (psFec v ≠ 0) || (getPort s p).partnerFec) else psFec v
  | none => 0

/-! ### States (R51) -/

/-- The code of a port state in the port state word. -/
def portStateCode : PortState → Nat
  | .disabled => 0
  | .negotiating => 1
  | .training => 2
  | .aligning => 3
  | .up => 4
  | .test => 5

/-- The code of a preemption state in the port state word. -/
def preemptCode : Preempt → Nat
  | .off => 0
  | .verifying => 1
  | .verified => 2
  | .failed => 3
  | .activeUnverified => 4

/-- A port's preemption state when it leaves UP: it leaves VERIFIED (R63); FAILED holds. -/
def preemptLeavesUp : Preempt → Preempt
  | .verified => .verifying
  | x => x

/-- The preemption state of a port that reaches UP (R62, R63). -/
def preemptAtUp (v : Nat) : Preempt :=
  if !psPreempt v then .off else if psNoverify v then .activeUnverified else .verifying

/-- A port goes to a state at this edge: its timers start, and a change to a different state raises 0x1001. A MAC control frame
of which the last octet has not come is lost with UP (R55). A received pause and the ignoring of pause outlive UP (log
entry 112). -/
def portTo (p : Nat) (st : PortState) (s : State) : State :=
  let o := getPort s p
  let n := { o with state := st, since := s.clk.root }
  let n := if o.state = .up && st ≠ .up then
      { n with preempt := preemptLeavesUp o.preempt, lfault := false, rfault := false, ctl := [] } else n
  let s := setPort s p n
  if o.state = st then s else raise 0x1001 p (portStateCode st) s

/-- The state that a port enters from DISABLED (R51). -/
def entryState (v : Nat) : PortState :=
  if psAn v then .negotiating else if psLt v then .training else .aligning

/-- A port starts its bring-up as from DISABLED. -/
def startBringUp (p : Nat) (s : State) : State :=
  let o := getPort s p
  portTo p (entryState o.setting)
    (setPort s p { o with
      advert := psAbility o.setting
      speedNow := if psAn o.setting then 0 else psSpeed o.setting
      waitUntil := none })

/-- A port restarts its bring-up after a timer or a loss: NEGOTIATING if AN = 1, else the state it entered from
DISABLED. A restart into the same state or into NEGOTIATING raises 0x1002 (R51, R53). -/
def restartBringUp (p : Nat) (s : State) : State :=
  let o := getPort s p
  let dest := entryState o.setting
  let again := decide (dest = o.state) || psAn o.setting
  let s := portTo p dest (setPort s p { o with speedNow := if psAn o.setting then 0 else o.speedNow })
  if again then raise 0x1002 p 0 s else s

/-- A lane of the port is under test or calibration. -/
def portBusyLanes (s : State) (p : Nat) : Bool :=
  (List.range 8).any (fun i =>
    laneIn s p (p + i) && ((getLane s (p + i)).testing || (getLane s (p + i)).calibrating))

/-- A lane enters a test or a FULL calibration: its enabled port goes to TEST (R51). -/
def laneEnters (l : Nat) (s : State) : State :=
  match portOfLane s l with
  | some p => if (getPort s p).state = .test then s else portTo p .test s
  | none => s

/-- A lane has left its test or calibration: a port in TEST none of whose lanes is busy starts afresh (R51). -/
def laneLeaves (l : Nat) (s : State) : State :=
  match portOfLane s l with
  | some p => if decide ((getPort s p).state = .test) && !portBusyLanes s p then startBringUp p s else s
  | none => s

/-! ### PORT.CFG and PORT.STATE -/

/-- The field checks of a port identifier in operand A (R46). -/
def portIdChecks (e : Env) : List Check := [highA e 6]

/-- The checks of a port setting (R49). -/
def portCfgChecks (p v : Nat) : List Check :=
  (nb v 0, stReserved) ::
  if psEn v then
    [(decide (p % 32 % psLanes v ≠ 0), stAlign),
     (decide (psSpeed v ≠ 0) && (modeOf (psSpeed v) (psWidth v)).isNone, stRange),
     (decide (psFec v = 3), stRange),
     (match modeOf (psSpeed v) (psWidth v) with
      | some r => !r.fecs.contains (psFec v)
      | none => false, stRange),
     (decide (psMedia v = 3), stRange),
     ((psAn v || psLt v) && decide (psMedia v = 0), stRange),
     (decide (psSpeed v = 0) && !psAn v, stRange),
     (decide (psAbility v ≠ 0) && !psAn v, stRange),
     (psAn v && decide (psAbility v = 0), stRange),
     (psAn v && (List.range 8).any (fun k => nb (psAbility v) k && (modeOf (k + 1) (psWidth v)).isNone), stRange),
     (decide (psMtu v < 1518 ∨ 10240 < psMtu v), stRange),
     (decide (psFc v = 3), stRange),
     (decide (psFc v ≠ 0 ∧ psPlimit v = 0), stRange),
     (decide (psFc v = 0) && (decide (psHonour v ≠ 0) || psPgen v), stRange),
     (!psPreempt v && (decide (psAddfrag v ≠ 0) || psNoverify v || decide (psVtime v ≠ 0)), stRange)]
  else []

/-- Whether two ports of one side share a lane, the first with setting `v`. -/
def portsOverlap (s : State) (p v q : Nat) : Bool :=
  q != p && q / 32 == p / 32 && decide (q < p + psLanes v) && decide (p < q + psLanes (getPort s q).setting)

/-- PORT.CFG with EN = 1 disables the other enabled ports of the side that share a lane (R50). -/
def disableOverlaps (p v : Nat) (s : State) : State :=
  (List.range 64).foldl (fun s q =>
    if portEnabled s q && portsOverlap s p v q then portTo q .disabled s else s) s

/-- The effect of PORT.CFG (R48, R50, R51). A setting with EN = 1 and PREEMPT = 0 puts preemption OFF (R62); with EN = 0 the
field has no effect (R49). Where a lane of the port is under test already the port starts its bring-up all the same: R51 has
no transition from DISABLED to TEST (DESIGN CHOICE). -/
def portCfgEff (p v : Nat) (s : State) : State :=
  let s := if psEn v then disableOverlaps p v s else s
  let s := portTo p .disabled s
  let o := getPort s p
  let s := setPort s p { o with
    setting := v, speedNow := 0, preempt := if psEn v && !psPreempt v then .off else o.preempt }
  if psEn v then startBringUp p s else s

/-- The command PORT.CFG. -/
def portCfgCmd : Cmd where
  op := 0x23
  fmt e _ := portIdChecks e ++ [zeroB e] ++ portCfgChecks e.a e.imm
  eff e s := { s := portCfgEff e.a e.imm s }

/-- PORT.CFG (R48 to R51). -/
def execPortCfg (w : IWord) (s : State) : Host.Outcome State Fault Refusal := .next (runCmd portCfgCmd w s)

/-- The port state word (w2 after PORT.STATE). -/
def portStateWord (s : State) (p : Nat) : Nat :=
  let o := getPort s p
  bn o.rfault * 2 ^ 17 + bn o.lfault * 2 ^ 16 + portFec s p * 2 ^ 12 + o.speedNow * 2 ^ 8 +
    preemptCode o.preempt * 2 ^ 4 + portStateCode o.state

/-- The command PORT.STATE. -/
def portStateCmd : Cmd where
  op := 0x24
  fmt e _ := portIdChecks e ++ [zeroB e, zeroI e]
  eff e s := { s := s, regs := [(1, BitVec.ofNat 64 (getPort s e.a).setting),
                                (2, BitVec.ofNat 64 (portStateWord s e.a))] }

/-- PORT.STATE (R48). -/
def execPortState (w : IWord) (s : State) : Host.Outcome State Fault Refusal := .next (runCmd portStateCmd w s)

/-! ### Bring-up events -/

/-- The highest speed code whose bit is set, at most `n`. -/
def topAbility : Nat → Nat → Nat
  | 0, _ => 0
  | n + 1, a => if nb a n then n + 1 else topAbility n a

/-- AN_RESOLVED (R51, R52): the highest speed that both ends advertise, and whether the partner requests RS-FEC. With AN = 1
the SPEED of the setting is not looked at: R48 has 0 for a negotiated speed and does not say what another value means there
(DESIGN CHOICE). -/
def execAnResolved (t p : Nat) (x : Partner) (s : State) : Host.Outcome State Fault Refusal :=
  .next (event t
    (fun s => decide ((getPort s p).state = .negotiating) && (getPort s p).waitUntil.isNone &&
      decide (topAbility 8 ((getPort s p).advert &&& x.ability) ≠ 0))
    (fun s =>
      let o := getPort s p
      portTo p (if psLt o.setting then .training else .aligning)
        (setPort s p { o with speedNow := topAbility 8 (o.advert &&& x.ability), partnerFec := x.rsFec })) s)

/-- The lanes of a port take a newly measured margin as the recorded one (R77). What is measured is not stated. -/
def recordMargins (p : Nat) (s : State) : State :=
  (List.range (psLanes (getPort s p).setting)).foldl (fun s i =>
    let d := draw s
    setLane d.2 (p + i) { getLane d.2 (p + i) with recorded := d.1 }) s

/-- TRAINING_COMPLETE (R51). -/
def execTrainingComplete (t p : Nat) (s : State) : Host.Outcome State Fault Refusal :=
  .next (event t (fun s => decide ((getPort s p).state = .training))
    (fun s => portTo p .aligning (recordMargins p s)) s)

/-- The training timer: 500 ms on NRZ lanes, 3 s on PAM4 lanes (R52). -/
def trainingTimer (s : State) (p : Nat) : Nat := if portRate s p ≤ 2 then 500 * msec else 3000 * msec

/-- A failed training in a negotiated mode withdraws the mode; with none left the full set is restored and negotiation
starts again after 1 s (R53). -/
def withdrawMode (p : Nat) (s : State) : State :=
  let o := getPort s p
  let bit := 2 ^ (o.speedNow - 1)
  let left := if nb o.advert (o.speedNow - 1) then o.advert - bit else o.advert
  if left = 0 then
    setPort s p { o with advert := psAbility o.setting, waitUntil := some (s.clk.root + 1000 * msec) }
  else setPort s p { o with advert := left }

/-- TRAINING_TIMEOUT (R51, R53). -/
def execTrainingTimeout (t p : Nat) (s : State) : Host.Outcome State Fault Refusal :=
  .next (event t
    (fun s => decide ((getPort s p).state = .training) &&
      expired s ((getPort s p).since + trainingTimer s p))
    (fun s => restartBringUp p (if psAn (getPort s p).setting then withdrawMode p s else s)) s)

/-- The lanes of a port that has held alignment for 10 ms have held signal and CDR lock as long (R51, R72). -/
def locksHeld (p : Nat) (s : State) : State :=
  (List.range (psLanes (getPort s p).setting)).foldl (fun s i =>
    let l := getLane s (p + i)
    if l.cdrLock then s else setLane s (p + i) { l with cdrLock := true, lockSince := s.clk.root - 10 * msec }) s

/-! ### Loops (R65) -/

/-- What a lane's transmitter sends or its receive path sees. -/
inductive LaneSignal where
  | idle
  | own
  | partner
  deriving DecidableEq, Repr

/-- What the transmitter of a lane in loop `c` sends: near-end serial sends electrical idle, far-end the partner's data
retimed (R65). -/
def loopSends (c : Nat) : LaneSignal := if c = 1 then .idle else if c = 3 then .partner else .own

/-- What the receive path of a lane in loop `c` sees: in both near-end loops its own transmit signal (R65). -/
def loopSees (c : Nat) : LaneSignal := if c = 1 ∨ c = 2 then .own else .partner

/-- What the transmitter of a lane sends: electrical idle while TXOFF holds it (R65, R74). -/
def laneSends (s : State) (l : Nat) : LaneSignal :=
  if nb (getLane s l).setting 61 then .idle else loopSends (nf (getLane s l).test 63 61)

/-- What the receive path of a lane sees (R65). -/
def laneSees (s : State) (l : Nat) : LaneSignal := loopSees (nf (getLane s l).test 63 61)

/-- Whether a lane of a port sends something else than the port's own data: electrical idle under TXOFF or in a near-end
serial loop, the partner's data in a far-end loop. No frame of the port's crosses the balls then (R65, R74). -/
def txIdle (s : State) (p : Nat) : Bool :=
  (List.range (psLanes (getPort s p).setting)).any (fun i => laneSends s (p + i) != .own)

/-- Whether a lane of a port is in a far-end loop: no frames are delivered (R65). -/
def rxLooped (s : State) (p : Nat) : Bool :=
  (List.range (psLanes (getPort s p).setting)).any (fun i => nf (getLane s (p + i)).test 63 61 == 3)

/-- Whether the receive MAC of a port accepts frames: the port is UP (R55), and none of its lanes loops the partner's data
back (R65). -/
def receives (s : State) (p : Nat) : Bool := decide ((getPort s p).state = .up) && !rxLooped s p

/-- A verify mPacket leaves, while the port is verifying (R62), unless its transmitter sends something else (R74). -/
def sendVerify (p : Nat) (s : State) : State :=
  if (getPort s p).preempt = .verifying ∧ txIdle s p = false then emit (.verify p) s else s

/-- ALIGNMENT_HELD (R51, R53, R63): the port is UP, the full ability set is restored, and the preemption state is
recomputed. -/
def execAlignmentHeld (t p : Nat) (s : State) : Host.Outcome State Fault Refusal :=
  .next (event t
    (fun s => decide ((getPort s p).state = .aligning) &&
      decide ((getPort s p).since + 10 * msec ≤ s.clk.root))
    (fun s =>
      let s := portTo p .up (locksHeld p s)
      let o := getPort s p
      sendVerify p (setPort s p { o with advert := psAbility o.setting, preempt := preemptAtUp o.setting
                                         attempts := 1, verifyAt := s.clk.root })) s)

/-- ALIGNMENT_TIMEOUT (R51). -/
def execAlignmentTimeout (t p : Nat) (s : State) : Host.Outcome State Fault Refusal :=
  .next (event t
    (fun s => decide ((getPort s p).state = .aligning) &&
      expired s ((getPort s p).since + 100 * msec))
    (restartBringUp p) s)

/-- NEGOTIATION_RESTART_WAIT (R53). -/
def execNegotiationRestartWait (t p : Nat) (s : State) : Host.Outcome State Fault Refusal :=
  .next (event t
    (fun s => match (getPort s p).waitUntil with
      | some u => decide ((getPort s p).state = .negotiating) && decide (u ≤ s.clk.root)
      | none => false)
    (fun s =>
      let o := getPort s p
      setPort s p { o with waitUntil := none, advert := psAbility o.setting, since := s.clk.root }) s)

/-- A recovered clock output loses its source's signal or lock: it is squelched (R72). -/
def squelchOutputs (l : Nat) (s : State) : State :=
  (List.range 2).foldl (fun s i =>
    let y : SyncE := tabGet {} s.synce i
    if y.source = some l && !y.squelched then
      raise 0x1005 i 0 { s with synce := tabSet {} s.synce i { y with squelched := true } }
    else s) s

/-- Whether the cause is a loss of signal or of CDR lock, which squelches the outputs (R72). -/
def losesLock (c : LossCause) : Bool := decide (c = .signal ∨ c = .cdrLock)

/-- LINK_LOSS (R51, R72): the port of the lane leaves UP; with the loss of signal or CDR lock the outputs that the lane
feeds are squelched. -/
def execLinkLoss (t : Nat) (x : LaneLoss) (s : State) : Host.Outcome State Fault Refusal :=
  .next (event t (fun _ => decide (x.lane < 68))
    (fun s =>
      let l := x.lane
      let s := if losesLock x.cause then
          squelchOutputs l (setLane s l { getLane s l with cdrLock := false, lockSince := s.clk.root })
        else s
      match portOfLane s l with
      | some p => if (getPort s p).state = .up then restartBringUp p s else s
      | none => s) s)

/-- FAULT_SEQUENCE_CHANGE (R54). -/
def execFaultSequenceChange (t p : Nat) (lf rf : Bool) (s : State) : Host.Outcome State Fault Refusal :=
  .next (event t (fun s => decide ((getPort s p).state = .up))
    (fun s => setPort s p { getPort s p with lfault := lf, rfault := rf }) s)

/-- VERIFY_TIMEOUT (R62, R63): three attempts VTIME apart, then FAILED. The counter of verify failures of R56 counts each
port that becomes FAILED, not each attempt without an answer (DESIGN CHOICE: the spec does not say which). -/
def execVerifyTimeout (t p : Nat) (s : State) : Host.Outcome State Fault Refusal :=
  .next (event t
    (fun s =>
      let o := getPort s p
      decide (o.state = .up) && decide (o.preempt = .verifying) &&
        expired s (o.verifyAt + (psVtime o.setting + 1) * msec))
    (fun s =>
      let o := getPort s p
      if o.attempts < 3 then sendVerify p (setPort s p { o with attempts := o.attempts + 1, verifyAt := s.clk.root })
      else raise 0x1004 p 0 (bump 1 p 37 16 1 (setPort s p { o with preempt := .failed }))) s)

/-- VERIFY_RESPOND_RECEIVE (R62). -/
def execVerifyRespondReceive (t p : Nat) (s : State) : Host.Outcome State Fault Refusal :=
  .next (event t
    (fun s => decide ((getPort s p).state = .up) && decide ((getPort s p).preempt = .verifying))
    (fun s => setPort s p { getPort s p with preempt := .verified }) s)

/-! ### MAC checks (R55) and pause (R57 to R60) -/

/-- What R55 finds wrong with a received frame: none, or the place of the counter it adds to. A frame with an uncorrectable
codeword is counted by its codewords. -/
def macFault (s : State) (p : Nat) (l : Bytes) (m : RxMark) : Option Nat :=
  if m = .reassembly then some 35
  else if m = .pcsError then some 24
  else if m = .uncorrectable then some 36
  else if l.length < 64 then some 8
  else if psMtu (getPort s p).setting < l.length then some 17
  else if fcsGood l then none
  else if fcsOf (l.take (l.length - 4)) = (l.drop (l.length - 4)).map (fun b => b ^^^ 0xFF) then some 6
  else some 4

/-- FEC codewords, symbol errors and fragments that a port has received since the row before (R55, R56, R62). The FEC
counters count whatever state the port is in. A frame marked for an uncorrectable codeword came with at least one. -/
def countSeen (p : Nat) (m : RxMark) (v : RxSeen) (s : State) : State :=
  let bad := if m = .uncorrectable then max 1 v.uncorrectable else v.uncorrectable
  let s := bump 1 p 36 48 bad (bump 1 p 34 48 v.corrected (bump 1 p 31 64 v.codewords s))
  let s := (List.range 8).foldl (fun s i => bump 1 p (38 + i) 48 (v.symbols.getD i 0) s) s
  if receives s p then bump 1 p 33 48 v.fragments s else s

/-- A frame that R55 drops is counted at place `k`; what an uncorrectable codeword does to its counter `countSeen` has done. -/
def countFault (p k : Nat) (s : State) : State := if k = 36 then s else bump 1 p k 48 1 s

/-- EtherType of a frame. -/
def etherType (l : Bytes) : Nat := beNat ((l.drop 12).take 2)

/-- The pause state of a class. -/
def getPause (s : State) (p c : Nat) : Pause := tabGet {} (getPort s p).pause c
/-- Writes the pause state of a class. -/
def setPause (s : State) (p c : Nat) (v : Pause) : State :=
  setPort s p { getPort s p with pause := tabSet {} (getPort s p).pause c v }

/-- Whether a class is paused now. -/
def paused (s : State) (p c : Nat) : Bool :=
  match (getPause s p c).until_ with
  | some u => decide (s.clk.root < u)
  | none => false

/-- Root cycles of pause quanta of 512 bit times at the port speed (R57), rounded up to whole root cycles (DESIGN CHOICE). -/
def quantaTime (s : State) (p q : Nat) : Nat :=
  let g := speedGb (portSpeed s p)
  if g = 0 then 0 else (q * 5120 + g - 1) / g

/-- The class below in the round of R242. -/
def nextClass (c : Nat) : Nat := if c = 0 then 5 else c - 1

/-- The visit of the round robin to class `c` of a port ends (R242). -/
def endVisit (p c : Nat) (s : State) : State :=
  let o := getPort s p
  if o.rrOpen && o.rrClass == c then setPort s p { o with rrClass := nextClass c, rrOpen := false } else s

/-- A class takes a pause time that runs from root cycle `from_` (R58 to R60): a refresh at the edge of the expiry continues
the pause. A class that it pauses is no longer eligible, which ends its visit (R242). -/
def pauseClass (p c q from_ : Nat) (s : State) : State :=
  let a := getPause s p c
  if a.ignoring then s
  else if q = 0 then setPause s p c { a with until_ := none }
  else
    let going := match a.until_ with | some u => decide (from_ ≤ u) | none => false
    endVisit p c
      (setPause s p c { a with until_ := some (from_ + quantaTime s p q), since := if going then a.since else from_ })

/-- Whether received pause acts on class `c` (HONOUR, R57). -/
def honours (s : State) (p c : Nat) : Bool := decide (c < 6) && nb (psHonour (getPort s p).setting) c

/-- A PAUSE frame (R57, R572): it names every priority. -/
def pauseAll (p q from_ : Nat) (s : State) : State :=
  let s := (List.range 8).foldl (fun s c => bump 1 p (9 + c) 32 1 s) s
  if psFc (getPort s p).setting = 1 then
    (List.range 6).foldl (fun s c => if honours s p c then pauseClass p c q from_ s else s) s
  else s

/-- A PFC frame (R57, R572): class-enable vector and eight times. -/
def pausePfc (p vec : Nat) (times : Bytes) (from_ : Nat) (s : State) : State :=
  let s := (List.range 8).foldl (fun s c => if nb vec c then bump 1 p (9 + c) 32 1 s else s) s
  if psFc (getPort s p).setting = 2 then
    (List.range 6).foldl (fun s c =>
      if nb vec c && honours s p c then pauseClass p c (beNat ((times.drop (2 * c)).take 2)) from_ s else s) s
  else s

/-- A MAC control frame that passed the checks of R55 and whose last octet comes at root cycle `from_`: it is consumed at the
MAC and counted as a MAC control frame only; whether it also counts among the frames received good the spec does not say
(DESIGN CHOICE). -/
def macControl (p : Nat) (l : Bytes) (from_ : Nat) (s : State) : State :=
  let s := bump 1 p 46 48 1 s
  let op := beNat ((l.drop 14).take 2)
  if op = 0x0001 then pauseAll p (beNat ((l.drop 16).take 2)) from_ s
  else if op = 0x0101 then pausePfc p (beNat ((l.drop 16).take 2)) (l.drop 18) from_ s
  else s

/-- The MAC control frames of a port whose last octet has come by now act, oldest first (R58, R572). -/
def settleControl (p : Nat) (s : State) : State :=
  let due := (getPort s p).ctl.filter (fun x => decide (x.1 ≤ s.clk.root))
  if due.isEmpty then s
  else
    due.foldl (fun s x => macControl p x.2 x.1 s)
      (setPort s p { getPort s p with ctl := (getPort s p).ctl.filter (fun x => decide (s.clk.root < x.1)) })

/-- A hardware event that meets the pause of a port: MAC control frames that have come by then act first. -/
def pauseEvent (t p : Nat) (guard : State → Bool) (eff : State → State) (s : State) : State :=
  let s := settleControl p (comeTo t s)
  if guard s then eff s else s

/-- A port that is not UP accepts no frame (R55). -/
def pauseFrame (p : Nat) (l : Bytes) (m : RxMark) (s : State) : State :=
  if receives s p = false then s
  else match macFault s p l m with
    | some k => countFault p k s
    | none => macControl p l s.clk.root s

/-- PAUSE_FRAME_RECEIVE (R55, R57, R58, R572): at the edge of the last octet. -/
def execPauseFrameReceive (t p : Nat) (l : Bytes) (rx : MacRx) (s : State) : Host.Outcome State Fault Refusal :=
  .next (pauseEvent t p (fun _ => decide (p < 64) && decide (etherType l = 0x8808))
    (fun s => pauseFrame p l rx.mark (countSeen p rx.mark rx.seen s)) s)

/-- PAUSE_TIME_EXPIRY (R60): a refresh at the edge of the expiry is in time. -/
def execPauseTimeExpiry (t p c : Nat) (s : State) : Host.Outcome State Fault Refusal :=
  .next (pauseEvent t p
    (fun s => match (getPause s p c).until_ with
      | some u => expired s u
      | none => false)
    (fun s => setPause s p c { getPause s p c with until_ := none }) s)

/-- PAUSE_LIMIT_RELEASE (R59, R60): a pause that ends of itself at this edge is no release. A class whose queue is empty at
the release ignores pause too, until it has sent a frame or its queue becomes empty after it (DESIGN CHOICE: the spec does
not speak of a queue that is empty already). -/
def execPauseLimitRelease (t p c : Nat) (s : State) : Host.Outcome State Fault Refusal :=
  .next (pauseEvent t p
    (fun s => paused s p c && decide (c < 6) &&
      decide ((getPause s p c).since + psPlimit (getPort s p).setting * 10 * usec ≤ s.clk.root))
    (fun s =>
      raiseEv { code := 0x1003, obj := p, aux := c }
        (bump 1 p (25 + c) 32 1 (setPause s p c { getPause s p c with until_ := none, ignoring := true }))) s)

end Sys2Proof.Machine
end

