-- ==== Sys2Proof/Machine/Classify.lean ====
section
/-! DEFINITION. Classification (03_classification.md): the decision of R83 to R95, the SecTAG of R97 and R98, the Peer
Table of R100 to R113, and the instructions CLS.MAP, CLS.RULE and PEER.*. -/

namespace Sys2Proof.Machine

/-! ### Map entries, port records, rules -/

/-- Adds to a classification counter of a port (R116). -/
def bumpCls (p k n : Nat) (s : State) : State := bump 3 p k 48 n s

/-- An entry of the VLAN Channel Map or the port record (R86, R89). -/
def mapEntry (s : State) (p i : Nat) : Nat := tabGet 0 s.cls.map (p * 4096 + i)

/-- What a map entry or a rule decides. -/
structure Decision where
  action : Nat
  channel : Nat
  eport : Nat
  cls : Nat
  pcpsel : Bool
  meten : Bool
  meter : Nat
  deriving DecidableEq, Repr

/-- The decision of a map entry (R87). -/
def mapDecision (v : Nat) : Decision :=
  ⟨nf v 62 60, nf v 59 44, nf v 43 39, nf v 38 36, nb v 35, nb v 34, nf v 33 23⟩

/-- The decision of a rule (R91). -/
def ruleDecision (v : Nat) : Decision :=
  ⟨nf v 253 251, nf v 234 219, nf v 218 214, nf v 250 248, nb v 247, nb v 246, nf v 245 235⟩

/-- The checks of R88 on action fields. -/
def decisionChecks (line : Bool) (d : Decision) : List Check :=
  [(decide (4 ≤ d.action), stReserved),
   (line && decide (d.action = 1), stRange),
   (decide (d.channel ≠ 0 ∧ d.action ≠ 1), stRange),
   (decide (d.eport ≠ 0 ∧ d.action ≠ 2), stRange),
   (!d.meten && decide (d.meter ≠ 0), stRange),
   ((decide (d.cls = 7) || d.pcpsel) && !d.meten, stRange)]

/-- The checks of a map entry (R87, R88). -/
def mapEntryChecks (p v : Nat) : List Check :=
  [(decide (v % 2 ^ 23 ≠ 0), stReserved), (!nb v 63 && decide (v % 2 ^ 63 ≠ 0), stRange)] ++
    decisionChecks (isLine p) (mapDecision v)

/-- The checks of a port record (R89, R90). -/
def portRecordChecks (p v : Nat) : List Check :=
  [(decide (v % 2 ^ 27 ≠ 0), stReserved), (decide (2 ≤ nf v 63 62), stReserved),
   (decide (nf v 61 60 = 3), stReserved),
   (!isLine p && decide (nf v 61 27 ≠ 0), stRange),
   (decide (nf v 61 60 = 2) && decide (nf v 58 51 = 0 ∨ nf v 50 43 = 0), stRange),
   (decide (nf v 61 60 ≠ 2) && decide (nf v 59 43 ≠ 0), stRange)]

/-- Whether an entry matches a flush's filter (R111). -/
def flushMatches (f : Flush) (p : Peer) : Bool :=
  match f.mode with
  | 0 => true
  | 1 => p.port == f.filter
  | 2 => p.bound && p.channel == f.filter
  | _ => !p.bound

/-- The sets from `a` up to `b` are swept. -/
def sweepSets (f : Flush) (a b : Nat) (l : Tab Peer) : Tab Peer :=
  l.filter (fun e => !(decide (a ≤ e.1 / 16 ∧ e.1 / 16 < b) && flushMatches f e.2))

/-- Sets swept before this edge: 4 CCLK each; a lookup at a set's edge still sees it (R113). -/
def sweptSets (f : Flush) (root : Nat) : Nat := min 4096 ((root - f.since - 1) / 12)

/-- The table as lookups at this edge find it: a running flush has removed what it has swept (R113). -/
def syncFlush (s : State) : State :=
  match s.cls.flush with
  | none => s
  | some f =>
    let n := sweptSets f s.clk.root
    if n ≤ f.done then s
    else { s with cls := { s.cls with peers := sweepSets f f.done n s.cls.peers, flush := some { f with done := n } } }

/-- The tables as they stand are kept for the lookups of this CCLK edge, before the first write at it (R110). -/
def noteTables (s : State) : State :=
  let s := syncFlush s
  let old : OldTables := { edge := cclkEdge s, map := s.cls.map, rules := s.cls.rules, peers := s.cls.peers }
  let keep : State := { s with cls := { s.cls with before := some old } }
  match s.cls.before with
  | some b => if b.edge = cclkEdge s then s else keep
  | none => keep

/-- What a lookup of this CCLK edge sees: a write at the same edge is not in it yet (R110). -/
def lookupView (s : State) : State :=
  match s.cls.before with
  | some b =>
    if b.edge = cclkEdge s then { s with cls := { s.cls with map := b.map, rules := b.rules, peers := b.peers } } else s
  | none => s

/-- The command CLS.MAP. -/
def clsMapCmd : Cmd where
  op := 0x30
  fmt e _ := portIdChecks e ++ [highB e 12] ++
    if e.b = 4095 then portRecordChecks e.a e.imm else mapEntryChecks e.a e.imm
  eff e s :=
    let s := noteTables s
    { s := { s with cls := { s.cls with map := tabSet 0 s.cls.map (e.a * 4096 + e.b) e.imm } } }

/-- CLS.MAP (R87 to R90, R110). -/
def execClsMap (w : IWord) (s : State) : Host.Outcome State Fault Refusal := .next (runCmd clsMapCmd w s)

/-- The checks of a rule descriptor (R91, R94). -/
def ruleChecks (v : Nat) : List Check :=
  [(decide (v % 2 ^ 28 ≠ 0), stReserved), (decide (nf v 125 124 = 3), stReserved),
   (nb v 255 && decide (nf v 213 182 = 0), stRange), (!nb v 255 && decide (v % 2 ^ 255 ≠ 0), stRange)] ++
    decisionChecks (!nb v 254) (ruleDecision v)

/-- The command CLS.RULE. -/
def clsRuleCmd : Cmd where
  op := 0x31
  fmt e s := [highA e 10, zeroB e] ++ ptrChecks e.k false 32 e.imm 32 ++
    if ptrOk e.k false 32 e.imm 32 then ruleChecks (beNat (readMem s e.imm 32)) else []
  eff e s :=
    let n := noteTables s
    { s := { n with cls := { n.cls with rules := tabSet 0 s.cls.rules e.a (beNat (readMem s e.imm 32)) } } }

/-- CLS.RULE (R91 to R94, R110). -/
def execClsRule (w : IWord) (s : State) : Host.Outcome State Fault Refusal := .next (runCmd clsRuleCmd w s)

/-! ### The decision (R83 to R95) -/

/-- Whether a frame carries an outer tag (R86). -/
def isTagged (l : Bytes) : Bool := etherType l == 0x8100 || etherType l == 0x88A8
/-- VID of a frame; 0 where it is untagged (R86, R92). -/
def frameVid (l : Bytes) : Nat := if isTagged l then beNat ((l.drop 14).take 2) % 4096 else 0
/-- PCP of a frame; 0 where it is untagged (R95). -/
def framePcp (l : Bytes) : Nat := if isTagged l then beNat ((l.drop 14).take 2) / 2 ^ 13 else 0
/-- The EtherType that rules compare: behind the outer tag of a tagged frame (R92). -/
def innerType (l : Bytes) : Nat := if isTagged l then beNat ((l.drop 16).take 2) else etherType l

/-- Whether rule `v` matches a frame that arrived on port `p` (R92). -/
def ruleMatches (v p : Nat) (l : Bytes) : Bool :=
  nb v 255 && (nb v 254 != isLine p) && nb (nf v 213 182) (p % 32) &&
    (match nf v 125 124 with | 1 => !isTagged l | 2 => isTagged l | _ => true) &&
    decide ((innerType l ^^^ nf v 181 166) &&& nf v 165 150 = 0) &&
    decide ((frameVid l ^^^ nf v 149 138) &&& nf v 137 126 = 0) &&
    decide ((beNat (l.take 6) ^^^ nf v 123 76) &&& nf v 75 28 = 0)

/-- The lowest-numbered matching rule (R93); rules without an entry are not VALID. -/
def firstRule (s : State) (p : Nat) (l : Bytes) : Option (Nat × Nat) :=
  s.cls.rules.find? (fun r => ruleMatches r.2 p l)

/-- The class that port `p`'s PCP map gives a PCP (R244). -/
def pcpClass (s : State) (p pcp : Nat) : Nat := nf (getPort s p).pcpMap (3 * pcp + 2) (3 * pcp)

/-- The decided class (R95). -/
def decidedClass (s : State) (p : Nat) (l : Bytes) (d : Decision) : Nat :=
  if d.pcpsel then pcpClass s p (framePcp l) else d.cls

/-- The source of the decision of a frame in clear (R83). -/
inductive Verdict where
  | reservedVid
  | rule (i : Nat) (d : Decision)
  | map (d : Decision)
  | miss (punt : Bool)
  deriving DecidableEq, Repr

/-- The decision on a frame without a SecTAG step (R83). -/
def decide83 (s : State) (p : Nat) (l : Bytes) : Verdict :=
  if isTagged l && frameVid l == 4095 then .reservedVid
  else match firstRule s p l with
    | some (i, v) => .rule i (ruleDecision v)
    | none =>
      let v := mapEntry s p (frameVid l)
      if nb v 63 then .map (mapDecision v) else .miss (nf (mapEntry s p 4095) 63 62 == 1)

/-! ### The SecTAG (R97, R98) -/

/-- TCI and AN octet of a MACsec frame. -/
def tciOf (l : Bytes) : Nat := (l.getD 14 0).toNat
/-- SC bit. -/
def tciSc (l : Bytes) : Bool := nb (tciOf l) 5
/-- Octets of addresses and SecTAG. -/
def tagEnd (l : Bytes) : Nat := if tciSc l then 28 else 20
/-- Secure data length. -/
def secureLen (l : Bytes) : Nat := l.length - (tagEnd l + 20)
/-- E = C = 1: the frame is encrypted. -/
def tciEnc (l : Bytes) : Bool := nb (tciOf l) 3
/-- AN of a MACsec frame. -/
def tciAn (l : Bytes) : Nat := tciOf l % 4
/-- The 32 PN bits of a MACsec frame. -/
def tagPn (l : Bytes) : Nat := beNat ((l.drop 16).take 4)

/-- A bad tag (R97). -/
def badTag (l : Bytes) : Bool :=
  let v := tciOf l
  let sl := (l.getD 15 0).toNat
  nb v 7 || (nb v 5 && (nb v 6 || nb v 4)) || nb v 4 || (nb v 3 != nb v 2) || decide (64 ≤ sl) || decide (48 ≤ sl) ||
    decide (l.length < tagEnd l + 20) || (decide (sl ≠ 0) && decide (secureLen l ≠ sl)) ||
    (decide (sl = 0) && decide (secureLen l < 48))

/-- The SCI of a MACsec frame on line port `p` (R98), under the port record that its lookup sees (R110). -/
def frameSci (s : State) (p : Nat) (l : Bytes) : Nat :=
  if tciSc l then beNat ((l.drop 20).take 8)
  else
    let imp := nf (mapEntry (lookupView s) p 4095) 42 27
    beNat ((l.drop 6).take 6) * 2 ^ 16 + (if nb (tciOf l) 6 || imp == 0 then 1 else imp)

/-! ### The Peer Table (R100 to R113) -/

/-- The set of a key (R101). -/
def peerSet (s : State) (port sci : Nat) : Nat :=
  let h := crc32c (beBytes 4 s.cls.seed ++ beBytes 1 (port % 32) ++ beBytes 8 sci)
  (h ^^^ (h / 2 ^ 12) ^^^ (h / 2 ^ 24)) % 4096

/-- The entry in a way of a set; a free way has none. -/
def peerAt (s : State) (set way : Nat) : Option Peer := tabFind s.cls.peers (set * 16 + way)

/-- Writes a way. -/
def setPeer (set way : Nat) (v : Peer) (s : State) : State :=
  { s with cls := { s.cls with peers := tabPut s.cls.peers (set * 16 + way) v } }

/-- Frees a way. -/
def freePeer (set way : Nat) (s : State) : State :=
  { s with cls := { s.cls with peers := tabDel s.cls.peers (set * 16 + way) } }

/-- The way below `n` that holds a key. -/
def findWay (s : State) (n set port sci : Nat) : Option Nat :=
  (List.range n).find? (fun w => match peerAt s set w with
    | some p => p.port == port && p.sci == sci
    | none => false)

/-- Occupied spill ways of a set. -/
def spillCount (s : State) (set : Nat) : Nat :=
  ((List.range 12).filter (fun i => (peerAt s set (i + 4)).isSome)).length

/-- Whether a channel counts as pinned for the placement of its peers (R105, R141). -/
def chanPinned (s : State) (c : Nat) : Bool := (getChan s c).pinned || (getChan s c).pinning.isSome

/-- Remaining AGE of a PENDING entry in 10 ms. -/
def peerAge (s : State) (p : Peer) : Nat := if p.bound then 0 else (p.expires - s.clk.root + 10 * msec - 1) / (10 * msec)

/-- The lowest-numbered free way from `a` up to `b`. -/
def freeWay (s : State) (set a b : Nat) : Option Nat :=
  ((List.range b).drop a).find? (fun w => (peerAt s set w).isNone)

/-- The on-die PENDING entry with the least AGE, the lowest way among equals (R104). -/
def leastPending (s : State) (set : Nat) : Option Nat :=
  (List.range 4).foldl (fun best w => match peerAt s set w with
    | some p =>
      if p.bound then best
      else match best with
        | some b => match peerAt s set b with
          | some q => if peerAge s p < peerAge s q then some w else best
          | none => some w
        | none => some w
    | none => best) none

/-- Where a peer of channel `c` goes on die when no way is free and none is PENDING, the channel being pinned (R104, R105):
the lowest way with an entry of another, unpinned channel, which moves to a free spill way. -/
def moveOut (s : State) (set c : Nat) : Option (Nat × Nat) :=
  match (List.range 4).find? (fun w => match peerAt s set w with
      | some p => !chanPinned s p.channel && p.channel != c
      | none => false),
    (if s.cls.spillArea then freeWay s set 4 16 else none) with
  | some w, some f => some (w, f)
  | _, _ => none

/-- Places a BOUND entry under R104; none is ST_NO_ROOM. -/
def placePeer (s : State) (set : Nat) (v : Peer) (pinned : Bool) : Option State :=
  match freeWay s set 0 4 with
  | some w => some (setPeer set w v s)
  | none =>
    match leastPending s set with
    | some w =>
      let old := (peerAt s set w).map (·.port)
      some (raise 0x2001 (old.getD 0) 0 (bump 5 0 1 48 1 (setPeer set w v s)))
    | none =>
      if pinned then
        match moveOut s set v.channel with
        | some (w, f) => match peerAt s set w with
          | some p => some (setPeer set w v (setPeer set f p s))
          | none => none
        | none => none
      else if s.cls.spillArea then (freeWay s set 4 16).map (fun w => setPeer set w v s)
      else none

/-- The 128 bits of a peer entry (R102). -/
def peerWord (s : State) (set way : Nat) (p : Peer) : Nat :=
  p.sci * 2 ^ 64 + p.port * 2 ^ 59 + (if p.bound then 2 else 1) * 2 ^ 57 +
    bn ((getChan s p.channel).pinned && p.bound) * 2 ^ 56 + p.channel * 2 ^ 40 + bn (decide (4 ≤ way)) * 2 ^ 39 +
    way * 2 ^ 35 + set * 2 ^ 23 + peerAge s p * 2 ^ 15

/-- The reserved and RO fields of a peer descriptor (R102). -/
def peerDescChecks (v : Nat) : List Check :=
  [(decide (v % 2 ^ 15 ≠ 0), stReserved), (decide (nf v 58 56 ≠ 0 ∨ nf v 39 15 ≠ 0), stRange)]

/-- The descriptor of a Peer Table instruction. -/
def peerDesc (e : Env) (s : State) : Nat := beNat (readMem s e.imm 16)
/-- SCI of a descriptor. -/
def descSci (v : Nat) : Nat := nf v 127 64
/-- PORT of a descriptor. -/
def descPort (v : Nat) : Nat := nf v 63 59

/-- The effect of PEER.ADD on a key (R104, R109, R111); none is ST_NO_ROOM. -/
def peerAdd (s : State) (port sci ch : Nat) : Option State :=
  let set := peerSet s port sci
  let v : Peer := { sci := sci, port := port, bound := true, channel := ch, expires := 0 }
  match findWay s 16 set port sci with
  | some w =>
    if chanPinned s ch && decide (4 ≤ w) then placePeer (freePeer set w s) set v true
    else some (setPeer set w v s)
  | none => placePeer s set v (chanPinned s ch)

/-- A Peer Table instruction that was carried out is counted (R111); no counter block of R346 returns these counts. -/
def countOp (op : Nat) (s : State) : State :=
  { s with cls := { s.cls with ops := tabSet 0 s.cls.ops op (tabGet 0 s.cls.ops op + 1) } }

/-- Whether the key of a descriptor has no entry in the Peer Table. -/
def peerAbsent (v : Nat) (s : State) : Bool :=
  (findWay s 16 (peerSet s (descPort v) (descSci v)) (descPort v) (descSci v)).isNone

/-- The command PEER.DEL. -/
def peerDelCmd : Cmd where
  op := 0x33
  fmt e s := [zeroA e, zeroB e] ++ ptrChecks e.k false 16 e.imm 16 ++
    if ptrOk e.k false 16 e.imm 16 then
      peerDescChecks (peerDesc e s) ++ [(decide (nf (peerDesc e s) 55 40 ≠ 0), stRange), (peerAbsent (peerDesc e s) (syncFlush s), stRange)]
    else []
  own _ s := [((syncFlush s).cls.flush.isSome, stBusy)]
  eff e s :=
    let v := peerDesc e s
    let set := peerSet s (descPort v) (descSci v)
    match findWay s 16 set (descPort v) (descSci v) with
    | some w => { s := countOp 0x33 (freePeer set w (noteTables s)) }
    | none => { s := s, st := stRange }

/-- PEER.DEL (R111). -/
def execPeerDel (w : IWord) (s : State) : Host.Outcome State Fault Refusal := .next (runCmd peerDelCmd w s)

/-- The 128 bits that PEER.SEARCH answers (R111). For an absent key STATE is FREE and SET the key's; that SCI and PORT stay
and every other field is zero is the model's choice (DESIGN CHOICE: the spec names STATE and SET only). -/
def searchWord (s : State) (port sci : Nat) : Nat :=
  let set := peerSet s port sci
  match findWay s 16 set port sci with
  | some w => match peerAt s set w with
    | some p => peerWord s set w p
    | none => 0
  | none => sci * 2 ^ 64 + port * 2 ^ 59 + set * 2 ^ 23

/-- The command PEER.SEARCH. -/
def peerSearchCmd : Cmd where
  op := 0x34
  fmt e s := [zeroA e, zeroB e] ++ ptrChecks e.k true 16 e.imm 16 ++
    if ptrOk e.k true 16 e.imm 16 then peerDescChecks (peerDesc e s) else []
  eff e s :=
    let v := peerDesc e s
    let s := syncFlush s
    { s := countOp 0x34 (storeMem s e.imm (beBytes 16 (searchWord s (descPort v) (descSci v)))) }

/-- PEER.SEARCH (R111). -/
def execPeerSearch (w : IWord) (s : State) : Host.Outcome State Fault Refusal := .next (runCmd peerSearchCmd w s)

/-- The place of an entry in the order of PEER.NEXT: set, then PORT * 2^64 + SCI (R112). -/
def walkKey (set port sci : Nat) : Nat := set * 2 ^ 69 + port * 2 ^ 64 + sci

/-- The entry that comes first in the order of R112 among those at or above `lo` that the filters pass. -/
def walkNext (s : State) (lo : Nat) (port : Option Nat) (pendOnly : Bool) : Option (Nat × Peer) :=
  s.cls.peers.foldl (fun best e =>
    let k := walkKey (e.1 / 16) e.2.port e.2.sci
    if decide (lo ≤ k) && (port.isNone || port == some e.2.port) && (!pendOnly || !e.2.bound) then
      match best with
      | some b => if k < walkKey (b.1 / 16) b.2.port b.2.sci then some e else best
      | none => some e
    else best) none

/-- The command PEER.NEXT. At the end of the walk STATE is FREE; the other fields are not stated: a free value. The cursor is
an entry that the instruction itself wrote before, so only its reserved bits are checked, and not that its RO fields are
zero (DESIGN CHOICE: R102 asks that of a descriptor written by software, and does not say whether a cursor is one). -/
def peerNextCmd : Cmd where
  op := 0x35
  fmt e s := [zeroA e, highB e 3] ++ ptrChecks e.k true 16 e.imm 16 ++
    if ptrOk e.k true 16 e.imm 16 then [(decide (peerDesc e s % 2 ^ 15 ≠ 0), stReserved)] else []
  eff e s :=
    let v := peerDesc e s
    let s := syncFlush s
    let lo := if nb e.b 0 then 0
      else walkKey (peerSet s (descPort v) (descSci v)) (descPort v) (descSci v) + 1
    match walkNext s lo (if nb e.b 1 then some (descPort v) else none) (nb e.b 2) with
    | some (i, p) => { s := countOp 0x35 (storeMem s e.imm (beBytes 16 (peerWord s (i / 16) (i % 16) p))) }
    | none =>
      let d := draw (countOp 0x35 s)
      { s := storeMem d.2 e.imm (beBytes 16 (nf d.1 127 59 * 2 ^ 59 + nf d.1 56 15 * 2 ^ 15)) }

/-- PEER.NEXT (R111, R112). -/
def execPeerNext (w : IWord) (s : State) : Host.Outcome State Fault Refusal := .next (runCmd peerNextCmd w s)

/-- The command PEER.FLUSH. -/
def peerFlushCmd : Cmd where
  op := 0x36
  fmt e _ := [zeroA e, highB e 2,
    (match e.b with
     | 1 => decide (2 ^ 5 ≤ e.imm)
     | 2 => decide (2 ^ 16 ≤ e.imm)
     | _ => decide (e.imm ≠ 0), stReserved)]
  own _ s := [(s.cls.flush.isSome, stBusy)]
  eff e s :=
    let s := countOp 0x36 s
    { s := { s with cls := { s.cls with
        flush := some { mode := e.b, filter := e.imm, cseq := e.cseq, since := s.clk.root } } }
      st := stPending, event := some 0x2006 }

/-- PEER.FLUSH (R111, R113). -/
def execPeerFlush (w : IWord) (s : State) : Host.Outcome State Fault Refusal := .next (runCmd peerFlushCmd w s)

/-- PEER_FLUSH_COMPLETE (R113): every set has been swept. -/
def execPeerFlushComplete (t : Nat) (s : State) : Host.Outcome State Fault Refusal :=
  .next (event t
    (fun s => match s.cls.flush with
      | some f => decide (f.since + 12 * 4096 ≤ s.clk.root)
      | none => false)
    (fun s => match s.cls.flush with
      | some f =>
        complete 0x2006 f.cseq stOk 0 0
          { s with cls := { s.cls with peers := sweepSets f f.done 4096 s.cls.peers, flush := none } }
      | none => s) s)

/-- PENDING_AGE_EXPIRY (R107, R109): a PEER.ADD at the edge of the expiry is in time. -/
def execPendingAgeExpiry (t set way : Nat) (s : State) : Host.Outcome State Fault Refusal :=
  .next (event t
    (fun s => match peerAt (syncFlush s) set way with
      | some p => !p.bound && expired s p.expires
      | none => false)
    (fun s =>
      let s := syncFlush s
      match peerAt s set way with
      | some p => raise 0x2003 p.port 0 (bumpCls p.port 4 1 (freePeer set way s))
      | none => s) s)

end Sys2Proof.Machine
end

