-- ==== Sys2Proof/Machine/Sched.lean ====
section
/-! DEFINITION. Scheduling settings, meters, shapers and gates (08_scheduling_and_gates.md): CLASS.MAP, POLICE.SET,
SHAPE.SET, GATE.LOAD, GATE.SWAP, PREEMPT.SET, the colouring of R248, the calendar wheel and the gate events. -/

namespace Sys2Proof.Machine

/-! ### CLASS.MAP -/

/-- The command CLASS.MAP. -/
def classMapCmd : Cmd where
  op := 0x50
  fmt e _ := portIdChecks e ++ [highB e 24, highI e 55]
  eff e s := { s := setPort s e.a { getPort s e.a with pcpMap := e.b, sched := e.imm } }

/-- CLASS.MAP (R244, R245). -/
def execClassMap (w : IWord) (s : State) : Host.Outcome State Fault Refusal := .next (runCmd classMapCmd w s)

/-- OVH of a port, signed (R244). -/
def portOvh (s : State) (p : Nat) : Int := signed 7 (nf (getPort s p).sched 54 48)
/-- Weight of a class 0 to 5 (R244). -/
def classWeight (s : State) (p c : Nat) : Nat := nf (getPort s p).sched (8 * c + 7) (8 * c)

/-- The shaped length of a frame of `len` octets at the egress MAC (R255). -/
def shapedLen (s : State) (p len : Nat) : Nat := (max 1 ((len : Int) + portOvh s p)).toNat

/-! ### Meters (R246 to R252) -/

/-- Token units in an octet of a shaper. -/
def octUnit : Int := 80000000

/-- Token units in an octet of a meter: token counts have 16 fraction bits (R248). -/
def meterUnit : Int := 2 ^ 16

/-- What a rate in kb/s adds to a meter's tokens in `dt` root cycles; what is below the fraction bits is dropped
(DESIGN CHOICE, log entry 31: the spec states no rounding). -/
def earned (rate : Nat) (dt : Int) : Int := (rate : Int) * dt * meterUnit / 80000000

/-- EN of a meter descriptor. -/
def mtEn (v : Nat) : Bool := nb v 255
/-- PROT. -/
def mtProt (v : Nat) : Bool := nb v 254
/-- CAWARE. -/
def mtCaware (v : Nat) : Bool := nb v 253
/-- YACT. -/
def mtYact (v : Nat) : Nat := nf v 251 250
/-- YCLASS. -/
def mtYclass (v : Nat) : Nat := nf v 249 247
/-- CIR, kb/s. -/
def mtCir (v : Nat) : Nat := nf v 246 215
/-- PIR, kb/s. -/
def mtPir (v : Nat) : Nat := nf v 214 183
/-- CBS, octets. -/
def mtCbs (v : Nat) : Nat := nf v 182 159
/-- PBS, octets. -/
def mtPbs (v : Nat) : Nat := nf v 158 135
/-- SPACE, µs. -/
def mtSpace (v : Nat) : Nat := nf v 134 121

/-- The checks of a meter descriptor (R247). -/
def meterChecks (v : Nat) : List Check :=
  [(decide (v % 2 ^ 121 ≠ 0), stReserved), (decide (mtYact v = 3), stReserved),
   (!mtEn v && decide (v % 2 ^ 252 ≠ 0 ∨ nf v 254 253 ≠ 0), stRange),
   (mtEn v && decide (mtCir v = 0 ∨ mtPir v < mtCir v ∨ 1600000000 < mtPir v), stRange),
   (mtEn v && decide (mtCbs v < 64 ∨ mtPbs v < 64 ∨ mtPbs v < mtCbs v), stRange),
   (decide (5 < mtYclass v ∨ (mtYclass v ≠ 0 ∧ mtYact v ≠ 2)), stRange),
   (mtProt v && decide (mtYact v ≠ 1 ∨ mtSpace v < 80), stRange),
   (!mtProt v && decide (mtSpace v ≠ 0), stRange)]

/-- The effect of POLICE.SET: a debit still to come applies to the new token counts. A frame that is coloured at this very edge
has its row before it and has seen the old descriptor (R252). -/
def policeSetEff (m v : Nat) (s : State) : State :=
  let full := nb v 252
  setMeter s m { desc := if full then v - 2 ^ 252 else v
                 tc := if full then (mtCbs v : Int) * meterUnit else 0
                 tp := if full then (mtPbs v : Int) * meterUnit else 0
                 last := cclkEdge s, lastGreen := none
                 owed := (getMeter s m).owed.filter (fun d => decide (cclkEdge s < d.1)) }

/-- The command POLICE.SET. -/
def policeSetCmd : Cmd where
  op := 0x52
  fmt e s := [zeroA e, highB e 11] ++ ptrChecks e.k false 32 e.imm 32 ++
    if ptrOk e.k false 32 e.imm 32 then meterChecks (beNat (readMem s e.imm 32)) else []
  eff e s := { s := policeSetEff e.b (beNat (readMem s e.imm 32)) s }

/-- POLICE.SET (R246, R247, R252). -/
def execPoliceSet (w : IWord) (s : State) : Host.Outcome State Fault Refusal := .next (runCmd policeSetCmd w s)

/-- Colours of R248. -/
inductive Colour where
  | green
  | yellow
  | red
  deriving DecidableEq, Repr

/-- Adds to a meter counter (R271). -/
def bumpMeter (m k n : Nat) (s : State) : State := bump 12 m k 48 n s

/-- The tokens of a meter after `dt` root cycles. -/
def meterFill (a : Meter) (dt : Nat) : Meter :=
  { a with tc := min ((mtCbs a.desc : Int) * meterUnit) (a.tc + earned (mtCir a.desc) dt)
           tp := min ((mtPbs a.desc : Int) * meterUnit) (a.tp + earned (mtPir a.desc) dt)
           last := a.last + dt }

/-- The debit of a frame's length at its last octet (R248). -/
def meterDebit (a : Meter) (green : Bool) (len : Nat) : Meter :=
  { a with tc := if green then a.tc - (len : Int) * meterUnit else a.tc, tp := a.tp - (len : Int) * meterUnit }

/-- The debits of frames whose last octet has come are made, in order; a debit only subtracts (R248). -/
def payOwed (root : Nat) : List (Nat × Bool × Nat) → Meter → Meter
  | [], a => a
  | d :: l, a =>
    if d.1 ≤ root then payOwed root l (meterDebit a d.2.1 d.2.2)
    else payOwed root l { a with owed := a.owed ++ [d] }

/-- A meter at the colouring edge `t`: the debits of before made, its tokens filled (R248). -/
def meterAt (s : State) (m t : Nat) : Meter :=
  let a := getMeter s m
  let b := payOwed t a.owed { a with owed := [] }
  meterFill b (t - b.last)

/-- The colour before spacing (R248); under PROT yellow becomes red (R249). -/
def meterColour (a : Meter) (dei : Bool) : Colour :=
  if a.tp < 0 then .red
  else if a.tc < 0 || (mtCaware a.desc && dei) then (if mtProt a.desc then .red else .yellow)
  else .green

/-- Whether a frame that is green at edge `t` comes too soon after the last one (R248, R250). -/
def tooSoon (t : Nat) (a : Meter) : Bool :=
  mtProt a.desc && match a.lastGreen with
    | some g => decide (t - g < mtSpace a.desc * usec)
    | none => false

/-- A frame of length `len` whose last octet comes at root cycle `ends` owes its debit, unless it is red (R248). -/
def meterOwe (a : Meter) (c : Colour) (len ends : Nat) : Meter :=
  match c with
  | .green => { a with owed := a.owed ++ [(ends, true, len)] }
  | .yellow => { a with owed := a.owed ++ [(ends, false, len)] }
  | .red => a

/-- A frame passes meter `m` at the colouring edge `t`: the class it passes in, or none where the meter drops it (R248 to
R251). Its last octet comes at root cycle `ends`. -/
def meterFrame (m cls : Nat) (dei : Bool) (len ends t : Nat) (s : State) : State × Option Nat :=
  let d := (getMeter s m).desc
  if !mtEn d && decide (cls ≠ 7) then (s, some cls)
  else if decide (cls = 7) && !(mtEn d && mtProt d) then (raise 0x4007 m 0 (bumpMeter m 6 1 s), none)
  else
    let a := meterAt s m t
    let c0 := meterColour a dei
    let soon := decide (c0 = .green) && tooSoon t a
    let c := if soon then Colour.red else c0
    let a := if mtProt d && decide (c = .green) then { a with lastGreen := some t } else a
    let s := setMeter s m (meterOwe a c len ends)
    let s := if soon then bumpMeter m 5 1 s else s
    match c with
    | .green => (bumpMeter m 3 len (bumpMeter m 0 1 s), some cls)
    | .yellow =>
      (bumpMeter m 4 len (bumpMeter m 1 1 s),
        if mtYact d = 0 then some cls else if mtYact d = 2 then some (mtYclass d) else none)
    | .red => (bumpMeter m 2 1 s, none)

/-! ### Shapers (R253 to R258) -/

/-- The checks of a shaper setting (R253, R254). -/
def shaperChecks (cls v : Nat) : List Check :=
  [(decide (v % 2 ^ 7 ≠ 0), stReserved), (decide (cls = 7) && decide (nf v 62 7 ≠ 0), stRange),
   (decide (1600000000 < nf v 62 31), stRange), (decide (nf v 62 31 = 0 ∧ nf v 30 7 ≠ 0), stRange),
   (decide (nf v 62 31 ≠ 0 ∧ nf v 30 7 < 64), stRange)]

/-- The command SHAPE.SET: either reset removes the queue from the wheel; a debit still to come applies to the new tokens. A
grant at this very edge, a CCLK behind its selection (R243), has its row before it and has seen the old setting (R258). -/
def shapeSetCmd : Cmd where
  op := 0x51
  fmt e _ := portIdChecks e ++ [highB e 3] ++ shaperChecks (e.b % 8) e.imm
  eff e s :=
    { s := setShaper s e.a e.b
        { rate := nf e.imm 62 31, burst := nf e.imm 30 7
          tokens := if nb e.imm 63 then (nf e.imm 30 7 : Int) * octUnit else 0
          last := cclkEdge s, wheel := none
          owed := (getShaper s e.a e.b).owed.filter (fun d => decide (cclkEdge s < d.1)) } }

/-- SHAPE.SET (R253, R254, R258). -/
def execShapeSet (w : IWord) (s : State) : Host.Outcome State Fault Refusal := .next (runCmd shapeSetCmd w s)

/-- The tokens of a shaper after `dt` root cycles (R256). -/
def shaperFill (h : Shaper) (tok : Int) (dt : Nat) : Int :=
  min ((h.burst : Int) * octUnit) (tok + (h.rate : Int) * (dt : Int))

/-- The calendar slot for a queue whose tokens are `tok` < 0 at `rate` (R257): the slot at or after the CCLK edge at
which they return to 0, at most 8 191 slots ahead. -/
def wheelSlot (root rate : Nat) (tok : Int) : Nat :=
  let need := (-tok).toNat
  let next := edgeAt 3 (root + (need + rate - 1) / rate)
  min (edgeAt 80 next) ((root / 80 + 8191) * 80)

/-- A shaper whose tokens are `tok` at root cycle `t`: its queue is on the wheel while they are negative (R257). -/
def shaperEval (h : Shaper) (t : Nat) (tok : Int) : Shaper :=
  { h with tokens := tok, last := t
           wheel := if tok < 0 && h.rate ≠ 0 then some (wheelSlot t h.rate tok) else none }

/-- The debits whose last octet has come are made, in order, each of which may place the queue on the wheel (R256, R257). -/
def payShaper (root : Nat) : List (Nat × Nat) → Shaper → Shaper
  | [], h => h
  | d :: l, h =>
    if d.1 ≤ root then
      let t := max h.last d.1
      payShaper root l (shaperEval h t (shaperFill h h.tokens (t - h.last) - (d.2 : Int) * octUnit))
    else payShaper root l { h with owed := h.owed ++ [d] }

/-- A shaper at root cycle `t`, the debits of before made. -/
def shaperAt (s : State) (p c t : Nat) : Shaper :=
  let h := getShaper s p c
  payShaper t h.owed { h with owed := [] }

/-- The tokens of a shaper at root cycle `t` (R256). -/
def shaperTokens (s : State) (p c t : Nat) : Int :=
  let h := shaperAt s p c t
  shaperFill h h.tokens (t - h.last)

/-- Whether the shaper leaves its queue eligible (R240, R256, R257). -/
def shaperOpen (s : State) (p c : Nat) : Bool :=
  let h := shaperAt s p c s.clk.root
  decide (h.rate = 0) || (decide (0 ≤ shaperTokens s p c s.clk.root) &&
    match h.wheel with
    | some w => decide (w ≤ s.clk.root)
    | none => true)

/-- The tokens of a queue are `tok` at root cycle `t`: it goes on the wheel or off it, and with negative tokens it is no longer
eligible, which ends its visit (R242, R257). -/
def evalShaper (p c t : Nat) (tok : Int) (s : State) : State :=
  let s := setShaper s p c (shaperEval (shaperAt s p c t) t tok)
  if tok < 0 then endVisit p c s else s

/-- The debit of a shaped length at the grant, root cycle `t`, or at the last octet where it comes later (R256). -/
def shaperDebit (p c len ends t : Nat) (s : State) : State :=
  let h := getShaper s p c
  if h.rate = 0 then s
  else if ends ≤ t then evalShaper p c t (shaperTokens s p c t - (len : Int) * octUnit) s
  else setShaper s p c { h with owed := h.owed ++ [(ends, len)] }

/-- CALENDAR_SLOT_REACHED (R257). -/
def execCalendarSlotReached (t p c : Nat) (s : State) : Host.Outcome State Fault Refusal :=
  .next (event t
    (fun s => match (shaperAt s p c s.clk.root).wheel with
      | some w => decide (w ≤ s.clk.root)
      | none => false)
    (fun s => evalShaper p c s.clk.root (shaperTokens s p c s.clk.root) s) s)

/-! ### Gate lists (R259 to R266) -/

/-- Nanoseconds in units of network time. -/
def nsUnits (n : Nat) : Nat := n * 2 ^ 32

/-- A gate list entry of 64 bits. -/
def gateEntryOf (v : Nat) : GateEntry := ⟨nf v 63 62, nf v 39 32, nf v 31 0⟩

/-- The entries of a list in memory. -/
def gateEntries (l : Bytes) (n : Nat) : List Nat := (List.range n).map (fun i => beNat ((l.drop (8 * i)).take 8))

/-- The checks of a gate list: header `h` and entries (R259, R260). -/
def gateChecks (h : Nat) (es : List Nat) : List Check :=
  [(decide (h % 2 ^ 103 ≠ 0), stReserved),
   (es.any (fun v => decide (nf v 63 62 = 3 ∨ nf v 61 40 ≠ 0)), stReserved),
   (decide (256 < nf h 111 103), stLength),
   (nb h 255 && decide (nf h 111 103 = 0), stRange),
   (!nb h 255 && decide (nf h 253 103 ≠ 0), stRange),
   (nb h 255 && decide (1000000000 ≤ nf h 205 176), stRange),
   (nb h 255 && decide (nf h 175 144 < 1000 ∨ 1000000000 < nf h 175 144), stRange),
   (nb h 255 && decide (nf h 175 144 < nf h 143 112), stRange),
   (es.any (fun v => decide (nf v 31 0 = 0)), stRange)]

/-- The gate list of a header and entries. -/
def gateListOf (h : Nat) (es : List Nat) : GateList :=
  { enable := nb h 255, lock7 := nb h 254, base := nf h 253 206 * secUnits + nsUnits (nf h 205 176)
    cycle := nf h 175 144, ext := nf h 143 112, entries := es.map gateEntryOf }

/-- Entries that the header at a GATE.LOAD's address counts, at most the 256 a list can hold. -/
def gateCount (e : Env) (s : State) : Nat := nf (beNat (addrRead e s 32)) 111 103

/-- The command GATE.LOAD. -/
def gateLoadCmd : Cmd where
  op := 0x53
  xm := 1
  host := hostFlag
  fmt e s := portIdChecks e ++ [zeroB e] ++ addrChecks e false 32 32 ++
    if addrOk e false 32 32 then
      let n := gateCount e s
      let len := 32 + 8 * n
      (if n ≤ 256 then addrChecks e false 32 len else []) ++
        gateChecks (beNat (addrRead e s 32))
          (if addrOk e false 32 len then gateEntries ((addrRead e s len).drop 32) (min n 256) else [])
    else []
  own e s := [((getGates s e.a).change.isSome, stBusy)]
  eff e s :=
    let n := gateCount e s
    let l := addrRead e s (32 + 8 * n)
    { s := setGates s e.a { getGates s e.a with
        admin := gateListOf (beNat (l.take 32)) (gateEntries (l.drop 32) n) } }

/-- GATE.LOAD (R259, R260). -/
def execGateLoad (w : IWord) (s : State) : Host.Outcome State Fault Refusal := .next (runCmd gateLoadCmd w s)

/-- The cycle of a list in units of network time. -/
def cycleUnits (g : GateList) : Nat := max 1 (nsUnits g.cycle)

/-- The offset into its cycle of a network time (R261). -/
def cycleOffset (g : GateList) (tod : Nat) : Nat := (((tod : Int) - (g.base : Int)) % (cycleUnits g : Int)).toNat

/-- Start offsets of the entries, ns. -/
def startsFrom (o : Nat) : List GateEntry → List (Nat × GateEntry)
  | [] => []
  | e :: l => (o, e) :: startsFrom (o + e.duration) l

/-- The entries that a cycle reaches, with their start offsets in ns (R261). -/
def reachable (g : GateList) : List (Nat × GateEntry) :=
  (startsFrom 0 g.entries).filter (fun p => decide (p.1 < g.cycle))

/-- The entry in force at an offset: the last one that has started (R261). -/
def entryAt (g : GateList) (o : Nat) : Option GateEntry :=
  (((reachable g).filter (fun p => decide (nsUnits p.1 ≤ o))).getLast?).map (·.2)

/-- The hold at an offset: the most recent entry with OP 1 or 2 in the cyclic order (R268). -/
def holdAt (g : GateList) (o : Nat) : Bool :=
  let all := reachable g
  let before := all.filter (fun p => decide (nsUnits p.1 ≤ o))
  let after := all.filter (fun p => decide (o < nsUnits p.1))
  match ((after ++ before).filter (fun p => p.2.op != 0)).getLast? with
  | some p => p.2.op == 1
  | none => false

/-- Gate states and hold that a list gives at a network time: open gates by bit (R261, R266). -/
def listState (g : GateList) (tod : Nat) : Nat × Bool :=
  if !g.enable then (0xFF, false)
  else
    let o := cycleOffset g tod
    let gates := ((entryAt g o).map (·.gates)).getD 0
    (if g.lock7 then gates ||| 0x80 else gates, holdAt g o)

/-- Gate states and hold of a port at a network time, a suppressed cycle start taken into account (R262). -/
def gateStateAt (g : Gates) (tod : Nat) : Nat × Bool :=
  match g.suppress with
  | some b => listState g.oper (if b ≤ tod then b - 1 else tod)
  | none => listState g.oper tod

/-- Start of the oper cycle that runs at a network time; cycles run before BASE too (R261). -/
def cycleStart (g : Gates) (tod : Nat) : Int :=
  let x : Nat := match g.suppress with | some b => if b ≤ tod then b - 1 else tod | none => tod
  (x : Int) - (cycleOffset g.oper x : Int)

/-- Whether preemption is in use on a port (R62, R268). -/
def preemptOn (s : State) (p : Nat) : Bool :=
  decide ((getPort s p).preempt = .verified ∨ (getPort s p).preempt = .activeUnverified)

/-- Whether the preemptable MAC of a port is held (R268 to R270). -/
def macHeld (s : State) (p : Nat) : Bool := preemptOn s p && ((getGates s p).hold || (getPort s p).hold)

/-- Octets that a lane's frame has at the egress MAC (R154). -/
def wireLen (f : TxFrame) : Nat :=
  f.frame.octets.length + match f.frame.channel with
    | some _ => if nb f.header 434 then 32 else 24
    | none => 0

/-- Whether a frame is long enough to be preempted (R64). -/
def preemptable (s : State) (p : Nat) (f : TxFrame) : Bool :=
  decide (64 * psAddfrag (getPort s p).setting + 123 < wireLen f)

/-- Octets of a fragment that have left since root cycle `from_` at the port's speed. -/
def octetsSince (s : State) (p from_ : Nat) : Nat := (s.clk.root - from_) * speedGb (portSpeed s p) / 80

/-- Octets of the first permitted point at which a fragment may be cut: a fragment that is not the last of its frame has at
least 64(a + 1) octets with its mCRC (IEEE 802.3br, R64). -/
def minFragment (s : State) (p : Nat) : Nat := 64 * psAddfrag (getPort s p).setting + 60

/-- A frame is cut after `n` octets of its fragment on the wire: what has left of it is kept, with its stamp (R268, R287). -/
def cutAfter (n : Nat) (f : TxFrame) : TxFrame :=
  { f with wire := none, cutAt := none, cuts := f.cuts + 1, sent := f.sent + n }

/-- A frame on the wire is cut now. -/
def cutFrame (s : State) (p : Nat) (f : TxFrame) : TxFrame :=
  match f.wire with
  | some w => cutAfter (octetsSince s p w.1) f
  | none => f

/-- The frames of an egress lane, oldest first: a held frame is older than the one that suspended it. -/
def txFrames (r : TxLane) : List TxFrame := r.mac ++ r.held05.toList ++ r.held6.toList ++ r.active.toList

/-- Changes every frame of an egress lane. -/
def mapLane (g : TxFrame → TxFrame) (r : TxLane) : TxLane :=
  { mac := r.mac.map g, active := r.active.map g, held6 := r.held6.map g, held05 := r.held05.map g }

/-- The frame of a lane that is on the wire. -/
def onWire (r : TxLane) : Option TxFrame := (txFrames r).find? (fun f => f.wire.isSome)

/-- Octets after which the frame on the wire can be cut, now or later, none where it goes whole: preemption is in use, it is of
classes 0 to 5 and long enough, the fragment has its least length, and the last fragment keeps its 64 octets (R62, R64). -/
def cutPoint (s : State) (p : Nat) (f : TxFrame) : Option Nat :=
  match f.wire with
  | some w =>
    let n := max (octetsSince s p w.1) (minFragment s p)
    if preemptOn s p && decide (f.frame.cls < 6) && preemptable s p f && f.cutAt.isNone &&
        decide (f.sent + n + 64 ≤ wireLen f) && decide (s.clk.root < w.2) then some n else none
  | none => none

/-- Whether a frame can be preempted on the wire now. -/
def cuttable (s : State) (p : Nat) (f : TxFrame) : Bool :=
  match f.wire with
  | some w => cutPoint s p f == some (octetsSince s p w.1)
  | none => false

/-- A frame on the wire ends its fragment at its first permitted point, after `n` octets: now, or when they have left. -/
def cutToCome (s : State) (p n : Nat) (f : TxFrame) : TxFrame :=
  match f.wire with
  | some w =>
    if n = octetsSince s p w.1 then cutAfter n f else { f with cutAt := some n, wire := some (w.1, w.1 + octTime s p n) }
  | none => f

/-- The frame on a port's wire is preempted at its first permitted point when a hold begins or its gate closes: its remainder
waits (R268). -/
def preemptWire (p : Nat) (s : State) : State :=
  match onWire (getTx s p) with
  | some f =>
    match cutPoint s p f with
    | some n =>
      if macHeld s p || !nb (getGates s p).open_ f.frame.cls then
        bump 11 p 43 48 1 (setTx s p (mapLane (cutToCome s p n) (getTx s p)))
      else s
    | none => s
  | none => s

/-- The visit of the round robin ends where a closed gate or the hold has stopped its class being eligible (R242). -/
def gateVisit (p : Nat) (s : State) : State :=
  let c := (getPort s p).rrClass
  if macHeld s p || !nb (getGates s p).open_ c then endVisit p c s else s

/-- The gates of a port take the states of this network time (R261). -/
def gateSync (p : Nat) (s : State) : State :=
  let g := getGates s p
  let v := gateStateAt g s.clk.tod
  gateVisit p (setGates s p { g with open_ := v.1, hold := v.2 })

/-- GATE_ENTRY_CHANGE (R261, R268): the states of this edge, a cycle that begins counted, a frame preempted. -/
def execGateEntryChange (t p : Nat) (s : State) : Host.Outcome State Fault Refusal :=
  .next (event t (fun s => (getGates s p).oper.enable)
    (fun s =>
      let g := getGates s p
      let n := cycleStart g s.clk.tod
      let s := if n ≠ g.cycleSeen then bump 11 p 40 48 1 (setGates s p { g with cycleSeen := n }) else s
      preemptWire p (gateSync p s)) s)

/-- The earliest BASE + k * CYCLE of a list at or after a network time, for a whole k, negative ones among them. -/
def cycleStartAfter (g : GateList) (tod : Nat) : Nat :=
  tod + (cycleUnits g - cycleOffset g tod) % cycleUnits g

/-- The change time of a swap asked for at network time `n` (R262, R264). -/
def changeTime (g : Gates) (n : Nat) : Nat :=
  let m := n + nsUnits 1000
  if g.admin.enable then (if m ≤ g.admin.base then g.admin.base else cycleStartAfter g.admin m)
  else if g.oper.enable then cycleStartAfter g.oper m
  else m

/-- The start of an oper cycle that a change at `t` suppresses (R262). -/
def suppressedStart (g : Gates) (t : Nat) : Option Nat :=
  let o := cycleOffset g.oper t
  if g.oper.enable && g.admin.enable && decide (0 < o) && decide (o < nsUnits g.oper.ext) then some (t - o) else none

/-- The field checks of GATE.SWAP: immediate bits [63:1] are reserved (R262). -/
def gateSwapChecks (e : Env) : List Check := portIdChecks e ++ [zeroB e, highI e 1]

/-- The command GATE.SWAP with CANCEL = 0. -/
def gateSwapCmd : Cmd where
  op := 0x54
  fmt e _ := gateSwapChecks e
  own e s := [((getGates s e.a).change.isSome, stBusy)]
  eff e s :=
    let g := getGates s e.a
    let t := changeTime g (edgeTod s)
    { s := setGates s e.a { g with change := some t, suppress := suppressedStart g t } }

/-- GATE_SWAP (R262 to R264). -/
def execGateSwap (w : IWord) (s : State) : Host.Outcome State Fault Refusal := .next (runCmd gateSwapCmd w s)

/-- The command GATE.SWAP with CANCEL = 1. -/
def gateSwapCancelCmd : Cmd where
  op := 0x54
  fmt e _ := gateSwapChecks e
  eff e s :=
    let g := getGates s e.a
    if (match g.change with | some t => decide (edgeTod s < t) | none => false) then
      { s := setGates s e.a { g with change := none, suppress := none } }
    else { s := s }

/-- GATE_SWAP_CANCEL (R263). -/
def execGateSwapCancel (w : IWord) (s : State) : Host.Outcome State Fault Refusal :=
  .next (runCmd gateSwapCancelCmd w s)

/-- The swap at the change time: the lists exchange, the event carries the time, the new states apply (R262, R264). -/
def doSwap (p t : Nat) (s : State) : State :=
  let g := getGates s p
  let s := if g.suppress.isSome then bump 11 p 42 48 1 s else s
  let s := bump 11 p 41 48 1 s
  let n : Gates := { g with oper := g.admin, admin := g.oper, change := none, suppress := none }
  let n := { n with cycleSeen := cycleStart n s.clk.tod }
  let s := setGates s p n
  let s := if n.oper.enable then bump 11 p 40 48 1 s else s
  raise 0x4008 p (todSec t) (preemptWire p (gateSync p s))

/-- GATE_SWAP_CHANGE (R262 to R264). -/
def execGateSwapChange (t p : Nat) (s : State) : Host.Outcome State Fault Refusal :=
  .next (event t
    (fun s => match (getGates s p).change with
      | some c => timeReached s.clk.tod c
      | none => false)
    (fun s => match (getGates s p).change with
      | some c => doSwap p c s
      | none => s) s)

/-- The gates of a port after a step of network time (R265): a suppression that the step reaches ends, a change time that
it has passed takes effect, and the states are those of the new time. -/
def gateStep (p : Nat) (s : State) : State :=
  let g := getGates s p
  let g := match g.suppress with
    | some b => if b ≤ s.clk.tod then { g with suppress := none } else g
    | none => g
  let s := setGates s p g
  match g.change with
  | some c => if timeReached s.clk.tod c then doSwap p c s else preemptWire p (gateSync p s)
  | none => preemptWire p (gateSync p s)

/-- The command PREEMPT.SET. -/
def preemptSetCmd : Cmd where
  op := 0x55
  fmt e _ := portIdChecks e ++ [zeroB e, (decide (e.imm % 2 ^ 63 ≠ 0), stReserved)]
  eff e s := { s := preemptWire e.a (gateVisit e.a (setPort s e.a { getPort s e.a with hold := nb e.imm 63 })) }

/-- PREEMPT.SET (R269, R270). -/
def execPreemptSet (w : IWord) (s : State) : Host.Outcome State Fault Refusal := .next (runCmd preemptSetCmd w s)

/-! ### The fit rule (R267) -/

/-- Whether gate `k` is open at a network time, a pending swap taken into account. -/
def gateOpenAt (g : Gates) (k tod : Nat) : Bool :=
  match g.change with
  | some t => if t ≤ tod then nb (listState g.admin tod).1 k else nb (gateStateAt g tod).1 k
  | none => nb (gateStateAt g tod).1 k

/-- The entry boundaries of a list in the cycle of a network time, which may begin before time 0, and the next one. -/
def boundaries (g : GateList) (tod : Nat) : List Int :=
  if !g.enable then []
  else
    let b : Int := (tod : Int) - (cycleOffset g tod : Int)
    ((reachable g).map (fun p => b + (nsUnits p.1 : Int))) ++
      ((reachable g).map (fun p => b + (cycleUnits g + nsUnits p.1 : Nat)))

/-- The next closing of gate `k` after a network time; none if it does not close (R267). -/
def nextClosing (g : Gates) (k tod : Nat) : Option Nat :=
  let cand := boundaries g.oper tod ++
    match g.change with
    | some t => (t : Int) :: boundaries g.admin t
    | none => []
  let closings := (cand.filter (fun x => decide ((tod : Int) < x))).map (·.toNat) |>.filter (fun x => !gateOpenAt g k x)
  closings.foldl (fun m x => match m with | some y => some (min x y) | none => some x) none

/-- The increment that the next TCLK edge adds. -/
def currentIncr (c : Clk) : Nat := match c.temp with | some (i, _) => i | none => c.incr

/-- The fit rule for a frame of class `k` and `len` octets (R267): its wire time ends no later than the next closing.
Classes 0 to 5 are exempt where preemption is in use. -/
def fits (s : State) (p k len : Nat) : Bool :=
  (preemptOn s p && decide (k < 6)) ||
    match nextClosing (getGates s p) k s.clk.tod with
    | some c => decide ((len + 20) * 8 * currentIncr s.clk ≤ (c - s.clk.tod) * speedGb (portSpeed s p))
    | none => true

end Sys2Proof.Machine
end

