-- ==== Sys2Proof/Machine/Channels.lean ====
section
/-! DEFINITION. Channels: header fields (R121), the state word (R125), statistics (R129, R130), COLD_FAILED (R143), the
choice of a transmit association (R198), and proofing (R160 to R169). -/

namespace Sys2Proof.Machine

/-! ### Header fields (R121) -/

/-- SCI. -/
def hSci (h : Nat) : Nat := nf h 511 448
/-- CHEN. -/
def hChen (h : Nat) : Bool := nb h 447
/-- DIR: true on a receive channel. -/
def hRx (h : Nat) : Bool := nb h 446
/-- PORT. -/
def hPort (h : Nat) : Nat := nf h 445 441
/-- SUITE. -/
def hSuite (h : Nat) : Nat := nf h 440 438
/-- COFF. -/
def hCoff (h : Nat) : Nat := nf h 437 436
/-- CONF. -/
def hConf (h : Nat) : Bool := nb h 435
/-- SCIINC. -/
def hSciinc (h : Nat) : Bool := nb h 434
/-- ES. -/
def hEs (h : Nat) : Bool := nb h 433
/-- VFIRST. -/
def hVfirst (h : Nat) : Bool := nb h 432
/-- RXCLASS. -/
def hRxclass (h : Nat) : Nat := nf h 431 429
/-- RXMETEN. -/
def hRxmeten (h : Nat) : Bool := nb h 428
/-- RXMETER. -/
def hRxmeter (h : Nat) : Nat := nf h 427 417
/-- RPROT. -/
def hRprot (h : Nat) : Bool := nb h 416
/-- RWIN. -/
def hRwin (h : Nat) : Nat := nf h 415 384
/-- STATE as written. -/
def hState (h : Nat) : Nat := nf h 383 352
/-- EXHTH as written. -/
def hExhthField (h : Nat) : Nat := nf h 351 288

/-- The suite has 64-bit packet numbers. -/
def hXpn (h : Nat) : Bool := nb (hSuite h) 0
/-- Key length of the suite in bits. -/
def hBits (h : Nat) : Nat := if hSuite h < 2 then 256 else 128
/-- The last packet number of the suite (R198). -/
def lastPn (h : Nat) : Nat := if hXpn h then 2 ^ 64 - 1 else 0xFFFFFFFF
/-- The exhaust threshold (R121, R198). -/
def exhth (h : Nat) : Nat :=
  if hExhthField h ≠ 0 then hExhthField h else if hXpn h then 2 ^ 64 - 2 ^ 32 else 0xC0000000
/-- Octets of the confidentiality offset. -/
def coffOctets (h : Nat) : Nat := [0, 30, 50].getD (hCoff h) 0

/-! ### The state word (R125) -/

/-- The code of an association state. -/
def stateCode : AState → Nat
  | .empty => 0
  | .loaded => 1
  | .active => 2
  | .draining => 3
  | .retired => 4
  | .exhausted => 5

/-- The state word of a channel. -/
def stateWord (h : Chan) : Nat :=
  h.seq % 4096 * 2 ^ 20 + bn h.cold * 2 ^ 19 + bn h.pinned * 2 ^ 18 + bn h.resident * 2 ^ 17 + h.txan % 4 * 2 ^ 15 +
    bn (hChen h.header) * 2 ^ 14 + stateCode (getSub h 3).state * 2 ^ 9 + stateCode (getSub h 2).state * 2 ^ 6 +
    stateCode (getSub h 1).state * 2 ^ 3 + stateCode (getSub h 0).state

/-- The bits of the state word whose change advances SEQ. -/
def watchedBits (h : Chan) : Nat := stateWord { h with seq := 0, resident := false }

/-- Whether a channel is present (R120). -/
def present (s : State) (c : Nat) : Bool := hChen (getChan s c).header

/-- The octets of a sub-entry as CH.READ returns them: KEY and HKEY zero, STATE from the state word (R127, R148). -/
def subWord (u : Sub) : Nat :=
  u.salt * 2 ^ 416 + u.ssci * 2 ^ 384 + u.nextPn * 2 ^ 320 + u.rollPn * 2 ^ 256 + u.rollSec % 2 ^ 48 * 2 ^ 208 +
    u.rollNs * 2 ^ 178 + u.rollMode * 2 ^ 176 + stateCode u.state * 2 ^ 173 + u.slot * 2 ^ 165 + u.kgen * 2 ^ 153 +
    u.kcv * 2 ^ 129 + u.loadSec * 2 ^ 81

/-- The DRAM lines of an entry that sub-entry `an` occupies, by bit (R118). -/
def subLines (an : Nat) : Nat :=
  ((List.range 8).filter (fun l => decide (l * 64 < 64 + 112 * an + 112 ∧ 64 + 112 * an < l * 64 + 64))).foldl
    (fun m l => m ||| 2 ^ l) 0

/-- The DRAM lines of an entry that a change leaves changed, the header's STATE among them (R139). -/
def changedLines (a b : Chan) : Nat :=
  (if a.header = b.header && watchedBits a == watchedBits b then 0 else 1) |||
    (List.range 4).foldl (fun m an =>
      if subWord (getSub a an) = subWord (getSub b an) && (getSub a an).key == (getSub b an).key then m
      else m ||| subLines an) 0

/-- A channel takes new content at one edge: a change of the state word but of RESIDENT advances SEQ by one and raises
0x3001 (R125, R126, R145, R190). -/
def updChan (c : Nat) (h : Chan) (s : State) : State :=
  let o := getChan s c
  let h := { h with dirty := h.dirty ||| changedLines o h }
  if watchedBits h = watchedBits o then setChan s c { h with seq := o.seq }
  else
    let h := { h with seq := (o.seq + 1) % 4096 }
    raise 0x3001 c (stateWord h) (setChan s c h)

/-! ### Statistics (R129, R130) and drops (R124) -/

/-- Side of a channel's counts: the host side for a transmit channel, the line side for a receive channel. -/
def chanSide (h : Nat) : Nat := if hRx h then 0 else 1

/-- The key of a delta. -/
def deltaKey (c k : Nat) : Nat := c * 16 + k

/-- A delta is folded into the DRAM counter (R130). -/
def foldDelta (c k : Nat) (s : State) : State :=
  let d := tabGet 0 s.assoc.deltas (deltaKey c k)
  bump 7 c k 64 d { s with assoc := { s.assoc with deltas := tabDel s.assoc.deltas (deltaKey c k) } }

/-- The deltas of an entry are folded (R130). -/
def foldDeltas (c : Nat) (s : State) : State := (List.range 16).foldl (fun s k => foldDelta c k s) s

/-- An increment is posted to the cache engine's queue of 4 096 of a side, or lost where the queue is full. How fast the
engine takes them is not stated: once 4 096 have been posted, how many still wait is a free value (R130). -/
def postCount (side c k n : Nat) (s : State) : State :=
  let q := tabGet 0 s.assoc.posts side
  let d := draw s
  let r := if q < 4096 then (q, s) else (d.1 % 4097, d.2)
  if r.1 < 4096 then
    bump 7 c k 64 n { r.2 with assoc := { r.2.assoc with posts := tabSet 0 r.2.assoc.posts side (r.1 + 1) } }
  else raise 0x3003 side 0 (bump 6 side 1 48 1 r.2)

/-- Counter `k` of channel `c` advances: in the delta of a resident entry, which is folded when it reaches 2^31, else as an
increment posted to the cache engine (R130). -/
def countCh (c k n : Nat) (s : State) : State :=
  if (getChan s c).resident then
    let d := tabGet 0 s.assoc.deltas (deltaKey c k) + n
    let s := { s with assoc := { s.assoc with deltas := tabSet 0 s.assoc.deltas (deltaKey c k) d } }
    if 2 ^ 31 ≤ d then foldDelta c k s else s
  else postCount (chanSide (getChan s c).header) c k n s

/-- A frame whose channel is absent is dropped (R124). -/
def dropAbsent (side : Nat) (s : State) : State := raise 0x3002 side 0 (bump 6 side 0 48 1 s)

/-! ### Quarantine (R118, R441) -/

/-- Whether the page of address `a` is quarantined: a node on the list covers it, at level l index page / 8^l, or it lies
in a revoked region (R441, R445). -/
def pageQuarantined (s : State) (a : Nat) : Bool :=
  s.mg.quarantine.any (fun q => decide (a / 4096 / 8 ^ q.1 = q.2)) ||
    s.mg.regions.any (fun r => r.2.revoked && decide (r.2.base ≤ a / 4096 ∧ a / 4096 < r.2.base + r.2.pages))

/-- Whether a DRAM line of the entry of channel `c` or of its statistics entry is quarantined (R122). -/
def chanQuarantined (s : State) (c : Nat) : Bool :=
  pageQuarantined s (Config.assocBase + 512 * c) || pageQuarantined s (Config.statsBase + 128 * c)

/-- Whether a DRAM line of the entry of channel `c` is quarantined (R143, R148). -/
def entryQuarantined (s : State) (c : Nat) : Bool := pageQuarantined s (Config.assocBase + 512 * c)

/-! ### The choice of a transmit association (R198) -/

/-- The association in a state, the lowest AN first. -/
def subIn (h : Chan) (st : AState) : Option Nat :=
  (List.range 4).find? (fun an => decide ((getSub h an).state = st))

/-- The ACTIVE association (R191). -/
def activeAn (h : Chan) : Option Nat := subIn h .active
/-- The armed LOADED association (R191). -/
def armedAn (h : Chan) : Option Nat :=
  (List.range 4).find? (fun an => decide ((getSub h an).state = .loaded ∧ (getSub h an).rollMode ≠ 0))

/-- The roll time of a sub-entry in units of network time. -/
def rollTime (u : Sub) : Nat := u.rollSec * secUnits + u.rollNs * 2 ^ 32

/-- WIPE: KEY, HKEY, SALT and SSCI are zeroed and the state becomes EMPTY (R207). -/
def wipeSub (u : Sub) : Sub :=
  { u with state := .empty, key := 0, hkey := 0, salt := 0, ssci := 0, wipe := false }

/-- An association becomes RETIRED: it is disarmed, and a WIPE that waits acts at this edge (R207). -/
def retireSub (u : Sub) : Sub :=
  let u := { u with rollMode := if u.state = .loaded then 0 else u.rollMode, state := .retired }
  if u.wipe then wipeSub u else u

/-- What an assignment does (R198): the channel after it, the association and packet number of the frame, whether a
takeover took place, whether the threshold event and the exhausted event are due. -/
structure Assigned where
  chan : Chan
  an : Option Nat := none
  pn : Nat := 0
  rolled : Option Nat := none
  threshold : Bool := false
  exhausted : Bool := false
  deriving DecidableEq, Repr

/-- Whether the armed association takes over at this assignment (R198, R199). -/
def takesOver (h : Chan) (u : Sub) (now : Nat) : Bool :=
  match activeAn h with
  | none => true
  | some a =>
    decide ((getSub h h.txan).state = .exhausted) || (u.rollMode == 1 && decide (u.rollPn ≤ (getSub h a).nextPn)) ||
      (u.rollMode == 2 && timeReached now (rollTime u))

/-- The takeover of R198, where it is due. -/
def takeover (h : Chan) (now : Nat) : Chan × Option Nat :=
  match armedAn h with
  | none => (h, none)
  | some an =>
    let u := getSub h an
    if takesOver h u now then
      let h := match activeAn h with
        | some a => setSub h a (retireSub (getSub h a))
        | none => h
      ({ setSub h an { u with state := .active, rollMode := 0 } with txan := an, ever := true }, some an)
    else (h, none)

/-- The assignment of a frame of a transmit channel at network time `now` (R198). -/
def assign (h : Chan) (now : Nat) : Assigned :=
  let r := takeover h now
  let h := r.1
  match activeAn h with
  | none => { chan := h, rolled := r.2 }
  | some a =>
    let u := getSub h a
    let pn := u.nextPn
    let th := decide (exhth h.header ≤ pn) && !u.exhRaised
    let u := if th then { u with exhRaised := true } else u
    if pn = lastPn h.header then
      { chan := setSub h a { u with state := .exhausted }, an := some a, pn := pn, rolled := r.2
        threshold := th, exhausted := true }
    else
      { chan := setSub h a { u with nextPn := pn + 1 }, an := some a, pn := pn, rolled := r.2, threshold := th }

/-! ### Nonce (R155) -/

/-- The 96-bit IV of a packet number. -/
def nonceOf (header salt ssci pn : Nat) : Nat :=
  if hXpn header then (ssci * 2 ^ 64 + pn) ^^^ salt else hSci header * 2 ^ 32 + pn % 2 ^ 32

/-! ### Proofing -/

/-- Slots a channel holds: 2 for transmit, 4 for receive (R141). -/
def slotCount (h : Nat) : Nat := if hRx h then 4 else 2

/-- A slot of a channel. -/
def getPSlot (s : State) (c i : Nat) : Option PSlot := tabFind s.cipher.slots (c * 4 + i)
/-- Writes a slot. -/
def setPSlot (c i : Nat) (v : PSlot) (s : State) : State :=
  { s with cipher := { s.cipher with slots := tabPut s.cipher.slots (c * 4 + i) v } }
/-- Empties a slot. -/
def delPSlot (c i : Nat) (s : State) : State :=
  { s with cipher := { s.cipher with slots := tabDel s.cipher.slots (c * 4 + i) } }

/-- The packet numbers of association `an` from `pn` on, as far as the suite has them. -/
def window (h : Chan) (an pn n : Nat) : List (Nat × Nat) :=
  ((List.range n).map (fun i => (an, pn + i))).filter (fun p => decide (p.2 ≤ lastPn h.header))

/-- What the slots of a transmit channel cover: the next two frames, or both sides of a timed roll from 2 µs before it
(R161, R165, R166). -/
def txTargets (h : Chan) (now : Nat) : List (Nat × Nat) :=
  let straddle := match armedAn h, activeAn h with
    | some n, some _ =>
      let u := getSub h n
      u.rollMode == 2 && !takesOver h u now && decide (rollTime u ≤ now + nsUnits 2000)
    | _, _ => false
  let first := assign h now
  match first.an with
  | none => []
  | some a =>
    if straddle then
      match armedAn h with
      | some n => [(a, first.pn), (n, (getSub h n).nextPn)]
      | none => [(a, first.pn)]
    else
      match (assign first.chan now).an with
      | some b => [(a, first.pn), (b, (assign first.chan now).pn)]
      | none => [(a, first.pn)]

/-- The LOADED association with the lowest AN counted cyclically after `a` (R167). -/
def expectedSuccessor (h : Chan) (a : Nat) : Option Nat :=
  ([1, 2, 3].map (fun i => (a + i) % 4)).find? (fun an => decide ((getSub h an).state = .loaded))

/-- What the slots of a receive channel cover (R162, R167). -/
def rxTargets (h : Chan) : List (Nat × Nat) :=
  match activeAn h with
  | some a =>
    match expectedSuccessor h a with
    | some n =>
      if (getSub h n).inFlight.isEmpty then
        window h a (getSub h a).mark 2 ++ window h n (getSub h n).nextPn 2
      else window h n (getSub h n).mark 4
    | none => window h a (getSub h a).mark 4
  | none =>
    match subIn h .loaded with
    | some n => window h n (getSub h n).mark 4
    | none => []

/-- What the slots of channel `c` are to cover. -/
def proofTargets (s : State) (c : Nat) : List (Nat × Nat) :=
  let h := getChan s c
  if h.cold || !hChen h.header || !(h.pinned || (h.pinning.isSome && h.resident)) then []
  else if hRx h.header then rxTargets h else txTargets h s.clk.tod

/-- Whether a slot covers a target under the association's present load count (R160). -/
def slotCovers (h : Chan) (p : PSlot) (g : Nat × Nat) : Bool :=
  p.an == g.1 && p.pn == g.2 && p.loadGen == (getSub h p.an).loadGen

/-- Whether a slot was released by a window that moved on, not discarded: its association is usable and past it. -/
def slotPassed (h : Chan) (p : PSlot) : Bool :=
  let u := getSub h p.an
  p.loadGen == u.loadGen && decide (u.state = .active ∨ u.state = .loaded) &&
    decide (p.pn < if hRx h.header then u.mark else u.nextPn)

/-- Whether a channel carries class 7: by RXCLASS, or by a classification decision that protects on it with CLASS 7 and
PCPSEL = 0 (log entry 117). -/
def class7Chan (s : State) (c : Nat) : Bool :=
  let h := (getChan s c).header
  let hit (d : Decision) : Bool := d.action == 1 && d.channel == c && d.cls == 7 && !d.pcpsel
  if hRx h then hRxclass h == 7
  else s.cls.map.any (fun e => e.1 % 4096 != 4095 && nb e.2 63 && hit (mapDecision e.2)) ||
    s.cls.rules.any (fun e => nb e.2 255 && hit (ruleDecision e.2))

/-- Array of a channel: 0 encrypt, 1 decrypt. -/
def chanArray (h : Nat) : Nat := if hRx h then 1 else 0
/-- Group of a channel (R150). -/
def chanGroup (h : Nat) : Nat := hPort h / 8

/-- A refill joins the queue of its group: class 7 ahead of other refills, first in, first out within each kind
(R163). -/
def queueRefill (c i : Nat) (s : State) : State :=
  let h := (getChan s c).header
  let a := getArray s (chanArray h)
  let q := tabGet [] a.refills (chanGroup h)
  let r : Refill := { channel := c, idx := i, cls7 := class7Chan s c }
  let q := if r.cls7 then q.filter (·.cls7) ++ r :: q.filter (fun x => !x.cls7) else q ++ [r]
  setArray s (chanArray h) { a with refills := tabSet [] a.refills (chanGroup h) q }

/-- Queued refills of a slot are withdrawn. -/
def dropRefill (c i : Nat) (s : State) : State :=
  (List.range 2).foldl (fun s k =>
    let a := getArray s k
    setArray s k { a with
      refills := (a.refills.map (fun p =>
        (p.1, p.2.filter (fun (r : Refill) => !(r.channel == c && r.idx == i))))).filter (fun p => !p.2.isEmpty) }) s

/-- Adds to a counter of a cipher array (R189). -/
def bumpArray (a k n : Nat) (s : State) : State := bump 8 a k 48 n s

/-- A slot whose content no target asks for is emptied; a discard counts (R164). -/
def discardSlot (c i : Nat) (p : PSlot) (s : State) : State :=
  let h := getChan s c
  let s := dropRefill c i (delPSlot c i s)
  if slotPassed h p then s else bumpArray (chanArray h.header) 10 1 s

/-- A target that no slot covers takes a free slot and its refill is queued. -/
def placeTarget (c : Nat) (g : Nat × Nat) (s : State) : State :=
  let h := getChan s c
  if (List.range 4).any (fun i => match getPSlot s c i with
      | some p => !p.inUse && slotCovers h p g
      | none => false) then s
  else
    match (List.range (slotCount h.header)).find? (fun i => (getPSlot s c i).isNone) with
    | some i =>
      queueRefill c i (setPSlot c i
        { an := g.1, loadGen := (getSub h g.1).loadGen, pn := g.2, valid := false, keystream := [] } s)
    | none => s

/-- The slots of a channel follow what they are to cover at this edge: content that is no longer wanted is discarded,
and refills are queued for what is missing, in order (R161 to R167). -/
def syncSlots (c : Nat) (s : State) : State :=
  let targets := proofTargets s c
  let s := (List.range 4).foldl (fun s i => match getPSlot s c i with
    | some p => if p.inUse || targets.any (slotCovers (getChan s c) p) then s else discardSlot c i p s
    | none => s) s
  targets.foldl (fun s g => placeTarget c g s) s

/-- Whether every slot that a channel being pinned has to fill is VALID. -/
def slotsFilled (s : State) (c : Nat) : Bool :=
  (proofTargets s c).all (fun g => (List.range 4).any (fun i => match getPSlot s c i with
    | some p => p.valid && !p.inUse && slotCovers (getChan s c) p g
    | none => false))

/-- Whether a CH.PIN in progress has all it waits for. -/
def pinReady (s : State) (c : Nat) : Bool :=
  let h := getChan s c
  h.pinning.isSome && h.resident && slotsFilled s c

/-- The pin takes effect: PINNED is set and the channel's proofing misses start afresh (R141, R169). -/
def setPinned (c : Nat) (s : State) : State :=
  closeRec 0x300F c (updChan c { getChan s c with pinned := true, pinning := none } s)

/-- A CH.PIN in progress completes at the edge at which its last slot becomes VALID (R141). -/
def checkPin (c : Nat) (s : State) : State :=
  match (getChan s c).pinning with
  | some q => if pinReady s c then complete 0x3007 q stOk 0 0 (setPinned c s) else s
  | none => s

/-- A channel takes new content, and its proofing slots follow at the same edge. -/
def putChan (c : Nat) (h : Chan) (s : State) : State := checkPin c (syncSlots c (updChan c h s))

/-! ### COLD_FAILED (R143) -/

/-- A channel becomes COLD_FAILED: one event, association states kept, proofing slots discarded (R143, R164). A pin in
progress ends with status `st`. -/
def setCold (c st : Nat) (s : State) : State :=
  let h := getChan s c
  if h.cold then s
  else
    let s := raise 0x3006 c 0 (syncSlots c (updChan c { h with cold := true, pinning := none } s))
    match h.pinning with
    | some q => complete 0x3007 q st 0 0 s
    | none => s

/-- The slot that a frame takes its keystream from, if one matches (R160): the channel is pinned, the slot VALID. -/
def matchSlot (s : State) (c an pn : Nat) : Option (Nat × PSlot) :=
  let h := getChan s c
  if !h.pinned then none
  else
    (List.range 4).findSome? (fun i => match getPSlot s c i with
      | some p => if p.valid && !p.inUse && slotCovers h p (an, pn) then some (i, p) else none
      | none => none)

/-- A frame takes its keystream: from a slot, which it keeps in use until it releases it (R164), or in flight. A pinned
channel's frame without a slot is a proofing miss (R160, R169); the event is raised for a frame of class 7 (log entry 118). The
keystream, the slot, the state. -/
def takeKeystream (c an pn cls : Nat) (s : State) : List Nat × Option Nat × State :=
  match matchSlot s c an pn with
  | some (i, p) => (p.keystream, some i, setPSlot c i { p with inUse := true } s)
  | none =>
    if (getChan s c).pinned then
      let s := countCh c 12 1 s
      ([], none, if cls = 7 then raise 0x300F c 0 s else s)
    else ([], none, s)

/-- A frame releases the slot it kept in use, and the refill that takes its place is queued (R164). The last block that a frame
reads is block 0, the tag mask, at its ICV: when its lane hands it off, or when its check is made (DEDUCED, log entry 97). -/
def releaseSlot (c : Nat) (slot : Option Nat) (s : State) : State :=
  match slot with
  | some i => syncSlots c (delPSlot c i s)
  | none => s

/-- The side array of a line (R158). -/
def sideOfChan (h : Chan) : Tab (List Nat) :=
  (List.range 4).foldl (fun (t : Tab (List Nat)) an =>
    let k := (getSub h an).hkey
    if k = 0 then t else tabPut t an [gfMul k k, gfMul (gfMul k k) k, gfMul (gfMul k k) (gfMul k k)]) []

/-- Changes the valid line of a channel. -/
def modLine (c : Nat) (g : CacheLine → CacheLine) (s : State) : State :=
  { s with assoc := { s.assoc with lines := s.assoc.lines.map (fun p =>
      if p.2.channel = c && decide (p.2.use = .valid) then (p.1, g p.2) else p) } }

/-- A frame uses the line of its channel: the reference bit is set (R132). -/
def touchLine (c : Nat) (s : State) : State := modLine c (fun l => { l with ref := true, used := true }) s

/-- A frame looks its channel up in the residency map (R133). -/
def lookLine (c : Nat) (s : State) : State := modLine c (fun l => { l with looked := some (edgeAt 3 s.clk.root) }) s

/-- The cache engine computes the side array of a channel's line (R158). -/
def refreshSide (c : Nat) (s : State) : State := modLine c (fun l => { l with side := sideOfChan (getChan s c) }) s

end Sys2Proof.Machine
end

