-- ==== Sys2Proof/Machine/Lines.lean ====
section
/-! DEFINITION. The memory under the Memory Guard (15_memory_guard.md): attachment, keys, protected lines, the counter tree and
its node cache, and the one access that every master makes. -/

namespace Sys2Proof.Machine

/-- Adds to a counter of index 0 of scope 16 (R449). -/
def bumpMg (k n : Nat) (s : State) : State := bump 16 0 k 48 n s
/-- Adds to a counter of region `r`. -/
def bumpRegion (r k : Nat) (s : State) : State := bump 16 (r + 1) k 48 1 s

/-! ### Attachment (R417 to R419) -/

/-- The checks of the memory setting (R418). -/
def memSettingOk (v : Nat) : Bool :=
  decide (v % 2 ^ 506 = 0 ∧ nf v 510 509 ≠ 3 ∧ nf v 508 507 ≠ 3) && (!nb v 506 || decide (nf v 508 507 = 0))

/-- Installed pages (R417). -/
def installedPages (v : Nat) : Nat :=
  let gib := match nf v 508 507 with
    | 0 => if nb v 506 then 32 else 16
    | 1 => 24
    | _ => 32
  gib * (if nb v 511 then 2 else 1) * 262144

/-- Pages below the metadata area, the top 1/32 of installed memory (R420). -/
def usablePages (p : Nat) : Nat := p - p / 32

/-- The memory setting is read, and training starts, or the Memory Guard is unavailable (R418, R419). -/
def mgBegin (s : State) : State :=
  let v := beNat (readMem s 0x60000 64)
  if memSettingOk v then { s with mg := { s.mg with setting := v, ready := .training, since := s.clk.root } }
  else raise 0x8002 0 0 { s with mg := { s.mg with setting := v, ready := .unavailable } }

/-- The checks that every MG instruction begins with (R419). -/
def mgReadyChecks (s : State) : List Check :=
  [(decide (s.mg.ready = .unavailable), stFault),
   (decide (s.mg.ready = .training ∨ s.mg.ready = .off), stBusy)]

/-- The status of R419 for an access, ST_OK once training is complete. -/
def mgNotReady (s : State) : Nat := firstFail (mgReadyChecks s)

/-! ### Keys (R421) -/

/-- "MGENC". -/
def mgEncLabel : Bytes := beBytes 5 0x4D47454E43
/-- "MGTAG". -/
def mgTagLabel : Bytes := beBytes 5 0x4D47544147

/-- A key ID is loaded from the DRBG, or from a Key Vault slot with fresh octets (R421). -/
def loadKey (kid : Nat) (source : Option Nat) (s : State) : State :=
  let r := internalRandom (if source.isSome then 32 else 64) s
  let k : KeyId := match source with
    | some slot =>
      let key := ((getSlot r.2 slot).payload).take 32
      ⟨beNat (sha3 (key ++ r.1 ++ mgEncLabel)), beNat (sha3 (key ++ r.1 ++ mgTagLabel)), 1, some slot⟩
    | none => ⟨beNat (r.1.take 32), beNat (r.1.drop 32), 1, none⟩
  { r.2 with mg := { r.2.mg with keys := tabPut r.2.mg.keys kid k } }

/-- A key ID's keys are zeroed. -/
def dropKey (kid : Nat) (s : State) : State := { s with mg := { s.mg with keys := tabDel s.mg.keys kid } }

/-- Whether a key ID is the KEYID or ALIAS of a region. -/
def keyInUse (s : State) (kid : Nat) : Bool :=
  s.mg.regions.any (fun r => r.2.keyid == kid || r.2.alias_ == some kid)

/-! ### Pages, nodes and regions (R424, R431, R432) -/

/-- Key of a metadata line. -/
def nodeKey (level idx : Nat) : Nat := level * 2 ^ 30 + idx

/-- Whether page `p` lies in a region. -/
def inRegion (g : Region) (p : Nat) : Bool := decide (g.base ≤ p ∧ p < g.base + g.pages)

/-- The region of a page. -/
def regionOf (s : State) (p : Nat) : Option (Nat × Region) := s.mg.regions.find? (fun r => inRegion r.2 p)

/-- Whether all pages below a node lie in a range of pages. -/
def nodeWithin (level idx base n : Nat) : Bool := decide (base ≤ idx * 8 ^ level ∧ (idx + 1) * 8 ^ level ≤ base + n)

/-- Whether a node's pages and a range overlap. -/
def nodeMeets (level idx base n : Nat) : Bool := decide (idx * 8 ^ level < base + n ∧ base < (idx + 1) * 8 ^ level)

/-- Whether node `q` lies at or below node (level, idx). -/
def nodeBelow (level idx : Nat) (q : Nat × Nat) : Bool := decide (q.1 ≤ level ∧ q.2 / 8 ^ (level - q.1) = idx)

/-- A metadata line is fresh: its parent counter is 0, or below the birth of the region that holds all its pages (R431). -/
def nodeFresh (s : State) (level idx : Nat) : Bool :=
  let c := tabGet 0 s.mg.parents (nodeKey level idx)
  c == 0 || s.mg.regions.any (fun r => nodeWithin level idx r.2.base r.2.pages && decide (c < r.2.birth))

/-- The counter block of a page. -/
def getBlock (s : State) (p : Nat) : CBlock :=
  (tabFind s.mg.blocks p).getD ⟨0, [], 0⟩

/-- Writes a counter block. -/
def setBlock (p : Nat) (b : CBlock) (s : State) : State := { s with mg := { s.mg with blocks := tabPut s.mg.blocks p b } }

/-! ### Metadata tags (R428, R430) -/

/-- The 64 octets of a counter block, as a number. -/
def blockWord (b : CBlock) : Nat :=
  b.major * 2 ^ 456 + (List.range 64).foldl (fun n i => n + tabGet 0 b.minors i * 2 ^ (449 - 7 * i)) 0

/-- The 64 octets of a metadata line, as a number. -/
def nodeWord (s : State) (level idx : Nat) : Nat :=
  if level = 0 then blockWord (getBlock s idx)
  else (List.range 8).foldl (fun n j =>
    n + tabGet 0 s.mg.parents (nodeKey (level - 1) (8 * idx + j)) * 2 ^ (448 - 64 * j)) 0

/-- Nodes of a level (R432). -/
def levelSize (p level : Nat) : Nat := (p + 8 ^ level - 1) / 8 ^ level

/-- Line number at which a level starts (R432). -/
def levelBase (p : Nat) : Nat → Nat
  | 0 => usablePages p * 64
  | k + 1 => levelBase p k + levelSize p k

/-- Pages of the installed memory. -/
def mgPages (s : State) : Nat := match s.mg.ready with | .ready p => p | _ => 0

/-- Line number of a metadata line (R432). -/
def nodeLine (s : State) (level idx : Nat) : Nat := levelBase (mgPages s) level + idx

/-- Four blocks of a line. -/
def lineBlocks (v : Nat) : List Nat := (List.range 4).map (fun i => v / 2 ^ (128 * (3 - i)) % 2 ^ 128)

/-- The tag of a metadata line under its parent counter (R428). -/
def metaTag (s : State) (level idx : Nat) : Nat :=
  let k := s.mg.metaKey
  let pc := tabGet 0 s.mg.parents (nodeKey level idx)
  let c := (0x80 + level) * 2 ^ 120 + nodeLine s level idx % 2 ^ 40 * 2 ^ 80 + pc * 2 ^ 16
  (ghash (aesEnc 256 k 0) (lineBlocks (nodeWord s level idx)) ^^^ aesEnc 256 k c) / 2 ^ 64

/-! ### Quarantine (R441, R143) -/

/-- Channels whose entry a condition on pages covers and is not resident become COLD_FAILED (R143). -/
def coldPages (f : Nat → Bool) (s : State) : State :=
  s.assoc.chans.foldl (fun s p =>
    if present s p.1 && !(getChan s p.1).resident && f ((Config.assocBase + 512 * p.1) / 4096) then
      setCold p.1 stPoisoned s else s) s

/-- A node's subtree is quarantined (R441). -/
def quarantineNode (level idx : Nat) (s : State) : State :=
  if s.mg.quarantine.any (fun q => nodeBelow q.1 q.2 (level, idx)) then s
  else
    let keep := s.mg.quarantine.filter (fun q => !nodeBelow level idx q)
    let e := if keep.length < 64 then (level, idx) else (7, idx / 8 ^ (7 - level))
    let keep := keep.filter (fun q => !nodeBelow e.1 e.2 q)
    let s := bumpMg 18 1 { s with mg := { s.mg with quarantine := keep ++ [e] } }
    coldPages (fun p => decide (p / 8 ^ e.1 = e.2)) (raiseEv { code := 0x8007, aux := e.1, data := e.2 } s)

/-! ### The node cache (R431, R434) -/

/-- Whether a metadata line is cached. -/
def nodeCached (s : State) (level idx : Nat) : Bool := s.mg.nodes.any (fun n => n.level == level && n.idx == idx)

/-- Whether a cached line has a cached child. -/
def hasChild (s : State) (n : MgNode) : Bool :=
  decide (0 < n.level) && s.mg.nodes.any (fun c => c.level + 1 == n.level && c.idx / 8 == n.idx)

/-- Whether all pages of a line lie in RETAIN regions. -/
def retained (s : State) (n : MgNode) : Bool :=
  let lo := n.idx * 8 ^ n.level
  let hi := lo + 8 ^ n.level
  (s.mg.regions.foldl (fun c r =>
    if r.2.retain_ then c + (min hi (r.2.base + r.2.pages) - max lo r.2.base) else c) 0) == 8 ^ n.level

/-- A cached line changed by `f`. -/
def modNode (level idx : Nat) (f : MgNode → MgNode) (s : State) : State :=
  { s with mg := { s.mg with nodes := s.mg.nodes.map (fun n => if n.level == level && n.idx == idx then f n else n) } }

/-- A cached line becomes dirty. -/
def markDirty (level idx : Nat) (s : State) : State := modNode level idx (fun n => { n with dirty := true }) s

/-- A metadata line is written back: its parent counter takes the tree clock, which advances; the tag is formed; the parent
is dirty (R431). -/
def writeBackNode (level idx : Nat) (s : State) : State :=
  let s := bumpMg 15 1 { s with mg := { s.mg with
    parents := tabSet 0 s.mg.parents (nodeKey level idx) s.mg.treeClock, treeClock := s.mg.treeClock + 1 } }
  let s := { s with mg := { s.mg with tags := tabSet 0 s.mg.tags (nodeKey level idx) (metaTag s level idx) } }
  markDirty (level + 1) (idx / 8) s

/-- The line that leaves the cache for node (level, idx): the least recently used one without a cached child, of a level below 5,
a retained one only when no other can be (R434); never the parent of the line that comes in. -/
def nodeVictim (level idx : Nat) (s : State) : Option MgNode :=
  let free := s.mg.nodes.filter (fun n =>
    decide (n.level < 5) && !hasChild s n && !(n.level == level + 1 && n.idx == idx / 8))
  match free.find? (fun n => !retained s n) with
  | some n => some n
  | none => free.head?

/-- Room for one line in the cache of 32 768. -/
def nodeRoom (level idx : Nat) (s : State) : State :=
  if s.mg.nodes.length < 32768 then s
  else
    match nodeVictim level idx s with
    | some n =>
      let s := if n.dirty then writeBackNode n.level n.idx s else s
      { s with mg := { s.mg with nodes := s.mg.nodes.filter (fun m => !(m.level == n.level && m.idx == n.idx)) } }
    | none => s

/-- A verified line enters the cache as its most recently used one. -/
def cacheNode (level idx : Nat) (dirty : Bool) (s : State) : State :=
  let s := nodeRoom level idx s
  { s with mg := { s.mg with nodes := s.mg.nodes ++ [⟨level, idx, dirty⟩] } }

/-- A cached line is used. -/
def touchNode (level idx : Nat) (s : State) : State :=
  let hit := fun (n : MgNode) => n.level == level && n.idx == idx
  { s with mg := { s.mg with nodes := s.mg.nodes.filter (fun n => !hit n) ++ s.mg.nodes.filter hit } }

/-- Whether `n` symbols in error are beyond the code of a DRAM line, which corrects any 4. -/
def symbolsLost (n : Nat) : Bool := decide (4 < n)
/-- Whether a data line is uncorrectable. -/
def lineLost : DramFault → Bool
  | .symbols n => symbolsLost n
  | _ => false
/-- Whether a data line has errors that are corrected. -/
def lineMended : DramFault → Bool
  | .symbols n => decide (0 < n) && !symbolsLost n
  | _ => false
/-- Whether the metadata line of a level fails. -/
def metaLost (level : Nat) : DramFault → Bool
  | .metaSymbols l n => l == level && symbolsLost n
  | .metaTag l => l == level
  | _ => false
/-- Whether the metadata line of a level has errors that are corrected. -/
def metaMended (level : Nat) : DramFault → Bool
  | .metaSymbols l n => l == level && decide (0 < n) && !symbolsLost n
  | _ => false

/-- What happens to the metadata line of a level when it is read: false if it fails and its subtree is quarantined. A fresh
line is never read (R431, R441). -/
def loadNode (level idx : Nat) (fault : DramFault) (s : State) : Bool × State :=
  if nodeFresh s level idx then (true, cacheNode level idx false s)
  else if metaLost level fault ∨ tabGet 0 s.mg.tags (nodeKey level idx) ≠ metaTag s level idx then
    (false, quarantineNode level idx (bumpMg 10 1 s))
  else if metaMended level fault then (true, cacheNode level idx true (bumpMg 7 1 s))
  else (true, cacheNode level idx false s)

/-- The levels below `k` are loaded, highest first. -/
def loadLevels (p : Nat) (fault : DramFault) : Nat → State → Bool × State
  | 0, s => (true, s)
  | k + 1, s =>
    let r := loadNode k (p / 8 ^ k) fault (bumpMg 14 1 s)
    if r.1 then loadLevels p fault k r.2 else r

/-- The lowest level of a page's path that is cached; 8 is the root. -/
def cachedLevel (s : State) (p : Nat) : Nat := ((List.range 8).find? (fun k => nodeCached s k (p / 8 ^ k))).getD 8

/-- The path of a page comes into the cache (R434); false if a line of it fails. The root's copies are read with level 7
(R433). -/
def loadPath (p : Nat) (fault : DramFault) (s : State) : Bool × State :=
  let k := cachedLevel s p
  if k = 8 ∧ metaLost 8 fault then (false, quarantineNode 7 (p / 8 ^ 7) (bumpMg 10 1 s))
  else
    let s := if k = 8 ∧ metaMended 8 fault then bumpMg 20 1 s else s
    let s := if k < 8 then touchNode k (p / 8 ^ k) (bumpMg 13 1 s) else s
    loadLevels p fault k s

/-! ### The protected line (R428, R429) -/

/-- The counter of R428. -/
def lineCtr (j kid line major minor t : Nat) : Nat :=
  j * 2 ^ 120 + kid * 2 ^ 112 + line * 2 ^ 72 + major * 2 ^ 16 + minor * 2 ^ 8 + t

/-- The keystream of a line, 64 octets. -/
def lineStream (k : KeyId) (kid line major minor : Nat) : List Nat :=
  (List.range 4).map (fun j => aesEnc 256 k.kenc (lineCtr j kid line major minor 0))

/-- The tag of a line. -/
def lineTag (k : KeyId) (kid line major minor : Nat) (c : Bytes) : Nat :=
  (ghash (aesEnc 256 k.ktag 0) (blocks c) ^^^ aesEnc 256 k.ktag (lineCtr 0 kid line major minor 1)) / 2 ^ 64

/-- The keys of a key ID, zeros for one that holds none. -/
def keyOf (s : State) (kid : Nat) : KeyId := (tabFind s.mg.keys kid).getD ⟨0, 0, 0, none⟩

/-- Eight octets, each times α in the field of x⁸ + x⁴ + x³ + x² + 1. -/
def octetsTimesA (v : Nat) : Nat :=
  ((v &&& 0x7F7F7F7F7F7F7F7F) * 2) ^^^ (v / 2 ^ 7 &&& 0x0101010101010101) * 0x1D

/-- Eight octets, each times the octet `a`, by the low `n` bits of `a`. -/
def octetsTimes : Nat → Nat → Nat → Nat
  | 0, _, _ => 0
  | n + 1, a, v => (if a % 2 = 1 then v else 0) ^^^ octetsTimes n (a / 2) (octetsTimesA v)

/-- The generator of RS(80,72) below its leading term, highest power first: roots α⁰ to α⁷ (R427). -/
def rsGen : Nat := 0xFF0B5136EFADC818

/-- The check octets of the 72 symbols before them (R427). -/
def rsCheck (symbols : Bytes) : Nat :=
  symbols.foldl (fun r x => r * 2 ^ 8 % 2 ^ 64 ^^^ octetsTimes 8 (x.toNat ^^^ r / 2 ^ 56) rsGen) 0

/-- The check octets that belong to a line. -/
def lineCheck (l : DLine) : Nat := rsCheck (l.cipher ++ beBytes 8 l.tag)

/-- The pattern of a poisoned line's check octets (R440). -/
def poisonPattern : Nat := 0x5A5A5A5A5A5A5A5A

/-- Whether a line is poisoned: its check octets match the pattern (R440). -/
def linePoisoned (l : DLine) : Bool := decide (l.check = lineCheck l ^^^ poisonPattern)

/-- A line with its check octets. -/
def codedLine (c : Bytes) (tag : Nat) : DLine := ⟨c, tag, lineCheck ⟨c, tag, 0⟩⟩

/-- A line as it is written under the counters of its page. -/
def sealLine (s : State) (p i : Nat) (b : CBlock) (data : Bytes) : DLine :=
  let k := keyOf s b.kid
  let c := xorStream data (lineStream k b.kid (p * 64 + i) b.major (tabGet 0 b.minors i))
  codedLine c (lineTag k b.kid (p * 64 + i) b.major (tabGet 0 b.minors i) c)

/-- The plaintext of a line, none if its tag fails. -/
def openLine (s : State) (p i : Nat) (b : CBlock) (l : DLine) : Option Bytes :=
  let k := keyOf s b.kid
  if l.tag = lineTag k b.kid (p * 64 + i) b.major (tabGet 0 b.minors i) l.cipher then
    some (xorStream l.cipher (lineStream k b.kid (p * 64 + i) b.major (tabGet 0 b.minors i)))
  else none

/-- 64 zero octets. -/
def zeroLine : Bytes := List.replicate 64 0

/-- A data line as DRAM holds it. -/
def getLine (s : State) (p i : Nat) : DLine := (tabFind s.mg.lines (p * 64 + i)).getD (codedLine zeroLine 0)

/-- Writes a data line. -/
def putLine (p i : Nat) (l : DLine) (s : State) : State :=
  { s with mg := { s.mg with lines := tabPut s.mg.lines (p * 64 + i) l } }

/-- A line is poisoned (R440). -/
def poisonLine (p i : Nat) (s : State) : State :=
  putLine p i { getLine s p i with check := lineCheck (getLine s p i) ^^^ poisonPattern } s

/-- A data line that is not fresh is read (R440). -/
def readStored (r p i : Nat) (fault : DramFault) (s : State) : (Nat × Bytes) × State :=
  let l := getLine s p i
  if linePoisoned l then ((stPoisoned, []), bumpRegion r 3 (bumpMg 11 1 s))
  else if lineLost fault then
    ((stPoisoned, []), raise 0x8004 r 0 (poisonLine p i (bumpMg 8 1 s)))
  else
    match if fault = .tagFailure then none else openLine s p i (getBlock s p) l with
    | none => ((stIntegrity, []), raise 0x8005 r 0 (poisonLine p i (bumpMg 9 1 s)))
    | some d => ((stOk, d), if lineMended fault then bumpMg 6 1 s else s)

/-! ### Writes and counters running out (R436 to R438) -/

/-- The next value of a key ID's major clock, which advances. -/
def nextMajor (kid : Nat) (s : State) : Nat × State :=
  let k := keyOf s kid
  (k.major, { s with mg := { s.mg with keys := tabPut s.mg.keys kid { k with major := k.major + 1 } } })

/-- Whether a key ID's major clock would pass 2^56 - 1. -/
def clockSpent (s : State) (kid : Nat) : Bool := decide (2 ^ 56 - 1 ≤ (keyOf s kid).major)

/-- What the DRAM brings beside a line, by line number. -/
def faultAt (l : List (Nat × DramFault)) (line : Nat) : DramFault :=
  ((l.find? (fun f => f.1 == line)).map (·.2)).getD .none

/-- Every line of page `p` of region `r` with a nonzero minor, but the one about to be written, is read under its old counters
and written under the next major of key ID `kid`, with minor 1 (R437). One that cannot be read is written poisoned. -/
def repage (r p kid : Nat) (written : Option Nat) (faults : List (Nat × DramFault)) (s : State) : State :=
  let b := getBlock s p
  let m := nextMajor kid s
  let nb : CBlock := ⟨m.1, b.minors.map (fun x => (x.1, 1)), kid⟩
  let s := (b.minors.filter (fun x => written != some x.1)).foldl (fun s x =>
    let d := readStored r p x.1 (faultAt faults (p * 64 + x.1)) s
    if d.1.1 = stOk then putLine p x.1 (sealLine d.2 p x.1 nb d.1.2) d.2 else poisonLine p x.1 d.2) m.2
  markDirty 0 p (setBlock p nb s)

/-- The lowest free key ID. -/
def freeKey (s : State) : Nat := ((List.range 64).find? (fun k => !keyInUse s k)).getD 0

/-- A rotation begins: the old ALIAS is freed, the KEYID becomes the ALIAS (R443). -/
def beginRotation (r : Nat) (g : Region) (kid : Nat) (source : Option Nat) (cseq : Option Nat) (s : State) : State :=
  let s := match g.alias_ with
    | some a => dropKey a s
    | none => s
  setRegion (loadKey kid source s) r { g with
    alias_ := some g.keyid, keyid := kid, rotating := true, rotCseq := cseq }

/-- The key ID that encrypts a page that is written for the first time: the old one while a rotation has still to pass
(R443). -/
def pageKey (g : Region) : Nat := if g.rotating then g.alias_.getD g.keyid else g.keyid

/-- The major clock of the page's key is spent: the region rotates and the page moves first (R438). -/
def spendClock (r p : Nat) (g : Region) (written : Option Nat) (faults : List (Nat × DramFault)) (s : State) : State :=
  let s := raise 0x8008 r 0 s
  let s := beginRotation r g (freeKey s) (if g.ksrc then some g.slot else none) none s
  match getRegion s r with
  | some n => repage r p n.keyid written faults s
  | none => s

/-- The page is ready for a write of line `i`: MAJOR is set, a minor at 127 has had its page re-encrypted, a page that a
rotation has still to move is moved by its overflow (R436 to R438, R447). While a rotation runs, a page that its spent old key
would encrypt takes the new one: a region has two key IDs at most (R438). -/
def readyPage (r p i : Nat) (g : Region) (faults : List (Nat × DramFault)) (s : State) : State :=
  let b := getBlock s p
  if b.major = 0 then
    let k := if g.rotating && clockSpent s (pageKey g) then g.keyid else pageKey g
    if clockSpent s k && !g.rotating then spendClock r p g (some i) faults s
    else
      let m := nextMajor k s
      setBlock p ⟨m.1, b.minors, k⟩ m.2
  else if tabGet 0 b.minors i < 127 then s
  else
    let s := bumpMg 16 1 s
    if b.kid = g.keyid && clockSpent s b.kid && !g.rotating then spendClock r p g (some i) faults s
    else repage r p g.keyid (some i) faults s

/-- A line is written (R436): its minor advances and it is encrypted; after a re-encryption it keeps minor 1. -/
def writeLine (r p i : Nat) (g : Region) (data : Bytes) (faults : List (Nat × DramFault)) (s : State) : State :=
  let spilt := decide (127 ≤ tabGet 0 (getBlock s p).minors i)
  let s := readyPage r p i g faults s
  let b := getBlock s p
  let b := { b with minors := tabSet 0 b.minors i (if spilt then 1 else tabGet 0 b.minors i + 1) }
  bumpMg 2 1 (markDirty 0 p (setBlock p b (putLine p i (sealLine s p i b data) s)))

/-! ### Accesses (R425, R426, R439, R440) -/

/-- Number of a master in the rights word. -/
def masterNum : MgMaster → Nat
  | .complexA => 0
  | .complexB => 1
  | .cacheEngine => 2
  | .pcieDma => 3
  | .debug => 4

/-- Whether a master may reach memory at all: a complex only while it is active, debug while JTAG is open (R426). -/
def masterActs (s : State) : MgMaster → Bool
  | .complexA => decide (activeNow s = some 0)
  | .complexB => decide (activeNow s = some 1)
  | .debug => s.boot.jtagOpen
  | _ => true

/-- Page of an address. -/
def pageOf (a : Nat) : Nat := nf a 35 12
/-- Line within its page. -/
def lineIn (a : Nat) : Nat := nf a 11 6

/-- The checks of an access (R425). -/
def accessFail (s : State) (m : MgMaster) (write : Bool) (a : Nat) : Nat :=
  match regionOf s (pageOf a) with
  | none => stRange
  | some (_, g) =>
    firstFail
      [(decide (nf a 63 46 ≠ 0 ∨ nf a 39 36 ≠ 0), stRange),
       (decide (nf a 45 40 ≠ g.keyid ∧ g.alias_ ≠ some (nf a 45 40)), stAttr),
       (!masterActs s m || !nb g.rights (2 * masterNum m + bn write), stAttr),
       (pageQuarantined s (pageOf a * 4096), stPoisoned)]

/-- A refused access is counted against its region and raises an event (R425). -/
def refuseAccess (a : Nat) (s : State) : State :=
  match regionOf s (pageOf a) with
  | some (r, _) => raise 0x8003 r 0 (bumpRegion r 2 (bumpMg 12 1 s))
  | none => raise 0x8003 Config.noRegion 0 (bumpMg 12 1 s)

/-- A read of a line: a fresh one reads as zeros (R429). -/
def readLine (r p i : Nat) (fault : DramFault) (s : State) : (Nat × Bytes) × State :=
  let s := bumpRegion r 0 (bumpMg 1 1 s)
  if tabGet 0 (getBlock s p).minors i = 0 then ((stOk, zeroLine), bumpMg 3 1 s)
  else readStored r p i fault s

/-- Octets merged under a mask, bit `k` for octet `k`. -/
def mergeMask (mask : Nat) (old new : Bytes) : Bytes :=
  (List.range 64).map (fun k => if nb mask k then new.getD k 0 else old.getD k 0)

/-- The old line of a partial write (R439). -/
def partialOld (r p i : Nat) (fault : DramFault) (s : State) : (Nat × Bytes) × State :=
  let l := getLine s p i
  if tabGet 0 (getBlock s p).minors i = 0 then ((stOk, zeroLine), s)
  else if linePoisoned l then ((stPoisoned, []), bumpMg 5 1 s)
  else if lineLost fault then
    ((stPoisoned, []), raise 0x8004 r 0 (poisonLine p i (bumpMg 5 1 (bumpMg 8 1 s))))
  else
    match if fault = .tagFailure then none else openLine s p i (getBlock s p) l with
    | none => ((stIntegrity, []),
        raiseEv { code := 0x8006, obj := r, status := stIntegrity } (poisonLine p i (bumpMg 5 1 (bumpMg 9 1 s))))
    | some d => ((stOk, d), if lineMended fault then bumpMg 6 1 s else s)

/-- A write of a line, whole or partial (R436, R439). -/
def writeAccess (r p i : Nat) (g : Region) (a : MgAccess) (s : State) : (Nat × Bytes) × State :=
  let s := bumpRegion r 1 s
  if a.mask % 2 ^ 64 = 2 ^ 64 - 1 then ((stOk, []), writeLine r p i g (fit 64 a.data) a.others s)
  else
    let o := partialOld r p i a.fault (bumpMg 4 1 s)
    if o.1.1 = stOk then ((stOk, []), writeLine r p i g (mergeMask a.mask o.1.2 a.data) a.others o.2)
    else ((o.1.1, []), o.2)

/-- A line access: checked, its path verified, then read or written (R425). An access that meets a failing metadata line
ends with ST_POISONED (R447). -/
def mgAccess (m : MgMaster) (a : MgAccess) (s : State) : (Nat × Bytes) × State :=
  if mgNotReady s ≠ stOk then ((mgNotReady s, []), s)
  else if accessFail s m a.write a.addr ≠ stOk then
    ((accessFail s m a.write a.addr, []), refuseAccess a.addr s)
  else
    match regionOf s (pageOf a.addr) with
    | none => ((stRange, []), s)
    | some (r, g) =>
      let q := loadPath (pageOf a.addr) a.fault s
      if !q.1 then ((stPoisoned, []), q.2)
      else if a.write then writeAccess r (pageOf a.addr) (lineIn a.addr) g a q.2
      else readLine r (pageOf a.addr) (lineIn a.addr) a.fault q.2

end Sys2Proof.Machine
end

