-- ==== Sys2Proof/Machine/Assoc.lean ====
section
/-! DEFINITION. The Association Table (04_association_table.md): CH.SET, CH.PIN, CH.UNPIN, CH.READ, SYS.RECONCILE, and
the association cache (R131 to R140). -/

namespace Sys2Proof.Machine

/-! ### The cache (R131, R132, R136, R139) -/

/-- Lines of the cache. -/
def cacheLines : Nat := 2048

/-- Writes the lines. -/
def setLines (l : Tab CacheLine) (s : State) : State := { s with assoc := { s.assoc with lines := l } }

/-- Free lines. -/
def freeLines (s : State) : Nat := cacheLines - s.assoc.lines.length

/-- The lowest free line. -/
def lowestFree (s : State) : Option Nat := (List.range cacheLines).find? (fun i => (tabFind s.assoc.lines i).isNone)

/-- The line of a channel in a use. -/
def lineOf (s : State) (c : Nat) (u : LineUse) : Option Nat :=
  (s.assoc.lines.find? (fun p => p.2.channel == c && decide (p.2.use = u))).map (·.1)

/-- Fills in flight (R137). -/
def fillsInFlight (s : State) : Nat := (s.assoc.lines.filter (fun p => decide (p.2.use = .filling))).length

/-- A line for a channel. -/
def newLine (c : Nat) (u : LineUse) (s : State) : CacheLine :=
  { channel := c, use := u, ref := true, used := false, since := s.clk.root }

/-- Whether a fill of the channel runs or waits (R136). -/
def fillPending (s : State) (c : Nat) : Bool := (lineOf s c .filling).isSome || s.assoc.fillQueue.contains c

/-- A fill is requested, never for an absent channel (R120): merged with one for the same channel, issued while a line is free and fewer than 64 are in
flight, else queued while the queue has room (R134 to R137). -/
def requestFill (c : Nat) (s : State) : State :=
  if !present s c || (getChan s c).resident || fillPending s c then s
  else
    match lowestFree s with
    | some i =>
      if fillsInFlight s < 64 && s.assoc.fillQueue.isEmpty then
        setLines (tabPut s.assoc.lines i (newLine c .filling s)) s
      else if s.assoc.fillQueue.length < 2048 then
        { s with assoc := { s.assoc with fillQueue := s.assoc.fillQueue ++ [c] } }
      else s
    | none =>
      if s.assoc.fillQueue.length < 2048 then
        { s with assoc := { s.assoc with fillQueue := s.assoc.fillQueue ++ [c] } }
      else s

/-- The first queued fill is issued, if a line and a place in flight are free. -/
def issueFill (s : State) : State :=
  match s.assoc.fillQueue, lowestFree s with
  | c :: q, some i =>
    if fillsInFlight s < 64 then
      setLines (tabPut s.assoc.lines i (newLine c .filling s)) { s with assoc := { s.assoc with fillQueue := q } }
    else s
  | _, _ => s

/-- Queued fills are issued as far as there is room, and misses and pins that found the queue full ask again (R136,
R141). -/
def issueFills (s : State) : State :=
  let s := (List.range 64).foldl (fun s _ => issueFill s) s
  let s := s.assoc.missBuf.foldl (fun s f => requestFill f.channel s) s
  (s.assoc.chans.filter (fun p => p.2.pinning.isSome)).foldl (fun s p => requestFill p.1 s) s

/-- A line holds no entry. -/
def clearLine (i : Nat) (s : State) : State := setLines (tabDel s.assoc.lines i) s

/-- A line is free for the fills that wait for one. -/
def freeLine (i : Nat) (s : State) : State := issueFills (clearLine i s)

/-- The frames of a decrypt lane. -/
def rxFrames (r : RxLane) : List RxFrame := r.checks ++ r.active.toList ++ r.held.toList

/-- Whether a frame of the channel is in a cipher lane or on its way to one. -/
def chanInFlight (s : State) (c : Nat) : Bool :=
  s.cipher.waiting.any (fun k => k.channel == c) ||
  s.cipher.rx.any (fun p => (rxFrames p.2).any (fun f => f.channel == c)) ||
    s.cipher.tx.any (fun p => (txFrames p.2).any (fun f => f.frame.channel == some c))

/-- Whether a line is pinned, filling, under write-back or in use by a frame in flight. -/
def lineBusy (s : State) (l : CacheLine) : Bool :=
  decide (l.use ≠ .valid) || chanPinned s l.channel || chanInFlight s l.channel

/-- Whether the hand skips a line (R132). -/
def handSkips (s : State) (l : CacheLine) : Bool :=
  lineBusy s l || (!l.used && decide (s.clk.root < l.since + 100 * usec))

/-- The CCLK edge of a victim's choice, which is the last one before its row: a look-up at that edge has come first (R133).
-/
def evictEdge (s : State) : Nat := (s.clk.root - 1) / 3 * 3

/-- The clock of R132 turns: a set bit is cleared and the hand moves on; a line whose bit is clear is the victim, unless a
frame looks its channel up at this edge (R133). -/
def turnClock : Nat → State → State × Option Nat
  | 0, s => (s, none)
  | n + 1, s =>
    let i := s.assoc.hand
    let s := { s with assoc := { s.assoc with hand := (i + 1) % cacheLines } }
    match tabFind s.assoc.lines i with
    | none => turnClock n s
    | some l =>
      if handSkips s l then turnClock n s
      else if l.ref then turnClock n (setLines (tabPut s.assoc.lines i { l with ref := false }) s)
      else if l.looked = some (evictEdge s) then turnClock n s
      else (s, some i)

/-! ### What the cache engine reads and writes in memory (R426) -/

/-- The 512 octets of an entry as CH.READ returns them (R118, R148). The DRAM content of a COLD_FAILED channel is lost: what
was rebuilt reads zero, and only the STATE fields, which come from the state word, do not. -/
def entryBytes (h : Chan) : Bytes :=
  if hChen h.header then
    let sub (an : Nat) : Nat := if h.cold then stateCode (getSub h an).state * 2 ^ 173 else subWord (getSub h an)
    beBytes 64 ((if h.cold then 0 else h.header) + stateWord h * 2 ^ 352) ++
      (List.range 4).flatMap (fun an => beBytes 112 (sub an))
  else List.replicate 512 0

/-- The address at which the cache engine reaches a line: with the KEYID of the region that holds it. -/
def engineAddr (s : State) (a : Nat) : Nat :=
  a + (match regionOf s (pageOf a) with | some (_, g) => g.keyid | none => 0) * 2 ^ 40

/-- A whole-line access of the cache engine, checked as that of any master (R425). -/
def engineAccess (write : Bool) (a : Nat) (data : Bytes) (s : State) : (Nat × Bytes) × State :=
  mgAccess .cacheEngine ⟨write, engineAddr s a, 2 ^ 64 - 1, data, .none, []⟩ s

/-- The address of line `k` of the entry of channel `c` (R118). -/
def entryLine (c k : Nat) : Nat := Config.assocBase + 512 * c + 64 * k

/-- The entry of a channel is read, line by line; the first failure ends it. -/
def entryRead (c : Nat) : Nat → State → Nat × State
  | 0, s => (stOk, s)
  | n + 1, s =>
    let r := engineAccess false (entryLine c (7 - n)) [] s
    if r.1.1 = stOk then entryRead c n r.2 else (r.1.1, r.2)

/-- The lines of an entry that a mask names are written; the first failure ends it. -/
def entryWrite (c mask : Nat) (l : Bytes) : Nat → State → Nat × State
  | 0, s => (stOk, s)
  | n + 1, s =>
    if nb mask (7 - n) then
      let r := engineAccess true (entryLine c (7 - n)) ((l.drop (64 * (7 - n))).take 64) s
      if r.1.1 = stOk then entryWrite c mask l n r.2 else (r.1.1, r.2)
    else entryWrite c mask l n s

/-- The status of a fill: what the Memory Guard answers to the reads of the entry. One that comes from the write-back buffer reads
no DRAM (R139). -/
def fillAnswer (c : Nat) (res : MemRes) (s : State) : Nat × State :=
  match res with
  | .ok => if (lineOf s c .writeBack).isSome then (stOk, s) else entryRead c 8 s
  | .poisoned => (stPoisoned, s)
  | .integrity => (stIntegrity, s)

/-- The status of the write-back of the lines of an entry that a mask names. -/
def backAnswer (c mask : Nat) (res : MemRes) (s : State) : Nat × State :=
  match res with
  | .ok => entryWrite c mask (entryBytes (getChan s c)) 8 s
  | .poisoned => (stPoisoned, s)
  | .integrity => (stIntegrity, s)

/-- Whether a fill has failed: the entry's lines are lost (R136). Any other failing answer is a refusal of R425, which brings no
entry (DEDUCED; log entry 125). -/
def fillLost (st : Nat) : Bool := decide (st = stPoisoned ∨ st = stIntegrity)

/-- A channel whose lines are quarantined while it is not resident is COLD_FAILED (R143). -/
def coldIfQuarantined (c : Nat) (s : State) : State :=
  if present s c && entryQuarantined s c then setCold c stPoisoned s else s

/-- A victim leaves the residency map, its deltas folded (R130); its changed DRAM lines are written back, and a line without
one is free at once (R139). -/
def leaveLine (i : Nat) (s : State) : State :=
  match tabFind s.assoc.lines i with
  | none => s
  | some l =>
    let s := foldDeltas l.channel s
    let h := getChan s l.channel
    let s := putChan l.channel { h with resident := false } s
    if h.dirty = 0 then clearLine i (coldIfQuarantined l.channel s)
    else
      let s := setChan s l.channel { getChan s l.channel with dirty := 0 }
      setLines (tabPut s.assoc.lines i { l with use := .writeBack, since := s.clk.root, back := h.dirty }) s

/-- A victim is evicted, and the fills that wait for a line go on where one is free at once. -/
def evictLine (i : Nat) (s : State) : State :=
  let s := leaveLine i s
  if tabHas s.assoc.lines i then s else issueFills s

/-- The Memory Guard has answered the write-back in line `i`: one that failed, or whose lines are quarantined, leaves the
channel COLD_FAILED, and the line holds nothing more (R139, R140, R143). -/
def backEnds (i c : Nat) (res : MemRes) (s : State) : State :=
  let r := backAnswer c ((tabFind s.assoc.lines i).map (·.back) |>.getD 0) res s
  clearLine i (if r.1 = stOk then coldIfQuarantined c r.2 else setCold c r.1 r.2)

/-- A write-back ends, and the fills that wait for a line go on. -/
def backDone (i c : Nat) (res : MemRes) (s : State) : State := issueFills (backEnds i c res s)

/-- A channel's entry becomes resident in line `i`, its side array computed (R131, R158). -/
def makeResident (c i : Nat) (s : State) : State :=
  refreshSide c (putChan c { getChan s c with resident := true } (setLines (tabPut s.assoc.lines i (newLine c .valid s)) s))

/-- The line that an instruction's fill takes: the one of a fill that runs, a free one, or a victim's; none where the hand
finds no victim (R132, R133, R136, R138). -/
def lineFor (c : Nat) (s : State) : Option Nat × State :=
  match lineOf s c .filling with
  | some i => (some i, s)
  | none =>
    match lowestFree s with
    | some i => (some i, s)
    | none =>
      let r := turnClock (2 * cacheLines + 1) s
      match r.2 with
      | some i => (some i, leaveLine i r.1)
      | none => (none, r.1)

/-- The victim of an instruction's fill is written back before its line is used (R139, R140). -/
def awaitBack (i : Nat) (back : MemRes) (s : State) : State :=
  match tabFind s.assoc.lines i with
  | some l => if l.use = .writeBack then backEnds i l.channel back s else s
  | none => s

/-- An instruction makes the entry of a present channel resident (R138): the status of its fill, which may fail as any
other one (R136). `fill` and `back` are what the Memory Guard answers to the fill and to a victim's write-back. -/
def fillNow (c : Nat) (fill back : MemRes) (s : State) : Nat × State :=
  if (getChan s c).resident then (stOk, s)
  else
    let q := fillAnswer c fill s
    if q.1 ≠ stOk then (q.1, if fillLost q.1 then setCold c q.1 q.2 else q.2)
    else
      let r := lineFor c q.2
      match r.1 with
      | some i =>
        let s := awaitBack i back r.2
        (stOk, makeResident c i { s with assoc := { s.assoc with fillQueue := s.assoc.fillQueue.filter (· != c) } })
      | none => (stBusy, r.2)

/-- An instruction that changes an entry: filled first, then changed (R138). -/
def onResident (c : Nat) (e : Env) (f : State → Res) (s : State) : Res :=
  let r := fillNow c e.fill e.back s
  if r.1 = stOk then f r.2 else { s := r.2, st := r.1 }

/-! ### CH.SET (R121 to R123, R144) -/

/-- The field checks of a channel header (R122). -/
def headerChecks (v : Nat) : List Check :=
  [(decide (v % 2 ^ 288 ≠ 0), stReserved), (decide (4 ≤ hSuite v), stReserved), (decide (hCoff v = 3), stReserved),
   (!hChen v && decide (v ≠ 0), stRange),
   (decide (hState v ≠ 0), stRange),
   (!hRx v && decide (nf v 432 384 ≠ 0), stRange),
   (hRx v && (hSciinc v || hEs v), stRange),
   (hSciinc v && hEs v, stRange),
   (decide (hCoff v ≠ 0) && !hConf v, stRange),
   (!hRxmeten v && decide (hRxmeter v ≠ 0), stRange),
   (decide (hRxclass v = 7) && !hRxmeten v, stRange),
   (!hRprot v && decide (hRwin v ≠ 0), stRange),
   (!hXpn v && decide (0xFFFFFFFF < hExhthField v), stRange)]

/-- Whether two headers differ in an identity field (R123). -/
def identityDiffers (a b : Nat) : Bool :=
  hSci a != hSci b || hRx a != hRx b || hPort a != hPort b || hSuite a != hSuite b

/-- Whether any association is in one of the states. -/
def anySub (h : Chan) (p : AState → Bool) : Bool := (List.range 4).any (fun an => p (getSub h an).state)

/-- The association is in use: LOADED, ACTIVE or DRAINING. -/
def inUse : AState → Bool
  | .loaded => true
  | .active => true
  | .draining => true
  | _ => false

/-- The statistics of a channel and its on-die deltas are zeroed (R123). -/
def zeroStats (c : Nat) (s : State) : State :=
  closeRec 0x300F c ((List.range 16).foldl (fun s k => setCnt
    { s with assoc := { s.assoc with deltas := tabDel s.assoc.deltas (deltaKey c k) } } 7 c k 0) s)

/-- The line of a channel is evicted with nothing to write back. -/
def dropLine (c : Nat) (s : State) : State :=
  match lineOf s c .valid with
  | some i => evictLine i (setChan s c { getChan s c with dirty := 0 })
  | none => s

/-- A channel is removed: absent, every association EMPTY, its line evicted with nothing to write back, frames that wait for
it dropped (R123, R124, R144). -/
def removeChan (c : Nat) (s : State) : State :=
  let s := putChan c {} (dropLine c s)
  let s := setLines (s.assoc.lines.filter (fun p => !(p.2.channel == c && decide (p.2.use = .filling)))) s
  let waiting := s.assoc.missBuf.filter (fun f => f.channel == c)
  let s := { s with assoc := { s.assoc with
    fillQueue := s.assoc.fillQueue.filter (· != c), missBuf := s.assoc.missBuf.filter (fun f => f.channel != c) } }
  issueFills (waiting.foldl (fun s _ => dropAbsent 0 s) s)

/-- The entry and the statistics of a channel are written under fresh counters (R123, R144), while regions hold both. -/
def writeFresh (c : Nat) (s : State) : State :=
  if (regionOf s (pageOf (entryLine c 0))).isSome && (regionOf s (pageOf (Config.statsBase + 128 * c))).isSome then
    let s := (entryWrite c 0xFF (entryBytes (getChan s c)) 8 s).2
    (List.range 2).foldl (fun s k => (engineAccess true (Config.statsBase + 128 * c + 64 * k) [] s).2) s
  else s

/-- A channel is made present, or recovered: header, zeroed sub-entries and statistics are written to DRAM, every association
EMPTY (R123, R144); the entry is not resident, for a line enters the cache only by a fill, and a line that a COLD_FAILED
channel still has is evicted (R131). Load counts run on, so that no slot of before can match. A pin does not outlive the
recovery (log entry 115). -/
def freshChan (c v : Nat) (s : State) : State :=
  let s := dropLine c s
  let o := getChan s c
  let subs := (List.range 4).foldl (fun (m : Tab Sub) an =>
    tabSet ({} : Sub) m an { ({} : Sub) with loadGen := (getSub o an).loadGen }) []
  let s := zeroStats c s
  let h : Chan := { o with header := v, subs := subs, cold := false, txan := 0, ever := false, pinned := false
                           resident := false }
  let s := putChan c h s
  writeFresh c (setChan s c { getChan s c with dirty := 0 })

/-- A channel's header is replaced; a receive channel's TXAN reads 0 (R123, R125). -/
def setHeader (c v : Nat) (s : State) : State :=
  let h := getChan s c
  putChan c { h with header := v, txan := if hRx v then 0 else h.txan } s

/-- The effect of CH.SET (R123, R138, R144). -/
def chSetEff (c v : Nat) (e : Env) (s : State) : Res :=
  let o := getChan s c
  if !hChen v then { s := if hChen o.header then removeChan c s else s }
  else if !hChen o.header || o.cold then { s := freshChan c v s }
  else onResident c e (fun s => { s := setHeader c v s }) s

/-! ### CH.PIN, CH.UNPIN (R141, R142) -/

/-- Channels pinned or being pinned. -/
def pinnedCount (s : State) : Nat := (s.assoc.chans.filter (fun p => p.2.pinned || p.2.pinning.isSome)).length

/-- The channel's peers in spill ways, by table key. -/
def spillPeers (s : State) (c : Nat) : List (Nat × Peer) :=
  s.cls.peers.filter (fun p => p.2.bound && p.2.channel == c && decide (4 ≤ p.1 % 16))

/-- Every peer of the channel moves on die (R105); none if one has no room. The way that a peer leaves is free for the entry
that moves out in its place (log entry 113). -/
def movePeers (c : Nat) (s : State) : Option State :=
  (spillPeers s c).foldl (fun o p => match o with
    | some s => placePeer (freePeer (p.1 / 16) (p.1 % 16) s) (p.1 / 16) p.2 true
    | none => none) (some s)

/-- The effect of CH.PIN (R141): the peers move on die, the entry becomes resident or its fill is requested, slots are
reserved and fill. -/
def chPinEff (c cseq : Nat) (s : State) : Res :=
  match movePeers c (noteTables s) with
  | none => { s := s, st := stNoRoom }
  | some s =>
    let s := requestFill c s
    let s := syncSlots c (setChan s c { getChan s c with pinning := some cseq })
    if pinReady s c then
      { s := setPinned c s, st := stPending, event := some 0x3007, ended := some (stOk, 0, 0) }
    else { s := s, st := stPending, event := some 0x3007 }

/-! ### PEER.ADD (R104, R109, R111) -/

/-- A PEER.ADD that moves a peer away from a channel discards that channel's slots; a frame keeps the use of its own (R164). -/
def discardAll (c : Nat) (s : State) : State :=
  syncSlots c ((List.range 4).foldl (fun s i => match getPSlot s c i with
    | some p => if p.inUse then s else discardSlot c i p s
    | none => s) s)

/-- The channel that a key is bound to now. -/
def peerChannel (s : State) (port sci : Nat) : Option Nat :=
  let set := peerSet s port sci
  match findWay s 16 set port sci with
  | some w => match peerAt s set w with
    | some p => if p.bound then some p.channel else none
    | none => none
  | none => none

/-! ### CH.READ, SYS.RECONCILE -/

/-- Address of the management view's entry of a channel (R145). -/
def viewAddr (c : Nat) : Nat := 0x20000 + 4 * c

/-- One channel of a reconciliation, 2 QCLK after the one before (R146). -/
def reconcileOne (c : Nat) (s : State) : State :=
  let s := advance (s.clk.root + 16) s
  let v := beNat (readMem s (viewAddr c) 4)
  let w := stateWord (getChan s c)
  if v = w then s else raise 0x3008 c (v * 2 ^ 32 + w) (storeMem s (viewAddr c) (beBytes 4 w))

/-- The field checks of SYS.RECONCILE. -/
def reconcileChecks (e : Env) : List Check :=
  [zeroA e, highB e 16, (decide (e.imm = 0 ∨ 65536 < e.b + e.imm), stRange)]

end Sys2Proof.Machine
end

