-- ==== Sys2Proof/Machine/Flow.lean ====
section
/-! DEFINITION. The flow group (0x00 to 0x09): R316, R309, R310, R342 to R344. -/

namespace Sys2Proof.Machine

/-- The checks of an instruction of the flow group without operands. -/
def bareChecks (w : IWord) (e : Env) (_ : State) : List Check := wordChecks 0 w ++ [zeroA e, zeroB e, zeroI e]

/-- Jumps: the program counter moves to `target` and the context stays ready. -/
def jumpTo (k target : Nat) (s : State) : State :=
  let c := getCtx s k
  setCtx s k { c with pc := target, last := pcIndex k c, run := .ready }

/-- The target of a jump (R342). -/
def targetOf (e : Env) (s : State) : Nat :=
  if e.x % 2 = 1 then ((getCtx s e.k).pc + e.imm) % 2 ^ 64 else e.imm

/-- NOP (R341). -/
def execNop (w : IWord) (s : State) : Host.Outcome State Fault Refusal :=
  .next (runLoc { op := 0x00, fmt := bareChecks, eff := fun e s => finish e.k none s } w s)

/-- HALT (R316, R319). -/
def execHalt (w : IWord) (s : State) : Host.Outcome State Fault Refusal :=
  .next (runLoc { op := 0x01, fmt := bareChecks
                  eff := fun e s =>
                    let c := getCtx s e.k
                    endContext e.k stOk (setCtx s e.k { c with last := pcIndex e.k c }) } w s)

/-- JMP (R342). -/
def execJmp (w : IWord) (s : State) : Host.Outcome State Fault Refusal :=
  .next (runLoc { op := 0x02, cost := fun _ _ => 3
                  fmt := fun w e s => wordChecks 1 w ++ [zeroA e, zeroB e] ++ targetChecks e.k (targetOf e s)
                  eff := fun e s => jumpTo e.k (targetOf e s) s } w s)

/-- Whether BR.cc is taken in the context it runs in. -/
def brTaken (e : Env) (s : State) : Bool :=
  let c := getCtx s e.k
  (branchTaken (e.a % 16) c.z c.c c.e).getD false

/-- BR.cc (R342): a target is checked before the jump, taken or not. -/
def execBrCc (w : IWord) (s : State) : Host.Outcome State Fault Refusal :=
  .next (runLoc { op := 0x03, cost := fun e s => if brTaken e s then 3 else 1
                  fmt := fun w e s => wordChecks 1 w ++ [(decide (8 ≤ e.a), stReserved), zeroB e] ++
                    targetChecks e.k (targetOf e s)
                  eff := fun e s =>
                    if brTaken e s then jumpTo e.k (targetOf e s) s else finish e.k none s } w s)

/-- CALL (R342): w15 takes the address of the next instruction. -/
def execCall (w : IWord) (s : State) : Host.Outcome State Fault Refusal :=
  .next (runLoc { op := 0x04, cost := fun _ _ => 3
                  fmt := fun w e s => wordChecks 1 w ++ [zeroA e, zeroB e] ++ targetChecks e.k (targetOf e s)
                  eff := fun e s =>
                    let c := getCtx s e.k
                    jumpTo e.k (targetOf e s)
                      (setCtx s e.k (writeReg c 15 (BitVec.ofNat 64 (nextPc c)))) } w s)

/-- RET (R342): the target is w15. -/
def execRet (w : IWord) (s : State) : Host.Outcome State Fault Refusal :=
  .next (runLoc { op := 0x05, cost := fun _ _ => 3
                  fmt := fun w e s => bareChecks w e s ++ targetChecks e.k (readReg (getCtx s e.k) 15).toNat
                  eff := fun e s => jumpTo e.k (readReg (getCtx s e.k) 15).toNat s } w s)

/-- The expiry of a WAIT.EV timeout in µs; 0 bounds nothing (R343). -/
def evExpiry (e : Env) (s : State) : Option Nat :=
  if e.imm % 2 ^ 32 = 0 then none else some (s.clk.root + e.imm % 2 ^ 32 * 10000)

/-- WAIT.EV (R343). With SEQ it ends at once when the completion event of the context's latest pending instruction
has been raised, or when there is none, which writes zeros. -/
def execWaitEv (w : IWord) (s : State) : Host.Outcome State Fault Refusal :=
  .next (runLoc
    { op := 0x06, cost := fun _ _ => 2
      fmt := fun w e _ => wordChecks 1 w ++
        [highI e 32, (decide (e.x % 2 = 0) && decide (2 ^ 16 ≤ e.b), stReserved),
         (decide (e.x % 2 = 1) && decide (e.a ≠ 0 ∨ e.b ≠ 0), stReserved)]
      eff := fun e s =>
        if e.x % 2 = 0 then commit (wait e.k (.waitEv e.a (e.b % 2 ^ 16) (evExpiry e s)) s)
        else
          let c := getCtx s e.k
          match c.lastPending with
          | none => endWaitOn e.k [] s
          | some q =>
            match c.doneEv with
            | some ev => endWaitOn e.k (recBytes ev 0) s
            | none => commit (wait e.k (.waitSeq q (evExpiry e s)) s) } w s)

/-- WAIT.T (R344). -/
def execWaitT (w : IWord) (s : State) : Host.Outcome State Fault Refusal :=
  .next (runLoc
    { op := 0x07, cost := fun _ _ => 2
      fmt := fun w e s => wordChecks 1 w ++ [zeroA e, zeroB e] ++
        (if e.x % 2 = 0 then [highI e 32, (decide (e.imm = 0), stRange)]
         else ptrChecks e.k false 16 e.imm 12 ++
           if ptrOk e.k false 16 e.imm 12 then todFormChecks (beNat (readMem s e.imm 12)) else [])
      eff := fun e s =>
        if e.x % 2 = 0 then
          commit (wait e.k (.waitQ (s.clk.root + (e.imm * 10 + 7) / 8 * 8)) s)
        else
          let tm := todOfForm (beNat (readMem s e.imm 12))
          if timeReached s.clk.tod tm then commit (finish e.k (some stOk) s)
          else commit (wait e.k (.waitAbs tm) s) } w s)

/-- FENCE (R309). -/
def execFence (w : IWord) (s : State) : Host.Outcome State Fault Refusal :=
  .next (runLoc
    { op := 0x08, cost := fun _ _ => 2, fmt := bareChecks
      eff := fun e s =>
        if s.seq.pendOps.all (fun p => p.ctx != e.k) then commit (finish e.k (some stOk) s)
        else commit (wait e.k .fence s) } w s)

/-- YIELD (R310): the slot ends and the sequencer chooses again; the order never changes. -/
def execYield (w : IWord) (s : State) : Host.Outcome State Fault Refusal :=
  .next (runLoc { op := 0x09, fmt := bareChecks, eff := fun e s => commit (finish e.k none s) } w s)

end Sys2Proof.Machine
end

