-- ==== Sys2Proof/Machine/Rekey.lean ====
section
/-! DEFINITION. Associations (06_rekeying_and_packet_numbers.md): the checks and effects of SA.LOAD, SA.ARM, SA.ROLL and
SA.RETIRE, the receive takeover of R205, and retire times. -/

namespace Sys2Proof.Machine

/-! ### Operands -/

/-- The channel of an association instruction. -/
def opChan (e : Env) : Nat := e.b % 2 ^ 16
/-- The AN of an association instruction. -/
def opAn (e : Env) : Nat := nf e.b 17 16
/-- The sub-entry an instruction names. -/
def opSub (e : Env) (s : State) : Sub := getSub (getChan s (opChan e)) (opAn e)
/-- The 32-octet descriptor of SA.LOAD and SA.ARM. -/
def saDesc (e : Env) (s : State) : Nat := beNat (readMem s e.imm 32)

/-- The Key Vault slot that an SA.LOAD descriptor names. -/
def saSlot (e : Env) (s : State) : Nat := nf (saDesc e s) 255 248

/-- Another AN of the channel is armed (R202, R203). -/
def otherArmed (e : Env) (s : State) : Bool :=
  let h := getChan s (opChan e)
  (List.range 4).any (fun an => an != opAn e && decide ((getSub h an).state = .loaded ∧ (getSub h an).rollMode ≠ 0))

/-! ### Receive takeover (R205) -/

/-- The DRAINING association of a channel is RETIRED, by any cause, with 0x300D (R205). -/
def retireDraining (c an : Nat) (s : State) : State :=
  let h := getChan s c
  raise 0x300D c 0 (putChan c (setSub h an (retireSub (getSub h an))) s)

/-- The fields of a retire time, an exact sum: past the largest SEC it is never reached (R205, R207, R570). A fraction below a
nanosecond, which ROLLNS cannot hold, is dropped (log entry 120). -/
def withRetireTime (tod : Nat) (u : Sub) : Sub :=
  { u with rollSec := todSec tod, rollNs := todNs tod, rollMode := 2 }

/-- A receive association becomes ACTIVE: the one that was drains for 3 s, one that drained retires, and the change is
counted (R205). The changes of one edge are one change of the state word. -/
def activateRx (c an : Nat) (s : State) : State :=
  let h := getChan s c
  let old := subIn h .draining
  let h := match old with
    | some d => setSub h d (retireSub (getSub h d))
    | none => h
  let h := match activeAn h with
    | some a => setSub h a (withRetireTime (edgeTod s + 3 * secUnits) { getSub h a with state := .draining })
    | none => h
  let h := setSub h an { getSub h an with state := .active, rollMode := 0 }
  let s := closeRec 0x300A c (countCh c 14 1 (putChan c { h with ever := true } s))
  if old.isSome then raise 0x300D c 0 s else s

/-! ### SA.LOAD (R193 to R196) -/

/-- The checks of the fields of an SA.LOAD descriptor against the channel they name (R37, R194). -/
def saLoadFields (e : Env) (s : State) : List Check :=
  let v := saDesc e s
  let h := getChan s (opChan e)
  let initPn := nf v 107 44
  [(decide (v % 2 ^ 44 ≠ 0), stReserved), (!present s (opChan e), stRange),
   (decide (initPn = 0) || (!hXpn h.header && decide (0xFFFFFFFF < initPn)), stRange),
   (!hRx h.header && decide (exhth h.header ≤ initPn), stRange),
   (!hXpn h.header && decide (nf v 235 204 ≠ 0 ∨ nf v 203 108 ≠ 0), stRange)]

/-- The checks of SA.LOAD's own (R194, R468). -/
def saLoadOwn (e : Env) (s : State) : List Check :=
  let v := saDesc e s
  let h := getChan s (opChan e)
  let u := opSub e s
  let slot := getSlot s (nf v 255 248)
  [(s.crust.quiesce, stFault), (h.cold, stPoisoned),
   (decide (u.state = .active ∨ u.state = .draining ∨ (u.state = .loaded ∧ u.rollMode ≠ 0)), stBusy),
   (decide (nf slot.attr 31 28 = 0), stKeyErased),
   (decide (nf slot.attr 31 28 ≠ if hBits h.header = 256 then 1 else 2), stAttr),
   (!(if hRx h.header then nb slot.attr 26 else nb slot.attr 27), stAttr),
   (decide (nf slot.attr 11 0 ≠ nf v 247 236), stAttr)]

/-- The sub-entry that SA.LOAD writes (R195). -/
def loadedSub (bits v tod : Nat) (slot : Slot) (u : Sub) : Sub :=
  let key := beNat (slot.payload.take (bits / 8))
  { u with
    state := .loaded, key := key, hkey := aesEnc bits key 0, salt := nf v 203 108, ssci := nf v 235 204
    nextPn := nf v 107 44, rollMode := 0, slot := nf v 255 248, kgen := nf slot.attr 11 0
    kcv := aesEnc bits key (2 ^ 128 - 1) / 2 ^ 104, loadSec := todSec tod, initPn := nf v 107 44, mark := nf v 107 44
    loadGen := (u.loadGen + 1) % 256, wipe := false, exhRaised := false, inFlight := [], lastSeen := false }

/-- The effect of SA.LOAD on a resident entry (R195). -/
def saLoadEff (c an v : Nat) (s : State) : State :=
  let h := getChan s c
  refreshSide c (putChan c (setSub h an
    (loadedSub (hBits h.header) v (edgeTod s) (getSlot s (nf v 255 248)) (getSub h an))) s)

/-! ### SA.ARM, SA.ROLL (R201 to R204) -/

/-- The checks of the fields of an SA.ARM descriptor against the channel they name (R37, R202). -/
def saArmFields (e : Env) (s : State) : List Check :=
  let v := saDesc e s
  let h := getChan s (opChan e)
  let mode := nf v 255 254
  let pn := nf v 175 112
  [(decide (v % 2 ^ 112 ≠ 0), stReserved), (decide (mode = 3), stReserved),
   (!present s (opChan e) || hRx h.header, stRange),
   (decide ((opSub e s).state ≠ .loaded), stRange),
   (decide (mode = 1) && decide (pn = 0 ∨ lastPn h.header < pn ∨ nf v 253 176 ≠ 0), stRange),
   (decide (mode = 2) && decide (1000000000 ≤ nf v 205 176 ∨ pn ≠ 0), stRange),
   (decide (mode = 0) && decide (v ≠ 0), stRange)]

/-- The checks that SA.ARM and SA.ROLL have of their own (R202, R203). -/
def saArmOwn (e : Env) (s : State) : List Check :=
  [((getChan s (opChan e)).cold, stPoisoned), (otherArmed e s, stBusy)]

/-- The effect of SA.ARM on a resident entry (R201). -/
def saArmEff (c an v : Nat) (s : State) : State :=
  let h := getChan s c
  putChan c (setSub h an { getSub h an with
    rollMode := nf v 255 254, rollSec := nf v 253 206, rollNs := nf v 205 176, rollPn := nf v 175 112 }) s

/-- The effect of SA.ROLL on a resident entry (R203): a transmit association is armed as at a packet number already reached,
ROLLSEC and ROLLNS zero as R202 has them then; which number from 1 on ROLLPN holds is not stated, so it is a free one among
those. -/
def saRollEff (c an : Nat) (s : State) : State :=
  let h := getChan s c
  if hRx h.header then activateRx c an s
  else
    let d := draw s
    let top := match activeAn h with
      | some a => (getSub h a).nextPn
      | none => lastPn h.header
    putChan c (setSub h an { getSub h an with
      rollMode := 1, rollPn := 1 + d.1 % max 1 top, rollSec := 0, rollNs := 0 }) d.2

/-! ### SA.RETIRE (R207) -/

/-- TXAN after an association was RETIRED: with none ACTIVE and one that ever was, the one that became RETIRED last
(R191). -/
def txanRetired (h : Chan) (an : Nat) : Nat :=
  if hRx h.header then 0 else if (activeAn h).isNone && h.ever then an else h.txan

/-- Whether SA.RETIRE leaves an association in this state as it is (R207). -/
def retireIdle (st : AState) (wipe : Bool) : Bool :=
  decide (st = .empty) || (!wipe && decide (st = .retired ∨ st = .exhausted))

/-- The effect of SA.RETIRE on a resident entry (R207). -/
def saRetireEff (c an d : Nat) (wipe : Bool) (s : State) : State :=
  let h := getChan s c
  let u := getSub h an
  let u := { u with wipe := u.wipe || wipe }
  match u.state with
  | .empty => s
  | .loaded | .active =>
    let h := setSub h an (retireSub u)
    putChan c { h with txan := txanRetired h an } s
  | .draining =>
    if d = 0 then raise 0x300D c 0 (putChan c (setSub h an (retireSub u)) s)
    else putChan c (setSub h an (withRetireTime (edgeTod s + d * (1000000 * 2 ^ 32)) u)) s
  | .retired | .exhausted => if wipe then putChan c (setSub h an (wipeSub u)) s else s

end Sys2Proof.Machine
end

