-- ==== Sys2Proof/Machine/Cipher.lean ====
section
/-! DEFINITION. Slices of the line cipher (05_line_cipher.md): refills of proofing slots (R163), slice faults (R185),
rotation (R187) and tests (R188, R189). -/

namespace Sys2Proof.Machine

/-! ### Refills -/

/-- Blocks that a slot of a channel needs (R160). -/
def slotBlocks (h : Nat) : Nat := if hConf h then 32 else 1

/-- The keystream of a packet number of an association, from the tag mask on (R155). -/
def streamOf (h : Chan) (an pn n : Nat) : List Nat :=
  let u := getSub h an
  keystream (hBits h.header) u.key (nonceOf h.header u.salt u.ssci pn) 1 n

/-- A refill sets VALID. -/
def fillSlot (c i : Nat) (s : State) : State :=
  let h := getChan s c
  match getPSlot s c i with
  | some p => setPSlot c i { p with valid := true, keystream := streamOf h p.an p.pn (slotBlocks h.header) } s
  | none => s

/-! ### Roles (R150) -/

/-- Role of a slice after nPOR. -/
def firstRole (i : Nat) : Role :=
  if i < 16 then .position i else if i = 16 then .readySpare else .testSeat

/-- Role of slice `i` of an array. -/
def sliceRole (a : Array) (i : Nat) : Role := (tabFind a.roles i).getD (firstRole i)

/-- The array with a role written. -/
def setRole (i : Nat) (r : Role) (a : Array) : Array := { a with roles := tabSet (firstRole i) a.roles i r }

/-- The slice that has a role. -/
def sliceIn (a : Array) (r : Role) : Option Nat := (List.range 18).find? (fun i => decide (sliceRole a i = r))

/-- Spares that are left. -/
def sparesLeft (a : Array) : Bool := (sliceIn a .readySpare).isSome || (sliceIn a .testSeat).isSome

/-- Rotation stops when no spare remains (R189). -/
def checkSpares (k : Nat) (s : State) : State := if sparesLeft (getArray s k) then s else raise 0x3012 k 0 s

/-- The slice at a position is out of service, a spare takes its place: the ready one, else the one in the test seat,
whose test is abandoned (R185). -/
def placeSpare (a : Array) (pos bad : Nat) : Array :=
  let a := setRole bad .failed a
  match sliceIn a .readySpare with
  | some r => setRole r (.position pos) a
  | none => match sliceIn a .testSeat with
    | some r => { setRole r (.position pos) a with seatPassed := false }
    | none => a

/-- Whether a group of an array works on fewer than four positions (R189). -/
def positionLost (a : Array) (g : Nat) : Bool :=
  (List.range 4).any (fun i => (sliceIn a (.position (4 * g + i))).isNone)

/-- Slots of 64 CCLK that a port is allotted, by speed code (R151). -/
def slotShare (speed : Nat) : Nat := [0, 2, 4, 8, 15, 30, 60, 120, 240].getD speed 0

/-- Slots of 256 CCLK that a line port has in an array: its allotment of R151, scaled by 3/4 where its group has lost a
position (R189), however many it has lost (log entry 119). -/
def allotment (s : State) (a p : Nat) : Nat :=
  slotShare (portSpeed s p) * (if positionLost (getArray s a) (p / 8) then 3 else 4)

/-- Whether a lane of a port uses its slots now: its active frame takes keystream. -/
def laneBusy (s : State) (a p : Nat) : Bool :=
  if a = 0 then (match (getTx s p).active with
    | some f => f.frame.channel.isSome
    | none => false)
  else (getRx s p).active.isSome

/-- Slots of 256 CCLK that the lanes of the other ports of a group use. -/
def othersUse (s : State) (a p : Nat) : Nat :=
  ((List.range 8).map (fun i =>
    if p / 8 * 8 + i ≠ p && laneBusy s a (p / 8 * 8 + i) then allotment s a (p / 8 * 8 + i) else 0)).sum

/-- Slots of 256 CCLK that a line port can use now: its allotment, and where no refill waits those that the other ports of its
group pass on (R151, R173). -/
def slotsNow (s : State) (a p : Nat) : Nat :=
  let all := 240 * (if positionLost (getArray s a) (p / 8) then 3 else 4)
  if (tabGet [] (getArray s a).refills (p / 8)).isEmpty then max (allotment s a p) (all - othersUse s a p)
  else allotment s a p

/-- Root cycles that a port's slots take for `n` blocks (R151). -/
def slotTime (s : State) (a p n : Nat) : Nat :=
  let k := slotsNow s a p
  if k = 0 then 0 else (n * 768 + k - 1) / k

/-- The spare that takes the next position: the ready one, else the one in the test seat once it has passed (R187). -/
def nextPlaced (a : Array) : Option Nat :=
  match sliceIn a .readySpare, sliceIn a .testSeat with
  | some r, none => some r
  | some r, some _ => if a.seatPassed then some r else none
  | none, some v => if a.seatPassed then some v else none
  | none, none => none

/-- One rotation step (R187): a passed slice becomes the ready spare, the placed one takes its position, and the slice it
replaces enters the test seat. -/
def rotate (root : Nat) (a : Array) : Array :=
  match nextPlaced a with
  | none => a
  | some r =>
    let out := sliceIn a (.position a.rotPos)
    let a := match sliceIn a .testSeat with
      | some v => setRole v .readySpare a
      | none => a
    let a := setRole r (.position a.rotPos) a
    let a := match out with
      | some o => setRole o .testSeat a
      | none => a
    { a with rotPos := (a.rotPos + 1) % 16, seatPassed := false, testSince := root }

/-- ROTATION_STEP (R187): every 1 ms. -/
def execRotationStep (t k : Nat) (s : State) : Host.Outcome State Fault Refusal :=
  .next (event t
    (fun s => (nextPlaced (getArray s k)).isSome && decide ((getArray s k).testSince + msec ≤ s.clk.root))
    (fun s => bumpArray k 5 1 (setArray s k (rotate s.clk.root (getArray s k)))) s)

/-- SLICE_TEST_COMPLETE (R188). -/
def execSliceTestComplete (t k : Nat) (pass : Bool) (s : State) : Host.Outcome State Fault Refusal :=
  .next (event t
    (fun s => (sliceIn (getArray s k) .testSeat).isSome && !(getArray s k).seatPassed)
    (fun s =>
      match sliceIn (getArray s k) .testSeat with
      | some v =>
        if pass then bumpArray k 6 1 (setArray s k { getArray s k with seatPassed := true })
        else
          let s := bumpArray k 4 1 (bumpArray k 7 1 (setArray s k (setRole v .failed (getArray s k))))
          checkSpares k (raise 0x3011 k 0 s)
      | none => s) s)

end Sys2Proof.Machine
end

