-- ==== Sys2Proof/Machine/Cask.lean ====
section
/-! DEFINITION. The Cask (07_cask.md): charges and admission (R225 to R235), pause requests (R232), the age limit (R236),
and scrubbing (R220 to R223). -/

namespace Sys2Proof.Machine

/-! ### Charges (R225, R230, R234, R235) -/

/-- Cells of `n` octets. -/
def cellsOf (n : Nat) : Nat := (n + 255) / 256

/-- Headroom H of a port (R230). -/
def headroom (s : State) (p : Nat) : Nat := (speedGb (portSpeed s p) * 375 + 41040 + 511) / 512
/-- XON (R230). -/
def xonOf (s : State) (p : Nat) : Nat := 3 * headroom s p
/-- XOFF (R230). -/
def xoffOf (s : State) (p : Nat) : Nat := 4 * headroom s p
/-- Drop limit (R230). -/
def dropLimit (s : State) (p : Nat) : Nat := 5 * headroom s p + 40
/-- Cells of a reserve (R224). -/
def reserveCells (c : Nat) : Nat := if c = 7 then 256 else 128

/-- The charge of a port-class or of a reserve. -/
def classCharge (s : State) (p c : Nat) : Nat := tabGet 0 s.cask.charge (p * 8 + c)
/-- The punt account of a side. -/
def puntCharge (s : State) (side : Nat) : Nat := tabGet 0 s.cask.puntCharge side
/-- The inject account of a side. -/
def injectCharge (s : State) (side : Nat) : Nat := tabGet 0 s.cask.injectCharge side

/-- Writes a charge. -/
def setClassCharge (p c n : Nat) (s : State) : State :=
  { s with cask := { s.cask with charge := tabSet 0 s.cask.charge (p * 8 + c) n } }

/-- Free cells of the shared pool change; the lowest value since clear is kept as the most in use (R238). -/
def setFree (n : Nat) (s : State) : State := bumpMax 10 0 5 (482304 - n) { s with cask := { s.cask with free := n } }

/-- Place of a port-class or reserve counter in the block of R346, each counter expanded by class before the next one:
current charge 0, highest 1, drops 2, XOFF requests 3. -/
def chargePlace (c k : Nat) : Nat := if c < 6 then 6 * k + c else 24 + 2 * k + (c - 6)

/-! ### Pause requests (R61, R232, R572) -/

/-- The source address of a port's pause frames (R61). -/
def pauseSrc (s : State) (p : Nat) : Nat := 0x02 * 2 ^ 40 + beNat (s.boot.devid.take 4) * 2 ^ 8 + p

/-- Whether a port's MAC transmits (R54). -/
def portSends (s : State) (p : Nat) : Bool :=
  let o := getPort s p
  decide (o.state = .up) && !o.lfault && !o.rfault

/-- A pause frame is to leave ahead of every queued frame of the port, where its MAC transmits: it waits for the next frame
boundary on the wire (R54, R61, R232). -/
def sendPause (p vector quanta : Nat) (s : State) : State :=
  if portSends s p then
    setPort s p { getPort s p with pauses := (getPort s p).pauses ++ [⟨vector, quanta, s.clk.root, none⟩] }
  else s

/-- The last octet of a pause frame has left: it is counted, and at the balls unless the transmitter sends something else
(R61, R74, R572). -/
def pauseLeft (p : Nat) (x : PauseTx) (s : State) : State :=
  let s := (List.range 6).foldl (fun s c => if nb x.vector c then bump 1 p (18 + c) 32 1 s else s) s
  if txIdle s p then s else emit (.pause p (pauseSrc s p) x.vector x.quanta) s

/-- The pause frames of a port whose wire is free of other frames since root cycle `b`, as time leaves them: each takes the 64
octets of a MAC control frame and the 20 between frames. One that is not on the wire when the MAC stops transmitting is
dropped (R54). -/
def pausesOut : Nat → Nat → Nat → State → State
  | 0, _, _, s => s
  | n + 1, p, b, s =>
    match (getPort s p).pauses with
    | [] => s
    | x :: rest =>
      if x.ends.isNone && !portSends s p then pausesOut n p b (setPort s p { getPort s p with pauses := rest })
      else
        let e := x.ends.getD (max x.at_ b + octTime s p 84)
        if e ≤ s.clk.root then pausesOut n p e (pauseLeft p x (setPort s p { getPort s p with pauses := rest }))
        else setPort s p { getPort s p with pauses := { x with ends := some e } :: rest }

/-- The KCLK edge of now (R19). -/
def kclkEdge (s : State) : Nat := edgeAt 4 s.clk.root

/-- A request for pause made at this KCLK edge, for the classes of a vector, by root cycle of the request. -/
def freshRequest (s : State) (p vector : Nat) : Option PauseTx :=
  (getPort s p).pauses.find? (fun x => x.vector == vector && x.quanta != 0 && decide (edgeAt 4 x.at_ = kclkEdge s))

/-- The request of class `c` ends (R232): a frame with zero quanta, or nothing where the charge has crossed XOFF at this very
edge: the request that has not left is taken back. -/
def endRequest (p c vector : Nat) (s : State) : State :=
  match freshRequest s p vector with
  | some x =>
    setCnt (setPort s p { getPort s p with pauses := (getPort s p).pauses.erase x }) 9 p (chargePlace c 3)
      (getCnt s 9 p (chargePlace c 3) - 1)
  | none => sendPause p vector 0 s

/-- The vector of a request for class `c`: the class under PFC, every one under PAUSE. -/
def pauseVector (s : State) (p c : Nat) : Nat := if psFc (getPort s p).setting = 2 then 2 ^ c else 0xFF

/-- A charge has risen: at XOFF the Cask requests pause (R232). -/
def xoffCheck (p c : Nat) (s : State) : State :=
  let o := getPort s p
  if psPgen o.setting && !nb o.xoff c && decide (xoffOf s p ≤ classCharge s p c) then
    let key := if psFc o.setting = 2 then c else 6
    let first := decide (psFc o.setting = 2) || !nb o.xoff 6
    let s := setPort s p { o with
      xoff := o.xoff ||| 2 ^ c ||| 2 ^ key, xoffAt := if first then tabSet 0 o.xoffAt key s.clk.root else o.xoffAt }
    sendPause p (pauseVector s p c) 65535 (bump 9 p (chargePlace c 3) 48 1 s)
  else s

/-- Whether every class of a port is at or below XON. -/
def allBelowXon (s : State) (p : Nat) : Bool := (List.range 6).all (fun c => decide (classCharge s p c ≤ xonOf s p))

/-- A charge has fallen: at XON or below the request ends, for PAUSE when every class of the port is there (R232). -/
def xonCheck (p c : Nat) (s : State) : State :=
  let o := getPort s p
  if classCharge s p c ≤ xonOf s p then
    let left := if nb o.xoff c then o.xoff - 2 ^ c else o.xoff
    if psFc o.setting = 2 then
      if nb o.xoff c then
        let s := setPort s p { o with xoff := left }
        if psPgen o.setting then endRequest p c (pauseVector s p c) s else s
      else s
    else if nb o.xoff 6 && allBelowXon s p then
      let s := setPort s p { o with xoff := 0 }
      if psPgen o.setting then endRequest p c (pauseVector s p c) s else s
    else setPort s p { o with xoff := left }
  else s

/-- Half the time of 65 535 quanta at the port speed, root cycles. -/
def halfPause (s : State) (p : Nat) : Nat := quantaTime s p 65535 / 2

/-! ### Charging and releasing -/

/-- The charge of an account. -/
def chargeOf (s : State) : Account → Nat
  | .portClass p c => classCharge s p c
  | .reserve p c => classCharge s p c
  | .punt side => puntCharge s side
  | .inject side => injectCharge s side
  | .management => s.cask.mgmt

/-- The limit of an account (R224, R230, R234, R235). -/
def limitOf (s : State) : Account → Nat
  | .portClass p _ => dropLimit s p
  | .reserve _ c => reserveCells c
  | .punt _ => 2048
  | .inject _ => 2048
  | .management => 8192

/-- An account takes a charge. -/
def setCharge (a : Account) (n : Nat) (s : State) : State :=
  match a with
  | .portClass p c => setClassCharge p c n s
  | .reserve p c => setClassCharge p c n s
  | .punt side => { s with cask := { s.cask with puntCharge := tabSet 0 s.cask.puntCharge side n } }
  | .inject side => { s with cask := { s.cask with injectCharge := tabSet 0 s.cask.injectCharge side n } }
  | .management => { s with cask := { s.cask with mgmt := n } }

/-- Whether an account's cells come from the shared pool (R224). -/
def fromPool : Account → Bool
  | .portClass _ _ => true
  | .punt _ => true
  | .inject _ => true
  | _ => false

/-- Cells are charged to an account (R225). -/
def charge (a : Account) (n : Nat) (s : State) : State :=
  let m := chargeOf s a + n
  let s := setCharge a m s
  let s := if fromPool a then setFree (s.cask.free - n) s else s
  match a with
  | .portClass p c => xoffCheck p c (bumpMax 9 p (chargePlace c 1) m s)
  | .reserve p c => bumpMax 9 p (chargePlace c 1) m s
  | _ => s

/-- Cells of an account are freed (R225). -/
def release (a : Account) (n : Nat) (s : State) : State :=
  let s := setCharge a (chargeOf s a - n) s
  let s := if fromPool a then setFree (s.cask.free + n) s else s
  match a with
  | .portClass p c => xonCheck p c s
  | _ => s

/-- Cells of the management partition that Trellis frames and Graft messages in transit hold, one or more for each frame,
fragment and message (R224). -/
def linkCells (s : State) : Nat :=
  let cells (l : List Bytes) : Nat := (l.map (fun b => max 1 (cellsOf b.length))).sum
  cells (s.trellis.taken.map (·.2)) + cells (s.trellis.rxq.map (·.2)) +
    cells (s.trellis.frags.flatMap (fun f => f.parts.map (·.2))) + cells (s.vault.grafts.map (·.octets))

/-- Cells in use under the limit of an account. -/
def usedOf (s : State) (a : Account) : Nat := chargeOf s a + (if a = .management then linkCells s else 0)

/-- Whether an account can take a charge. -/
def fitsAccount (s : State) (a : Account) (n : Nat) : Bool := decide (usedOf s a + n ≤ limitOf s a)

/-- The account of a frame of class `c` from port `inp` to port `outp`. -/
def accountOf (inp outp c : Nat) : Account := if c < 6 then .portClass inp c else .reserve outp c

/-- An admission that fails is counted and raises its event (R233, R234). -/
def admissionDrop (a : Account) (s : State) : State :=
  match a with
  | .portClass p c => raiseEv { code := 0x4004, obj := p, aux := c } (bump 9 p (chargePlace c 2) 48 1 s)
  | .reserve p c => raise 0x4005 p 0 (bump 9 p (chargePlace c 2) 48 1 s)
  | .punt side => bump 10 0 side 48 1 s
  | .inject _ => s
  | .management => bump 10 0 10 48 1 s

/-! ### Cells (R219, R221, R224) -/

/-- The bank of codeword `j` of cell `c` (R219); the checkpoint copies have banks 0 to 15 and 16 to 31 (R224). -/
def bankOf (c j : Nat) : Nat := 4 * (c % 8) + j

/-- Where the cells of an account begin in the division of R224, whose partitions stand in the order of its table. -/
def partBase : Account → Nat
  | .reserve p c => if c = 7 then p * 256 else 16384 + p * 128
  | .management => 32768
  | _ => 41984

/-- The place behind the cells of an account. -/
def partTop : Account → Nat
  | .reserve p c => partBase (.reserve p c) + reserveCells c
  | .management => 40960
  | _ => 524288

/-- First place of the checkpoint and of staging in that order. -/
def ckptBase : Nat := 24576
/-- First place of staging. -/
def stagingBase : Nat := 40960

/-- The first place at or above `x` that a rising list does not hold. -/
def gapFrom (x : Nat) : List Nat → Nat
  | [] => x
  | h :: t => if x < h then x else if x = h then gapFrom (x + 1) t else gapFrom x t

/-- A place joins a rising list. -/
def joinPlace (x : Nat) : List Nat → List Nat
  | [] => [x]
  | h :: t => if x < h then x :: h :: t else if x = h then h :: t else h :: joinPlace x t

/-- At most `n` free cells at or above a place and below another, in order. -/
def freeCells : Nat → Nat → Nat → List Nat → List Nat
  | 0, _, _, _ => []
  | n + 1, x, top, held =>
    if gapFrom x held < top then gapFrom x held :: freeCells n (gapFrom x held + 1) top held else []

/-- Places join a rising list. -/
def joinPlaces (l held : List Nat) : List Nat := l.foldl (fun h x => joinPlace x h) held

/-- Cells leave the free lists (R219): those of the account's own partition, and where retired cells leave too few there, cells
of the shared pool in their place (R221). Which free cell a frame takes next is not stated: the first in the order of places,
whose cells are free values (`Config.cellPlace`). -/
def takeCells (a : Account) (n : Nat) (s : State) : List Nat × State :=
  let own := freeCells n (partBase a) (partTop a) s.cask.held
  let held := joinPlaces own s.cask.held
  let rest := freeCells (n - own.length) (partBase (.punt 0)) 524288 held
  (own ++ rest, { s with cask := { s.cask with held := joinPlaces rest held } })

/-- Whether a cell is kept out of the free lists: retired, or under its retest (R221). -/
def cellBarred (s : State) (x : Nat) : Bool := s.cask.retired.contains x || tabHas s.cask.retest x

/-- Cells return to the free lists, but for those that R221 keeps out. -/
def freeChain (l : List Nat) (s : State) : State :=
  { s with cask := { s.cask with held := s.cask.held.filter (fun x => !l.contains x || cellBarred s x) } }

/-- What a frame holds of the Cask is freed: its cells and their charge (R225). -/
def freeFrame (a : Account) (n : Nat) (chain : List Nat) (s : State) : State := release a n (freeChain chain s)

/-- The provisional charges of frames whose last octet has come are reduced to the cells they occupy, and a frame that is
found bad there is dropped (R225, R228). -/
def settleCharges (s : State) : State :=
  let due := s.cask.provs.filter (fun d => decide (d.1 ≤ s.clk.root))
  let bad := s.cask.doomed.filter (fun d => decide (d.1 ≤ s.clk.root))
  bad.foldl (fun s d => freeFrame d.2.1 d.2.2.1 d.2.2.2 s) (due.foldl (fun s d => release d.2.1 d.2.2 s)
    { s with cask := { s.cask with provs := s.cask.provs.filter (fun d => decide (s.clk.root < d.1))
                                   doomed := s.cask.doomed.filter (fun d => decide (s.clk.root < d.1)) } })

/-- Admission at the first octet under a provisional charge of `prov` cells, which is reduced at the last octet, root cycle
`ends`, to the cells that the frame occupies (R225, R233, R234). The cells, or none where the frame is dropped. -/
def enterCask (a : Account) (prov cells ends : Nat) (s : State) : Option (List Nat) × State :=
  if fitsAccount s a prov then
    let r := takeCells a cells (charge a prov s)
    (some r.1, settleCharges { r.2 with cask := { r.2.cask with provs := r.2.cask.provs ++ [(ends, a, prov - cells)] } })
  else (none, admissionDrop a s)

/-- A frame that its end will show to be bad is in the Cask until then (R225, R228). -/
def doom (ends : Nat) (a : Account) (cells : Nat) (chain : List Nat) (s : State) : State :=
  settleCharges { s with cask := { s.cask with doomed := s.cask.doomed ++ [(ends, a, cells, chain)] } }

/-- Provisional charge of a frame that enters on a port (R225). -/
def provCells (s : State) (p len : Nat) : Nat := max (cellsOf (psMtu (getPort s p).setting)) (cellsOf len)

/-! ### Queues (R236, R239) -/

/-- A class queue takes new content; an emptied queue loses its deficit and its visit (R242) and ends the ignoring of pause
(R59). -/
def putQueue (p c : Nat) (l : List QFrame) (s : State) : State :=
  let s := setQ s p c l
  if l.isEmpty then
    let s := endVisit p c s
    let o := getPort s p
    setPause (setPort s p { o with deficit := tabSet 0 o.deficit c 0 }) p c
      { getPause s p c with ignoring := false }
  else s

/-- A frame joins the queue of its port and class. -/
def enqueue (f : QFrame) (s : State) : State := setQ s f.outPort f.cls (getQ s f.outPort f.cls ++ [f])

/-- A frame joins those whose last octet is to come, in the order of their last octets. -/
def joinArriving (f : QFrame) : List QFrame → List QFrame
  | [] => [f]
  | g :: l => if f.ends < g.ends then f :: g :: l else g :: joinArriving f l

/-- A frame is stored: one that flows through, or is complete, is queued at once, any other one when its last octet has come
(R227, R228). -/
def storeQueued (f : QFrame) (s : State) : State :=
  if f.flow || decide (f.ends ≤ s.clk.root) then enqueue f s
  else { s with cask := { s.cask with arriving := joinArriving f s.cask.arriving } }

/-- Stored frames whose last octet has come are queued, in the order of their last octets (R228). -/
def settleArriving (s : State) : State :=
  let due := s.cask.arriving.filter (fun f => decide (f.ends ≤ s.clk.root))
  due.foldl (fun s f => enqueue f s)
    { s with cask := { s.cask with arriving := s.cask.arriving.filter (fun f => decide (s.clk.root < f.ends)) } }

/-- Stamp entries a queue holds (R289). -/
def stampRoom (q : Nat) : Nat := if q < 2 then 32 else if q < 11 then 16 else 32

/-- LOST in an entry: bit 8 of a 16-octet one, none in a probe result (R289, R302). -/
def markLost (q v : Nat) (lost : Bool) : Nat := if lost && decide (q < 11) then v ||| 2 ^ 8 else v

/-- An entry is pushed to a stamp queue, or lost when it is full (R289, R291). -/
def pushStamp (q v : Nat) (s : State) : State :=
  let a : StampQ := tabGet {} s.timeFn.stamps q
  if a.entries.length < stampRoom q then
    bump 14 0 q 48 1
      { s with timeFn := { s.timeFn with
          stamps := tabSet {} s.timeFn.stamps q { entries := a.entries ++ [markLost q v a.lost], lost := false } } }
  else
    raise 0x5005 q 0 (bump 14 0 (12 + q) 48 1
      { s with timeFn := { s.timeFn with stamps := tabSet {} s.timeFn.stamps q { a with lost := true } } })

/-- The result entry of a probe (R302). -/
def probeResult (id : Nat) (p : Probe) (status t1 t2 t3 t4 : Nat) : Nat :=
  id * 2 ^ 496 + p.txch * 2 ^ 480 + p.rxch * 2 ^ 464 + status * 2 ^ 456 + t1 * 2 ^ 288 + t2 * 2 ^ 192 + t3 * 2 ^ 96 + t4

/-- A probe ends without a response (R302): STATUS 1 or 2. T1 is reported as far as it was sent. -/
def endProbe (id status : Nat) (s : State) : State :=
  match tabFind s.timeFn.probes id with
  | some p =>
    pushStamp 11 (probeResult id p status (todForm p.t1) 0 0 0)
      { s with timeFn := { s.timeFn with probes := tabDel s.timeFn.probes id } }
  | none => s

/-- A queued frame leaves without being sent: its cells are freed, and a probe dropped before the wire ends (R225,
R302). -/
def dropQueued (f : QFrame) (s : State) : State :=
  let s := freeFrame f.account f.cells f.chain s
  match f.origin with
  | .probe id => endProbe id 2 s
  | _ => s

/-- The KCLK edge of the age check, which is the last one before its row: a selection at that edge has come first and
counts as in time (R41, R236). -/
def ageEdge (s : State) : Nat := (s.clk.root - 1) / 4 * 4

/-- Whether a frame is too old at the head of its queue (R236). -/
def tooOld (s : State) (f : QFrame) : Bool := decide (f.admitted + 2000 * msec < ageEdge s)

/-- One age drop (R236). -/
def ageDrop (p c : Nat) (f : QFrame) (s : State) : State :=
  raiseEv { code := 0x4006, obj := p, aux := c } (bump 9 p (30 + c) 48 1 (dropQueued f s))

/-- The age check of one queue: heads that are too old are dropped, the check repeating on each new head (R236). -/
def ageQueue (p c : Nat) (s : State) : State :=
  let old := (getQ s p c).takeWhile (tooOld s)
  if old.isEmpty then s
  else old.foldl (fun s f => ageDrop p c f s) (putQueue p c ((getQ s p c).dropWhile (tooOld s)) s)

/-! ### Codewords (R220, R221) -/

/-- What holds a cell. -/
inductive Holder where
  | nothing
  | queued (key i : Nat)
  | arriving (i : Nat)
  | leaving (port cell : Nat)
  | punted (side i : Nat)
  | received (port num : Nat)
  | checkpoint (copy codeword : Nat)
  | staging (i : Nat)
  deriving DecidableEq, Repr

/-- The first key and index of a table of lists whose element passes. -/
def findIn {α : Type} (f : α → Bool) (t : Tab (List α)) : Option (Nat × Nat) :=
  t.findSome? (fun p => (p.2.findIdx? f).map (fun i => (p.1, i)))

/-- The cells of a frame in a lane that have not been read (R225). -/
def chainLeft (f : TxFrame) : List Nat := f.frame.chain.drop f.read

/-- What holds the cell at a place: a frame by its chain, the checkpoint and staging by the division of R224 (R219, R220). A
retired cell holds nothing any more (R221). -/
def holderOf (s : State) (x cw : Nat) : Holder :=
  if s.cask.retired.contains x then .nothing
  else if ckptBase ≤ x ∧ x < ckptBase + 8192 then
    .checkpoint ((x - ckptBase) / 4096) ((x - ckptBase) % 4096 * 4 + cw)
  else if stagingBase ≤ x ∧ x < stagingBase + stagingCells then .staging (x - stagingBase)
  else match findIn (fun f : QFrame => f.chain.contains x) s.cask.queues with
    | some (k, i) => .queued k i
    | none => match findIn (fun f : PuntFrame => f.chain.contains x) s.cask.punts with
      | some (side, i) => .punted side i
      | none => match s.cipher.tx.find? (fun p => (txFrames p.2).any (fun f => (chainLeft f).contains x)) with
        | some e => .leaving e.1 x
        | none => match s.cask.arriving.findIdx? (fun f => f.chain.contains x) with
        | some i => .arriving i
        | none => match s.cipher.rx.findSome? (fun p =>
            ((rxFrames p.2).find? (fun f => f.chain.contains x)).map (fun f => (p.1, f.num))) with
          | some (p, n) => .received p n
          | none => .nothing

/-- A frame already leaving a port ends with a stomped FCS (R220). -/
def hurtLeaving (f : TxFrame) : TxFrame := { f with frame := { f.frame with stomp := true } }

/-- The frame of an egress lane that has a cell is hurt. -/
def hurtCell (x : Nat) (f : TxFrame) : TxFrame := if (chainLeft f).contains x then hurtLeaving f else f

/-- A decrypt lane with one frame changed. -/
def rxChange (n : Nat) (g : RxFrame → RxFrame) (r : RxLane) : RxLane :=
  let h (f : RxFrame) : RxFrame := if f.num = n then g f else f
  { checks := r.checks.map h, active := r.active.map h, held := r.held.map h }

/-- A frame that an uncorrectable codeword drops is counted (R220); no counter block returns this count. -/
def countHurt (s : State) : State := { s with cask := { s.cask with hurt := s.cask.hurt + 1 } }

/-- A codeword of a checkpoint copy is bad; with both copies of it bad the checkpoint is not valid (R220, R324). -/
def spoilCopy (copy w : Nat) (s : State) : State :=
  let s := { s with seq := { s.seq with badCw := (copy, w) :: s.seq.badCw.filter (· ≠ (copy, w)) } }
  if s.seq.badCw.contains (1 - copy, w) then { s with seq := { s.seq with ckptValid := false } } else s

/-- A staged record of the Cellar Book is lost (R220, R235). -/
def loseStaged (i : Nat) (s : State) : State :=
  if i < s.book.staged.length then
    bump 10 0 11 48 1 { s with book := { s.book with staged := s.book.staged.eraseIdx i, lost := s.book.lost + 1 } }
  else s

/-- An uncorrectable codeword acts on the holder of its cell (R220). -/
def hurtHolder (h : Holder) (s : State) : State :=
  match h with
  | .nothing => s
  | .queued key i =>
    let l := getQ s (key / 8) (key % 8)
    match l[i]? with
    | some f => countHurt (dropQueued f (putQueue (key / 8) (key % 8) (l.eraseIdx i) s))
    | none => s
  | .arriving i =>
    match s.cask.arriving[i]? with
    | some f =>
      countHurt (dropQueued f { s with cask := { s.cask with arriving := s.cask.arriving.eraseIdx i } })
    | none => s
  | .leaving p x => setTx s p (mapLane (hurtCell x) (getTx s p))
  | .punted side i =>
    let l := tabGet [] s.cask.punts side
    match l[i]? with
    | some f =>
      countHurt (freeFrame (.punt side) f.cells f.chain
        { s with cask := { s.cask with punts := tabSet [] s.cask.punts side (l.eraseIdx i) } })
    | none => s
  | .received p n =>
    match (rxFrames (getRx s p)).find? (fun f => f.num == n) with
    | some f =>
      countHurt (freeFrame f.account f.cells f.chain
        (setRx s p (rxChange n (fun f => { f with lost := true, chain := [] }) (getRx s p))))
    | none => s
  | .checkpoint copy w => spoilCopy copy w s
  | .staging i => loseStaged i s

/-- Cells of the shared pool that no enabled port is pledged (R221, R231). -/
def unpledged (s : State) : Nat :=
  482304 - s.cask.retired.length - 4 * 2048 -
    ((List.range 64).map (fun p => if portEnabled s p then 6 * dropLimit s p else 0)).sum

/-- Whether a codeword with `n` octets in error is beyond its code, which corrects any 3 (R218). -/
def codewordLost (n : Nat) : Bool := decide (3 < n)
/-- Whether it has errors and they are corrected. -/
def codewordMended (n : Nat) : Bool := decide (0 < n ∧ n ≤ 3)

/-- A cell is retired: a cell that no port is pledged takes its place while one remains (R221). -/
def retireCell (x : Nat) (s : State) : State :=
  if s.cask.retired.contains x then s
  else
    let s := if 0 < unpledged s then setFree (s.cask.free - 1) s else s
    let s := { s with cask := { s.cask with
      retired := s.cask.retired ++ [x], retest := tabDel s.cask.retest x, held := joinPlace x s.cask.held } }
    let s := raise 0x4002 0 0 (bump 10 0 8 16 1 s)
    if 4096 < s.cask.retired.length then raise 0x4003 0 0 s else s

/-- A cell leaves the free lists for its retest (R221). -/
def beginRetest (x : Nat) (s : State) : State :=
  if cellBarred s x then s
  else { s with cask := { s.cask with retest := tabPut s.cask.retest x 0, held := joinPlace x s.cask.held } }

/-- An uncorrectable codeword: counted, its event, its holder, and its cell's retest (R220, R221). -/
def badCodeword (x cw : Nat) (s : State) : State :=
  beginRetest x (hurtHolder (holderOf s x cw) (raise 0x4001 0 0 (bump 10 0 7 48 1 s)))

/-- What a read of a frame's cells finds, for a frame that is on its way out of the Cask (R220): true where a codeword was
uncorrectable. -/
def readCells (chain : List Nat) (r : CellRead) (s : State) : Bool × State :=
  let hit := (List.range r.errors.length).filterMap (fun i =>
    if codewordLost (r.errors.getD i 0) then chain[i / 4]? else none)
  (!hit.isEmpty, hit.foldl (fun s x => beginRetest x (raise 0x4001 0 0 (bump 10 0 7 48 1 s)))
    (bump 10 0 6 48 (r.errors.filter codewordMended).length s))

/-! ### Scrubbing (R220 to R223) -/

/-- A pass of the scrubber is complete: in the next one the first uncorrectable codeword opens a new record (R220,
R222). -/
def endPass (s : State) : State := closeRec 0x4001 0 (bump 10 0 9 48 1 s)

/-- The scrubber has done a codeword. -/
def scrubbed (n : Nat) (s : State) : State :=
  if n + 1 = 2097152 then endPass { s with cask := { s.cask with scrubNext := 0 } }
  else { s with cask := { s.cask with scrubNext := n + 1 } }

/-- Codeword `cw` of a cell under its retest was rewritten and reread and passed: a pass takes the four codewords in order, and
after the second one the cell returns to the free lists (R221). A cell that something still holds is not rewritten. -/
def retestPassed (x cw : Nat) (s : State) : State :=
  let n := tabGet 0 s.cask.retest x
  if holderOf s x cw ≠ .nothing then s
  else if cw = n % 4 then
    if n = 7 then freeChain [x] { s with cask := { s.cask with retest := tabDel s.cask.retest x } }
    else { s with cask := { s.cask with retest := tabPut s.cask.retest x (n + 1) } }
  else if cw = 0 then { s with cask := { s.cask with retest := tabPut s.cask.retest x (n / 4 * 4 + 1) } }
  else s

/-- What the scrubber does with a codeword of the cell at a place (R221, R222). -/
def scrubCell (x cw : Nat) (res : ScrubRes) (s : State) : State :=
  if codewordLost res.errors || res.again then
    if tabHas s.cask.retest x then retireCell x s
    else
      let s := badCodeword x cw s
      if res.again then retireCell x s else s
  else
    let s := if codewordMended res.errors then bump 10 0 6 48 1 s else s
    if tabHas s.cask.retest x then retestPassed x cw s else s

end Sys2Proof.Machine
end

