-- ==== Sys2Proof/Machine/Stamps.lean ====
section
/-! DEFINITION. Stamps at the wire, PTP event frames and one-step insertion (R281 to R288), stamp entries (R289), and
delay probes in frames (R299 to R302). -/

namespace Sys2Proof.Machine

/-! ### Stamps (R273, R281) -/

/-- The network time of this instant, interpolated between TCLK edges (R273). -/
def exactNow (s : State) : Nat := s.clk.tod + s.clk.root % 10 * currentIncr s.clk / 10

/-- A stamp: the network time of this instant truncated to 125 ps (R281). -/
def stampNow (s : State) : Nat := exactNow s / 2 ^ 29 * 2 ^ 29 % todWrap

/-- How far steps have moved network time since root cycle `t` (R293). -/
def jumpsSince (s : State) (t : Nat) : Int := ((s.clk.jumps.filter (fun j => decide (t < j.1))).map (·.2)).sum

/-- The network time that `d` root cycles ago was, at the present increment, truncated to 125 ps: a step since then does not
change it (R293). -/
def stampAgo (s : State) (d : Nat) : Nat :=
  (((exactNow s : Int) - ((d * currentIncr s.clk / 10 : Nat) : Int) - jumpsSince s (s.clk.root - d)) %
    (todWrap : Int)).toNat / 2 ^ 29 * 2 ^ 29

/-! ### Wire times and port latencies (R81) -/

/-- Receive and transmit latency of a port in root cycles, by speed code, WIDTH code and whether RS(528,514) is in use
(R81). -/
def latencyOf (speed width : Nat) (rs528 : Bool) : Nat × Nat :=
  match speed, width with
  | 1, _ => (462, 309)
  | 2, _ => if rs528 then (2486, 360) else (318, 215)
  | 3, _ => (1624, 332)
  | 4, 2 => if rs528 then (961, 303) else (274, 196)
  | 4, 1 => (1080, 297)
  | 4, _ => (953, 288)
  | 5, 2 => (716, 262)
  | 5, 1 => (669, 254)
  | 5, _ => (640, 249)
  | 6, 3 => (553, 238)
  | 6, 2 => (508, 231)
  | 6, _ => (485, 227)
  | 7, 3 => (434, 220)
  | 7, _ => (421, 218)
  | 8, _ => (386, 212)
  | _, _ => (0, 0)

/-- The latencies of a port in its present mode. -/
def portLatency (s : State) (p : Nat) : Nat × Nat :=
  latencyOf (portSpeed s p) (psWidth (getPort s p).setting) (portFec s p == 1)

/-- The ingress stamp of a frame that is at its ingress reference point now: the first bit of its DA crossed the balls the
port's receive latency ago (R81, R281). -/
def ingressStamp (s : State) (p : Nat) : Nat := stampAgo s (portLatency s p).1

/-! ### Port stamp settings (R283) -/

/-- PTPEN. -/
def tsPtpen (s : State) (p : Nat) : Bool := nb (getPort s p).stamp 63
/-- ONESTEP. -/
def tsOnestep (s : State) (p : Nat) : Nat := nf (getPort s p).stamp 62 61
/-- TXQ. -/
def tsTxq (s : State) (p : Nat) : Bool := nb (getPort s p).stamp 60
/-- RXQ. -/
def tsRxq (s : State) (p : Nat) : Bool := nb (getPort s p).stamp 59

/-! ### PTP event frames (R282) -/

/-- Octets of a frame as a number. -/
def octsAt (l : Bytes) (o n : Nat) : Nat := beNat ((l.drop o).take n)

/-- Where the PTP header of a frame begins, if its EtherType is PTP's. -/
def ptpOffset (l : Bytes) : Option Nat :=
  if etherType l = 0x88F7 then some 14
  else if isTagged l && octsAt l 16 2 == 0x88F7 then some 18 else none

/-- Whether a frame is a PTP event frame. -/
def isPtpEvent (l : Bytes) : Bool :=
  match ptpOffset l with
  | some o => octsAt l (o + 1) 1 % 16 == 2 && decide (octsAt l o 1 % 16 ≤ 3)
  | none => false

/-- A frame enters a port: whether it is recognised as a PTP event frame, which is counted (R282, R304). -/
def recognise (p : Nat) (l : Bytes) (s : State) : Bool × State :=
  if tsPtpen s p && isPtpEvent l then (true, bump 13 p 3 48 1 s) else (false, s)

/-- messageType of a PTP frame. -/
def ptpType (l : Bytes) : Nat := match ptpOffset l with | some o => octsAt l o 1 % 16 | none => 0
/-- sequenceId of a PTP frame. -/
def ptpSeq (l : Bytes) : Nat := match ptpOffset l with | some o => octsAt l (o + 30) 2 | none => 0

/-! ### Insertion (R284 to R288, R299) -/

/-- A frame with octets replaced from `o` on. -/
def putOcts (l : Bytes) (o : Nat) (v : Bytes) : Bytes := l.take o ++ v ++ l.drop (o + v.length)

/-- correctionField plus a number of 2^-16 ns; none where it would overflow or is the reserved value (R288). -/
def correct (l : Bytes) (o : Nat) (d : Int) : Option Bytes :=
  let v := octsAt l (o + 8) 8
  let sum := signed 64 v + d
  if v = 0x7FFFFFFFFFFFFFFF ∨ sum < -(2 : Int) ^ 63 ∨ (2 : Int) ^ 63 ≤ sum then none
  else some (putOcts l (o + 8) (beBytes 8 ((sum % (2 : Int) ^ 64).toNat)))

/-- Origin mode (R284): only a Sync frame whose twoStepFlag is 0 changes. `l` is the frame without its FCS. -/
def insertOrigin (l : Bytes) (stamp : Nat) : Bytes × List Inserted :=
  match ptpOffset l with
  | none => (l, [])
  | some o =>
    if ptpType l ≠ 0 ∨ nb (octsAt l (o + 6) 1) 1 then (l, [])
    else if l.length < o + 44 then (l, [.short])
    else
      let m := putOcts l (o + 34) (beBytes 6 (todSec stamp) ++ beBytes 4 (todNs stamp))
      match correct m o (todFrac stamp) with
      | some m => (m, [.written])
      | none => (m, [.written, .unchanged])

/-- Transparent mode (R285): the residence time is added. -/
def insertTransparent (l : Bytes) (ingress stamp : Nat) : Bytes × List Inserted :=
  match ptpOffset l with
  | none => (l, [])
  | some o =>
    if l.length < o + 16 then (l, [.short])
    else
      match correct l o (((stamp : Int) - (ingress : Int)) / (2 : Int) ^ 16) with
      | some m => (m, [.written])
      | none => (l, [.unchanged])

/-- The place of an insertion's counter. -/
def insertPlace : Inserted → Option Nat
  | .written => some 0
  | .short => some 1
  | .unchanged => some 2
  | .nothing => none

/-- The insertion that port `p` makes into a frame at the commit point: T1 or T3 of a probe, or one-step fields. `l` is
the frame without its FCS. -/
def insertAt (s : State) (p : Nat) (f : QFrame) (l : Bytes) (stamp : Nat) : Bytes × List Inserted :=
  match f.origin with
  | .probe _ => (putOcts l 22 (beBytes 12 (todForm stamp)), [])
  | .response => (putOcts l 46 (beBytes 12 (todForm stamp)), [])
  | .port =>
    if !f.ptp then (l, [])
    else if tsOnestep s p = 1 then insertOrigin l stamp
    else if tsOnestep s p = 2 then insertTransparent l f.stamp stamp
    else (l, [])
  | .inject _ _ => if f.ptp && tsOnestep s p == 1 then insertOrigin l stamp else (l, [])

/-- The insertions of a frame are counted on its egress port. -/
def countInserted (p : Nat) (l : List Inserted) (s : State) : State :=
  l.foldl (fun s i => match insertPlace i with
    | some k => bump 13 p k 48 1 s
    | none => s) s

/-! ### Stamp entries (R289) -/

/-- A stamp entry of 128 bits. -/
def stampEntry (stamp id typ src : Nat) (stomp : Bool) (place : Nat) : Nat :=
  todForm stamp * 2 ^ 32 + id % 2 ^ 16 * 2 ^ 16 + typ * 2 ^ 12 + src * 2 ^ 9 + bn stomp * 2 ^ 7 + place

/-- The egress entries of a frame whose last octet has left port `p`: of a PTP event frame under the TXQ of its commit, and
of an injected frame that asked for one. -/
def pushEgress (p : Nat) (f : QFrame) (stamp : Nat) (txq : Bool) (s : State) : State :=
  let s := if f.ptp && txq then
      pushStamp 0 (stampEntry stamp (ptpSeq f.octets) (ptpType f.octets) 1 f.stomp p) s else s
  match f.origin with
  | .inject true id => pushStamp 0 (stampEntry stamp id 0 2 f.stomp p) s
  | _ => s

/-- The ingress entry of a PTP event frame that has been delivered with a good FCS, under the RXQ of its recognition. -/
def pushIngress (p : Nat) (l : Bytes) (rxq : Bool) (stamp : Nat) (s : State) : State :=
  if rxq then pushStamp 1 (stampEntry stamp (ptpSeq l) (ptpType l) 1 false p) s else s

/-! ### Probes (R299 to R302) -/

/-- A probe frame without its FCS. -/
def probeFrame (da sa : Bytes) (typ id : Nat) (t1 t2 t3 : Nat) : Bytes :=
  da ++ sa ++ beBytes 2 0x88B5 ++ beBytes 2 0xA17E ++ beBytes 1 1 ++ beBytes 1 typ ++ beBytes 2 id ++ beBytes 2 0 ++
    beBytes 12 t1 ++ beBytes 12 t2 ++ beBytes 12 t3 ++ beBytes 2 0

/-- TYPE of a probe, none for any other frame; `l` is without its FCS, and a probe has 64 octets with it. -/
def probeType (l : Bytes) : Option Nat :=
  if l.length = 60 ∧ etherType l = 0x88B5 ∧ octsAt l 14 2 = 0xA17E ∧ octsAt l 16 1 = 1 then some (octsAt l 17 1) else none

/-- The responder entry of a receive channel. -/
def responderOf (s : State) (c : Nat) : Option Responder :=
  (s.timeFn.responders.find? (fun p => p.2.rxch == c)).map (·.2)

/-- A frame of the Wenok's own joins the class queue of a transmit channel's line port: metered, charged to the management
partition, which it takes one cell of. False where it was dropped. -/
def sendOwn (c cls : Nat) (meter : Option Nat) (l : Bytes) (origin : Origin) (s : State) : Bool × State :=
  let r := match meter with
    | some m => meterFrame m cls false (l.length + 4) s.clk.root (cclkEdge s) s
    | none => (s, some cls)
  match r.2 with
  | none => (false, r.1)
  | some k =>
    let t := takeCells .management 1 (charge .management 1 r.1)
    let s := t.2
    let h := (getChan s c).header
    let p := hPort h
    (true, enqueue { octets := l ++ fcsOf l, cls := k, inPort := p, outPort := p, channel := some c
                     account := .management, cells := 1, chain := t.1, admitted := s.clk.root, ref := s.clk.root
                     header := h, stamp := 0, origin := origin, stomp := false, ptp := false } s)

/-- A validated request on a channel with a responder entry is answered (R301). -/
def answerProbe (e : Responder) (l : Bytes) (stamp : Nat) (s : State) : State :=
  if !present s e.txch || hRx (getChan s e.txch).header then dropAbsent 1 s
  else if !fitsAccount s .management 1 then bump 10 0 10 48 1 s
  else
    let r := probeFrame ((l.drop 6).take 6) (l.take 6) 2 (octsAt l 18 2) (octsAt l 22 12) (todForm stamp) 0
    let r := sendOwn e.txch e.cls (if e.meten then some e.meter else none) r .response s
    if r.1 then bump 14 0 73 48 1 r.2 else r.2

/-- A validated response completes the probe that waits for it on the channel and whose timeout has not run out, or is
dropped and counted (R41, R302). -/
def takeResponse (c : Nat) (l : Bytes) (stamp : Nat) (s : State) : State :=
  let id := octsAt l 18 2
  match tabFind s.timeFn.probes id with
  | some p =>
    if p.rxch = c ∧ s.clk.root ≤ p.expiry then
      bump 14 0 71 48 1 (pushStamp 11
        (probeResult id p 0 (todForm p.t1) (octsAt l 34 12) (octsAt l 46 12) (todForm stamp))
        { s with timeFn := { s.timeFn with probes := tabDel s.timeFn.probes id } })
    else bump 14 0 74 48 1 s
  | none => bump 14 0 74 48 1 s

end Sys2Proof.Machine
end

