-- ==== Sys2Proof/Machine/Wire.lean ====
section
/-! DEFINITION. Frames on their way out of the part: protection (R154 to R158), the contexts of a cipher lane (R180, R183),
a frame on the wire and its end (R225, R268, R281, R287, R289), and what a command that meets frames finds done by its time.
-/

namespace Sys2Proof.Machine

/-! ### Protection (R154 to R158) -/

/-- Keystream blocks of a frame, tag mask first: those taken from a slot, the rest in flight. -/
def frameStream (bits key nonce : Nat) (proofed : List Nat) (n : Nat) : List Nat :=
  proofed.take n ++ keystream bits key nonce (1 + (proofed.take n).length) (n - (proofed.take n).length)

/-- How addresses, SecTAG and secure data split into A and C (R156). -/
def splitAC (h tagLen : Nat) (l : Bytes) : Bytes × Bytes :=
  if hConf h then (l.take (tagLen + coffOctets h), l.drop (tagLen + coffOctets h)) else (l, [])

/-- The ICV of A and C under a tag mask (R156). -/
def icvOf (bits key : Nat) (a c : Bytes) (mask : Nat) : Bytes :=
  beBytes 16 (gcmHash (aesEnc bits key 0) a c ^^^ mask)

/-- The SecTAG of a frame with `n` octets of secure data (R154). -/
def secTag (h an pn n : Nat) : Bytes :=
  let tci := bn (hEs h && !hSciinc h) * 64 + bn (hSciinc h) * 32 + bn (hConf h) * 12 + an % 4
  beBytes 2 0x88E5 ++ beBytes 1 tci ++ beBytes 1 (if n < 48 then n else 0) ++ beBytes 4 (pn % 2 ^ 32) ++
    if hSciinc h then beBytes 8 (hSci h) else []

/-- A of a MACsec frame, and the rest of its secure data in clear (R156). `l` is the frame in clear without its FCS. -/
def clearAC (f : TxFrame) (l : Bytes) : Bytes × Bytes :=
  let tag := secTag f.header f.an f.pn (l.length - 12)
  splitAC f.header (12 + tag.length) (l.take 12 ++ tag ++ l.drop 12)

/-- The ciphertext of a MACsec frame and its tag mask. -/
def cipherOf (f : TxFrame) (c : Bytes) : Bytes × Nat :=
  let ks := frameStream (hBits f.header) f.key (nonceOf f.header f.salt f.ssci f.pn) f.proofed ((c.length + 15) / 16 + 1)
  (xorStream c (ks.drop 1), ks.headD 0)

/-- A MACsec frame without its FCS (R154 to R156). `l` is the frame in clear without its FCS. -/
def protect (f : TxFrame) (l : Bytes) : Bytes :=
  let ac := clearAC f l
  let ct := cipherOf f ac.2
  ac.1 ++ ct.1 ++ icvOf (hBits f.header) f.key ac.1 ct.1 ct.2

/-- The FCS of a frame, stomped where the frame is (R56). -/
def closeFcs (stomp : Bool) (l : Bytes) : Bytes :=
  l ++ if stomp then (fcsOf l).map (fun b => b ^^^ 0xFF) else fcsOf l

/-- The octets of a frame as it crosses the balls with egress stamp `stamp`, without its FCS, and what was inserted. -/
def wireBody (s : State) (p : Nat) (f : TxFrame) (stamp : Nat) : Bytes × List Inserted :=
  let r := insertAt s p f.frame (f.frame.octets.take (f.frame.octets.length - 4)) stamp
  (match f.frame.channel with
    | some _ => protect f r.1
    | none => r.1, r.2)

/-! ### Contexts (R152, R158, R180, R183) -/

/-- Stripes of a port (R152). -/
def stripes (s : State) (p : Nat) : Nat := if portSpeed s p = 8 then 4 else if portSpeed s p = 7 then 2 else 1

/-- H^k of an association, from the side array of its line (R158). -/
def hashPower (s : State) (c an k : Nat) : Nat :=
  if k = 1 then (getSub (getChan s c) an).hkey
  else match lineOf s c .valid with
    | some i => (((tabFind s.assoc.lines i).map (fun l => tabGet [] l.side an)).getD []).getD (k - 2) 0
    | none => 0

/-- The sum of stripe `j` of `k` over the blocks so far: block i goes to stripe i mod k, and the running sum is multiplied by
H^k before each block is added (R158). -/
def stripeSum (k hk j : Nat) (l : List Nat) : Nat :=
  (((List.range l.length).zip l).filter (fun p => p.1 % k = j)).foldl (fun y p => gfMul y hk ^^^ p.2) 0

/-- The context of a frame of which the lane has done `n` blocks of A and C (R180). -/
def laneCtx (k hk n : Nat) (a c part : Bytes) : LaneCtx :=
  let na := blocks a
  let done := (na ++ blocks c).take n
  { counter := 2 + (n - na.length), sums := (List.range k).map (fun j => stripeSum k hk j done)
    lenA := min a.length (16 * n), lenC := min c.length (16 * (n - na.length)), part := part }

/-- Whole blocks in the first `n` octets of A and C, the last block of A filled up with zeros. -/
def blocksAt (a c : Bytes) (n : Nat) : Nat :=
  if n < a.length then n / 16 else (blocks a).length + (min c.length (n - a.length)) / 16

/-- Blocks of a protected frame that its slot does not cover, tag mask and GHASH products counted in (R151, R173). -/
def streamBlocks (f : TxFrame) : Nat := if f.frame.channel.isSome then (wireLen f + 15) / 16 + 1 - f.proofed.length else 0

/-- The hold-back of a line port: 20 CCLK of wire time or two blocks, whichever is longer (R153). -/
def holdBack (s : State) (p : Nat) : Nat := max 60 (octTime s p 32)

/-- Root cycles that the lane takes for a frame, which the wire and the port's slots pace (R151, R152, R189). -/
def laneSpan (s : State) (p : Nat) (f : TxFrame) : Nat :=
  max 1 (max (octTime s p (wireLen f)) (slotTime s 0 p (streamBlocks f)))

/-- Octets of its active frame that the lane has done by now. -/
def laneOctets (s : State) (p : Nat) (f : TxFrame) : Nat :=
  min (wireLen f) (f.laneDone + (s.clk.root - f.laneFrom) * wireLen f / laneSpan s p f)

/-- The active frame with the root cycle at which the lane has done its last octet and hands it off. -/
def pace (s : State) (p : Nat) (f : TxFrame) : TxFrame :=
  { f with laneEnds := f.laneFrom + (laneSpan s p f * (wireLen f - f.laneDone) + wireLen f - 1) / max 1 (wireLen f) }

/-- The octets done at the next 16-octet block boundary, where a frame can be suspended (R180). -/
def boundaryOctets (s : State) (p : Nat) (f : TxFrame) : Nat := min (wireLen f) ((laneOctets s p f + 15) / 16 * 16)

/-- The frame of an encrypt lane with its context saved when `n` octets are done, a block boundary (R180). -/
def saveTx (s : State) (p n : Nat) (f : TxFrame) : TxFrame :=
  let f := { f with laneDone := n }
  match f.frame.channel with
  | none => f
  | some c =>
    let ac := clearAC f (f.frame.octets.take (f.frame.octets.length - 4))
    let k := stripes s p
    { f with ctx := some (laneCtx k (hashPower s c f.an k) (blocksAt ac.1 ac.2 n) ac.1 (cipherOf f ac.2).1 []) }

/-! ### The wire -/

/-- Statistics of a protected frame that was sent (R129). -/
def countSent (f : TxFrame) (s : State) : State :=
  match f.frame.channel with
  | none => s
  | some c =>
    let k := if hConf f.header then 1 else 0
    countCh c (4 + f.an) 1 (countCh c (2 + k) (f.frame.octets.length - 16) (countCh c k 1 s))

/-- The insertions of a frame and its octets are counted, and what is due of its stamps is pushed (R56, R271, R289, R304). -/
def countWire (p : Nat) (f : TxFrame) (m : Commit) (s : State) : State :=
  let c := f.frame.cls
  let len := m.body.length + 4
  let s := countInserted p m.ins s
  let s := if f.frame.stomp then bump 1 p 5 48 1 s else bump 1 p 3 64 len (bump 1 p 1 48 1 s)
  let s := if f.cuts = 0 then s else bump 1 p 32 48 (f.cuts + 1) s
  let s := bump 11 p (8 + c) 48 (shapedLen s p len) (bump 11 p c 48 1 (countSent f s))
  pushEgress p f.frame m.stamp m.txq
    (if f.frame.stomp then s else pushIngress f.frame.inPort f.frame.octets f.frame.rxq f.frame.stamp s)

/-- What a frame in a lane still holds of the Cask (R225). -/
def restOf (f : TxFrame) : QFrame := { f.frame with cells := f.frame.cells - f.read, chain := chainLeft f }

/-- The last octet of a frame has left port `p`: it is counted, its cells are free, its class heeds pause again (R59, R225).
At a transmitter that sends something else nothing of it crosses the balls (R65, R74). -/
def endWire (p : Nat) (f : TxFrame) (m : Commit) (s : State) : State :=
  let s := if txIdle s p then s else emit (.frame p (closeFcs f.frame.stomp m.body) m.stamp) s
  let s := freeFrame f.frame.account (restOf f).cells (chainLeft f) (countWire p f m s)
  let s := match f.frame.channel with
    | some c => releaseSlot c f.slot s
    | none => s
  setPause s p f.frame.cls { getPause s p f.frame.cls with ignoring := false }

/-- Whether a frame may start, or go on, under the hold and its gate: while the preemptable MAC is held no fragment of classes
0 to 5 starts, and the remainder of a preempted frame waits for its gate too (R268). -/
def mayStart (s : State) (p : Nat) (f : TxFrame) : Bool :=
  decide (6 ≤ f.frame.cls) || !preemptOn s p ||
    (!macHeld s p && (f.commit.isNone || nb (getGates s p).open_ f.frame.cls))

/-- The free lane takes up its held frames again in descending class order, 2 CCLK behind root cycle `from_` (R181). -/
def resume (p from_ : Nat) (s : State) : State :=
  let tx := getTx s p
  let again (f : TxFrame) : TxFrame := pace s p { f with laneFrom := from_ + 6, ctx := none }
  match tx.active, tx.held6, tx.held05 with
  | none, some f, _ => setTx s p { tx with active := some (again f), held6 := none }
  | none, none, some f => setTx s p { tx with active := some (again f), held05 := none }
  | _, _, _ => s

/-- The lane's active frame leaves the active context for the MAC. -/
def toMac (p : Nat) (f : TxFrame) (s : State) : State :=
  setTx s p { getTx s p with mac := (getTx s p).mac ++ [f], active := none }

/-- A frame changed in its lane. -/
def setTxFrame (p : Nat) (f : TxFrame) (s : State) : State :=
  setTx s p (mapLane (fun g => if g.granted = f.granted then f else g) (getTx s p))

/-- The frames that the lane has done have released their slots (R164). -/
def settleSlots (p : Nat) (s : State) : State :=
  (getTx s p).mac.foldl (fun s f => match f.frame.channel with
    | some c =>
      if f.slot.isSome && f.due.isNone && decide (f.laneEnds ≤ s.clk.root) then
        releaseSlot c f.slot (setTxFrame p { f with slot := none } s)
      else s
    | none => s) s

/-- A frame that the lane has handed off leaves it for the MAC, and a held one takes its place (R181). -/
def handOff (p : Nat) (s : State) : State :=
  match (getTx s p).active with
  | some f => if f.due.isNone && decide (f.laneEnds ≤ s.clk.root) then resume p f.laneEnds (toMac p f s) else s
  | none => resume p s.clk.root s

/-- Whether a frame has left: its last fragment has ended and its tail is not withheld (R175). -/
def hasLeft (s : State) (f : TxFrame) : Bool :=
  match f.wire with
  | some w => decide (w.2 ≤ s.clk.root) && f.frame.tail.isNone && f.cutAt.isNone
  | none => false

/-- A fragment that ends at its first permitted point has left: the rest of its frame waits (R268). -/
def fragmentLeft (root : Nat) (f : TxFrame) : TxFrame :=
  match f.wire, f.cutAt with
  | some w, some n => if w.2 ≤ root then cutAfter n f else f
  | _, _ => f

/-- A frame is gone from its lane. -/
def laneDrop (f : TxFrame) (r : TxLane) : TxLane :=
  let other (g : TxFrame) : Bool := g.granted != f.granted
  { mac := r.mac.filter other, active := r.active.filter other, held6 := r.held6.filter other
    held05 := r.held05.filter other }

/-- The pause frames of a port as time leaves them, the wire being free of other frames since root cycle `b` (R232). -/
def settlePauses (p b : Nat) (s : State) : State :=
  if (onWire (getTx s p)).isSome then s else pausesOut (getPort s p).pauses.length p b s

/-- The lane and the wire of a port as time leaves them: frames handed off, held ones resumed, fragments ended, a frame whose
last octet has left gone, and the pause frames behind it (R181, R225, R232, R268). A frame whose octets are on the wire goes
out whole though the port leaves UP or fault sequences begin (log entry 111). -/
def settleWire (p : Nat) (s : State) : State :=
  let s := settleSlots p ((List.range 3).foldl (fun s _ => handOff p s) s)
  let s := setTx s p (mapLane (fragmentLeft s.clk.root) (getTx s p))
  match (txFrames (getTx s p)).find? (hasLeft s) with
  | some f => match f.commit, f.wire with
    | some m, some w => settlePauses p w.2 (resume p w.2 (endWire p f m (setTx s p (laneDrop f (getTx s p)))))
    | _, _ => s
  | none => settlePauses p 0 s

/-- Octets of a frame that have come by now (R227). -/
def octetsCome (s : State) (f : QFrame) : Nat := if f.ends ≤ s.clk.root then f.octets.length else octetsSince s f.inPort f.ref

/-- Cells of a frame that have been read when its lane has done `n` octets of it: the last one when it has done them all. -/
def cellsRead (s : State) (n : Nat) (f : TxFrame) : Nat :=
  if wireLen f ≤ n then f.frame.cells else min (f.frame.cells - 1) (min n (octetsCome s f.frame) / 256)

/-- The first `k` cells of a frame have been read and are free (R225). -/
def readUpTo (p k : Nat) (f : TxFrame) (s : State) : State :=
  if k ≤ f.read then s
  else freeFrame f.frame.account (k - f.read) ((chainLeft f).take (k - f.read)) (setTxFrame p { f with read := k } s)

/-- The cells of the frames of a port whose last codeword has been read for transmission are free (R225). -/
def settleCells (p : Nat) (s : State) : State :=
  let tx := getTx s p
  let s := tx.mac.foldl (fun s f => readUpTo p (cellsRead s (laneOctets s p f) f) f s) s
  let s := (tx.held05.toList ++ tx.held6.toList).foldl (fun s f => readUpTo p (cellsRead s f.laneDone f) f s) s
  match tx.active with
  | some f => readUpTo p (cellsRead s (laneOctets s p f) f) f s
  | none => s

/-- What happens at root cycle `e` and is looked at now. -/
def atRoot (e : Nat) (f : State → State) (s : State) : State :=
  let r := f { s with clk := { s.clk with root := e } }
  { r with clk := { r.clk with root := s.clk.root } }

/-- The ports that have a setting or frames. -/
def portsHere (s : State) : List Nat := s.ports.map (·.1) ++ (s.cipher.tx.map (·.1)).filter (fun p => !tabHas s.ports p)


end Sys2Proof.Machine
end

