-- ==== Sys2Proof/Machine/Receive.lean ====
section
/-! DEFINITION. Frames that arrive (03, 05, 06): the decision on a host frame and on a line frame in clear, the Peer Table
lookup, spill path and learning, the miss buffer, acceptance (R212), the decrypt lane (R183), the ICV check (R175, R213),
and the fills that frames wait for. -/

namespace Sys2Proof.Machine

/-- A frame in clear as its header window is presented at the ingress reference point (R26, R82): its port, its octets, the
root cycle of its last octet, its ingress stamp, whether it is a PTP event frame and its stamp is to be pushed, and whether
its end will be found bad. -/
structure Arrival where
  port : Nat
  octets : Bytes
  ends : Nat
  stamp : Nat
  ptp : Bool := false
  rxq : Bool := false
  stomp : Bool := false
  deriving DecidableEq, Repr

/-! ### Punts (R85, R235, R522) -/

/-- The BAR2 ring that takes a side's punts: 0 for line ports, 1 for host ports. -/
def puntRing (side : Nat) : Nat := side

/-- A frame is put on the punt account of its side, or dropped: counted at the account, or at the ring where that is
disabled (R85, R116, R522). -/
def puntFrame (a : Arrival) (reason rule cls : Nat) (s : State) : State :=
  let side := sideOf a.port
  let cells := cellsOf a.octets.length
  let r := enterCask (.punt side) (provCells s a.port a.octets.length) cells a.ends s
  match r.1 with
  | none => r.2
  | some chain =>
    if a.stomp then doom a.ends (.punt side) cells chain r.2
    else if !(getRing r.2 (puntRing side)).enabled then bump 5 0 2 48 1 (freeFrame (.punt side) cells chain r.2)
    else
      let f : PuntFrame := { octets := a.octets, inPort := a.port, reason := reason, rule := rule, cls := cls
                             stamp := a.stamp, since := r.2.clk.root, cells := cells, chain := chain
                             ptp := a.ptp, rxq := a.rxq }
      { r.2 with cask := { r.2.cask with
          punts := tabSet [] r.2.cask.punts side (tabGet [] r.2.cask.punts side ++ [f]) } }

/-! ### Frames decided by a rule or a map entry (R84, R85, R96) -/

/-- Place of a classification counter by side: host, then line (R116). -/
def clsPlace (p host line : Nat) : Nat := if isLine p then line else host

/-- DEI of a frame's outer tag (R247). -/
def frameDei (l : Bytes) : Bool := isTagged l && nb (octsAt l 14 2) 12

/-- A frame in the Cask for an egress port: admitted, or dropped. A class-7 frame flows through; a frame of the other classes is
stored whole, and dropped at its last octet where it is found bad there (R227, R228). -/
def storeFrame (a : Arrival) (outp cls : Nat) (ch : Option Nat) (s : State) : State :=
  let cells := cellsOf a.octets.length
  let acc := accountOf a.port outp cls
  let r := enterCask acc (provCells s a.port a.octets.length) cells a.ends s
  match r.1 with
  | some chain =>
    if a.stomp && decide (cls ≠ 7) then doom a.ends acc cells chain r.2
    else
      storeQueued
        { octets := a.octets, cls := cls, inPort := a.port, outPort := outp, channel := ch, account := acc, cells := cells
          chain := chain, admitted := r.2.clk.root, ref := r.2.clk.root, ends := a.ends, flow := decide (cls = 7)
          header := match ch with | some c => (getChan s c).header | none => 0
          stamp := a.stamp, origin := .port, stomp := a.stomp, ptp := a.ptp, rxq := a.rxq && !a.stomp } r.2
  | none => r.2

/-- A classification counter advances for a frame, but for one whose end will be found bad (log entry 45). -/
def countCls (a : Arrival) (k : Nat) (s : State) : State := if a.stomp then s else bumpCls a.port k 1 s

/-- A frame passes the meter of its decision, which colours it in cycle 1 of R171 (R96, R248). -/
def applyMeter (d : Decision) (cls : Nat) (a : Arrival) (s : State) : State × Option Nat :=
  if d.meten then meterFrame d.meter cls (frameDei a.octets) a.octets.length a.ends (cclkEdge s + 3) s else (s, some cls)

/-- The port on the other side that a BYPASS names (R84). -/
def bypassPort (p eport : Nat) : Nat := if isLine p then 32 + eport else eport

/-- PROTECT (R84, R124, R134, R143): the channel must be a present transmit channel. -/
def protectFrame (a : Arrival) (c cls : Nat) (d : Decision) (s : State) : State :=
  let h := getChan s c
  if !present s c || hRx h.header then (if a.stomp then s else dropAbsent 1 s)
  else if h.cold then (if a.stomp then s else countCh c 9 1 s)
  else
    let r := applyMeter d cls a (requestFill c (lookLine c s))
    match r.2 with
    | some k => storeFrame a (hPort h.header) k (some c) r.1
    | none => r.1

/-- BYPASS (R84, R85): a frame that its meter drops is counted by the meter only (R96). -/
def bypassFrame (a : Arrival) (cls : Nat) (d : Decision) (s : State) : State :=
  let out := bypassPort a.port d.eport
  if !portEnabled s out then countCls a (clsPlace a.port 5 13) s
  else
    let r := applyMeter d cls a s
    match r.2 with
    | some k => storeFrame a out k none (countCls a (clsPlace a.port 2 9) r.1)
    | none => r.1

/-- A frame follows its decision: `reason` and `rule` are those of a punt. -/
def followDecision (a : Arrival) (d : Decision) (reason rule : Nat) (s : State) : State :=
  let p := a.port
  let cls := decidedClass s p a.octets d
  if d.action = 1 then protectFrame a d.channel cls d s
  else if d.action = 2 then bypassFrame a cls d s
  else if d.action = 3 then
    let r := applyMeter d cls a s
    match r.2 with
    | some k => puntFrame a reason rule k (countCls a (clsPlace p 3 10) r.1)
    | none => r.1
  else countCls a (clsPlace p 1 11) s

/-- A frame without a SecTAG step takes its one decision (R83). A miss is counted as a miss only (R116). -/
def decideClear (a : Arrival) (s : State) : State :=
  let p := a.port
  match decide83 (lookupView s) p a.octets with
  | .reservedVid => countCls a (clsPlace p 4 12) s
  | .rule i d => followDecision a d 2 i (if a.stomp then s else bump 4 i 0 48 1 s)
  | .map d => followDecision a d 3 0 s
  | .miss punt =>
    let s := countCls a (clsPlace p 0 14) s
    if punt then puntFrame a 1 0 0 s else s

/-- A frame received good is counted on its port (R55). -/
def countGood (p : Nat) (l : Bytes) (s : State) : State := bump 1 p 2 64 l.length (bump 1 p 0 48 1 s)

/-! ### Frames without a SecTAG -/

/-- The faults that a frame flowing through is found to have only at its end (R56). -/
def lateFault (k : Nat) : Bool := [4, 6, 24, 36].contains k

/-- A frame in clear at its header window, PTP event frames recognised in it (R82, R282). -/
def arrivalOf (p : Nat) (l : Bytes) (stomp : Bool) (s : State) : Arrival × State :=
  let r := recognise p l s
  ({ port := p, octets := l, ends := s.clk.root + octTime s p (l.length - 1), stamp := ingressStamp s p, ptp := r.1
     rxq := r.1 && tsRxq s p, stomp := stomp }, r.2)

/-- A frame without a SecTAG: MAC checks, then its decision. One that its end will show to be bad is decided, metered and
admitted all the same: a class-7 frame leaves stomped, any other one is dropped at its last octet, and no classification counter
advances for it (R55, R56, R83, R225, R227, R228). The MAC counts it at its header window (DESIGN CHOICE: one row brings the
whole frame). -/
def clearFrame (p : Nat) (l : Bytes) (m : RxMark) (s : State) : State :=
  match macFault s p l m with
  | some k =>
    let s := countFault p k s
    if lateFault k && decide (etherType l ≠ 0x8808) then
      let r := arrivalOf p l true s
      decideClear r.1 r.2
    else s
  | none =>
    if etherType l = 0x8808 then
      let o := getPort s p
      setPort s p { o with ctl := o.ctl ++ [(s.clk.root + octTime s p (l.length - 1), l)] }
    else
      let r := arrivalOf p l false (countGood p l s)
      decideClear r.1 r.2

/-! ### Acceptance (R157, R212) -/

/-- The packet number that 32 bits of a SecTAG stand for with reference `low` (R157); none past 2^64 - 1. -/
def recoverPn (low tag : Nat) : Option Nat :=
  let hi := low / 2 ^ 32 + bn (nb low 31 && !nb tag 31)
  if hi < 2 ^ 32 then some (hi * 2 ^ 32 + tag) else none

/-- What R212 finds: dropped under a counter, or accepted with a packet number. -/
inductive Judged where
  | drop (counter : Nat)
  | accept (pn : Nat)
  deriving DecidableEq, Repr

/-- The lowest acceptable packet number (R212). -/
def lowestPn (h : Nat) (u : Sub) : Nat :=
  let w := if hRprot h then (if hXpn h then min (hRwin h) (2 ^ 30) else hRwin h) else 2 ^ 30
  max u.initPn (u.mark - w)

/-- The judgement of cycle 4 (R156, R212, R215). In the zero replay window a second frame with the last packet number does not
exceed the first while that one is in flight (R214). -/
def judge (h : Nat) (u : Sub) (l : Bytes) : Judged :=
  let low := lowestPn h u
  if !(u.state == .loaded || u.state == .active || u.state == .draining) then .drop 3
  else if tciEnc l != hConf h then .drop 1
  else
    match (if hXpn h then recoverPn low (tagPn l) else some (tagPn l)) with
    | none => .drop 2
    | some pn =>
      let again := decide (pn = lastPn h) && u.inFlight.contains pn && decide (hRwin h = 0)
      if pn = 0 ∨ (hRprot h = true ∧ (pn < low ∨ u.lastSeen = true ∨ again = true)) then .drop 2 else .accept pn

/-- The accepted frame moves the admission mark (R212). -/
def acceptSub (h pn : Nat) (u : Sub) : Sub :=
  { u with mark := min (max u.mark (pn + 1)) (lastPn h), inFlight := pn :: u.inFlight }

/-! ### Decryption -/

/-- Secure data of a received frame in clear, and whether its ICV matches (R156, R175). -/
def openFrame (f : RxFrame) : Bytes × Bool :=
  let l := f.octets
  let e := tagEnd l
  let body := l.take (l.length - 20)
  let ac := splitAC f.header e body
  let bits := hBits f.header
  let ks := frameStream bits f.key (nonceOf f.header f.salt f.ssci f.pn) f.proofed ((ac.2.length + 15) / 16 + 1)
  (ac.1.drop e ++ xorStream ac.2 (ks.drop 1),
    decide (icvOf bits f.key ac.1 ac.2 (ks.headD 0) = (l.drop (l.length - 20)).take 16))

/-- The frame as the host gets it, without its FCS. -/
def plainFrame (f : RxFrame) : Bytes := f.octets.take 12 ++ (openFrame f).1

/-- Octets of the frame at the host side, FCS included (R154). -/
def hostLen (l : Bytes) : Nat := l.length - (tagEnd l + 4)

/-! ### The decrypt lane -/

/-- The frame passes its receive meter in cycle 6, two behind its acceptance (R95, R96, R248). -/
def rxMeter (f : RxFrame) (s : State) : State × Option Nat :=
  if hRxmeten f.header then
    let v := (getMeter s (hRxmeter f.header)).desc
    meterFrame (hRxmeter f.header) f.cls (mtCaware v && frameDei (plainFrame f)) (hostLen f.octets) f.ends (s.clk.root + 6) s
  else (s, some f.cls)

/-- Whether a decrypted frame flows through (R227, R228). -/
def rxFlows (s : State) (f : RxFrame) : Bool :=
  !hVfirst f.header &&
    (decide (f.cls = 7) || ((getQ s (32 + f.port) f.cls).isEmpty &&
      decide (speedGb (portSpeed s (32 + f.port)) ≤ speedGb (portSpeed s f.port))))

/-- Whether a frame is a probe that ends at this channel: a request with a responder, or a response (R301, R302). -/
def ownProbe (s : State) (c : Nat) (l : Bytes) : Bool :=
  match probeType l with
  | some 1 => (responderOf s c).isSome
  | some 2 => true
  | _ => false

/-- A decrypted frame as it stands in its host class queue. -/
def hostFrame (f : RxFrame) (l : Bytes) (tail : Option Nat) : QFrame :=
  { octets := l ++ fcsOf l, cls := f.cls, inPort := f.port, outPort := 32 + f.port, channel := none
    account := f.account, cells := f.cells, chain := f.chain, admitted := f.arrived, ref := f.ref, ends := f.ends
    flow := tail.isSome, tail := tail, tag := if tail.isSome then tagEnd f.octets - 12 else 0, stamp := f.stamp, origin := .port, stomp := false, ptp := f.ptp, rxq := f.rxq }

/-- The frame enters the Cask (R95, R225): its host port, meter and admission may drop it, while its check runs on. One that
flows through is queued at once, its tail withheld until its check (R175, R227, R228). -/
def rxToCask (f : RxFrame) (l : Bytes) (s : State) : RxFrame × State :=
  let out := 32 + f.port
  if !portEnabled s out then ({ f with lost := true }, bumpCls f.port 13 1 s)
  else
    let m := rxMeter f s
    match m.2 with
    | none => ({ f with lost := true }, m.1)
    | some k =>
      let f := { f with cls := k }
      let cells := cellsOf (hostLen f.octets)
      let a := accountOf f.port out k
      let r := enterCask a (provCells m.1 f.port (hostLen f.octets)) cells f.ends m.1
      match r.1 with
      | none => ({ f with lost := true }, r.2)
      | some chain =>
        let f := { f with account := a, cells := cells, chain := chain }
        if rxFlows r.2 f && !ownProbe r.2 f.channel l then
          ({ f with flow := true, chain := [] }, enqueue (hostFrame f l (some f.num)) r.2)
        else (f, r.2)

/-- The octets of a frame that have come by now. -/
def arrivedSoFar (s : State) (f : RxFrame) : Nat := min f.octets.length (f.came + octetsSince s f.port f.cameFrom)

/-- An interrupted frame with its context saved at the boundary of its last complete block, a partial block of up to 15
octets with it (R180, R183). -/
def saveRx (s : State) (f : RxFrame) : RxFrame :=
  let k := stripes s f.port
  let n := arrivedSoFar s f
  let ac := splitAC f.header (tagEnd f.octets) (f.octets.take (f.octets.length - 20))
  let a := ac.1.take n
  let c := ac.2.take (n - ac.1.length)
  let part := if n < ac.1.length then a.drop (a.length / 16 * 16) else c.drop (c.length / 16 * 16)
  let whole := if n < ac.1.length then a.length / 16 else (blocks ac.1).length + c.length / 16
  { f with saved := some (laneCtx k (hashPower s f.channel f.an k) whole a c part), came := n }

/-- A frame whose last octet has come leaves the active context and waits for its check. -/
def rxComplete (s : State) (r : RxLane) : RxLane :=
  match r.active with
  | some g => if g.ends ≤ s.clk.root then { r with checks := r.checks ++ [g], active := none } else r
  | none => r

/-- An interrupted frame resumes with its next fragment (R183). -/
def rxResume (s : State) (r : RxLane) : RxLane :=
  match r.active, r.held with
  | none, some g =>
    if g.resumes ≤ s.clk.root then { r with active := some { g with saved := none }, held := none } else r
  | _, _ => r

/-- A decrypt lane as time leaves it. -/
def rxOnward (s : State) (r : RxLane) : RxLane := rxResume s (rxComplete s r)

/-- An interrupted frame ends later by an express frame of `len` octets that begins now, and goes on behind it: around the
express frame the wire carries the 4 octets of the fragment's mCRC, two gaps of 12 and two preambles of 8. Its next fragment
has come when its least 64 octets have (R62, R183). -/
def heldBehind (s : State) (p len : Nat) (g : RxFrame) : RxFrame :=
  let e := s.clk.root + octTime s p (len - 1)
  { g with ends := g.ends + octTime s p (len + 44), cameFrom := e + octTime s p 21, resumes := e + octTime s p 84 }

/-- The frame in the active context is saved for an express frame between fragments (R183). -/
def saveActive (p len by_ : Nat) (g : RxFrame) (s : State) : State :=
  let r := getRx s p
  setRx s p { r with active := none, held := some { heldBehind s p len (saveRx s g) with cutBy := by_ } }

/-- A frame of `len` octets begins on a line port. While an earlier frame has not come whole it is an express frame that
interrupts that one between fragments, whatever becomes of it; one that waits for its next fragment waits on (R62, R183). -/
def rxInterrupt (p len : Nat) (s : State) : State :=
  if psPreempt (getPort s p).setting then
    let r := rxOnward s (getRx s p)
    let s := setRx s p r
    match r.active with
    | some g => if r.held.isNone && decide (s.clk.root < g.ends) then saveActive p len s.clk.root g s else s
    | none => setRx s p { r with held := r.held.map (heldBehind s p len) }
  else s

/-- A class-7 frame for which the context of another one was saved is counted on that one's channel (R129, R183). -/
def countSaved (f : RxFrame) (s : State) : State :=
  match (getRx s f.port).held with
  | some g => if f.cls = 7 ∧ g.cutBy = f.ref then countCh g.channel 13 1 s else s
  | none => s

/-- The frame takes the lane. One that is still active and has not come whole was accepted behind the frame's first octet, and is
saved now (R183). -/
def rxEnter (f : RxFrame) (s : State) : State :=
  let p := f.port
  let r := rxOnward s (getRx s p)
  let s := setRx s p r
  let s := match r.active with
    | some g =>
      if r.held.isNone && psPreempt (getPort s p).setting && decide (s.clk.root < g.ends) then
        saveActive p f.octets.length f.ref g s
      else setRx s p { r with checks := r.checks ++ [g], active := none }
    | none => s
  countSaved f (setRx s p { getRx s p with active := some f })

/-- Whether a received frame has to wait for its keystream for longer than what its lane buffers, its group working on three
positions (R153, R189). -/
def rxOverruns (s : State) (p n blocks : Nat) : Bool :=
  positionLost (getArray s 1) (p / 8) && decide (octTime s p n + max 72 (octTime s p 32) < slotTime s 1 p blocks)

/-- A received frame that overruns ends with a stomped FCS, or is dropped at its end, and is counted (R189). -/
def checkRxOverrun (n : Nat) (f : RxFrame) (s : State) : RxFrame × State :=
  if rxOverruns s f.port n ((n + 15) / 16 + 1 - f.proofed.length) then
    ({ f with mark := .uncorrectable }, bumpArray 1 11 1 s)
  else (f, s)

/-- A header with the VFIRST of another one: a change of VFIRST reaches every frame whose cycle 4 comes at or after it (R179). -/
def withVfirst (old new : Nat) : Nat :=
  if hVfirst old = hVfirst new then old else if hVfirst new then old + 2 ^ 432 else old - 2 ^ 432

/-- A MACsec frame on a resident channel is judged and, if accepted, enters its decrypt lane (R172, R212). A frame that the
judgement drops counts there even if the MAC finds it bad at its end. -/
def acceptRx (c : Nat) (k : Parked) (s : State) : State :=
  let s := touchLine c (lookLine c s)
  let h := getChan s c
  let hd := withVfirst (k.header.getD h.header) h.header
  let an := tciAn k.octets
  let u := getSub h an
  match judge hd u k.octets with
  | .drop n => countCh c n 1 s
  | .accept pn =>
    let cls := hRxclass hd
    let ks := takeKeystream c an pn cls s
    let s := putChan c (setSub (getChan ks.2.2 c) an (acceptSub hd pn u)) ks.2.2
    let f : RxFrame :=
      { octets := k.octets, port := k.port, channel := c, an := an, pn := pn, key := u.key, header := hd
        salt := u.salt, ssci := u.ssci, cls := cls, stamp := k.stamp, num := s.cipher.accepted, ref := k.ref
        cameFrom := k.ref
        arrived := s.clk.root, ends := k.ref + octTime s k.port (k.octets.length - 1), account := .management
        cells := 0, loadGen := u.loadGen, mark := k.mark, proofed := ks.1, slot := ks.2.1, flow := false }
    let l := plainFrame f
    let e := recognise k.port l { s with cipher := { s.cipher with accepted := s.cipher.accepted + 1 } }
    let o := checkRxOverrun k.octets.length { f with ptp := e.1, rxq := e.1 && tsRxq s k.port } e.2
    let r := rxToCask o.1 l o.2
    rxEnter r.1 r.2

/-! ### Receive channels: absent, cold, miss buffer (R124, R135, R143) -/

/-- Whether the miss buffer has room for a frame (R135). -/
def missRoom (s : State) (n : Nat) : Bool :=
  decide (s.assoc.missBuf.length < 4096) &&
    decide ((s.assoc.missBuf.map (fun f => f.octets.length)).sum + n ≤ 1048576)

/-- A frame whose Peer Table entry names channel `c`, in cycle 4 of R172. -/
def rxChannel (c : Nat) (k : Parked) (s : State) : State :=
  let h := getChan s c
  let bad := decide (k.mark ≠ .clean)
  if !present s c || !hRx h.header then (if bad then s else dropAbsent 0 s)
  else if h.cold then (if bad then s else countCh c 10 1 s)
  else if h.resident && !s.assoc.missBuf.any (fun f => f.channel == c) then acceptRx c k s
  else if missRoom s k.octets.length then
    requestFill c { s with assoc := { s.assoc with
      missBuf := s.assoc.missBuf ++ [{ k with channel := c, since := s.clk.root, header := some (k.header.getD h.header) }] } }
  else raise 0x3004 c 0 (countCh c 11 1 s)

/-! ### Unknown SCIs (R106 to R108) -/

/-- PENDING entries of a port. -/
def pendingCount (s : State) (p : Nat) : Nat := (s.cls.peers.filter (fun e => !e.2.bound && e.2.port == p)).length

/-- A MACsec frame that is punted as it came. -/
def parkedArrival (s : State) (k : Parked) : Arrival :=
  { port := k.port, octets := k.octets, ends := max s.clk.root (k.ref + octTime s k.port (k.octets.length - 1))
    stamp := k.stamp }

/-- A LEARN insertion that fails (R108). -/
def learnFails (k : Parked) (place code : Nat) (s : State) : State :=
  let s := raise code k.port 0 (bumpCls k.port place 1 s)
  if nb (mapEntry (lookupView s) k.port 4095) 59 then puntFrame (parkedArrival s k) 6 0 0 s else s

/-- LEARN (R107, R108), under the port record that the lookup sees (R110). -/
def learn (k : Parked) (s : State) : State :=
  let rec_ := mapEntry (lookupView s) k.port 4095
  let set := peerSet s k.port k.sci
  if nf rec_ 58 51 ≤ pendingCount s k.port then learnFails k 6 0x2005 s
  else
    match freeWay s set 0 4 with
    | none => learnFails k 5 0x2004 s
    | some w =>
      puntFrame (parkedArrival s k) 5 0 0
        (bumpCls k.port 3 1 (setPeer set w { sci := k.sci, port := k.port, bound := false, channel := 0
                                             expires := s.clk.root + nf rec_ 50 43 * 10 * msec } s))

/-- A frame whose key finds no BOUND entry is counted and handled by UNKNOWN (R106); under LEARN a frame that finds the
PENDING entry of its key is a pending drop (R107). -/
def unknownSci (pending : Bool) (k : Parked) (s : State) : State :=
  if k.mark ≠ .clean then s
  else
    let s := bumpCls k.port 1 1 s
    let pol := nf (mapEntry (lookupView s) k.port 4095) 61 60
    if pol = 1 then puntFrame (parkedArrival s k) 4 0 0 s
    else if pol = 2 then (if pending then bumpCls k.port 2 1 s else learn k s)
    else s

/-- A frame that is looked up now meets its channel in cycle 4 of R172, under the header of now (R123). -/
def toCycle4 (c : Nat) (k : Parked) (s : State) : State :=
  { s with cipher := { s.cipher with waiting := s.cipher.waiting ++
      [{ k with channel := c, since := cclkEdge s + 12, header := some (getChan s c).header }] } }

/-- A frame meets the entry of a way. -/
def meetPeer (f : Nat → Parked → State → State) (p : Peer) (k : Parked) (s : State) : State :=
  if p.bound then f p.channel k s else unknownSci true k s

/-! ### Line frames -/

/-- A frame enters the spill path, or finds it full (R103). Both are counted whether or not the MAC finds the frame bad at its
end (log entry 114). -/
def enterSpill (k : Parked) (s : State) : State :=
  if s.cls.spillPath.length < 256 then
    bumpCls k.port 7 1 { s with cls := { s.cls with spillPath := s.cls.spillPath ++ [k] } }
  else bumpCls k.port 8 1 s

/-- The Peer Table lookup of a MACsec frame (R97, R98, R103, R106, R110). -/
def lookupPeer (k : Parked) (s : State) : State :=
  let s := syncFlush s
  let v := lookupView s
  let set := peerSet s k.port k.sci
  if s.cls.spillPath.any (fun f => f.port == k.port && f.sci == k.sci) then enterSpill k s
  else
    match findWay v 4 set k.port k.sci with
    | some w => match peerAt v set w with
      | some p => meetPeer toCycle4 p k s
      | none => s
    | none => if spillCount v set ≠ 0 then enterSpill k s else unknownSci false k s

/-- A MACsec frame on a line port. What the MAC finds wrong only at the end of a frame goes with it (R176); the other
faults drop it at once. -/
def macsecFrame (p : Nat) (l : Bytes) (m : RxMark) (s : State) : State :=
  let fault := macFault s p l m
  let s := match fault with
    | some k => countFault p k s
    | none => countGood p l s
  let late := match fault with
    | some k => lateFault k
    | none => true
  if !late then s
  else if badTag l then (if fault.isNone then bumpCls p 0 1 s else s)
  else
    lookupPeer { octets := l, port := p, channel := 0, sci := frameSci s p l, since := s.clk.root, ref := s.clk.root
                 stamp := ingressStamp s p, mark := if fault.isNone then .clean else .uncorrectable } s

/-- A line frame (R83, R99). -/
def lineFrame (p : Nat) (l : Bytes) (m : RxMark) (s : State) : State :=
  if etherType l = 0x88E5 then macsecFrame p l m s else clearFrame p l m s

/-- Whether frame `i` of the spill path is the first of its key (R103). -/
def firstOfKey (s : State) (i : Nat) : Bool :=
  match s.cls.spillPath[i]? with
  | some k => !(s.cls.spillPath.take i).any (fun f => f.port == k.port && f.sci == k.sci)
  | none => false

/-! ### The ICV check (R175, R176, R178, R213) -/

/-- A validated frame's association (R213, R215). -/
def validSub (h pn : Nat) (u : Sub) : Sub :=
  { u with nextPn := min (max u.nextPn (pn + 1)) (lastPn h), inFlight := u.inFlight.erase pn
           lastSeen := u.lastSeen || decide (pn = lastPn h) }

/-- A failed frame's association: M falls back (R213). -/
def failedSub (pn : Nat) (u : Sub) : Sub :=
  let left := u.inFlight.erase pn
  { u with inFlight := left, mark := max u.nextPn (left.foldl (fun m q => max m (q + 1)) 0) }

/-- The association of a frame is still the one it was accepted on. -/
def sameLoad (s : State) (f : RxFrame) : Bool :=
  let u := getSub (getChan s f.channel) f.an
  u.loadGen == f.loadGen && decide (u.state ≠ .empty) && u.inFlight.contains f.pn

/-- What the check does to the association and its counters (R206, R213, R215). -/
def rxVerdict (f : RxFrame) (ok : Bool) (n : Nat) (s : State) : State :=
  let c := f.channel
  let h := getChan s c
  let u := getSub h f.an
  let same := sameLoad s f
  if ok then
    let s := if same then putChan c (setSub h f.an (validSub f.header f.pn u)) s else s
    let s := countCh c (if hConf f.header then 9 else 8) n (countCh c (4 + f.an) 1 (countCh c 0 1 s))
    let s := if same && decide (f.pn = lastPn f.header) then raise 0x300E c 0 s else s
    if same && decide (u.state = .loaded) then activateRx c f.an s else s
  else countCh c 1 1 (if same then putChan c (setSub h f.an (failedSub f.pn u)) s else s)

/-- A stored frame that passed both checks goes to its host queue, unless it is a probe that ends here (R301, R302). -/
def deliverRx (f : RxFrame) (l : Bytes) (s : State) : State :=
  if ownProbe s f.channel l then
    let s := freeFrame f.account f.cells f.chain s
    match probeType l, responderOf s f.channel with
    | some 1, some e => answerProbe e l f.stamp s
    | _, _ => takeResponse f.channel l f.stamp s
  else enqueue (hostFrame f l none) s

/-- The tail of frame `n` is released: with a stomped FCS where `bad` (R175, R176). -/
def releaseFrame (n : Nat) (bad : Bool) (f : QFrame) : QFrame :=
  if f.tail = some n then { f with tail := none, stomp := f.stomp || bad, rxq := f.rxq && !bad } else f

/-- The same for a frame that a lane has taken. -/
def releaseTx (n : Nat) (bad : Bool) (f : TxFrame) : TxFrame := { f with frame := releaseFrame n bad f.frame }

/-- Whether the frame in the Cask whose tail waits for received frame `n` is still there. -/
def tailWaits (s : State) (p n : Nat) : Bool :=
  (List.range 8).any (fun c => (getQ s p c).any (fun f => f.tail == some n)) ||
    (txFrames (getTx s p)).any (fun f => f.frame.tail == some n)

/-- The tail of received frame `n` is released on host port `p`, in its queue or in the lane that has taken it. -/
def releaseTail (p n : Nat) (bad : Bool) (s : State) : State :=
  let s := (List.range 8).foldl (fun s c =>
    if (getQ s p c).any (fun f => f.tail == some n) then setQ s p c ((getQ s p c).map (releaseFrame n bad)) else s) s
  let tx := getTx s p
  if (txFrames tx).any (fun f => f.frame.tail == some n) then
    setTx s p (mapLane (releaseTx n bad) tx)
  else s

/-- The check of a frame whose decryption is complete: a frame that flows through has its tail released, stomped where it
failed (R175, R176, R228); a stored one is delivered, or dropped (R176, R178). -/
def icvCheck (f : RxFrame) (s : State) : State :=
  let o := openFrame f
  let l := f.octets.take 12 ++ o.1
  let s := releaseSlot f.channel f.slot (rxVerdict f o.2 o.1.length s)
  let ok := o.2 && decide (f.mark = .clean)
  if f.lost then s
  else if f.flow then
    let out := 32 + f.port
    let s := if !ok && tailWaits s out f.num then countCh f.channel 15 1 s else s
    settleWire out (releaseTail out f.num (!ok) s)
  else if ok then deliverRx f l s
  else freeFrame f.account f.cells f.chain s

/-- When the check of a frame is done: the later of 5 CCLK after its last ICV octet and 1 CCLK after its last octet (R175).
-/
def checkDue (s : State) (f : RxFrame) : Nat := max (f.ends - octTime s f.port 4 + 15) (f.ends + 3)

/-- The frame of a decrypt lane whose check is due at root cycle `e`, the oldest first. -/
def dueCheck (s : State) (r : RxLane) (e : Nat) : Option RxFrame := (rxFrames r).find? (fun f => decide (checkDue s f ≤ e))

/-- A frame leaves its decrypt lane. -/
def rxLeave (n : Nat) (r : RxLane) : RxLane :=
  { checks := r.checks.filter (fun f => f.num != n), active := r.active.filter (fun f => f.num != n)
    held := r.held.filter (fun f => f.num != n) }

/-- The check of a frame that leaves its lane (R175). -/
def checkRx (p : Nat) (f : RxFrame) (s : State) : State :=
  icvCheck f (setRx s p (rxLeave f.num (rxOnward s (getRx s p))))

/-! ### Fills that frames wait for (R135 to R137) -/

/-- The frames of channel `c` leave the miss buffer, in arrival order. -/
def drainMiss (c : Nat) (f : Parked → State → State) (s : State) : State :=
  let l := s.assoc.missBuf.filter (fun k => k.channel == c)
  l.foldl (fun s k => f k s)
    { s with assoc := { s.assoc with missBuf := s.assoc.missBuf.filter (fun k => k.channel != c) } }

/-- Whether frames wait for channel `c` though an instruction has filled its entry meanwhile (R135, R138). -/
def filledMeanwhile (s : State) (c : Nat) : Bool :=
  (getChan s c).resident && s.assoc.missBuf.any (fun k => k.channel == c)

/-- Frames of a transmit channel that wait in the Cask for its fill, which timed out, are dropped (R134, R136). -/
def dropWaiting (c : Nat) (s : State) : State :=
  let late := s.cask.arriving.filter (fun f => f.channel == some c)
  let s := late.foldl (fun s f => countCh c 11 1 (dropQueued f s))
    { s with cask := { s.cask with arriving := s.cask.arriving.filter (fun f => f.channel != some c) } }
  (s.cask.queues.map (·.1)).foldl (fun s k =>
    let q := getQ s (k / 8) (k % 8)
    let hit := q.filter (fun f => f.channel == some c)
    if hit.isEmpty then s
    else hit.foldl (fun s f => countCh c 11 1 (dropQueued f s))
      (putQueue (k / 8) (k % 8) (q.filter (fun f => f.channel != some c)) s)) s

end Sys2Proof.Machine
end

