-- ==== Sys2Proof/Machine/Transmit.lean ====
section
/-! DEFINITION. Frames that leave: the scheduler's choice (R239 to R243), the grant with the assignment of association and
packet number (R159, R180, R198) and the latency monitor (R31), and the start of a frame on the wire (R171, R177, R182, R229,
R281). -/

namespace Sys2Proof.Machine

/-! ### Heads that are dropped (R54, R124, R143) -/

/-- Every frame queued for a port that does not transmit is dropped and counted (R54). -/
def flushPort (p : Nat) (s : State) : State :=
  (List.range 8).foldl (fun s c =>
    let l := getQ s p c
    if l.isEmpty then s
    else l.foldl (fun s f => bump 1 p 7 48 1 (dropQueued f s)) (putQueue p c [] s)) s

/-- What a head frame whose channel cannot be used is counted under: absent, or COLD_FAILED. -/
def headLost (s : State) (f : QFrame) : Bool :=
  match f.channel with
  | some c => !present s c || hRx (getChan s c).header || (getChan s c).cold
  | none => false

/-- Heads of a queue whose channel is absent or COLD_FAILED are dropped (R124, R143). -/
def purgeHeads (p c : Nat) (s : State) : State :=
  let bad := (getQ s p c).takeWhile (headLost s)
  if bad.isEmpty then s
  else
    bad.foldl (fun s f => match f.channel with
      | some ch => if (getChan s ch).cold then countCh ch 9 1 (dropQueued f s) else dropAbsent 1 (dropQueued f s)
      | none => s) (putQueue p c ((getQ s p c).dropWhile (headLost s)) s)

/-! ### Eligibility (R240) -/

/-- Length of a queued frame at the egress MAC (R255), under the header it was classified with (R123). -/
def egressLen (f : QFrame) : Nat :=
  f.octets.length + match f.channel with
    | some _ => if hSciinc f.header then 32 else 24
    | none => 0

/-- Whether the length of a queued frame is known: its last octet has come. -/
def lenKnown (s : State) (f : QFrame) : Bool := decide (f.ends ≤ s.clk.root)

/-- The length that the fit rule takes: the port's MTU where it is not known at the grant (R267). -/
def fitLen (s : State) (p : Nat) (f : QFrame) : Nat :=
  if lenKnown s f then egressLen f else psMtu (getPort s p).setting

/-- Whether the head frame's channel is resident (R134). -/
def headResident (s : State) (f : QFrame) : Bool :=
  match f.channel with
  | some c => (getChan s c).resident
  | none => true

/-- Why a head frame is passed over: by the shaper, by a closed gate, by the fit rule, as bits 1, 2, 4 (R271). -/
def passedOver (s : State) (p c : Nat) (f : QFrame) : Nat :=
  let gate := nb (getGates s p).open_ c
  (if shaperOpen s p c then 0 else 1) + (if gate then 0 else 2) + (if gate && !fits s p c (fitLen s p f) then 4 else 0)

/-- Whether queue `c` of port `p` is eligible (R240): its head frame is complete or flows through (R228), and a held
preemptable MAC takes no frame of classes 0 to 5 (R268). -/
def eligible (s : State) (p c : Nat) : Bool :=
  match getQ s p c with
  | f :: _ =>
    (f.flow || lenKnown s f) && headResident s f && !(decide (c < 6) && (paused s p c || macHeld s p)) &&
      passedOver s p c f == 0
  | [] => false

/-- The head frame of a queue is looked at in a decision: its channel is looked up and its fill requested if it has left the
cache (R134), and each cause that passes the frame over counts once (R271). -/
def lookAtHead (p c : Nat) (s : State) : State :=
  match getQ s p c with
  | [] => s
  | f :: l =>
    let s := match f.channel with
      | some ch => requestFill ch (lookLine ch s)
      | none => s
    let m := if f.flow || lenKnown s f then passedOver s p c f else 0
    let fresh (k : Nat) : Bool := nb m k && !nb f.deferred k
    let s := if fresh 0 then bump 11 p (16 + c) 48 1 s else s
    let s := if fresh 1 then bump 11 p (24 + c) 48 1 s else s
    let s := if fresh 2 then bump 11 p (32 + c) 48 1 s else s
    setQ s p c ({ f with deferred := f.deferred ||| m } :: l)

/-! ### The choice (R241, R242) -/

/-- The classes 0 to 5 whose weight is 0, in descending order, after 7 and 6 (R241). -/
def strictOrder (s : State) (p : Nat) : List Nat :=
  [7, 6] ++ [5, 4, 3, 2, 1, 0].filter (fun c => classWeight s p c == 0)

/-- Shaped length of the head of a queue (R255). -/
def headShaped (s : State) (p c : Nat) : Nat :=
  match getQ s p c with
  | f :: _ => shapedLen s p (egressLen f)
  | [] => 0

/-- One class of the deficit round robin after another, until one may send (R242). -/
def roundRobin : Nat → Nat → State → Option Nat × State
  | 0, _, s => (none, s)
  | n + 1, p, s =>
    let o := getPort s p
    let c := o.rrClass
    let ok := classWeight s p c != 0 && eligible s p c
    let onward (s : State) : State := setPort s p { getPort s p with rrClass := nextClass c, rrOpen := false }
    if !ok then roundRobin n p (onward s)
    else
      let d := tabGet 0 o.deficit c + (if o.rrOpen then 0 else classWeight s p c * 128)
      let s := setPort s p { o with deficit := tabSet 0 o.deficit c d, rrOpen := true }
      if headShaped s p c ≤ d then (some c, s) else roundRobin n p (onward s)

/-- Whether any weighted class is eligible. -/
def anyWeighted (s : State) (p : Nat) : Bool :=
  (List.range 6).any (fun c => classWeight s p c != 0 && eligible s p c)

/-- A visit ends when its class has stopped being eligible, whichever class the decision then takes (R242). -/
def checkVisit (p : Nat) (s : State) : State :=
  if eligible s p (getPort s p).rrClass then s else endVisit p (getPort s p).rrClass s

/-- The queue that a decision takes (R241). -/
def choose (p : Nat) (s : State) : Option Nat × State :=
  let s := checkVisit p s
  match (strictOrder s p).find? (eligible s p) with
  | some c => (some c, s)
  | none => if anyWeighted s p then roundRobin 600 p s else (none, s)

/-! ### The lane (R152, R180) -/

/-- CCLK edges from the selection of a frame to its egress reference point, its keystream being at hand: 8 on a line port
(R171) and 4 on a host port (R172), 2 more on a line port where it suspends a frame (R180). Read from the cycle tables
(DEDUCED). -/
def selectToEgress (p : Nat) (sus : Bool) : Nat := if isLine p then 8 + (if sus then 2 else 0) else 4

/-- The root cycle at which the lane begins to work on a frame selected now, 3 CCLK before its egress reference point. -/
def laneStart (s : State) (p : Nat) (sus : Bool) : Nat := cclkEdge s + 3 * selectToEgress p sus - 9

/-- Whether a frame of class `c` suspends the one in the active context: that one is of a lower class and still active at the
grant, a cycle behind the selection (R171, R180). -/
def suspends (s : State) (p c : Nat) : Bool :=
  match (getTx s p).active with
  | some g => decide (6 ≤ c) && decide (g.frame.cls < c) && decide (s.clk.root + 3 < g.laneEnds)
  | none => false

/-- Whether no held frame has to be resumed before a frame of class `c` (R181). -/
def heldBelow (tx : TxLane) (c : Nat) : Bool := c == 7 || (tx.held6.isNone && (c == 6 || tx.held05.isNone))

/-- Whether the lane can take a frame of class `c`: its frame can be suspended (R180), or it is done with it by the time it
begins to work on the new one. -/
def laneTakes (s : State) (p c : Nat) : Bool :=
  let tx := getTx s p
  match tx.active with
  | none => heldBelow tx c
  | some g =>
    if suspends s p c then (if g.frame.cls = 6 then tx.held6.isNone else tx.held05.isNone)
    else heldBelow tx c && decide (g.laneEnds ≤ laneStart s p false)

/-- The frame in the active context is suspended for frame `f` at its next block boundary, its context saved; for a class-7
frame that is counted on its channel (R129, R180). -/
def suspend (p : Nat) (f g : TxFrame) (s : State) : State :=
  let s := match g.frame.channel with
    | some ch => if f.frame.cls = 7 then countCh ch 13 1 s else s
    | none => s
  let tx := getTx s p
  let g := saveTx s p (boundaryOctets s p g) g
  if g.frame.cls = 6 then setTx s p { tx with active := none, held6 := some g }
  else setTx s p { tx with active := none, held05 := some g }

/-- A frame takes the lane. -/
def takeLane (p : Nat) (f : TxFrame) (s : State) : State :=
  let s := match (getTx s p).active with
    | some g => if suspends s p f.frame.cls then suspend p f g s else toMac p g s
    | none => s
  setTx s p { getTx s p with active := some (pace s p f) }

/-- CCLK edges from the selection to the assignment of a packet number: cycles 5 and 7 of R171, 2 more behind a suspension. -/
def selectToAssign (sus : Bool) : Nat := 2 + (if sus then 2 else 0)

/-- CCLK by which keystream computed in flight delays a frame (R170). -/
def inFlightDelay : Nat := 5

/-- The latency monitor of the port on which a class-7 frame entered: CCLK edges between its two reference points (R31). -/
def monitorLatency (f : QFrame) (egress : Nat) (s : State) : State :=
  if f.cls = 7 ∧ f.origin = .port then
    let n := egress / 3 - f.ref / 3
    let s := bumpMax 2 f.inPort 0 n s
    if 16 < n then raise 0x3013 f.inPort 0 (bump 2 f.inPort 1 48 1 s) else s
  else s

/-- Whether a frame has to wait for its keystream for longer than the hold-back, its group working on three positions
(R189): it has `n` octets before it. -/
def overruns (s : State) (p n : Nat) (f : TxFrame) : Bool :=
  positionLost (getArray s 0) (p / 8) &&
    decide (octTime s p n + holdBack s p < slotTime s 0 p (streamBlocks f - (wireLen f - n) / 16))

/-- A frame that overruns ends with a stomped FCS and is counted; its packet number stays used (R189). -/
def checkOverrun (p n : Nat) (f : TxFrame) (s : State) : TxFrame × State :=
  if overruns s p n f then (hurtLeaving f, bumpArray 0 11 1 s) else (f, s)

/-- A selected frame enters the lane of port `p`, its egress reference point set, and its assignment edge where it is
protected (R31, R171, R172). -/
def enterLane (p : Nat) (f : TxFrame) (s : State) : State :=
  let sus := suspends s p f.frame.cls
  let e := cclkEdge s + 3 * selectToEgress p sus
  let d := cclkEdge s + 3 * selectToAssign sus
  let f := { f with granted := s.clk.root, egress := e, laneFrom := laneStart s p sus, header := f.frame.header }
  match f.frame.channel with
  | some _ => takeLane p { f with due := some (d, (clkTo d s.clk).tod) } s
  | none => monitorLatency f.frame e (takeLane p f s)

/-! ### The assignment (R159, R198) -/

/-- The events of an assignment (R198, R200, R211). -/
def assignEvents (c : Nat) (a : Assigned) (s : State) : State :=
  let s := match a.rolled with
    | some n => closeRec 0x300A c (raiseEv { code := 0x3009, obj := c, aux := n } (countCh c 14 1 s))
    | none => s
  let an := a.an.getD 0
  let s := if a.threshold then raiseEv { code := 0x300B, obj := c, aux := an } s else s
  if a.exhausted then raiseEv { code := 0x300C, obj := c, status := stPnExhausted } s else s

/-- A frame is dropped from its lane, which goes on with the frames it holds. -/
def laneLost (p : Nat) (f : TxFrame) (s : State) : State :=
  resume p s.clk.root (dropQueued (restOf f) (setTx s p (laneDrop f (getTx s p))))

/-- A frame of a transmit channel at its assignment edge, at network time `now`: too long, without an association, or given a
packet number and its keystream (R159, R160, R171, R198). It uses the header it was classified with (R123). -/
def assignFrame (p c now : Nat) (f : TxFrame) (s : State) : State :=
  let s := touchLine c s
  let h := getChan s c
  let q := f.frame
  let long := decide (psMtu (getPort s p).setting < egressLen q)
  if long && (decide (q.cls ≠ 7) || lenKnown s q) then countCh c 10 1 (laneLost p f s)
  else
    let a := assign h now
    match a.an with
    | none => raise 0x300A c 0 (countCh c 8 1 (laneLost p f (putChan c a.chan s)))
    | some an =>
      let ks := takeKeystream c an a.pn q.cls s
      let s := assignEvents c a (putChan c a.chan ks.2.2)
      let s := if long then countCh c 10 1 s else s
      let u := getSub h an
      let late := if ks.2.1.isNone then 3 * inFlightDelay else 0
      let f := { f with frame := { q with stomp := q.stomp || long }, an := an, pn := a.pn, key := u.key, salt := u.salt
                        ssci := u.ssci, proofed := ks.1, slot := ks.2.1, due := none, egress := f.egress + late
                        laneFrom := f.laneFrom + late }
      let r := checkOverrun p (wireLen f) f s
      monitorLatency q f.egress (setTxFrame p (pace s p r.1) r.2)

/-- The frame of port `p` selected at root cycle `g` meets its assignment edge. -/
def assignAt (p g : Nat) (s : State) : State :=
  match (txFrames (getTx s p)).find? (fun f => f.granted == g) with
  | some f => match f.frame.channel, f.due with
    | some c, some d => assignFrame p c d.2 f s
    | _, _ => s
  | none => s

/-! ### The grant -/

/-- A selected frame is dequeued, debited at its grant in the next cycle, and takes the lane (R171, R242, R243, R256). -/
def grant (p c : Nat) (s : State) : State :=
  match getQ s p c with
  | [] => s
  | f :: l =>
    let n := shapedLen s p (egressLen f)
    let o := getPort s p
    let s := if c < 6 && classWeight s p c != 0 then
        setPort s p { o with deficit := tabSet 0 o.deficit c (tabGet 0 o.deficit c - n) } else s
    let s := shaperDebit p c n f.ends (s.clk.root + 3) (putQueue p c l s)
    enterLane p { frame := f } s

/-- The class that a selection gives is granted the lane if the lane takes it. -/
def grantChoice (p : Nat) (r : Option Nat × State) : State :=
  match r.1 with
  | none => r.2
  | some c =>
    if laneTakes r.2 p c then
      grant p c (setPort r.2 p { getPort r.2 p with decisionAt := some r.2.clk.root })
    else r.2

/-- A decision of a port's scheduler. -/
def decision (p : Nat) (s : State) : State :=
  grantChoice p (choose p ((List.range 8).foldl (fun s c => lookAtHead p c (purgeHeads p c s)) s))

/-! ### The start on the wire (R171, R177, R182, R229, R281) -/

/-- A quotient rounded up, none below 0. -/
def ceilPos (n : Int) (d : Nat) : Nat := if d = 0 then 0 else ((n + (d : Int) - 1) / (d : Int)).toNat

/-- W of R177 in CCLK: line port of `g` and host port of `gh` Gb/s, SecTAG of `sl` octets, line frame of `l` octets. A port
of g Gb/s has 3g/80 octets in a CCLK. -/
def tailWait (g gh sl l : Nat) : Nat :=
  let release := max (((l : Int) - 5) * 80 + 15 * g) (((l : Int) - 1) * 80 + 3 * g)
  let needed := ((l : Int) - sl - 36) * 80 + 39 * gh
  ceilPos (release * gh - needed * g) (3 * g * gh)

/-- The wait u of R229 in CCLK: ingress port of `gi`, egress port of `ge` Gb/s, ingress MTU `m`. -/
def runWait (gi ge m : Nat) : Nat :=
  if gi < ge ∧ gi ≠ 0 then ceilPos ((m * 80 * (ge - gi) : Nat) : Int) (3 * gi * ge) + 8 else 0

/-- CCLK that the egress MAC waits behind the egress reference point before it starts a frame (R177, R229): a decrypted frame
whose tail is withheld when it enters the Cask, or one that flows through in clear, at an egress port faster than its ingress
port (R229 gives the formula for class 7 in the encrypt direction; a frame in clear that flows the other way takes it too,
DEDUCED). -/
def egressWait (s : State) (p : Nat) (f : QFrame) : Nat :=
  let gi := speedGb (portSpeed s f.inPort)
  let ge := speedGb (portSpeed s p)
  if f.tag ≠ 0 then tailWait gi ge f.tag (if gi < ge then psMtu (getPort s f.inPort).setting else 80 + f.tag)
  else if f.flow then runWait gi ge (psMtu (getPort s f.inPort).setting) else 0

/-- The first root cycle at which the first bit of a frame can cross the balls: the transmit latency of R81, with its spread
of 0.4 ns, behind the egress reference point and the wait. -/
def firstStart (s : State) (p : Nat) (f : TxFrame) : Nat := f.egress + 3 * egressWait s p f.frame + (portLatency s p).2 - 4

/-- The frame of a lane that starts or goes on next: the oldest one, an express frame ahead of preemptable ones where
preemption is in use (R182). -/
def nextOut (s : State) (p : Nat) : Option TxFrame :=
  let l := (txFrames (getTx s p)).filter (fun f => f.wire.isNone)
  match l.find? (fun f => preemptOn s p && decide (6 ≤ f.frame.cls)) with
  | some f => some f
  | none => l.head?

/-- Whether the wire is free for a frame: no pause frame is on it or waits for it, which would go first (R232), and nothing
else is on it, or a frame that the express frame preempts. -/
def wireFree (s : State) (p : Nat) (f : TxFrame) : Bool :=
  (getPort s p).pauses.isEmpty && match onWire (getTx s p) with
    | some g => decide (6 ≤ f.frame.cls) && cuttable s p g
    | none => true

/-- Whether the next frame of port `p` starts now; one that its port cannot send is discarded at any time (R54). -/
def startsNow (s : State) (p : Nat) : Bool :=
  match nextOut s p with
  | some f =>
    !portSends s p ||
      (f.due.isNone && mayStart s p f && wireFree s p f && (f.commit.isSome || decide (firstStart s p f ≤ s.clk.root)))
  | none => false

/-- A probe's T1 is kept as it is sent (R302). -/
def probeSent (f : QFrame) (stamp : Nat) (s : State) : State :=
  match f.origin with
  | .probe id =>
    let s := bump 14 0 70 48 1 s
    match tabFind s.timeFn.probes id with
    | some q => { s with timeFn := { s.timeFn with probes := tabPut s.timeFn.probes id { q with t1 := stamp } } }
    | none => s
  | _ => s

/-- A frame at the commit point: its egress stamp, and the fields written under the settings of now (R281, R286). -/
def commitFrame (s : State) (p : Nat) (f : TxFrame) : Commit :=
  let w := wireBody s p f (stampNow s)
  { stamp := stampNow s, body := w.1, ins := w.2, txq := tsTxq s p }

/-- A frame begins on the wire of port `p`; a preempted one goes on under the stamp it has (R281, R287). A frame on the wire
that it preempts is cut (R182). What the read of its cells found is in `read` (R220). -/
def startFrame (p : Nat) (f : TxFrame) (read : CellRead) (s : State) : State :=
  let s := setTx s p (mapLane (cutFrame s p) (getTx s p))
  let r := readCells f.frame.chain read s
  let s := r.2
  let f := if r.1 then hurtLeaving f else f
  let w := some (s.clk.root, s.clk.root + octTime s p (wireLen f - f.sent))
  match f.commit with
  | some _ => setTxFrame p { f with wire := w } s
  | none =>
    let m := commitFrame s p f
    probeSent f.frame m.stamp (setTxFrame p { f with wire := w, commit := some m } s)

/-- A granted frame that its port cannot send is discarded and counted; its packet number stays consumed (R54, R209). -/
def discardFrame (p : Nat) (f : TxFrame) (s : State) : State :=
  let s := laneLost p f (bump 1 p 7 48 1 s)
  match f.frame.channel with
  | some c => releaseSlot c f.slot s
  | none => s

end Sys2Proof.Machine
end

