-- ==== Sys2Proof/Machine/Traffic.lean ====
section
/-! DEFINITION. The commands that bring frames and meet them: arrivals (R82, R83), fills, checks and proofing, selection and
transmission, and the events of the Cask and of the cipher's slices; and what a command that meets frames finds done by its
time. -/

namespace Sys2Proof.Machine

/-! ### What time alone brings about -/

/-- The frames of a port whose assignment edge is at or before root cycle `e` are assigned, in order (R171, R198). -/
def settleTx (e p : Nat) (s : State) : State :=
  ((txFrames (getTx s p)).filterMap (fun f => f.due.map (fun d => (d.1, f.granted)))).foldl (fun s d =>
    if d.1 ≤ e then atRoot d.1 (assignAt p d.2) s else s) s

/-- The received frames whose cycle 4 is at or before root cycle `e` meet their channels, in order (R172, R212). -/
def settleRx (e : Nat) (s : State) : State :=
  let due := s.cipher.waiting.filter (fun k => decide (k.since ≤ e))
  due.foldl (fun s k => atRoot k.since (rxChannel k.channel k) s)
    { s with cipher := { s.cipher with waiting := s.cipher.waiting.filter (fun k => decide (e < k.since)) } }

/-- The frames of the cipher lanes as root cycle `e` leaves them. -/
def settleLanes (e : Nat) (s : State) : State :=
  settleRx e ((s.cipher.tx.map (·.1)).foldl (fun s p => settleTx e p s) s)

/-- What time alone has brought about in the Cask, in the lanes and on the wires by now: provisional charges reduced, complete
frames queued, packet numbers assigned, received frames judged, cells read, frames gone. A command that meets frames or charges
finds it done. -/
def settle (s : State) : State :=
  let s := settleLanes s.clk.root (settleArriving (settleCharges s))
  (portsHere s).foldl (fun s p => settleCells p (settleWire p (settleControl p s))) s

/-- The state as it is read at the CCLK edge of now (R10, R346): what time alone brings about before that edge's cycle is
done; what it brings about in the cycle of the read is not, and joins what a clear leaves. -/
def settleBefore (s : State) : State :=
  { settle { s with clk := { s.clk with root := min s.clk.root (cclkEdge s - 3) } } with clk := s.clk }

/-- A hardware event that meets frames or charges. -/
def frameEvent (t : Nat) (guard : State → Bool) (eff : State → State) (s : State) : State :=
  let s := settle (comeTo t s)
  if guard s then eff s else s

/-! ### Frames that arrive -/

/-- HOST_FRAME_RECEIVE (R82, R83): its time is the frame's ingress reference point. -/
def execHostFrameReceive (t p : Nat) (l : Bytes) (rx : MacRx) (s : State) :
    Host.Outcome State Fault Refusal :=
  .next (frameEvent t (fun _ => decide (p / 32 = 1))
    (fun s =>
      let s := countSeen p rx.mark rx.seen s
      if receives s p then clearFrame p l rx.mark s else s) s)

/-- LINE_FRAME_RECEIVE (R82, R83, R97 to R108, R212): its time is the frame's ingress reference point. -/
def execLineFrameReceive (t p : Nat) (l : Bytes) (rx : MacRx) (s : State) :
    Host.Outcome State Fault Refusal :=
  .next (frameEvent t (fun _ => isLine p)
    (fun s =>
      let s := countSeen p rx.mark rx.seen s
      if receives s p then lineFrame p l rx.mark (rxInterrupt p l.length s) else s) s)

/-- SPILL_READ_COMPLETE (R103): in order for each key; a read that completes at 10 µs is in time. -/
def execSpillReadComplete (t i : Nat) (s : State) : Host.Outcome State Fault Refusal :=
  .next (frameEvent t
    (fun s => firstOfKey s i && match s.cls.spillPath[i]? with
      | some k => decide (s.clk.root ≤ k.since + 10 * usec)
      | none => false)
    (fun s =>
      match s.cls.spillPath[i]? with
      | some k =>
        let s := syncFlush { s with cls := { s.cls with spillPath := s.cls.spillPath.eraseIdx i } }
        let v := lookupView s
        let set := peerSet s k.port k.sci
        match findWay v 16 set k.port k.sci with
        | some w => match peerAt v set w with
          | some p => meetPeer rxChannel p k s
          | none => s
        | none => unknownSci false k s
      | none => s) s)

/-- SPILL_TIMEOUT (R103). -/
def execSpillTimeout (t i : Nat) (s : State) : Host.Outcome State Fault Refusal :=
  .next (event t
    (fun s => match s.cls.spillPath[i]? with
      | some k => expired s (k.since + 10 * usec)
      | none => false)
    (fun s =>
      match s.cls.spillPath[i]? with
      | some k => bumpCls k.port 8 1 { s with cls := { s.cls with spillPath := s.cls.spillPath.eraseIdx i } }
      | none => s) s)

/-- ICV_CHECK (R175, R176, R178, R213): the oldest frame of the lane whose check is due. -/
def execIcvCheck (t p : Nat) (s : State) : Host.Outcome State Fault Refusal :=
  .next (frameEvent t (fun s => (dueCheck s (getRx s p) s.clk.root).isSome)
    (fun s => match dueCheck s (getRx s p) s.clk.root with
      | some f => checkRx p f s
      | none => s) s)

/-! ### Fills and write-backs -/

/-- FILL_COMPLETE (R133, R135 to R137): at 50 µs it is in time; a fill that the Memory Guard refuses goes on to its
timeout. Where an instruction has ended the fill, the frames that wait for it leave the miss buffer (log entry 122). -/
def execFillComplete (t c : Nat) (res : MemRes) (s : State) : Host.Outcome State Fault Refusal :=
  .next (frameEvent t
    (fun s => match lineOf s c .filling with
      | some i => match tabFind s.assoc.lines i with
        | some l => decide (s.clk.root ≤ l.since + 50 * usec)
        | none => false
      | none => filledMeanwhile s c)
    (fun s => match lineOf s c .filling with
      | some i =>
        let q := fillAnswer c res s
        if q.1 = stOk then issueFills (drainMiss c (rxChannel c) (makeResident c i q.2))
        else if fillLost q.1 then freeLine i (drainMiss c (fun _ s => countCh c 10 1 s) (setCold c q.1 q.2))
        else q.2
      | none => issueFills (drainMiss c (rxChannel c) s)) s)

/-- FILL_TIMEOUT (R136). -/
def execFillTimeout (t c : Nat) (s : State) : Host.Outcome State Fault Refusal :=
  .next (frameEvent t
    (fun s => match lineOf s c .filling with
      | some i => match tabFind s.assoc.lines i with
        | some l => expired s (l.since + 50 * usec)
        | none => false
      | none => false)
    (fun s => match lineOf s c .filling with
      | some i =>
        let s := freeLine i (drainMiss c (fun _ s => countCh c 11 1 s) (dropWaiting c s))
        let s := raise 0x3005 c 0 s
        match (getChan s c).pinning with
        | some q => complete 0x3007 q stTimeout 0 0 (setChan s c { getChan s c with pinning := none })
        | none => s
      | none => s) s)

/-- CACHE_EVICT (R132, R139): fewer than 32 lines are free. -/
def execCacheEvict (t : Nat) (s : State) : Host.Outcome State Fault Refusal :=
  .next (frameEvent t (fun s => decide (freeLines s < 32))
    (fun s =>
      let r := turnClock (2 * cacheLines + 1) s
      match r.2 with
      | some i => evictLine i r.1
      | none => r.1) s)

/-- WRITE_BACK_COMPLETE (R139, R140). -/
def execWriteBackComplete (t c : Nat) (res : MemRes) (s : State) : Host.Outcome State Fault Refusal :=
  .next (frameEvent t (fun s => (lineOf s c .writeBack).isSome)
    (fun s =>
      match lineOf s c .writeBack with
      | some i => backDone i c res s
      | none => s) s)

/-! ### Proofing and associations -/

/-- PROOF_REFILL (R141, R163). -/
def execProofRefill (t a g : Nat) (s : State) : Host.Outcome State Fault Refusal :=
  .next (frameEvent t (fun s => !(tabGet [] (getArray s a).refills g).isEmpty)
    (fun s =>
      match tabGet [] (getArray s a).refills g with
      | r :: q =>
        let s := setArray s a { getArray s a with refills := tabSet [] (getArray s a).refills g q }
        checkPin r.channel (bumpArray a (if r.cls7 then 8 else 9) 1 (fillSlot r.channel r.idx s))
      | [] => s) s)

/-- RETIRE_TIME_REACHED (R205): a frame whose cycle 4 falls on the same edge has been judged first (R41). -/
def execRetireTimeReached (t c an : Nat) (s : State) : Host.Outcome State Fault Refusal :=
  .next (frameEvent t
    (fun s =>
      let u := getSub (getChan s c) an
      decide (u.state = .draining) && timeReached s.clk.tod (rollTime u))
    (retireDraining c an) s)

/-- ROLL_STRADDLE_WINDOW (R166): from 2 µs before the time of an armed roll one slot covers the successor. -/
def execRollStraddleWindow (t c : Nat) (s : State) : Host.Outcome State Fault Refusal :=
  .next (frameEvent t
    (fun s =>
      let h := getChan s c
      h.pinned && match armedAn h with
        | some n =>
          let u := getSub h n
          u.rollMode == 2 && decide (rollTime u ≤ s.clk.tod + nsUnits 2000)
        | none => false)
    (syncSlots c) s)

/-! ### Slice faults (R184, R185, R189) -/

/-- The frames that the encrypt lanes of a group work on are paced by the slots it has left; what overruns is stomped (R189). -/
def slowTx (p : Nat) (s : State) : State :=
  match (getTx s p).active with
  | some f =>
    if f.frame.channel.isSome && f.due.isNone then
      let n := laneOctets s p f
      let r := checkOverrun p (wireLen f - n) { f with laneDone := n, laneFrom := max f.laneFrom s.clk.root } s
      setTxFrame p (pace r.2 p r.1) r.2
    else s
  | none => s

/-- The same for a decrypt lane. -/
def slowRx (p : Nat) (s : State) : State :=
  match (getRx s p).active with
  | some f =>
    let n := f.octets.length - arrivedSoFar s f
    if rxOverruns s p n ((n + 15) / 16) then
      bumpArray 1 11 1 (setRx s p (rxChange f.num (fun f => { f with mark := .uncorrectable }) (getRx s p)))
    else s
  | none => s

/-- A group of an array that works on fewer than four positions holds back the frames in its lanes (R189). -/
def groupSlows (k g : Nat) (s : State) : State :=
  if positionLost (getArray s k) g then
    (List.range 8).foldl (fun s i => if k = 0 then slowTx (8 * g + i) s else slowRx (8 * g + i) s) s
  else s

/-- SLICE_FAULT (R184, R185, R189). How many blocks and products are in the slice's pipeline, at most 8 of each, and how
many frames wait for them are free values. -/
def execSliceFault (t k pos : Nat) (gh : Bool) (s : State) : Host.Outcome State Fault Refusal :=
  .next (frameEvent t (fun s => (sliceIn (getArray s k) (.position pos)).isSome)
    (fun s =>
      match sliceIn (getArray s k) (.position pos) with
      | some bad =>
        let had := sparesLeft (getArray s k)
        let s := bumpArray k 4 1 (bumpArray k (if gh then 1 else 0) 1 (setArray s k (placeSpare (getArray s k) pos bad)))
        let d := draw s
        let n := d.1 % 17
        let e := draw d.2
        let s := bumpArray k 3 (e.1 % (n + 1)) (bumpArray k 2 n e.2)
        let s := raiseEv { code := 0x3010, obj := k, aux := bad } s
        let s := if had then checkSpares k s else s
        groupSlows k (pos / 4) s
      | none => s) s)

/-! ### Frames that leave -/

/-- EGRESS_SELECT (R240 to R243): at most one decision each CCLK. Its time is the edge of the selection, cycle 5 of R171. -/
def execEgressSelect (t p : Nat) (s : State) : Host.Outcome State Fault Refusal :=
  .next (frameEvent t
    (fun s => decide (p < 64) && match (getPort s p).decisionAt with
      | some d => decide (d / 3 < s.clk.root / 3)
      | none => true)
    (fun s => if portSends s p then decision p s else flushPort p s) s)

/-- FRAME_TRANSMIT (R54, R171, R177, R181, R182, R229, R281): its time is that of the first bit of the next frame, or fragment,
at the balls of the port. -/
def execFrameTransmit (t : Nat) (x : EgressPort) (s : State) : Host.Outcome State Fault Refusal :=
  .next (frameEvent t (fun s => startsNow s x.port)
    (fun s => match nextOut s x.port with
      | some f => if portSends s x.port then startFrame x.port f x.read s else discardFrame x.port f s
      | none => s) s)

/-! ### The Cask's own events -/

/-- PAUSE_REFRESH (R232): under PAUSE the port has one timer for all its classes. -/
def execPauseRefresh (t p c : Nat) (s : State) : Host.Outcome State Fault Refusal :=
  .next (frameEvent t
    (fun s =>
      let o := getPort s p
      let pfc := decide (psFc o.setting = 2)
      psPgen o.setting && decide (c < 6) && nb o.xoff (if pfc then c else 6) &&
        (if pfc then decide (xonOf s p < classCharge s p c) else !allBelowXon s p) &&
        decide (tabGet 0 o.xoffAt (if pfc then c else 6) + halfPause s p ≤ s.clk.root))
    (fun s =>
      let o := getPort s p
      let key := if psFc o.setting = 2 then c else 6
      sendPause p (pauseVector s p c) 65535 (setPort s p { o with xoffAt := tabSet 0 o.xoffAt key s.clk.root })) s)

/-- AGE_CHECK (R236): every 1 ms, at the KCLK edge before its row. -/
def execAgeCheck (t : Nat) (s : State) : Host.Outcome State Fault Refusal :=
  .next (frameEvent t (fun s => decide (s.cask.ageAt + msec ≤ s.clk.root))
    (fun s =>
      let s := { s with cask := { s.cask with ageAt := s.clk.root } }
      (s.cask.queues.map (·.1)).foldl (fun s k => ageQueue (k / 8) (k % 8) s) s) s)

/-- CASK_SCRUB (R220 to R223), at the KCLK edge before its row, so that traffic of the same edge comes first: the codewords between the last one and this one were clean; a codeword behind the last
one belongs to the next pass. -/
def execCaskScrub (t cell cw : Nat) (res : ScrubRes) (s : State) : Host.Outcome State Fault Refusal :=
  .next (frameEvent t (fun _ => decide (cell < 524288 ∧ cw < 4))
    (fun s =>
      let n := cell * 4 + cw
      let s := if n < s.cask.scrubNext then endPass s else s
      scrubbed n (scrubCell (Config.cellPlace cell % 524288) cw res s)) s)

end Sys2Proof.Machine
end

