-- ==== Sys2Proof/Machine/Counters.lean ====
section
/-! DEFINITION. Counter blocks (R346): CNT.READ and CNT.CLEAR. A counter that is only sampled is read from what it
samples and never cleared. -/

namespace Sys2Proof.Machine

/-- Counters in a block of the scope; 0 for the reserved scopes (R346). -/
def cntCount (scope idx : Nat) : Nat :=
  match scope with
  | 0 => 5
  | 1 => 47
  | 2 => 2
  | 3 => if isLine idx then 15 else 6
  | 4 => 1
  | 5 => 3
  | 6 => 2
  | 7 => 16
  | 8 => 30
  | 9 => 38
  | 10 => 12
  | 11 => 44
  | 12 => 7
  | 13 => 4
  | 14 => 75
  | 16 => if idx = 0 then 23 else 6
  | 17 => if idx = 0 then 38 else 13
  | 18 => 30
  | 19 => 27
  | 20 => 20
  | _ => 0

/-- Whether an index is in its scope's range (R346, R382, R449). -/
def cntIndexOk (scope idx : Nat) : Bool :=
  match scope with
  | 0 => decide (idx < 68)
  | 1 | 2 | 3 | 9 | 11 | 13 => decide (idx < 64)
  | 4 => decide (idx < 1024)
  | 6 | 8 | 17 => decide (idx < 2)
  | 7 => decide (idx < 65536)
  | 12 => decide (idx < 2048)
  | 16 => decide (idx < 17)
  | _ => decide (idx = 0)

/-- The role of a slice as CNT.READ returns it (R346). -/
def roleCode : Role → Nat
  | .position n => n
  | .readySpare => 16
  | .testSeat => 17
  | .failed => 18

/-- The major clock of the key ID that region `r` uses, 0 for an undefined region (R449). -/
def regionMajor (s : State) (r : Nat) : Nat :=
  match getRegion s r with
  | some g => ((tabFind s.mg.keys g.keyid).map (·.major)).getD 0
  | none => 0

/-- What a place of a block samples, none for a counter proper: charges and free cells (R238), roles (R189), the tree
clock and major clocks (R449), domain counters (R382), the Trellis values (R509). -/
def cntSampled (s : State) (scope idx k : Nat) : Option Nat :=
  match scope with
  | 8 => if 12 ≤ k then some (roleCode (sliceRole (getArray s idx) (k - 12))) else none
  | 9 =>
    if k < 6 then some (classCharge s idx k)
    else if k = 24 ∨ k = 25 then some (classCharge s idx (k - 18))
    else none
  | 10 => if k = 4 then some s.cask.free else none
  | 16 =>
    if idx = 0 then (if k = 0 then some s.mg.treeClock else none)
    else if k = 5 then some (regionMajor s (idx - 1)) else none
  | 17 => if idx = 0 ∧ k < 16 then some (graftCounter s k) else none
  | 19 =>
    if k < 16 then
      let p := getTPort s (k / 8)
      match k % 8 with
      | 0 => some p.mode
      | 1 => some ((p.peer.map (·.node)).getD 0x3F)
      | 2 => some p.delay
      | _ => none
    else if k = 16 then some ((s.trellis.offset % (2 : Int) ^ 64).toNat) else none
  | _ => none

/-- What a highest-seen value starts from after a clear: the charge as it stands; place 5 of scope 10 holds the most
cells in use (R238). -/
def cntStart (s : State) (scope idx k : Nat) : Nat :=
  match scope with
  | 9 =>
    if 6 ≤ k ∧ k < 12 then classCharge s idx (k - 6)
    else if k = 26 ∨ k = 27 then classCharge s idx (k - 20)
    else 0
  | 10 => if k = 5 then 482304 - s.cask.free else 0
  | _ => 0

/-- A statistics counter of a channel: the DRAM counter and the delta of a resident entry together; place 15 of a transmit
channel reads zero (R129, R130). -/
def chanCount (s : State) (c k : Nat) : Nat :=
  if k = 15 ∧ hRx (getChan s c).header = false then 0
  else min (2 ^ 64 - 1) (getCnt s 7 c k + tabGet 0 s.assoc.deltas (deltaKey c k))

/-- Whether a place of a port's block is the FEC symbol counter of a lane beyond the port's width, which reads zero (R346). -/
def fecBeyond (s : State) (p k : Nat) : Bool := decide (38 + psLanes (getPort s p).setting ≤ k ∧ k < 46)

/-- The value of a place of a block. -/
def cntValue (s : State) (scope idx k : Nat) : Nat :=
  match cntSampled s scope idx k with
  | some v => v
  | none =>
    if scope = 10 ∧ k = 5 then 482304 - getCnt s 10 0 5
    else if scope = 7 then chanCount s idx k
    else if scope = 1 ∧ fecBeyond s idx k then 0
    else getCnt s scope idx k

/-- The counters of a block are cleared, sampled ones never (R346). -/
def clearPlace (scope idx k : Nat) (s : State) : State :=
  match cntSampled s scope idx k with
  | some _ => s
  | none =>
    let s := if scope = 7 then
        { s with assoc := { s.assoc with deltas := tabDel s.assoc.deltas (deltaKey idx k) } } else s
    setCnt s scope idx k (cntStart s scope idx k)

/-- The repeat record that a clear ends: R31, R169, R251. -/
def clearCloses (scope idx : Nat) (s : State) : State :=
  match scope with
  | 2 => closeRec 0x3013 idx s
  | 7 => closeRec 0x300F idx s
  | 12 => closeRec 0x4007 idx s
  | _ => s

/-- A whole block is cleared at one edge. -/
def clearBlock (scope idx : Nat) (s : State) : State :=
  clearCloses scope idx ((List.range (cntCount scope idx)).foldl (fun s k => clearPlace scope idx k s) s)

/-- A block as CNT.READ copies it: eight octets a counter. The division of the cells is in no block (log entry 121). -/
def cntBlock (s : State) (scope idx : Nat) : Bytes :=
  (List.range (cntCount scope idx)).flatMap (fun k => beBytes 8 (cntValue s scope idx k))

/-- Whether a scope is one of the reserved ones. -/
def scopeReserved (scope : Nat) : Bool := scope == 15 || decide (21 ≤ scope)

/-- The checks of scope and index (R346). -/
def cntChecks (e : Env) : List Check :=
  [highA e 5, (scopeReserved e.a, stReserved), (!cntIndexOk e.a e.b, stRange)]

/-- CNT.READ; the deltas of a channel are folded into its DRAM counters (R130). -/
def cntReadCmd : Cmd where
  op := 0x48
  xm := 1
  fmt := fun e _ => cntChecks e ++ ptrChecks e.k true 16 e.imm (8 * cntCount e.a e.b)
  eff := fun e s =>
    let s := settleBefore s
    let s := if e.a = 7 then foldDeltas e.b s else s
    let s' := storeMem s e.imm (cntBlock s e.a e.b)
    { s := if e.x = 1 then clearBlock e.a e.b s' else s' }

/-- CNT.READ (R346, R70). -/
def execCntRead (w : IWord) (s : State) : Host.Outcome State Fault Refusal := .next (runCmd cntReadCmd w s)

/-- CNT.CLEAR. -/
def cntClearCmd : Cmd where
  op := 0x49
  fmt := fun e _ => cntChecks e ++ [zeroI e]
  eff := fun e s => { s := clearBlock e.a e.b (settleBefore s) }

/-- CNT.CLEAR (R346). -/
def execCntClear (w : IWord) (s : State) : Host.Outcome State Fault Refusal := .next (runCmd cntClearCmd w s)

end Sys2Proof.Machine
end

