-- ==== Sys2Proof/Machine/Time.lean ====
section
/-! DEFINITION. Network time and triggers (09_network_time.md): increments, steps, captures, trigger outputs, probes and
stamp queues. Time values are in units of 2^-32 ns. -/

namespace Sys2Proof.Machine

/-- The state at the TCLK edge at which the instruction acts: the first one at or after the CCLK edge at which it takes effect
(R339, R571). -/
def atTick (s : State) : State := advance (edgeAt 10 (cclkEdge s)) s

/-! ### The increment (R274, R275) -/

/-- TIME.INCR. -/
def timeIncrCmd : Cmd where
  op := 0x62
  fmt := fun e _ => [zeroA e, highI e 36, (decide (e.imm % 2 ^ 36 < 0x0F0000000 ∨ 0x110000000 < e.imm % 2 ^ 36), stRange)]
  eff := fun e s =>
    let s := atTick s
    let c := if e.b = 0 then { s.clk with incr := e.imm } else { s.clk with temp := some (e.imm, e.b) }
    { s := { s with clk := c } }

/-- TIME.INCR (R274, R275). -/
def execTimeIncr (w : IWord) (s : State) : Host.Outcome State Fault Refusal := .next (runCmd timeIncrCmd w s)

/-- TEMPORARY_INCREMENT_END (R275): the clock comes to `t`; a temporary increment whose edges are used up is over, and the
permanent one applies. -/
def execTemporaryIncrementEnd (t : Nat) (s : State) : Host.Outcome State Fault Refusal :=
  .next (event t (fun _ => true) (fun s => s) s)

/-! ### Trigger outputs (R294 to R298) -/

/-- A trigger output. -/
def getTrig (s : State) (o : Nat) : Trigger := tabGet {} s.timeFn.outputs o
/-- Writes a trigger output. -/
def setTrig (s : State) (o : Nat) (v : Trigger) : State :=
  { s with timeFn := { s.timeFn with outputs := tabSet {} s.timeFn.outputs o v } }

/-- The smallest number of steps of `p` that reaches `n`. -/
def ceilDiv (n p : Nat) : Nat := (n + p - 1) / p

/-- Pulses that ALIGN schedules in a second (R296). -/
def perSecond (a : Trigger) : Nat := ceilDiv (secUnits - a.start % secUnits) (max 1 a.period)

/-- The network time at which pulse `k` is scheduled (R296). -/
def pulseTime (a : Trigger) (k : Nat) : Nat :=
  if a.mode ≠ 2 then a.start
  else if a.align then
    (a.start / secUnits + k / perSecond a) * secUnits + a.start % secUnits + k % perSecond a * a.period
  else a.start + k * a.period

/-- Pulses the descriptor asks for, none for a train without end. -/
def pulseLimit (a : Trigger) : Option Nat :=
  if a.mode = 2 then (if a.count = 0 then none else some a.count) else if a.mode = 0 then some 0 else some 1

/-- Whether the descriptor has no pulse left. -/
def trigDone (a : Trigger) : Bool := match pulseLimit a with | some n => decide (n ≤ a.k) | none => false

/-- Train pulses scheduled before a network time (R295, R298). -/
def pulsesBefore (a : Trigger) (x : Nat) : Nat :=
  if x ≤ a.start then 0
  else if a.align then
    (x / secUnits - a.start / secUnits) * perSecond a +
      min (perSecond a) (ceilDiv (x % secUnits - a.start % secUnits) (max 1 a.period))
  else ceilDiv (x - a.start) (max 1 a.period)

/-- A pulse count held to what the descriptor asks for. -/
def heldTo (a : Trigger) (n : Nat) : Nat := match pulseLimit a with | some m => min m n | none => n

/-- The level of an output changes; the edge has a network time (R296). -/
def driveLevel (o : Nat) (v : Bool) (time : Nat) (s : State) : State :=
  let a := getTrig s o
  if a.out = v then s else emit (.edge o v time) (setTrig s o { a with out := v })

/-- Pulses of a descriptor are late or skipped: place 51 skipped, 60 late; each raises an event (R298). -/
def missPulses (o place n : Nat) (s : State) : State :=
  raiseEv { code := 0x5007, obj := o, more := n - 1 } (bump 14 0 (place + o) 48 n s)

/-- The descriptor has come to its end (R296). -/
def trigComplete (o : Nat) (s : State) : State := raise 0x5006 o 0 s

/-- The next pulse or level change of an output begins at network time `time` (R296), or is skipped where an older pulse
still runs (R297). -/
def beginPulse (o time : Nat) (s : State) : State :=
  let a := getTrig s o
  let b := { a with k := a.k + 1 }
  if (match a.endAt with | some e => decide (s.clk.root < e) | none => false) then
    let s := missPulses o 51 1 (setTrig s o b)
    if trigDone b then trigComplete o s else s
  else
    let s := bump 14 0 (42 + o) 48 1 s
    if a.mode = 3 then trigComplete o (driveLevel o a.level time (setTrig s o { b with endAt := none }))
    else
      driveLevel o (!a.idle) time
        (setTrig s o { b with endAt := some (s.clk.root + 10 * a.width), last := trigDone b
                              skew := (time : Int) - (exactNow s : Int) })

/-- The first step of 125 ps at or after a time. -/
def stepOf125 (x : Nat) : Nat := ceilDiv x (2 ^ 29) * 2 ^ 29

/-- The network time of a pulse's other edge: WIDTH TCLK cycles behind the first one (R296). -/
def fallTime (s : State) (a : Trigger) : Nat :=
  let back := (s.clk.root - a.endAt.getD s.clk.root) * currentIncr s.clk / 10
  stepOf125 (((exactNow s : Int) - (back : Int) + a.skew) % (todWrap : Int)).toNat

/-- The pulse in progress ends (R296, R297). -/
def endPulse (o : Nat) (s : State) : State :=
  let a := getTrig s o
  let s := driveLevel o a.idle (fallTime s a) (setTrig s o { a with endAt := none, last := false })
  if a.last then trigComplete o s else s

/-- Whether the pulse in progress is over. -/
def fallDue (s : State) (o : Nat) : Bool :=
  match (getTrig s o).endAt with | some e => decide (e ≤ s.clk.root) | none => false

/-- Whether the next pulse is due. -/
def riseDue (s : State) (o : Nat) : Bool :=
  !trigDone (getTrig s o) && decide (pulseTime (getTrig s o) (getTrig s o).k ≤ exactNow s)

/-- The edge that is due at an output is driven: the end of a pulse before the start of the next. -/
def driveDue (o : Nat) (s : State) : State :=
  if fallDue s o then endPulse o s
  else if riseDue s o then beginPulse o (stepOf125 (pulseTime (getTrig s o) (getTrig s o).k)) s
  else s

/-- TRIGGER_PULSE (R296). -/
def execTriggerPulse (t o : Nat) (s : State) : Host.Outcome State Fault Refusal :=
  .next (event t (fun s => fallDue s o || riseDue s o) (driveDue o) s)

/-- An output after a step of network time (R298): passed train pulses are skipped, a passed single pulse or level change
occurs at the step's edge. -/
def trigStep (before o : Nat) (s : State) : State :=
  let a := getTrig s o
  let now := s.clk.tod
  if now ≤ before ∨ trigDone a then s
  else if a.mode = 2 then
    let n := heldTo a (pulsesBefore a now)
    if n ≤ a.k then s
    else
      let b := { a with k := n }
      let s := missPulses o 51 (n - a.k) (setTrig s o b)
      if trigDone b then trigComplete o s else s
  else if a.start < now then beginPulse o (stepOf125 now) (missPulses o 60 1 s)
  else s

/-! ### Steps (R277 to R279) -/

/-- Every user of network time after a step or a wrap: triggers (R298) and gates (R265). -/
def stepUsers (before : Nat) (s : State) : State :=
  (List.range 64).foldl (fun s p => gateStep p s) ((List.range 9).foldl (fun s o => trigStep before o s) s)

/-- A step to a time: it is counted and raises its event with the time before (R279). -/
def stepTime (new : Nat) (s : State) : State :=
  let before := s.clk.tod
  let s := { s with clk := { s.clk with
    tod := new % todWrap, wrapped := s.clk.wrapped || decide (todWrap ≤ new)
    jumps := (s.clk.root, (new : Int) - (before : Int)) ::
      s.clk.jumps.filter (fun j => decide (s.clk.root < j.1 + 20000)) } }
  stepUsers before
    (raise 0x5002 (todForm before / 2 ^ 64) (todForm before % 2 ^ 64) (bump 14 0 69 48 1 s))

/-- The TIME.SET descriptor. -/
def timeDesc (e : Env) (s : State) : Nat := beNat (readMem s e.imm 16)

/-- The checks of TIME.SET that need no state beyond its descriptor. -/
def timeSetFmt (e : Env) (s : State) : List Check :=
  [zeroA e, zeroB e] ++ ptrChecks e.k false 16 e.imm 16 ++
    if ptrOk e.k false 16 e.imm 16 then
      [(decide (timeDesc e s % 2 ^ 31 ≠ 0), stReserved)] ++ todFormChecks (timeDesc e s / 2 ^ 32) else []

/-- TIME.SET and TIME.ADJ wait for nothing: a pending set makes them busy (R277). -/
def timeBusy (s : State) : Check := (s.clk.ppsSet.isSome, stBusy)

/-- TIME.SET with ATPPS = 0. -/
def timeSetCmd : Cmd where
  op := 0x60
  fmt := timeSetFmt
  own := fun _ s => [timeBusy s]
  eff := fun e s => { s := stepTime (todOfForm (timeDesc e s / 2 ^ 32)) (atTick s) }

/-- TIME_SET (R277): no increment is added at the edge, the fraction below FRAC is cleared. -/
def execTimeSet (w : IWord) (s : State) : Host.Outcome State Fault Refusal := .next (runCmd timeSetCmd w s)

/-- A capture pin. -/
def getPin (s : State) (i : Nat) : Pin := tabGet {} s.timeFn.pins i
/-- Writes a capture pin. -/
def setPin (s : State) (i : Nat) (v : Pin) : State :=
  { s with timeFn := { s.timeFn with pins := tabSet {} s.timeFn.pins i v } }

/-- EN of a pin setting (R292). -/
def pinEn (v : Nat) : Bool := nb v 63
/-- EDGE. -/
def pinEdge (v : Nat) : Nat := nf v 62 61
/-- EVT. -/
def pinEvt (v : Nat) : Bool := nb v 60
/-- FILT. -/
def pinFilt (v : Nat) : Nat := nf v 59 52

/-- Whether a setting selects a polarity. -/
def selects (v : Nat) (rising : Bool) : Bool := if rising then nb (pinEdge v) 0 else nb (pinEdge v) 1

/-- Whether PPS_IN is enabled for one edge only (R277). -/
def ppsOneEdge (s : State) : Bool :=
  pinEn (getPin s 8).setting && (pinEdge (getPin s 8).setting == 1 || pinEdge (getPin s 8).setting == 2)

/-- TIME.SET with ATPPS = 1. -/
def timeSetAtPpsCmd : Cmd where
  op := 0x60
  fmt := fun e s => timeSetFmt e s ++ [(!ppsOneEdge s, stRange)]
  own := fun _ s => [timeBusy s]
  eff := fun e s =>
    { s := { s with clk := { s.clk with
        ppsSet := some ⟨todOfForm (timeDesc e s / 2 ^ 32), s.clk.root + 2000 * msec, e.cseq⟩ } }
      st := stPending
      event := some 0x5003 }

/-- TIME_SET_AT_PPS (R277). -/
def execTimeSetAtPps (w : IWord) (s : State) : Host.Outcome State Fault Refusal := .next (runCmd timeSetAtPpsCmd w s)

/-- The time that TIME.ADJ makes of the edge's time (R278). -/
def adjusted (e : Env) (s : State) : Int := (s.clk.tod : Int) + signed 64 e.imm * (2 : Int) ^ 16

/-- TIME.ADJ. -/
def timeAdjCmd : Cmd where
  op := 0x61
  fmt := fun e s =>
    [zeroA e, zeroB e, (decide (1000 * 1000000000 * 2 ^ 16 ≤ (signed 64 e.imm).natAbs), stRange),
     (decide (adjusted e (atTick s) < 0), stRange)]
  own := fun _ s => [timeBusy s]
  eff := fun e s => { s := stepTime (adjusted e (atTick s)).toNat (atTick s) }

/-- TIME.ADJ (R278). -/
def execTimeAdj (w : IWord) (s : State) : Host.Outcome State Fault Refusal := .next (runCmd timeAdjCmd w s)

/-- SECONDS_WRAP (R273, R570): the wrap acts as a step backward, with its own event. -/
def execSecondsWrap (t : Nat) (s : State) : Host.Outcome State Fault Refusal :=
  .next (event t (fun s => s.clk.wrapped)
    (fun s => stepUsers (todWrap - 1) (raise 0x5001 0 0 { s with clk := { s.clk with wrapped := false } })) s)

/-! ### Capture inputs (R292, R293) -/

/-- The PCLK edge that confirms an edge at the ball at root cycle `t` (R293). -/
def confirmAt (filt t : Nat) : Nat := edgeAt 40 t + (2 + filt) * 40

/-- Whether the level lasts long enough for the filter: `width` root cycles against FILT × 4 ns. -/
def confirmed (v width : Nat) : Bool := decide (pinFilt v * 40 ≤ width)

/-- PPS_SET_EDGE (R277): the edge at the ball at `t` is confirmed, and TIME becomes the time of the edge itself. -/
def ppsEdge (t : Nat) (s : State) : State :=
  let at_ := exactNow s - (s.clk.root - t) * currentIncr s.clk / 10
  let t := confirmAt (pinFilt (getPin s 8).setting) t
  let s := atTick (comeTo t s)
  match s.clk.ppsSet with
  | none => s
  | some q =>
    complete 0x5003 q.cseq stOk 0 0
      (stepTime (q.time + (s.clk.tod - at_)) { s with clk := { s.clk with ppsSet := none } })

/-- PPS_SET_EDGE (R277): an edge confirmed at the edge of the expiry counts as in time (R41). -/
def execPpsSetEdge (t : Nat) (rising : Bool) (width : Nat) (s : State) : Host.Outcome State Fault Refusal :=
  .next (event t
    (fun s => match s.clk.ppsSet with
      | some q => selects (getPin s 8).setting rising && confirmed (getPin s 8).setting width &&
          decide (confirmAt (pinFilt (getPin s 8).setting) t ≤ q.expiry)
      | none => false)
    (ppsEdge t) s)

/-- PPS_SET_TIMEOUT (R277): the time is unchanged. -/
def execPpsSetTimeout (t : Nat) (s : State) : Host.Outcome State Fault Refusal :=
  .next (event t
    (fun s => match s.clk.ppsSet with | some q => expired s q.expiry | none => false)
    (fun s => match s.clk.ppsSet with
      | some q => complete 0x5004 q.cseq stTimeout 0 0 { s with clk := { s.clk with ppsSet := none } }
      | none => s) s)

/-- A confirmed edge of a selected polarity at pin `i` with the time recorded at the ball (R293). -/
def capture (i time : Nat) (rising : Bool) (s : State) : State :=
  let p := getPin s i
  let n := (p.count + 1) % 2 ^ 16
  let s := setPin s i { p with count := n }
  let s := pushStamp (2 + i) (stampEntry time n 0 (if rising then 3 else 4) false i) s
  if pinEvt p.setting then raise (0x5010 + i) 0 n s else s

/-- CAPTURE_EDGE (R293): the edge stands at the ball at `t` for `width` root cycles; the time recorded is that of the ball. -/
def execCaptureEdge (t i : Nat) (rising : Bool) (width : Nat) (s : State) : Host.Outcome State Fault Refusal :=
  .next (event t (fun s => decide (i < 9) && pinEn (getPin s i).setting)
    (fun s =>
      let v := (getPin s i).setting
      let time := stampAgo s (s.clk.root - t)
      if !confirmed v width then bump 14 0 (33 + i) 48 1 s
      else
        let c := confirmAt (pinFilt v) t
        let s := bump 14 0 (24 + i) 48 1 (advance c (settleSeq c s))
        if selects v rising then capture i time rising s else s) s)

/-- The checks of a port stamp setting (R283). -/
def stampSettingChecks (v : Nat) : List Check :=
  [(decide (v % 2 ^ 59 ≠ 0), stReserved), (decide (nf v 62 61 = 3), stReserved), (nb v 59 && !nb v 63, stRange)]

/-- The checks of a pin capture setting (R292). -/
def pinSettingChecks (v : Nat) : List Check :=
  [(decide (v % 2 ^ 52 ≠ 0), stReserved), (pinEn v && decide (pinEdge v = 0), stRange),
   (decide (pinFilt v < 3), stRange), (!pinEn v && (decide (pinEdge v ≠ 0) || pinEvt v), stRange)]

/-- CAPT.CFG. -/
def captCfgCmd : Cmd where
  op := 0x64
  fmt := fun e _ =>
    [highA e 8, (decide (2 ≤ nf e.a 7 6), stReserved), zeroB e] ++
      (if nf e.a 7 6 = 0 then stampSettingChecks e.imm
       else [(decide (nf e.a 5 4 ≠ 0), stReserved), (decide (9 ≤ e.a % 16), stRange)] ++ pinSettingChecks e.imm)
  eff := fun e s =>
    if nf e.a 7 6 = 0 then { s := setPort s (e.a % 64) { getPort s (e.a % 64) with stamp := e.imm } }
    else { s := setPin s (e.a % 16) { getPin s (e.a % 16) with setting := e.imm } }

/-- CAPT.CFG (R283, R292). -/
def execCaptCfg (w : IWord) (s : State) : Host.Outcome State Fault Refusal := .next (runCmd captCfgCmd w s)

/-! ### TRIG.ARM (R294, R295, R297) -/

/-- The trigger descriptor. -/
def trigDesc (e : Env) (s : State) : Nat := beNat (readMem s e.imm 32)

/-- The descriptor as the output holds it. -/
def trigOf (v : Nat) : Trigger :=
  { mode := nf v 255 253, idle := nb v 252, align := nb v 251, level := nb v 250
    start := nf v 249 202 * secUnits + nf v 201 172 * 2 ^ 32 + nf v 171 169 * 2 ^ 29
    width := nf v 168 137, period := nf v 136 105 * 2 ^ 32 + nf v 104 89 * 2 ^ 16, count := nf v 88 57 }

/-- The checks of R295, `now` the network time of the instruction. -/
def trigChecks (now v : Nat) : List Check :=
  let a := trigOf v
  let one := a.mode = 1 ∨ a.mode = 3
  [(decide (nf v 56 0 ≠ 0), stReserved), (decide (4 ≤ a.mode), stReserved),
   (decide (a.mode = 0 ∧ v ≠ bn a.idle * 2 ^ 252), stRange),
   (decide (1000000000 ≤ nf v 201 172), stRange),
   (decide ((a.mode = 1 ∨ a.mode = 2) ∧ a.width < 4), stRange),
   (decide (a.mode = 2 ∧ (a.period < 20 * 2 ^ 32 ∨ a.period < (a.width + 4) * 2 ^ 32)), stRange),
   (decide (one ∧ (a.period ≠ 0 ∨ a.count ≠ 0)), stRange),
   (decide (a.mode = 3 ∧ a.width ≠ 0), stRange),
   (a.align && decide (a.mode ≠ 2 ∨ secUnits < a.period), stRange),
   (decide (one ∧ a.start < now + 200 * 2 ^ 32), stRange)]

/-- A descriptor is armed: edges due belong to the old one, a pulse in progress completes, train pulses scheduled before
`now` plus 200 ns are past (R295, R297). -/
def armTrig (o v now : Nat) (s : State) : State :=
  let s := driveDue o (driveDue o s)
  let old := getTrig s o
  let a : Trigger := { trigOf v with out := old.out, endAt := old.endAt, last := false, skew := old.skew }
  let a : Trigger := if a.mode = 2 then { a with k := heldTo a (pulsesBefore a (now + 200 * 2 ^ 32)) } else a
  let s := setTrig s o a
  let s := if a.endAt.isNone && decide (a.mode ≠ 3) then driveLevel o a.idle (stampNow s) s else s
  if decide (a.mode = 2) && trigDone a then trigComplete o s else s

/-- TRIG.ARM. -/
def trigArmCmd : Cmd where
  op := 0x63
  fmt := fun e s =>
    [highA e 4, (decide (9 ≤ e.a % 16), stRange), zeroB e] ++ ptrChecks e.k false 32 e.imm 32 ++
      if ptrOk e.k false 32 e.imm 32 then trigChecks (edgeTod s) (trigDesc e s) else []
  eff := fun e s => { s := armTrig e.a (trigDesc e s) (edgeTod s) (atTick s) }

/-- TRIG.ARM (R294, R295, R297). -/
def execTrigArm (w : IWord) (s : State) : Host.Outcome State Fault Refusal := .next (runCmd trigArmCmd w s)

/-! ### Stamp queues (R290, R291) -/

/-- Octets of an entry of a stamp queue. -/
def entrySize (q : Nat) : Nat := if q = 11 then 64 else 16

/-- TS.POP. -/
def tsPopCmd : Cmd where
  op := 0x66
  fmt := fun e _ =>
    let q := e.b % 32
    let n := nf e.b 10 5
    [zeroA e, highB e 11, (decide (11 < q), stRange), (decide (n = 0 ∨ 32 < n), stRange)] ++
      ptrChecks e.k true (entrySize q) e.imm (n * entrySize q)
  eff := fun e s =>
    let q := e.b % 32
    let n := nf e.b 10 5
    let a := tabGet {} s.timeFn.stamps q
    let got := (a.entries.take n).flatMap (beBytes (entrySize q))
    let s := storeMem s e.imm (got ++ List.replicate (n * entrySize q - got.length) 0)
    let s := { s with timeFn := { s.timeFn with
      stamps := tabSet {} s.timeFn.stamps q { a with entries := a.entries.drop n } } }
    { s := if !a.entries.isEmpty && (a.entries.drop n).isEmpty then closeRec 0x5005 q s else s }

/-- TS.POP (R290). -/
def execTsPop (w : IWord) (s : State) : Host.Outcome State Fault Refusal := .next (runCmd tsPopCmd w s)

/-! ### Delay probes (R300 to R302) -/

/-- A descriptor of PROBE.SEND. -/
def probeDesc (e : Env) (s : State) : Nat := beNat (readMem s e.imm 32)

/-- Class and meter checks that both descriptors share (R300). -/
def probeClassChecks (cls : Nat) (meten : Bool) (meter : Nat) : List Check :=
  [(decide (cls ≠ 6 ∧ cls ≠ 7), stRange), (decide (cls = 7) && !meten, stRange), (!meten && decide (meter ≠ 0), stRange)]

/-- The channel checks that both descriptors share (R300). -/
def probeChanChecks (s : State) (tx rx : Nat) : List Check :=
  [(!(present s tx && !hRx (getChan s tx).header), stRange), (!(present s rx && hRx (getChan s rx).header), stRange)]

/-- Operand checks of PROBE.SEND: OP 2 and 3 and B[31:2] are reserved. -/
def probeOpChecks (e : Env) : List Check := [zeroA e, highB e 2, (decide (2 ≤ e.b % 4), stReserved)]

/-- PROBE.SEND with OP 0. -/
def probeSendCmd : Cmd where
  op := 0x65
  fmt := fun e s =>
    let v := probeDesc e s
    probeOpChecks e ++ ptrChecks e.k false 32 e.imm 32 ++
      if ptrOk e.k false 32 e.imm 32 then
        [(decide (v % 2 ^ 81 ≠ 0), stReserved)] ++ probeChanChecks s (nf v 239 224) (nf v 223 208) ++
          probeClassChecks (nf v 207 205) (nb v 204) (nf v 203 193) ++ [(decide (nf v 96 81 = 0), stRange)]
      else []
  own := fun e s =>
    [(tabHas s.timeFn.probes (nf (probeDesc e s) 255 240), stBusy),
     (decide (64 ≤ s.timeFn.probes.length), stNoRoom)]
  eff := fun e s => if !fitsAccount s .management 1 then { s := bump 10 0 10 48 1 s, st := stNoRoom } else
    let v := probeDesc e s
    let id := nf v 255 240
    let p : Probe := ⟨nf v 239 224, nf v 223 208, s.clk.root + nf v 96 81 * usec, 0⟩
    let s := { s with timeFn := { s.timeFn with probes := tabPut s.timeFn.probes id p } }
    let r := sendOwn p.txch (nf v 207 205) (if nb v 204 then some (nf v 203 193) else none)
      (probeFrame (beBytes 6 (nf v 192 145)) (beBytes 6 (nf v 144 97)) 1 id 0 0 0) (.probe id) s
    { s := if r.1 then r.2 else endProbe id 2 r.2 }

/-- PROBE_SEND (R300). -/
def execProbeSend (w : IWord) (s : State) : Host.Outcome State Fault Refusal := .next (runCmd probeSendCmd w s)

/-- PROBE.SEND with OP 1. -/
def probeResponderCmd : Cmd where
  op := 0x65
  fmt := fun e s =>
    let v := probeDesc e s
    probeOpChecks e ++ ptrChecks e.k false 32 e.imm 32 ++
      if ptrOk e.k false 32 e.imm 32 then
        [(decide (v % 2 ^ 199 ≠ 0), stReserved)] ++
          (if nb v 246 then probeChanChecks s (nf v 229 214) (nf v 245 230) ++
            probeClassChecks (nf v 213 211) (nb v 210) (nf v 209 199)
           else [(decide (nf v 245 199 ≠ 0), stRange)])
      else []
  own := fun e s =>
    let v := probeDesc e s
    [(nb v 246 && s.timeFn.responders.any (fun p => p.1 != nf v 255 247 && p.2.rxch == nf v 245 230), stBusy)]
  eff := fun e s =>
    let v := probeDesc e s
    let i := nf v 255 247
    let r := s.timeFn.responders
    { s := { s with timeFn := { s.timeFn with
        responders := if nb v 246 then
            tabPut r i ⟨nf v 245 230, nf v 229 214, nf v 213 211, nb v 210, nf v 209 199⟩
          else tabDel r i } } }

/-- PROBE_RESPONDER_WRITE (R301). -/
def execProbeResponderWrite (w : IWord) (s : State) : Host.Outcome State Fault Refusal :=
  .next (runCmd probeResponderCmd w s)

/-- PROBE_TIMEOUT (R302): STATUS 1. -/
def execProbeTimeout (t id : Nat) (s : State) : Host.Outcome State Fault Refusal :=
  .next (event t
    (fun s => match tabFind s.timeFn.probes id with | some p => expired s p.expiry | none => false)
    (fun s => endProbe id 1 (bump 14 0 72 48 1 s)) s)

end Sys2Proof.Machine
end

