-- ==== Sys2Proof/Machine/Programs.lean ====
section
/-! DEFINITION. Programs, handlers and waits (R306, R307, R309, R314 to R321, R337, R343, R344), the recording and
dispatch of events (R478 to R483, R318, R319), complex faults and switch-over (R325 to R331). -/

namespace Sys2Proof.Machine

/-- Whether `t` and a wait of `n` root cycles that began at `since` are over. -/
def waited (s : State) (since n : Nat) : Bool := decide (since + n ≤ s.clk.root)

/-! ### Program start (R314, R315) -/

/-- The checks of a program descriptor (R315). -/
def descChecks (v : Nat) : List Check :=
  [(decide (nf v 311 0 ≠ 0), stReserved), (decide (nf v 511 448 % 16 ≠ 0 ∨ nf v 447 384 % 16 ≠ 0), stAlign),
   (decide (128 < nf v 383 376 ∨ 128 < nf v 375 368), stLength),
   (decide (nf v 383 376 = 0), stRange), (decide (nf v 375 368 = 0 ∧ nf v 447 384 ≠ 0), stRange),
   (decide (nf v 375 368 = 0) && nb v 366, stRange)]

/-- The program starts: buffer and window filled, the context's registers, flags and SR cleared (R315). -/
def startProgram (q : Nat) (p : Prog) (code data : Bytes) (s : State) : State :=
  let s := storeMem s (bufBase q) (fit (16 * p.len) code)
  let s := storeMem s (winBase q) (fit 2048 (fit (16 * p.dlen) data))
  let s := setQueue s q { getQueue s q with prog := some p }
  commit (setCtx s (queueCtx q) { pc := bufBase q, run := .ready })

/-- The event of a copy that fails (R315). -/
def copyEvent (q st : Nat) (s : State) : State := raiseEv { code := 0x600A, obj := q, status := st } s

/-- A copy that fails ends the program before its first instruction, with an event (R315). -/
def copyFails (q : Nat) (p : Prog) (st : Nat) (s : State) : State := endUnstarted q p st (copyEvent q st s)

/-- The next descriptor of a queue is checked and copied, and its program starts (R315). A queue context that starts
nothing keeps its registers. -/
def startNext (q : Nat) (desc : Bytes) (prog data : HostXfer) (s : State) : State :=
  let v := beNat (fit 64 desc)
  let p := progOf s.clk.root v
  let st := fieldFail (descChecks v)
  let s := setCtx s (queueCtx q) { getCtx s (queueCtx q) with switched := false, last := 0 }
  if st ≠ 0 then endUnstarted q p st s
  else
    match prog, if p.dlen = 0 then .bytes [] else data with
    | .error, _ => copyFails q p stFault (bump 20 0 1 48 1 s)
    | _, .error => copyFails q p stFault (bump 20 0 1 48 1 s)
    | .bytes code, .bytes d => startProgram q p code d s
    | _, _ =>
      commit (setCtx (setQueue s q { getQueue s q with prog := some p }) (queueCtx q)
        { getCtx s (queueCtx q) with run := .copying s.clk.root })

/-- The next descriptor of a queue: the one fetched while the last program ran, else the one that is read now (R316). -/
def descOf (q : Nat) (desc : Bytes) (s : State) : Bytes := (getQueue s q).fetched.getD desc

/-- Whether the next descriptor of a queue whose program runs can be fetched: there is one, and the queue is not being
disabled (R316, R518). -/
def fetches (s : State) (q : Nat) : Bool :=
  let n := getQueue s q
  n.fetched.isNone && decide (n.producer ≠ (n.consumer + 1) % 2 ^ 16) &&
    match n.prog with
    | some p => p.cut.isNone && p.relay.isNone
    | none => false

/-- Whether FENCE lets the descriptor start: no program started earlier is still there (R314). -/
def fenceOpen (s : State) (desc : Bytes) : Bool :=
  !nb (beNat (fit 64 desc)) 364 || (List.range 16).all (fun q => (getQueue s q).prog.isNone)

/-- Whether queue `q` takes its programs from Trellis frames only (R501). -/
def forwardedQueue (s : State) (q : Nat) : Bool :=
  nb s.trellis.setting 437 && !s.trellis.isManager && nf s.trellis.setting 436 433 == q

/-- The next descriptor of a queue is fetched while its program runs, or its next program starts (R315, R316). -/
def takeDescriptor (q : Nat) (desc : Bytes) (prog data : HostXfer) (s : State) : State :=
  if (getQueue s q).prog.isSome then setQueue s q { getQueue s q with fetched := some desc }
  else startNext q (descOf q desc s) prog data (setQueue s q { getQueue s q with fetched := none })

/-- PROGRAM_START (R315, R316). -/
def execProgramStart (t q : Nat) (desc : Bytes) (prog data : HostXfer) (s : State) :
    Host.Outcome State Fault Refusal :=
  .next (event t
    (fun s => decide (q < 16) && s.hostIf.linkUp && (getQueue s q).enabled && !forwardedQueue s q &&
      (fetches s q || (executing s && (getQueue s q).prog.isNone && fenceOpen s (descOf q desc s) &&
        decide ((getQueue s q).producer ≠ (getQueue s q).consumer))))
    (takeDescriptor q desc prog data) s)

/-- PROGRAM_COPY_TIMEOUT (R315). -/
def execProgramCopyTimeout (t q : Nat) (s : State) : Host.Outcome State Fault Refusal :=
  .next (event t
    (fun s => executing s && match (getCtx s (queueCtx q)).run with
      | .copying since => expired s (since + 100 * usec)
      | _ => false)
    (fun s => match (getQueue s q).prog with
      | some p => copyFails q p stTimeout (bump 20 0 2 48 1 s)
      | none => s) s)

/-- PROGRAM_TIME_LIMIT (R307). -/
def execProgramTimeLimit (t q : Nat) (s : State) : Host.Outcome State Fault Refusal :=
  .next (event t
    (fun s => executing s && atBoundary (getCtx s (queueCtx q)).run && (getCtx s (queueCtx q)).due.isNone &&
      match (getQueue s q).prog with
      | some p => expired s p.expiry
      | none => false)
    (endProgram q stTimeout) s)

/-! ### Waits -/

/-- WAIT_EV_TIMEOUT (R343). -/
def execWaitEvTimeout (t k : Nat) (s : State) : Host.Outcome State Fault Refusal :=
  .next (event t
    (fun s => executing s && match (getCtx s k).run with
      | .waitEv _ _ (some e) => expired s e
      | .waitSeq _ (some e) => expired s e
      | _ => false)
    (fun s => commit (finish k (some stTimeout) s)) s)

/-- WAIT_T_EXPIRY (R344, R570). -/
def execWaitTExpiry (t k : Nat) (s : State) : Host.Outcome State Fault Refusal :=
  .next (event t
    (fun s => executing s && match (getCtx s k).run with
      | .waitQ e => decide (e ≤ s.clk.root)
      | .waitAbs x => timeReached s.clk.tod x
      | _ => false)
    (fun s => commit (finish k (some stOk) s)) s)

/-! ### Faults and switch-over (R325 to R331) -/

/-- A planned switch-over (R329): the base image, then the takeover at the next QCLK edge; nothing runs until then. With no
standby there is none (R331). `auto` is whether it is the automatic return (R330). -/
def planned (auto : Bool) (s : State) : State :=
  match s.seq.active with
  | none => s
  | some x =>
    if health s (1 - x) = .standby then
      let s := baseImage s
      { s with seq := { s.seq with going := some (edgeAt 8 (s.seq.stoppedUntil + 1), auto), goOwed := false } }
    else s

/-- A staging ends without its image (R331). -/
def abandonStaging (s : State) : State :=
  match s.seq.staging with
  | some (_, q) => complete 0x6006 q stAborted 0 0 { s with seq := { s.seq with staging := none } }
  | none => s

/-- Complex `x` has failed for good (R330). -/
def markFailed (x : Nat) (s : State) : State := raiseComplex 0x6004 x (setHealth x .failed s)

/-- Whether a fault of complex `x` is its second within 600 s of its return to active (R330). -/
def secondFault (s : State) (x : Nat) : Bool :=
  match tabFind s.seq.returnedAt x with
  | some r => decide (s.clk.root ≤ r + 600000 * msec)
  | none => false

/-- A complex fault of `x` is counted (R32); a planned switch-over that has not reached its takeover edge is abandoned for it
(R331). The complex is under repair, or, at its second fault, failed (R330). -/
def noteFault (x : Nat) (s : State) : State :=
  let second := secondFault s x
  let s := abandonStaging (raiseComplex 0x6001 x s)
  let s := { s with seq := { s.seq with
    repairBack := decide (s.seq.active = some x), repairFrom := s.clk.root, going := none, goOwed := false, holdoffEnd := none
    faulted := if s.seq.faulted.contains x then s.seq.faulted else x :: s.seq.faulted
    returnedAt := tabDel s.seq.returnedAt x, faults := s.seq.faults + 1 } }
  if second then markFailed x s else setHealth x .repairing s

/-- No complex becomes active (R331): FAULT_N is asserted, programs stop. -/
def noActive (s : State) : State :=
  setCause 18 { s with seq := { s.seq with active := none, goOwed := false }, power := { s.power with faultN := true } }

/-- A complex fault of the active complex `x` (R306, R325, R331). -/
def activeFault (x : Nat) (s : State) : State :=
  let s := noteFault x s
  if health s (1 - x) = .standby then takeControl false (1 - x) faultGap s else noActive s

/-- A complex fault of the standby `x`: it is unavailable and under repair (R306). -/
def standbyFault (x : Nat) (s : State) : State :=
  let s := noteFault x s
  { s with seq := { s.seq with staged := none } }

/-- A complex fault. -/
def complexFaultEff (x : Nat) (s : State) : State :=
  if s.seq.active = some x then activeFault x s else standbyFault x s

/-- A codeword that was read: a correctable one is counted, an uncorrectable one acts on its holder (R220). -/
def codewordRead (x cw errors : Nat) (s : State) : State :=
  if codewordLost errors then badCodeword x cw s
  else if codewordMended errors then bump 10 0 6 48 1 s else s

/-- What a takeover finds in the checkpoint copies that it reads (R220, R324). -/
def readCkpt (found : List CkptRead) (s : State) : State :=
  (found.filter (fun r => decide (r.copy < 2 ∧ r.word < 16384))).foldl (fun s r =>
    codewordRead (ckptBase + 4096 * r.copy + r.word / 4) (r.word % 4) r.errors s) s

/-- COMPLEX_FAULT (R306, R325): the standby restores from the checkpoint, with what its reads found. -/
def execComplexFault (t : Nat) (f : CplxFault) (s : State) : Host.Outcome State Fault Refusal :=
  .next (event t
    (fun s => decide (f.cplx < 2) && s.seq.active.isSome &&
      decide (health s f.cplx = .active ∨ health s f.cplx = .standby))
    (fun s => complexFaultEff f.cplx (if s.seq.active = some f.cplx then readCkpt f.found s else s)) s)

/-- INSTRUCTION_WATCHDOG (R306): an instruction not finished 200 µs after it started is a complex fault. -/
def execInstructionWatchdog (t k : Nat) (s : State) : Host.Outcome State Fault Refusal :=
  .next (event t
    (fun s => s.seq.active.isSome && match (getCtx s k).run with
      | .waitStatus _ since => expired s (since + 200 * usec)
      | .waitHost since => expired s (since + 200 * usec)
      | _ => false)
    (fun s => match s.seq.active with | some x => activeFault x s | none => s) s)

/-- The complex that is not active. -/
def otherComplex (s : State) : Nat := match s.seq.active with | some x => 1 - x | none => 1

/-- STANDBY_SELF_TEST (R305, R330): once every second; a standby that fails has a complex fault; one that has never passed
is failed. -/
def execStandbySelfTest (t : Nat) (pass : Bool) (s : State) : Host.Outcome State Fault Refusal :=
  .next (event t
    (fun s => s.seq.active.isSome &&
      (decide (health s (otherComplex s) = .untested) ||
        (decide (health s (otherComplex s) = .standby) && waited s s.seq.testedAt (1000 * msec))))
    (fun s =>
      let x := otherComplex s
      let s := { s with seq := { s.seq with testedAt := s.clk.root } }
      if pass then setHealth x .standby s
      else if health s x = .standby then standbyFault x s else markFailed x s) s)

/-- The complex under repair: the one that is not active; with none active the first one in repair. -/
def underRepair (s : State) : Option Nat :=
  match s.seq.active with
  | some x => if health s (1 - x) = .repairing then some (1 - x) else none
  | none => [0, 1].find? (fun x => decide (health s x = .repairing))

/-- REPAIR_SELF_TEST (R330): after the 2 ms of the test the repaired complex becomes standby, and the hold-off starts if it is to take control back. -/
def execRepairSelfTest (t : Nat) (pass : Bool) (s : State) : Host.Outcome State Fault Refusal :=
  .next (event t (fun s => (underRepair s).isSome && waited s s.seq.repairFrom (2 * msec))
    (fun s => match underRepair s with
      | none => s
      | some x =>
        if pass then
          let s := setHealth x .standby s
          if s.seq.repairBack && decide (s.seq.holdoff ≠ 0) && s.seq.active.isSome then
            { s with seq := { s.seq with holdoffEnd := some (s.clk.root + s.seq.holdoff * 1000 * msec) } }
          else s
        else markFailed x s) s)

/-- Whether the active complex is ready for a planned switch-over (R329, R330). -/
def readyToSwitch (s : State) : Bool :=
  s.seq.active.isSome && s.seq.going.isNone && !s.seq.goOwed && decide (health s (otherComplex s) = .standby) && s.seq.staging.isNone &&
    decide (outstanding s = 0)

/-- HOLDOFF_EXPIRY (R330): the repaired complex takes control back once the active one is ready. -/
def execHoldoffExpiry (t : Nat) (s : State) : Host.Outcome State Fault Refusal :=
  .next (event t
    (fun s => readyToSwitch s && match s.seq.holdoffEnd with | some e => decide (e ≤ s.clk.root) | none => false)
    (planned true) s)

/-- A planned switch-over that is owed happens as soon as no command is outstanding (R329). -/
def tryGo (s : State) : State := if s.seq.goOwed && decide (outstanding s = 0) then planned false s else s

/-! ### Commands without status (R311, R321, R337) -/

/-- A status slot is free: contexts that wait for one become ready, each with its journal entry (R311, R323). -/
def wakeSlots (s : State) : State :=
  (List.range 32).foldl (fun s k =>
    if (getCtx s k).run = .waitSlot then journalEntry (setCtx s k { getCtx s k with run := .ready }) else s) s

/-- COMMAND_TIMEOUT (R321): the instruction ends with ST_TIMEOUT. R40 has an event raised at every timeout, and R489
lists no code for this one: none is raised (DESIGN CHOICE, log entry 101). -/
def execCommandTimeout (t k : Nat) (s : State) : Host.Outcome State Fault Refusal :=
  .next (event t
    (fun s => (executing s || s.seq.goOwed) && match (getCtx s k).run with
      | .waitStatus _ since => expired s (since + 100 * usec)
      | _ => false)
    (fun s => tryGo (wakeSlots (commit (finish k (some stTimeout) s)))) s)

/-- COMMAND_COMPLETION (R309): an operation that has ended raises its completion event; for a Graft message the journal is
CLEAR first (step 5 of R367). -/
def execCommandCompletion (t cseq : Nat) (s : State) : Host.Outcome State Fault Refusal :=
  .next (event t
    (fun s => s.seq.pendOps.any (fun p => p.cseq == cseq && p.ended.isSome))
    (fun s => match s.seq.pendOps.find? (fun p => p.cseq == cseq) with
      | some p => match p.ended with
        | some (st, aux, data) =>
          complete p.event cseq st aux data
            (if p.event = 0x7001 then { s with vault := { s.vault with journal := none } } else s)
        | none => s
      | none => s) s)

/-! ### Recording and dispatch of events (R478 to R483, R318, R319) -/

/-- Number of bits set among the low `n`. -/
def popCount : Nat → Nat → Nat
  | 0, _ => 0
  | n + 1, v => popCount n v + bn (nb v n)

/-- Whether a code and mask match an event code (R318, R343). -/
def codeMatches (code mask x : Nat) : Bool := (x ^^^ code) &&& mask == 0

/-- The bindings that the dispatcher uses now: those before this edge where a binding changes at it (R319). -/
def bindingsNow (s : State) : Tab Binding :=
  if s.seq.boundBefore.1 = qclkEdge s then s.seq.boundBefore.2 else s.seq.bindings

/-- Bindings change at the edge of now, which joins the journal (R323). -/
def bindAs (f : Tab Binding → Tab Binding) (s : State) : State :=
  journalEntry { s with seq := { s.seq with boundBefore := (qclkEdge s, bindingsNow s), bindings := f s.seq.bindings } }

/-- The binding that an event activates: the most MASK bits, then the lower entry (R319). -/
def bestBinding (s : State) (x : Nat) : Option Binding :=
  ((bindingsNow s).filter (fun p => codeMatches p.2.code p.2.mask x)).foldl (fun m p =>
    match m with
    | none => some p.2
    | some b => if popCount 16 b.mask < popCount 16 p.2.mask then some p.2 else some b) none

/-- Whether the wait of a context ends on an event (R343). -/
def wakesOn (s : State) (e : Ev) (k : Nat) : Bool :=
  let c := getCtx s k
  if c.due.isSome then false else
  match c.run with
  | .waitEv code mask _ => codeMatches code mask e.code
  | .waitSeq _ _ => match c.doneEv with
    | some d => decide (d.code = e.code ∧ d.obj = e.obj ∧ d.at_ = e.at_)
    | none => false
  | _ => false

/-- An activation joins its level's queue of 64, or is discarded, counted and reported; never for the level that
overflowed (R319). -/
def activate (e : Ev) (b : Binding) (s : State) : State :=
  let l := tabGet [] s.seq.activations b.level
  if e.code = 0x6008 ∧ e.obj = b.level then s
  else if l.length < 64 then
    { s with seq := { s.seq with
        activations := tabSet [] s.seq.activations b.level (l ++ [(b.entry, b.groups, beNat (recBytes e e.more))]) } }
  else raise 0x6008 b.level 0 { s with seq := { s.seq with discarded := s.seq.discarded + 1 } }

/-- A wait ends on an event: now, or once programs run again (R318, R326). -/
def wakeOne (e : Ev) (s : State) (k : Nat) : State :=
  if executing s then endWaitOn k (recBytes e e.more) s
  else setCtx s k { getCtx s k with due := some (.record (beNat (recBytes e e.more))) }

/-- The waits that an event ends (R318). -/
def wakeWaits (e : Ev) (s : State) : State :=
  (List.range 32).foldl (fun s k => if wakesOn s e k then wakeOne e s k else s) s

/-- The best binding of an event is activated (R319). -/
def activateBest (e : Ev) (s : State) : State :=
  match bestBinding s e.code with
  | some b => activate e b s
  | none => s

/-- The dispatcher takes an event: waits end, and the best binding is activated (R318, R319). -/
def dispatch (e : Ev) (s : State) : State := activateBest e (wakeWaits e s)

/-- Position of record `n` (R481). -/
def recPlace (n : Nat) : Nat := if n < 1024 then n else 1024 + (n - 1024) % 3072

/-- The record that an event which is not a repeat writes is written, with the interrupt of CBREC (R481, R520) and a
worker's copy for its manager (R506). A record that is overwritten closes. -/
def writeRec (e : Ev) (s : State) : State :=
  let n := s.book.count
  let s := { s with book := { s.book with
    count := n + 1
    recs := tabPut s.book.recs (recPlace n) { ev := e, rep := min e.more 65535 }
    opens := s.book.opens.filter (fun o => decide (o.2.2 + 3072 ≠ n ∨ n < 4096)) } }
  let s := if codeMatches (nf s.hostIf.cbIrq 31 16) (nf s.hostIf.cbIrq 15 0) e.code then setCause 16 s else s
  if nb s.trellis.setting 509 && !s.trellis.isManager && s.trellis.node.isSome then
    { s with trellis := { s.trellis with
        evSince := if s.trellis.evBatch.isEmpty then s.clk.root else s.trellis.evSince
        evBatch := s.trellis.evBatch ++ [recBytes e e.more] } }
  else s

/-- A number that no record has: of an open record that began while the book was frozen (R484). -/
def noRec : Nat := 2 ^ 31

/-- The event counts as missed (R484). -/
def missEv (e : Ev) (s : State) : State :=
  { s with book := { s.book with missed := min (s.book.missed + 1 + e.more) (2 ^ 32 - 1) } }

/-- The open record of an event, if there is one (R480). -/
def openOf (s : State) (e : Ev) : Option (Nat × Nat × Nat) :=
  if isRepeat e.code then s.book.opens.find? (fun o => o.1 == e.code && o.2.1 == e.obj) else none

/-- The record of a repeat: REPEAT goes up and saturates, and what came at the PCLK edge of now is noted (R480, R482). -/
def repeated (e : Ev) (r : Rec) (s : State) : Rec :=
  let n := min (r.rep + 1 + e.more) 65535
  { r with rep := n, repAt := pclkEdge s, repNew := (if r.repAt = pclkEdge s then r.repNew else 0) + (n - r.rep) }

/-- A repeat: REPEAT of its record goes up, or it is missed while frozen (R480, R484). Records lost just before it are
carried to the next one. -/
def recordRepeat (e : Ev) (o : Nat × Nat × Nat) (s : State) : State :=
  let s := { s with book := { s.book with
    opens := s.book.opens.filter (fun x => !(x.1 == o.1 && x.2.1 == o.2.1)) ++ [o]
    lost := s.book.lost + e.lost } }
  if s.book.frozen then missEv e s
  else
    match tabFind s.book.recs (recPlace o.2.2) with
    | some r =>
      if o.2.2 < noRec then { s with book := { s.book with
          recs := tabPut s.book.recs (recPlace o.2.2) (repeated e r s) } }
      else s
    | none => s

/-- An event that is not a repeat: its record, or a miss while frozen (R483, R484), a new open record (R480), and its
dispatch. -/
def recordNew (e : Ev) (s : State) : State :=
  let s := if decide (0x7FFFFFFF ≤ s.book.count) then { s with book := { s.book with frozen := true } } else s
  let n := if s.book.frozen then noRec else s.book.count
  let s := if s.book.frozen then missEv e s else writeRec e s
  let s := if isRepeat e.code then { s with book := { s.book with
      opens := (s.book.opens ++ [(e.code, e.obj, n)]).drop (s.book.opens.length - 63) } } else s
  dispatch e s

/-- An event is recorded. A condition that ended in the meantime closes its record (R480). -/
def recordEv (e : Ev) (s : State) : State :=
  let s := match openOf s e with
    | some o => recordRepeat e o s
    | none => recordNew e s
  if e.shut then { s with book := { s.book with
      opens := s.book.opens.filter (fun o => !(o.1 == e.code && o.2.1 == e.obj)) } } else s

/-- The order of R478: by edge, then code, then OBJ. -/
def evBefore (a b : Ev) : Bool :=
  decide (a.at_ < b.at_) ||
    (decide (a.at_ = b.at_) && (decide (a.code < b.code) || (decide (a.code = b.code) && decide (a.obj < b.obj))))

/-- The place of the first event in the order of R478, and the event. -/
def firstEv : List Ev → Option Ev
  | [] => none
  | e :: l => match firstEv l with
    | some f => if evBefore f e then some f else some e
    | none => some e

/-- One event leaves staging and is recorded, unless the codeword that holds it was read with more octets in error than its code
corrects (R220). -/
def recordFirst (errors : Nat) (s : State) : State :=
  match firstEv (s.book.staged.filter (fun e => decide (e.at_ ≤ s.clk.root))) with
  | some e =>
    let t := codewordRead (stagingBase + s.book.staged.idxOf e % stagingCells) 0 errors s
    if codewordLost errors then t else recordEv e { t with book := { t.book with staged := t.book.staged.erase e } }
  | none => s

/-- EVENT_RECORD (R478). -/
def execEventRecord (x : StagedRead) (s : State) : Host.Outcome State Fault Refusal :=
  .next (event x.t (fun s => !s.book.staged.isEmpty) (recordFirst x.errors) s)

/-- The group mask of an index of EV.BIND (R318). -/
def maskOf (s : State) (i : Nat) : Nat := if i = 0 then (getQueue s 0).mask else if i = 1 then 0x1FFF else 0x0FFF

/-- A handler starts at its entry address, with the record in w1 to w4 (R319). -/
def startHandler (l : Nat) (s : State) : State :=
  match tabGet [] s.seq.activations l with
  | [] => s
  | (entry, groups, r) :: rest =>
    let s := { s with seq := { s.seq with activations := tabSet [] s.seq.activations l rest } }
    let c := writeRegs (getCtx s (handlerCtx l)) (recRegs (beBytes 32 r))
    commit (setCtx s (handlerCtx l)
      { c with pc := entry, run := .ready, mask := maskOf s groups, lastPending := none, doneEv := none })

/-- HANDLER_START (R319). -/
def execHandlerStart (t l : Nat) (s : State) : Host.Outcome State Fault Refusal :=
  .next (event t
    (fun s => decide (l < 16) && executing s && decide ((getCtx s (handlerCtx l)).run = .idle) &&
      !(tabGet [] s.seq.activations l).isEmpty)
    (startHandler l) s)

/-! ### EV.BIND (R318) -/

/-- The table entry bound to a pair. -/
def boundEntry (s : State) (code mask : Nat) : Option Nat :=
  (s.seq.bindings.find? (fun p => p.2.code == code && p.2.mask == mask)).map (·.1)

/-- The lowest free entry. -/
def freeBinding (s : State) : Option Nat := (List.range 256).find? (fun i => !tabHas s.seq.bindings i)

/-- Operand checks that both forms share. -/
def bindChecks (e : Env) : List Check := [highB e 23, (decide (nf e.b 22 21 = 3), stReserved)]

/-- EV.BIND with UNBIND = 0. -/
def evBindCmd : Cmd where
  op := 0xC4
  fmt := fun e _ => bindChecks e ++ [(decide (e.imm % 16 ≠ 0), stAlign), (decide (0x20000 ≤ e.imm), stRange)]
  own := fun e s => [((boundEntry s e.a (e.b % 2 ^ 16)).isNone && (freeBinding s).isNone, stNoRoom)]
  eff := fun e s =>
    match (boundEntry s e.a (e.b % 2 ^ 16)).orElse (fun _ => freeBinding s) with
    | some i =>
      { s := bindAs (fun l => tabPut l i ⟨e.a, e.b % 2 ^ 16, nf e.b 19 16, nf e.b 22 21, e.imm⟩) s }
    | none => { s := s, st := stNoRoom }

/-- EV_BIND (R318). -/
def execEvBind (w : IWord) (s : State) : Host.Outcome State Fault Refusal := .next (runCmd evBindCmd w s)

/-- EV.BIND with UNBIND = 1. -/
def evUnbindCmd : Cmd where
  op := 0xC4
  fmt := fun e s => bindChecks e ++ [zeroI e, ((boundEntry s e.a (e.b % 2 ^ 16)).isNone, stRange)]
  eff := fun e s =>
    match boundEntry s e.a (e.b % 2 ^ 16) with
    | some i => { s := bindAs (fun l => tabDel l i) s }
    | none => { s := s, st := stRange }

/-- EV_UNBIND (R318). -/
def execEvUnbind (w : IWord) (s : State) : Host.Outcome State Fault Refusal := .next (runCmd evUnbindCmd w s)

/-! ### SYS.CKPT and SYS.SWITCH (R322, R329, R332) -/

/-- SYS.CKPT. -/
def sysCkptCmd : Cmd where
  op := 0xC0
  fmt := fun e _ => [zeroA e, zeroB e, zeroI e]
  eff := fun _ s => { s := baseImage s }

/-- SYS.CKPT (R322). -/
def execSysCkpt (w : IWord) (s : State) : Host.Outcome State Fault Refusal := .next (runCmd sysCkptCmd w s)

/-- Operand checks of SYS.SWITCH: mode 3 and B[31:2] are reserved. -/
def switchChecks (e : Env) : List Check := [zeroA e, highB e 2, (decide (e.b % 4 = 3), stReserved)]

/-- Whether a standby is available (R329, R332). -/
def standbyReady (s : State) : Bool := s.seq.active.isSome && decide (health s (otherComplex s) = .standby)

/-- SYS.SWITCH with mode GO. -/
def sysSwitchGoCmd : Cmd where
  op := 0xC1
  fmt := fun e _ => switchChecks e ++ [zeroI e]
  own := fun _ s => [(!standbyReady s, stStandby), (s.seq.staging.isSome, stBusy)]
  eff := fun _ s => { s := { s with seq := { s.seq with goOwed := true } } }

/-- SYS_SWITCH_GO (R329): the takeover follows the status, once no command is outstanding. -/
def execSysSwitchGo (w : IWord) (s : State) : Host.Outcome State Fault Refusal :=
  .next (
    let t := tryGo (runCmd sysSwitchGoCmd w s)
    if s.seq.going.isNone && t.seq.going.isSome then readCkpt w.found t else t)

/-- SYS.SWITCH with mode STAGE. -/
def sysSwitchStageCmd : Cmd where
  op := 0xC1
  fmt := fun e _ =>
    switchChecks e ++ [(decide (e.imm % 4096 ≠ 0), stAlign), (decide (Config.flashSize ≤ e.imm), stRange)]
  own := fun _ s => [(!standbyReady s, stStandby), (s.seq.staging.isSome || s.seq.goOwed || s.seq.going.isSome, stBusy)]
  eff := fun e s =>
    { s := { s with seq := { s.seq with staging := some (e.imm, e.cseq), staged := none } }
      st := stPending
      event := some 0x6005 }

/-- SYS_SWITCH_STAGE (R332). -/
def execSysSwitchStage (w : IWord) (s : State) : Host.Outcome State Fault Refusal := .next (runCmd sysSwitchStageCmd w s)

/-- SYS.SWITCH with mode HOLDOFF. -/
def sysSwitchHoldoffCmd : Cmd where
  op := 0xC1
  fmt := fun e _ => switchChecks e ++ [(decide (3600 < e.imm), stRange)]
  eff := fun e s => { s := { s with seq := { s.seq with holdoff := e.imm } } }

/-- SYS_SWITCH_HOLDOFF (R329). -/
def execSysSwitchHoldoff (w : IWord) (s : State) : Host.Outcome State Fault Refusal :=
  .next (runCmd sysSwitchHoldoffCmd w s)

/-- An instruction that waited for a transfer is done: now, or once programs run again (R326, R337). -/
def transferOver (k st : Nat) (s : State) : State :=
  if executing s then commit (finish k (some st) s)
  else setCtx s k { getCtx s k with due := some (.status st) }

/-- HOST_TRANSFER_TIMEOUT of an instruction (R337): its transfer has not completed in 100 µs. -/
def hostTransferLate (k : Nat) (s : State) : State := transferOver k stTimeout (bump 20 0 2 48 1 s)

end Sys2Proof.Machine
end

