-- ==== Sys2Proof/Machine/Book.lean ====
section
/-! DEFINITION. The commands of the Cellar Book and its window (17_cellar_book.md): LOG.WRITE, LOG.FREEZE, LOG.THAW,
LOG.CLEAR, and reads of the window. How events are recorded stands in Programs. -/

namespace Sys2Proof.Machine

/-- An event of this edge that goes to its record at once. -/
def nowEv (code data : Nat) (s : State) : Ev :=
  { code := code, data := data, at_ := s.clk.root, time := s.clk.tod, flags := cplxFlag s }

/-- `n` events leave staging in the order of R478. -/
def recordMany : Nat → State → State
  | 0, s => s
  | n + 1, s => recordMany n (recordFirst 0 s)

/-- Every event raised so far is recorded, those that the recording itself raises included. -/
def recordAll (s : State) : State := recordMany (2 * s.book.staged.length + 32) s

/-- The operands of LOG.FREEZE, LOG.THAW and LOG.CLEAR are all reserved. -/
def noOperands (e : Env) : List Check := [zeroA e, zeroB e, zeroI e]

/-- LOG.WRITE; a code outside 0xB800 to 0xBFFF gives ST_RANGE. -/
def logWriteCmd : Cmd where
  op := 0xA0
  fmt := fun e _ => [zeroB e, (decide (e.a < 0xB800 ∨ 0xC000 ≤ e.a), stRange)]
  eff := fun e s => { s := raiseEv { code := e.a, obj := ctxObj e.k, data := e.imm, flags := 0x40 } s }

/-- LOG_WRITE (R488). -/
def execLogWrite (w : IWord) (s : State) : Host.Outcome State Fault Refusal := .next (runCmd logWriteCmd w s)

/-- The freeze (R484): events of this edge first, then 0xB000. -/
def freeze (s : State) : State :=
  if s.book.frozen then s
  else
    let s := recordAll s
    let s := recordNew (nowEv 0xB000 0 s) s
    { s with book := { s.book with frozen := true } }

/-- LOG.FREEZE. -/
def logFreezeCmd : Cmd where
  op := 0xA1
  fmt := fun e _ => noOperands e
  eff := fun _ s => { s := freeze s }

/-- LOG_FREEZE (R484). -/
def execLogFreeze (w : IWord) (s : State) : Host.Outcome State Fault Refusal := .next (runCmd logFreezeCmd w s)

/-- The thaw (R485): an event of this edge counts as missed; 0xB001 carries MISSED. -/
def thaw (s : State) : State :=
  if s.book.frozen then
    let s := recordAll s
    let n := s.book.missed
    recordNew (nowEv 0xB001 n s) { s with book := { s.book with frozen := false, missed := 0 } }
  else s

/-- LOG.THAW. -/
def logThawCmd : Cmd where
  op := 0xA2
  fmt := fun e _ => noOperands e
  eff := fun _ s => { s := thaw s }

/-- LOG_THAW (R485). -/
def execLogThaw (w : IWord) (s : State) : Host.Outcome State Fault Refusal := .next (runCmd logThawCmd w s)

/-- The clear (R486): events of earlier edges are recorded before it, those of this edge after it. -/
def clearBook (s : State) : State :=
  let s := recordMany (s.book.staged.filter (fun e => decide (e.at_ < s.clk.root))).length s
  let n := s.book.count
  recordNew (nowEv 0xB002 n s) { s with book := { s.book with recs := [], count := 0, opens := [], cursor := 0 } }

/-- LOG.CLEAR. -/
def logClearCmd : Cmd where
  op := 0xA3
  fmt := fun e _ => noOperands e
  own := fun _ s => [(s.book.frozen, stBusy)]
  eff := fun _ s => { s := clearBook s }

/-- LOG_CLEAR (R486). -/
def execLogClear (w : IWord) (s : State) : Host.Outcome State Fault Refusal := .next (runCmd logClearCmd w s)

/-! ### The window (R482) -/

/-- Whether record `n` is available (R481). -/
def recAvailable (s : State) (n : Nat) : Bool :=
  decide (n < s.book.count) && decide (n < 1024 ∨ s.book.count ≤ n + 3072)

/-- The 32 octets of record `n` as a read of now latches it: zeros where it is not available, and without the repeats of
the same PCLK edge (R10, R482). -/
def recordBytes (s : State) (n : Nat) : Bytes :=
  match tabFind s.book.recs (recPlace n) with
  | some r =>
    if recAvailable s n then recBytes r.ev (if r.repAt = pclkEdge s then r.rep - r.repNew else r.rep)
    else List.replicate 32 0
  | none => List.replicate 32 0

/-- A read of word `k` of the window: word 0 latches the record, word 7 advances NUMBER with AUTOINC, unless CB_CURSOR is
written at the same edge. -/
def cbRead (k : Nat) (s : State) : State :=
  let s := if k = 0 then { s with book := { s.book with latch := recordBytes s s.book.cursor } } else s
  let s := emit (.readData (mf s.book.latch (4 * k) 4)) s
  if k = 7 && s.book.autoinc && decide (s.book.cursorAt ≠ some (pclkEdge s)) then { s with book := { s.book with cursor := (s.book.cursor + 1) % 2 ^ 31 } } else s

/-- CB_WINDOW_READ (R482). -/
def execCbWindowRead (t k : Nat) (s : State) : Host.Outcome State Fault Refusal :=
  .next (event t (fun s => decide (k < 8) && s.power.powerGood) (cbRead k) s)

end Sys2Proof.Machine
end

