-- ==== Sys2Proof/Machine/Press.lean ====
section
/-! DEFINITION. The Press (13_press.md): operand memory, issue, functions, validation, timings, and what remains after an
operation ends. -/

namespace Sys2Proof.Machine

/-! ### Operand memory (R383 to R386) -/

/-- Octets of an operand slot. -/
def opLen (o : OpSlot) : Nat := 64 * 2 ^ o.k
/-- Content of an operand slot. -/
def opData (o : OpSlot) : Bytes := fit (opLen o) o.data

/-- The slot whose first granule is `g`, if `g` names one (R383). -/
def slotAt (s : State) (g : Nat) : Option OpSlot :=
  match tabFind s.press.ops g with
  | some o => some o
  | none =>
    if 1024 ≤ g then none
    else if s.press.ops.any (fun p => decide (p.1 < g) && decide (g < p.1 + 2 ^ p.2.k)) then none else some {}

/-- Writes an operand slot. -/
def setOp (g : Nat) (o : OpSlot) (s : State) : State :=
  { s with press := { s.press with ops := tabSet {} s.press.ops g o } }

/-- Source `i` of an operation. -/
def opSrc (op : PressOp) (i : Nat) : Nat := nf op.imm (10 * i + 9) (10 * i)
/-- Destination 0 of an operation. -/
def opDst (op : PressOp) : Nat := nf op.imm 49 40

/-- What an operand slot must hold (R391): a number of octets, or a length field of 2 or 1 octets and what it counts. -/
inductive Need where
  | octets (n : Nat)
  | counted (n : Nat)
  deriving DecidableEq, Repr

/-- Octets of a modulus (R391). -/
def modF (m : Nat) : Nat := if m = 1 then 256 else if m = 2 then 384 else 512
/-- Octets of an ECDSA digest. -/
def digF (c : Nat) : Nat := if c = 1 then 32 else if c = 2 then 48 else 64

/-- The sources of a function (R390, R391). -/
def fnSources (f : Nat) : List Need :=
  let c := f % 16
  match f / 16 with
  | 2 => [.octets (digF c)]
  | 3 => [.octets (2 * curveF c), .octets (digF c), .octets (2 * curveF c)]
  | 4 => [.octets (2 * curveF c), .counted 2]
  | 5 => [.octets (2 * curveF c), .octets (curveF c)]
  | 6 => [.octets (modF c), .octets (modF c), .octets (modF c)]
  | 7 | 8 => [.octets (modF c + 4), .octets 48, .octets (modF c)]
  | 9 => if c = 3 then [.octets 1568, .counted 2] else []
  | 10 => if c = 2 then [.counted 2, .counted 1] else if c = 3 then [.octets 2592, .counted 2, .counted 1, .octets 4627] else []
  | _ => []

/-- Octets of a function's output, none where it has no destination (R390, R391). -/
def fnOutput (f : Nat) : Option Nat :=
  let c := f % 16
  match f / 16 with
  | 1 | 2 | 5 => some (2 * curveF c)
  | 4 => some 48
  | 6 => some (modF c)
  | 9 => some (if c = 1 then 1568 else 48)
  | 10 => if c = 1 then some 2592 else if c = 2 then some 4627 else none
  | _ => none

/-- Whether a FUNC is assigned (R390). -/
def fnAssigned (f : Nat) : Bool :=
  let c := f % 16
  match f / 16 with
  | 0 => c == 1
  | 1 | 2 | 3 | 4 | 5 | 6 | 10 => decide (1 ≤ c ∧ c ≤ 3)
  | 7 | 8 => decide (2 ≤ c ∧ c ≤ 3)
  | 9 => c == 1 || c == 3
  | _ => false

/-- Whether a function takes a Key Vault key (R390). -/
def fnVault (f : Nat) : Bool := [1, 2, 4, 9].contains (f / 16) || f == 0xA1 || f == 0xA2

/-- Whether an attribute word fits a function (R390). -/
def keyFits (f attr : Nat) : Bool :=
  let typ := nf attr 31 28
  match f / 16 with
  | 1 => typ == f % 16 + 2 && (nb attr 23 || nb attr 22)
  | 2 => typ == f % 16 + 2 && nb attr 23
  | 4 => typ == f % 16 + 2 && nb attr 22
  | 9 => typ == 6 && nb attr 22
  | 10 => typ == 7 && nb attr 23
  | _ => false

/-- The functions that a system slot serves (R387). -/
def fnPublic (f : Nat) : Bool := f / 16 == 1 || f == 0x91 || f == 0xA1

/-- The slots an operation names as sources. -/
def opSources (op : PressOp) : List Nat :=
  if op.func = 1 then [opSrc op 0] else (List.range (fnSources op.func).length).map (opSrc op)
/-- The slots it names as destinations. -/
def opDests (op : PressOp) : List Nat := if (fnOutput op.func).isSome then [opDst op] else []

/-- Queued and running operations. -/
def opsInHand (s : State) : List PressOp := s.press.running.toList ++ s.press.queue

/-- Granules of the slot that an operation names at `g`. -/
def namedRange (s : State) (op : PressOp) (g : Nat) : Nat × Nat :=
  if op.func = 1 then (g, g + 2 ^ (opSrc op 1 % 8))
  else (g, g + match slotAt s g with | some o => 2 ^ o.k | none => 1)

/-- Whether two ranges share a granule. -/
def rangesMeet (a b : Nat × Nat) : Bool := decide (a.1 < b.2) && decide (b.1 < a.2)

/-- The listed slots that a new slot of `2 ^ k` granules at `g` removes. -/
def shapeRemoves (s : State) (g k : Nat) : List (Nat × OpSlot) :=
  s.press.ops.filter (fun p => rangesMeet (p.1, p.1 + 2 ^ p.2.k) (g, g + 2 ^ k))

/-- The operand slots with the signer's keys of the Graft message that is being checked: sources of a running operation
(R365, R386). -/
def graftHolds (s : State) : List Nat :=
  match s.vault.serving with
  | some v => if v.phase = .taken ∧ mf v.msg.octets 5 1 ≠ 0 then [mf v.msg.octets 52 2, mf v.msg.octets 54 2] else []
  | none => []

/-- Whether SHAPE touches a slot that an operation in hand names (R384). -/
def shapeBusy (s : State) (g k : Nat) : Bool :=
  let touched := (g, g + 2 ^ k) :: (shapeRemoves s g k).map (fun p => (p.1, p.1 + 2 ^ p.2.k))
  (graftHolds s).any (fun n => touched.any (fun r =>
    rangesMeet r (n, n + match slotAt s n with | some o => 2 ^ o.k | none => 1))) ||
  (opsInHand s).any (fun op => (opSources op ++ opDests op).any (fun n =>
    touched.any (fun r => rangesMeet r (namedRange s op n))))

/-- Granules that SHAPE zeroes: the new slot and what it frees outside it. -/
def shapeGranules (s : State) (g k : Nat) : Nat :=
  ((List.range 1024).filter (fun i => decide (g ≤ i ∧ i < g + 2 ^ k) ||
    (shapeRemoves s g k).any (fun p => decide (p.1 ≤ i ∧ i < p.1 + 2 ^ p.2.k)))).length

/-- SHAPE (R384): the new slot is zeroed and EMPTY; freed granules are EMPTY slots of 64 octets. -/
def shape (g k : Nat) (s : State) : State :=
  let gone := (shapeRemoves s g k).map (·.1)
  setOp g { k := k } { s with press := { s.press with ops := s.press.ops.filter (fun p => !gone.contains p.1) } }

/-- The checks of slot and length that PK.LOAD and PK.READ share (R386). -/
def opAccessChecks (e : Env) (s : State) : List Check :=
  [highA e 10, highB e 14, (decide (e.b = 0), stRange)] ++
    match slotAt s (e.a % 1024) with
    | some o => [(decide (opLen o < e.b), stLength)]
    | none => [(true, stRange)]

/-- PK.LOAD. -/
def pkLoadCmd : Cmd where
  op := 0x80
  xm := 1
  host := hostFlag
  fmt := fun e s => opAccessChecks e s ++ addrChecks e false 1 e.b
  own := fun e s =>
    [((graftHolds s).contains e.a || (opsInHand s).any (fun op => (opSources op ++ opDests op).contains e.a), stBusy)]
  eff := fun e s =>
    match slotAt s e.a with
    | some o => { s := setOp e.a { o with state := .loaded, data := fit (opLen o) (addrRead e s e.b) } s }
    | none => { s := s, st := stRange }

/-- PK.LOAD (R386). -/
def execPkLoad (w : IWord) (s : State) : Host.Outcome State Fault Refusal := .next (runCmd pkLoadCmd w s)

/-- PK.READ. -/
def pkReadCmd : Cmd where
  op := 0x82
  xm := 1
  host := hostFlag
  fmt := fun e s => opAccessChecks e s ++ addrChecks e true 1 e.b
  own := fun e s => [((opsInHand s).any (fun op => (opDests op).contains e.a), stBusy)]
  eff := fun e s =>
    match slotAt s e.a with
    | some o => { s := addrWrite e ((opData o).take e.b) s }
    | none => { s := s, st := stRange }

/-- PK.READ (R386). -/
def execPkRead (w : IWord) (s : State) : Host.Outcome State Fault Refusal := .next (runCmd pkReadCmd w s)

/-! ### Issue (R387, R388) -/

/-- The operation that a PK.OP asks for. -/
def pressOpOf (e : Env) : PressOp :=
  { func := e.b % 256, vault := nb e.a 8, slot := e.a % 256, imm := e.imm % 2 ^ 60, cseq := e.cseq }

/-- A counted operand's length field. -/
def countOf (n : Nat) (l : Bytes) : Nat := beNat (l.take n)

/-- Whether a slot is long enough for its operand (R391). -/
def needFits (o : OpSlot) : Need → Bool
  | .octets n => decide (n ≤ opLen o)
  | .counted n => decide (n + countOf n (opData o) ≤ opLen o)

/-- The slot fields that a function does not use, as bits of IMM. -/
def unusedFields (op : PressOp) : Bool :=
  let n := if op.func = 1 then 2 else (fnSources op.func).length
  decide (nf op.imm 39 (10 * n) ≠ 0 ∧ n < 4) || decide (nf op.imm 59 50 ≠ 0) ||
    ((fnOutput op.func).isNone && decide (opDst op ≠ 0))

/-- The checks of the operands of PK.OP that the slot fields give (R387), for a function other than SHAPE. -/
def pressSlotChecks (op : PressOp) (s : State) : List Check :=
  let srcs := (fnSources op.func).zip (opSources op)
  let dst := match fnOutput op.func with
    | some n =>
      match slotAt s (opDst op) with
      | some o => [(decide (opLen o < n), stLength), ((opSources op).contains (opDst op), stRange)]
      | none => [(true, stRange)]
    | none => []
  (srcs.flatMap (fun p => match slotAt s p.2 with
    | some o => [(!needFits o p.1, stLength), (decide (o.state = .stale), stRange)]
    | none => [(true, stRange)])) ++ dst

/-- The checks of SHAPE's fields (R384). -/
def shapeChecks (op : PressOp) : List Check :=
  [(decide (8 ≤ opSrc op 1), stReserved), (decide (opSrc op 0 % 2 ^ (opSrc op 1 % 8) ≠ 0), stAlign)]

/-- PK.OP. -/
def pkOpCmd : Cmd where
  op := 0x81
  fmt := fun e s =>
    let op := pressOpOf e
    [highA e 9, highB e 8, (decide (2 ^ 60 ≤ e.imm), stReserved), (!op.vault && decide (op.slot ≠ 0), stReserved),
     (!fnAssigned op.func, stReserved), (unusedFields op, stReserved), (op.vault != fnVault op.func, stRange)] ++
      if op.func = 1 then shapeChecks op else pressSlotChecks op s
  own := fun e s =>
    let op := pressOpOf e
    [(op.vault && decide (16 ≤ op.slot) && s.crust.quiesce, stFault),
     (op.vault && decide (nf (getSlot s op.slot).attr 31 28 = 0), stKeyErased),
     (op.vault && (!keyFits op.func (getSlot s op.slot).attr || (decide (op.slot < 16) && !fnPublic op.func)), stAttr),
     (decide (op.func = 1) && shapeBusy s (opSrc op 0) (opSrc op 1), stBusy),
     (decide (4 ≤ s.press.queue.length), stBusy)]
  eff := fun e s =>
    { s := { s with press := { s.press with queue := s.press.queue ++ [pressOpOf e] } }
      st := stPending
      event := some 0x7007 }

/-- PK.OP (R387). -/
def execPkOp (w : IWord) (s : State) : Host.Outcome State Fault Refusal := .next (runCmd pkOpCmd w s)

/-! ### Validation (R393, R394) -/

/-- Content of source `i`. -/
def srcData (s : State) (op : PressOp) (i : Nat) : Bytes :=
  match slotAt s (opSrc op i) with
  | some o => opData o
  | none => []

/-- A source as an integer of `n` octets from offset `o`. -/
def srcNat (s : State) (op : PressOp) (i o n : Nat) : Nat := beNat (((srcData s op i).drop o).take n)

/-- A counted operand without its length field. -/
def srcCounted (s : State) (op : PressOp) (i n : Nat) : Bytes :=
  ((srcData s op i).drop n).take (countOf n (srcData s op i))

/-- The checks of a point (R393). -/
def pointChecks (c : Nat) (q : Nat × Nat) : List Check :=
  [(decide (curveP c ≤ q.1 ∨ curveP c ≤ q.2), stNotInField),
   (!onCurve c q.1 q.2 || decide (q.1 = 0 ∧ q.2 = 0), stNotOnCurve)]

/-- Whether a scalar is out of range. -/
def scalarBad (c v : Nat) : Bool := decide (v = 0 ∨ curveN c ≤ v)

/-- Whether a modulus of `b` octets is even or has its top bit clear. -/
def modulusBad (b n : Nat) : Bool := decide (n % 2 = 0 ∨ n < 2 ^ (8 * b - 1))

/-- The validation checks of an operation (R393). -/
def validation (s : State) (op : PressOp) : List Check :=
  let c := op.func % 16
  let f := curveF c
  let b := modF c
  match op.func / 16 with
  | 3 => pointChecks c (pointOf c (srcData s op 0)) ++
      [(scalarBad c (srcNat s op 2 0 f) || scalarBad c (srcNat s op 2 f f), stScalar)]
  | 4 => pointChecks c (pointOf c (srcData s op 0))
  | 5 => pointChecks c (pointOf c (srcData s op 0)) ++ [(scalarBad c (srcNat s op 1 0 f), stScalar)]
  | 6 =>
    let m := srcNat s op 2 0 b
    [(decide (srcNat s op 0 0 b = 0 ∨ m ≤ srcNat s op 0 0 b) || modulusBad b m || decide (srcNat s op 1 0 b = 0),
      stRange)]
  | 7 | 8 =>
    let n := srcNat s op 0 0 b
    let e := srcNat s op 0 b 4
    [(modulusBad b n || decide (e % 2 = 0 ∨ e < 3) || decide (srcNat s op 2 0 b = 0 ∨ n ≤ srcNat s op 2 0 b), stRange)]
  | _ => []

/-- Validation time in QCLK (R394). -/
def validationTime (f : Nat) : Nat :=
  let c := f % 16
  match f / 16 with
  | 3 | 4 | 5 => if c = 1 then 3750 else if c = 2 then 7500 else 15000
  | 6 | 7 | 8 => if c = 1 then 1250 else if c = 2 then 2500 else 3750
  | _ => 0

/-- Time of the check of an ML-KEM encapsulation key in an internal request, in QCLK (R394). -/
def kemCheckTime : Nat := 2500

/-! ### Functions (R390 to R392, R396, R397) -/

/-- The secret scalar of a P-curve key (R354). -/
def secretScalar (c : Nat) (secret : Bytes) : Nat :=
  if c = 3 then beNat (fit 80 (shake256 (secret.take 64) 80)) % (curveN 3 - 1) + 1
  else beNat (secret.take (curveF c))

/-- The x-coordinate of a point, as octets. -/
def abscissa (c : Nat) (q : Option (Nat × Nat)) : Bytes :=
  beBytes (curveF c) (match q with | some r => r.1 | none => 0)

/-- The shared x-coordinate of a scalar and a point, as octets. -/
def sharedX (c d : Nat) (q : Nat × Nat) : Bytes := abscissa c (ecMul c d q)

/-- "PRESSMAC". -/
def pressMacLabel : Bytes := beBytes 8 0x50524553534D4143

/-- A key-confirmation tag (R392). -/
def pressMac (ss peer transcript : Bytes) : Bytes :=
  fit 48 (hmac384 (sha3 (ss ++ peer ++ pressMacLabel)) transcript)

/-- The verdict of a verify function. -/
def verdict (ok : Bool) : Nat × Bytes := (if ok then stOk else stAuth, [])

/-- Octets that a fault has put on some others, by exclusive or (R398). -/
def upsetOctets (up l : Bytes) : Bytes := l.mapIdx (fun i b => b ^^^ up.getD i 0)

/-- Whether a function is one of the EC functions with a result point (R390, R398). -/
def ecFn (f : Nat) : Bool := [1, 3, 4, 5].contains (f / 16)

/-- The result point of an EC function. -/
def resultPoint (s : State) (op : PressOp) : Option (Nat × Nat) :=
  let c := op.func % 16
  let f := curveF c
  match op.func / 16 with
  | 1 => ecMul c (secretScalar c op.secret) (curveG c)
  | 3 => ecdsaPoint c (pointOf c (srcData s op 0)) ((srcData s op 1).take (digF c)) (srcNat s op 2 0 f) (srcNat s op 2 f f)
  | 4 => ecMul c (secretScalar c op.secret) (pointOf c (srcData s op 0))
  | 5 => ecMul c (srcNat s op 1 0 f) (pointOf c (srcData s op 0))
  | _ => none

/-- The result point with what a fault has put on it. -/
def upsetPoint (c : Nat) (up : Bytes) (q : Option (Nat × Nat)) : Option (Nat × Nat) :=
  if up = [] then q else some (pointOf c (upsetOctets up (pointBytes c q)))

/-- Whether a result point is off its curve (R398). -/
def offCurve (c : Nat) (q : Option (Nat × Nat)) : Bool := match q with | some p => !onCurve c p.1 p.2 | none => false

/-- What an EC function gives with its result point. -/
def ecOutput (s : State) (op : PressOp) (q : Option (Nat × Nat)) : Nat × Bytes :=
  let c := op.func % 16
  let f := curveF c
  match op.func / 16 with
  | 3 => verdict (abscissaIs (curveN c) (srcNat s op 2 0 f) q)
  | 4 => (stOk, pressMac (abscissa c q) ((srcData s op 0).take (2 * f)) (srcCounted s op 1 2))
  | _ => (stOk, pointBytes c q)

/-- The nonce of ECDSA.SIGN. -/
def signNonce (c : Nat) (op : PressOp) (dg rnd : Bytes) : Nat := hedgedNonce c (secretScalar c op.secret) dg rnd

/-- The final step of an output as it is computed, for a function without a result point (R398): s of ECDSA, response and hint
of ML-DSA, the power of a modulus, the octets of a key or a tag; of DSA.VERIFY the verdict. -/
def finalStep (s : State) (op : PressOp) (rnd : Bytes) : Bytes :=
  let c := op.func % 16
  let f := curveF c
  let b := modF c
  match op.func / 16 with
  | 2 =>
    let dg := (srcData s op 0).take (digF c)
    beBytes f (ecdsaSig c (secretScalar c op.secret) (signNonce c op dg rnd) dg).2
  | 6 => beBytes b (powMod (srcNat s op 2 0 b) (8 * b) (srcNat s op 0 0 b) (srcNat s op 1 0 b))
  | 7 | 8 => beBytes b (powMod (srcNat s op 0 0 b) 32 (srcNat s op 2 0 b) (srcNat s op 0 b 4))
  | 9 =>
    if c = 1 then fit 1568 (kemPub op.secret)
    else pressMac (fit 32 (kemDecaps op.secret ((srcData s op 0).take 1568)))
      ((srcData s op 0).take 1568) (srcCounted s op 1 2)
  | 10 =>
    if c = 1 then fit 2592 (dsaPub (op.secret.take 32))
    else if c = 2 then
      match dsaSign (op.secret.take 32) (srcCounted s op 0 2) (srcCounted s op 1 1) rnd with
      | some sig => (fit 4627 sig).drop 64
      | none => []
    else beBytes 1 (bn (dsaVerify ((srcData s op 0).take 2592) (srcCounted s op 1 2) (srcCounted s op 2 1)
      ((srcData s op 3).take 4627)))
  | _ => []

/-- What a function gives with its final step `z`: status and output. -/
def outputOf (s : State) (op : PressOp) (rnd z : Bytes) : Nat × Bytes :=
  let c := op.func % 16
  match op.func / 16 with
  | 2 =>
    let dg := (srcData s op 0).take (digF c)
    (stOk, beBytes (curveF c) (ecdsaSig c (secretScalar c op.secret) (signNonce c op dg rnd) dg).1 ++ z)
  | 7 => verdict (decide (z = pkcs1Encoded (modF c) ((srcData s op 1).take 48)))
  | 8 => verdict (pssOk (modF c) ((srcData s op 1).take 48) z)
  | 10 =>
    if c = 2 then
      match dsaSign (op.secret.take 32) (srcCounted s op 0 2) (srcCounted s op 1 1) rnd with
      | some sig => (stOk, sig.take 64 ++ z)
      | none => (stFault, [])
    else if c = 3 then verdict (decide (z = beBytes 1 1))
    else (stOk, z)
  | _ => (stOk, z)

/-- What a function computes: status and output; with DRBG octets `rnd` where it takes them, after its validation, and with
what a fault has put on the final step of its output (R398). -/
def compute (s : State) (op : PressOp) (rnd up : Bytes) : Nat × Bytes :=
  if ecFn op.func then ecOutput s op (upsetPoint (op.func % 16) up (resultPoint s op))
  else outputOf s op rnd (upsetOctets up (finalStep s op rnd))

/-- Whether the redundant path finds the final step of an output as the main path has it (R398): the result point of an EC
function is on its curve; any other final step comes out the same. -/
def redundant (s : State) (op : PressOp) (rnd up : Bytes) : Bool :=
  if ecFn op.func then !offCurve (op.func % 16) (upsetPoint (op.func % 16) up (resultPoint s op))
  else decide (upsetOctets up (finalStep s op rnd) = finalStep s op rnd)

/-- Attempts of a DSA.SIGN (R396). -/
def attempts (s : State) (op : PressOp) (rnd : Bytes) (st : Nat) : Nat :=
  if op.func ≠ 0xA2 then 0
  else if st = stOk then
    min 814 (max 1 (dsaAttempts (op.secret.take 32) (srcCounted s op 0 2) (srcCounted s op 1 1) rnd))
  else 814

/-- Generate requests and their octets: 48 for ECDSA.SIGN, 32 for DSA.SIGN, and the blinding of other secrets. -/
def opRandom (op : PressOp) : Nat := if op.func / 16 = 2 then 48 else if op.func = 0xA2 then 32 else 8

/-- The running operation computes its result: validation, then the function, with what a fault puts on its final step. An
output that the redundant path does not find the same is none (R398). -/
def perform (up : Bytes) (op : PressOp) (s : State) : State :=
  let bad := firstFail (validation s op)
  let r := if op.vault then internalRandom (opRandom op) s else ([], s)
  let res := if bad ≠ stOk then (bad, []) else compute r.2 op r.1 up
  let n := if bad ≠ stOk then 0 else attempts r.2 op r.1 res.1
  let wrong := decide (bad = stOk) && !redundant r.2 op r.1 up
  let s := r.2
  { s with press := { s.press with running := some { op with
      result := some (if wrong then (stFault, []) else res), mismatch := wrong, work := n } } }

/-- The function rows: the running operation, if it is of these functions and has no result yet, computes it. -/
def runFn (run : PressRun) (fs : List Nat) (s : State) : State :=
  event run.t
    (fun s => match s.press.running with
      | some op => fs.contains op.func && op.result.isNone
      | none => false)
    (fun s => match s.press.running with
      | some op => perform run.upset op s
      | none => s) s

/-- PK_SHAPE (R384): the running SHAPE makes its slot. -/
def execPkShape (t : Nat) (s : State) : Host.Outcome State Fault Refusal :=
  .next (event t
    (fun s => match s.press.running with
      | some op => decide (op.func = 1) && op.result.isNone
      | none => false)
    (fun s => match s.press.running with
      | some op =>
        let n := shapeGranules s (opSrc op 0) (opSrc op 1)
        let s := shape (opSrc op 0) (opSrc op 1) s
        { s with press := { s.press with running := some { op with result := some (stOk, []), work := n } } }
      | none => s) s)

/-- EC_PUB (R390). -/
def execEcPub (run : PressRun) (s : State) : Host.Outcome State Fault Refusal := .next (runFn run [0x11, 0x12, 0x13] s)
/-- ECDSA_SIGN (R390). -/
def execEcdsaSign (run : PressRun) (s : State) : Host.Outcome State Fault Refusal := .next (runFn run [0x21, 0x22, 0x23] s)
/-- ECDSA_VERIFY (R390). -/
def execEcdsaVerify (run : PressRun) (s : State) : Host.Outcome State Fault Refusal := .next (runFn run [0x31, 0x32, 0x33] s)
/-- ECDH_MAC (R392). -/
def execEcdhMac (run : PressRun) (s : State) : Host.Outcome State Fault Refusal := .next (runFn run [0x41, 0x42, 0x43] s)
/-- EC_MUL (R390). -/
def execEcMul (run : PressRun) (s : State) : Host.Outcome State Fault Refusal := .next (runFn run [0x51, 0x52, 0x53] s)
/-- MODEXP (R390). -/
def execModexp (run : PressRun) (s : State) : Host.Outcome State Fault Refusal := .next (runFn run [0x61, 0x62, 0x63] s)
/-- RSA_PKCS1 (R390). -/
def execRsaPkcs1 (run : PressRun) (s : State) : Host.Outcome State Fault Refusal := .next (runFn run [0x72, 0x73] s)
/-- RSA_PSS (R390). -/
def execRsaPss (run : PressRun) (s : State) : Host.Outcome State Fault Refusal := .next (runFn run [0x82, 0x83] s)
/-- KEM_PUB (R390). -/
def execKemPub (run : PressRun) (s : State) : Host.Outcome State Fault Refusal := .next (runFn run [0x91] s)
/-- KEM_MAC (R392). -/
def execKemMac (run : PressRun) (s : State) : Host.Outcome State Fault Refusal := .next (runFn run [0x93] s)
/-- DSA_PUB (R390). -/
def execDsaPub (run : PressRun) (s : State) : Host.Outcome State Fault Refusal := .next (runFn run [0xA1] s)
/-- DSA_SIGN (R396). -/
def execDsaSign (run : PressRun) (s : State) : Host.Outcome State Fault Refusal := .next (runFn run [0xA2] s)
/-- DSA_VERIFY (R390). -/
def execDsaVerify (run : PressRun) (s : State) : Host.Outcome State Fault Refusal := .next (runFn run [0xA3] s)

/-! ### Timings (R395) -/

/-- Bits of a number of at most `n` bits. -/
def bitLength : Nat → Nat → Nat
  | 0, _ => 0
  | n + 1, v => if v = 0 then 0 else bitLength n (v / 2) + 1

/-- QCLK of an exponentiation: V and the steps of the exponent, with a pad check of `extra`; half cycles round up. -/
def expCycles (f bits e extra : Nat) : Nat :=
  let c := f % 16
  let t := if c = 1 then 575 else if c = 2 then 1250 else 2125
  (2 * (validationTime f + extra) + (bitLength bits e + popCount bits e - 2) * t + 1) / 2

/-- QCLK that a MAC function adds for its transcript. -/
def macCycles (s : State) (op : PressOp) : Nat := 125 * (((srcCounted s op 1 2).length + 127) / 128)

/-- One of three. -/
def byCurve (c a b d : Nat) : Nat := if c = 1 then a else if c = 2 then b else d

/-- QCLK from the start edge to the completion event of an operation that passes validation (R384, R395, R396). -/
def fullCycles (s : State) (op : PressOp) (st : Nat) : Nat :=
  let c := op.func % 16
  match op.func / 16 with
  | 0 => 125 + op.work
  | 1 => byCurve c 21250 52500 120000
  | 2 => byCurve c 25000 60000 137500
  | 3 => byCurve c 50000 118750 275000
  | 4 => byCurve c 23750 57500 130000 + macCycles s op
  | 5 => byCurve c 22500 55000 125000
  | 6 => expCycles op.func (8 * modF c) (srcNat s op 1 0 (modF c)) 0
  | 7 | 8 => expCycles op.func 32 (srcNat s op 0 (modF c) 4) 625
  | 9 => if c = 1 then 25000 else 31250 + macCycles s op
  | _ => if c = 1 then 87500 else if c = 3 then 75000 else 187500 + 9750 * op.work + if st = stOk then 290 else 0

/-- QCLK from the start edge to the completion event. -/
def opCycles (s : State) (op : PressOp) (st : Nat) : Nat :=
  if firstFail (validation s op) = stOk then fullCycles s op st else validationTime op.func

/-! ### Ends (R389, R400 to R402) -/

/-- The place of a status among the counters of R403. -/
def pressPlace (st : Nat) : Option Nat :=
  if st = stOk then some 1 else if st = stAuth then some 2 else if st = stRange then some 3
  else if st = stNotInField then some 4 else if st = stNotOnCurve then some 5 else if st = stScalar then some 6
  else if st = stAborted then some 7 else if st = stKeyErased then some 8 else if st = stFault then some 9 else none

/-- An internal request is served (R388, R403) and keeps the Press for `n` QCLK, after whatever it is at. -/
def internalUse (n : Nat) (s : State) : State :=
  let s := bump 17 1 12 48 1 s
  { s with press := { s.press with freeAt := max s.press.freeAt s.clk.root + 8 * n } }

/-- A mismatch of the redundant path in a computation of the Press (R398): counted and raised. -/
def pressMismatch (s : State) : State := raise 0x7009 0 0 (bump 17 1 10 48 1 s)

/-- The working registers are overwritten with DRBG output and zeroed (R399), which takes at most 64 QCLK: how many is not
stated. A stopped DRBG gives no output for it. -/
def clearing (s : State) : State :=
  let d := draw s
  let s := if d.2.vault.drbgStopped then d.2 else (internalRandom 64 d.2).2
  { s with press := { s.press with freeAt := s.clk.root + 8 * (d.1 % 65) } }

/-- Whether an operation has a destination that is STALE. -/
def leavesStale (s : State) (op : PressOp) : Bool :=
  (opDests op).any (fun g => match slotAt s g with | some o => decide (o.state = .stale) | none => false)

/-- Attempts that a DSA.SIGN has made after `n` QCLK: each begins after the one before it, the first after 150 µs (R395, R396);
one that is under way counts (DEDUCED). -/
def attemptsBy (op : PressOp) (n : Nat) : Nat := min op.work ((n - 187500 + 9749) / 9750)

/-- An operation ends after `n` QCLK with its completion event, which says whether its destination is STALE (R402); its attempts
are counted (R403) and the working registers cleared. -/
def endOp (op : PressOp) (st n : Nat) (s : State) : State :=
  let s := match pressPlace st with
    | some k => bump 17 1 k 48 1 s
    | none => s
  let s := if op.func = 0xA2 then bump 17 1 11 48 (attemptsBy op n) s else s
  clearing (complete 0x7007 op.cseq st op.func (bn (leavesStale s op) * 2 ^ 32 + n % 2 ^ 32)
    { s with press := { s.press with running := none } })

/-- Whether the running operation has reached the edge of its completion. -/
def opDue (s : State) (op : PressOp) : Bool :=
  match op.result with
  | some r => decide (op.since + 8 * opCycles s op r.1 ≤ s.clk.root)
  | none => false

/-- PRESS_OP_START (R388, R389, R397). -/
def startOp (op : PressOp) (rest : List PressOp) (s : State) : State :=
  let op := { op with since := s.clk.root }
  let s := bump 17 1 0 48 1 { s with press := { s.press with queue := rest, running := some op } }
  if !op.vault then s
  else
    let k := getSlot s op.slot
    if nf k.attr 31 28 = 0 then endOp op stKeyErased 0 s
    else if !keyFits op.func k.attr then endOp op stAttr 0 s
    else if s.vault.drbgStopped then endOp op stFault 0 s
    else { s with press := { s.press with running := some { op with secret := k.payload } } }

/-- Whether the Graft message that is being checked needs the Press: to verify signatures, or for the key-encryption key of a
hybrid KEM (R363, R365). -/
def graftNeedsPress (m : Bytes) : Bool := decide (mf m 5 1 ≠ 0 ∨ mf m 6 1 = 2)

/-- Whether an internal request waits: it goes ahead of queued operations (R388). -/
def internalWaits (s : State) : Bool :=
  vintageWaits s || match s.vault.serving with
    | some v => decide (v.phase = .taken) && graftNeedsPress v.msg.octets
    | none => false

/-- Whether the Press takes the next operation from its queue. -/
def opStarts (s : State) : Bool := pressIdle s && !internalWaits s && !s.press.queue.isEmpty

/-- Functions that use their destination as working storage from the end of validation (R400). -/
def worksInDst (f : Nat) : Bool := f / 16 == 5 || f / 16 == 6

/-- What an operation stopped after `n` QCLK has left in its destination: the octets written, none if untouched. What
working storage holds is not stated. -/
def leftover (s : State) (op : PressOp) (n : Nat) : Option Bytes × State :=
  match fnOutput op.func, op.result with
  | some len, some (st, out) =>
    let start := opCycles s op st - (len + 15) / 16
    if worksInDst op.func && decide (validationTime op.func < n) && (op.mismatch || decide (st = stOk)) then
      let d := drawOctets len s
      (some d.1, d.2)
    else if decide (st = stOk) && decide (start < n) then (some (out.take (16 * (n - start))), s)
    else (none, s)
  | _, _ => (none, s)

/-- The running operation is stopped after `n` QCLK (R400, R401): partial output leaves its destination STALE. -/
def stopOp (op : PressOp) (st n : Nat) (s : State) : State :=
  let l := leftover s op n
  match l.1, slotAt l.2 (opDst op) with
  | some w, some o =>
    endOp op st n (setOp (opDst op) { o with state := .stale, data := w ++ (opData o).drop w.length } l.2)
  | _, _ => endOp op st n l.2

/-- The operation completes: its output is written, or a mismatch of R398 suppresses it, which is counted and raised. -/
def completeOp (op : PressOp) (st : Nat) (out : Bytes) (s : State) : State :=
  let n := opCycles s op st
  if op.mismatch then stopOp op st n (pressMismatch s)
  else
    let s := match fnOutput op.func, slotAt s (opDst op) with
      | some _, some o =>
        if st = stOk then setOp (opDst op) { o with state := .result, data := fit (opLen o) out } s else s
      | _, _ => s
    let s := if op.func = 0xA2 && st == stFault then raise 0x7008 0 0 s else s
    endOp op st n s

/-- Whether the running operation is complete. -/
def runningDue (s : State) : Bool := match s.press.running with | some op => opDue s op | none => false

/-- The running operation completes. -/
def completeRunning (s : State) : State :=
  match s.press.running with
  | some op => match op.result with
    | some r => completeOp op r.1 r.2 s
    | none => s
  | none => s

/-- The running operation ends with a status, unless its completion has been reached (R401). -/
def endRunning (st : Nat) (s : State) : State :=
  let s := match s.press.running with
    | some op => if op.result.isNone && decide (op.func ≠ 1) then perform [] op s else s
    | none => s
  match s.press.running with
  | none => s
  | some op =>
    match op.result with
    | some r => if opDue s op then completeOp op r.1 r.2 s else stopOp op st ((s.clk.root - op.since) / 8) s
    | none => stopOp op st ((s.clk.root - op.since) / 8) s

/-- PK.ABORT. -/
def pkAbortCmd : Cmd where
  op := 0x83
  fmt := fun e _ => [zeroA e, zeroB e, zeroI e]
  eff := fun _ s => { s := endRunning stAborted s }

/-- An erase of a Key Vault slot ends the running operation that uses it (R370, R401). -/
def pressErased (slot : Nat) (s : State) : State :=
  match s.press.running with
  | some op => if op.vault && op.slot == slot then endRunning stKeyErased s else s
  | none => s

/-- A Crust erase (R380, R400): operations end with ST_KEY_ERASED and operand memory is zeroed. -/
def pressWiped (s : State) : State :=
  let s := { s with press := { s.press with ops := [] } }
  let s := match s.press.running with
    | some op => endOp op stKeyErased ((s.clk.root - op.since) / 8) s
    | none => s
  let q := s.press.queue
  q.foldl (fun s op => endOp op stKeyErased 0 s) { s with press := { s.press with queue := [] } }

end Sys2Proof.Machine
end

