-- ==== Sys2Proof/Machine/Guard.lean ====
section
/-! DEFINITION. The Memory Guard (15_memory_guard.md): accesses, regions, rotation, rebuilding and scrubbing. -/

namespace Sys2Proof.Machine

/-! ### Accesses of masters (R425, R426) -/

/-- MG_ACCESS (R425): the answer goes to the master. -/
def execMgAccess (t : Nat) (m : MgMaster) (acc : MgAccess) (s : State) : Host.Outcome State Fault Refusal :=
  .next (event t (fun _ => true)
    (fun s =>
      let r := mgAccess m acc s
      emit (.mgAnswer r.1.1 r.1.2) r.2) s)

/-- The checks of the memory-port descriptor (R37, R426). -/
def portDescChecks (v : Nat) : List Check :=
  [(decide (1 < nf v 143 136 ∨ 1 < nf v 135 128 ∨ nf v 119 0 ≠ 0), stReserved),
   (decide (nf v 255 192 % 64 ≠ 0), stAlign),
   (decide (64 < nf v 159 144), stLength), (decide (nf v 159 144 = 0), stRange),
   (decide (nf v 191 160 < 0x60000 ∨ 0x70000 ≤ nf v 191 160), stRange),
   (decide (nf v 191 160 < 0x70000 ∧ 0x70000 < nf v 191 160 + 64 * nf v 159 144), stLength)]

/-- One line of a memory-port copy; the first failure is kept. -/
def portLine (x : Nat) (v i : Nat) (fault : DramFault) (others : List (Nat × DramFault)) (r : Nat × State) : Nat × State :=
  let m := if x = 0 then MgMaster.complexA else MgMaster.complexB
  let la := nf v 191 160 + 64 * i
  let w := decide (nf v 143 136 = 1)
  let q := mgAccess m ⟨w, nf v 255 192 + 64 * i, 2 ^ 64 - 1, if w then readMem r.2 la 64 else [], fault, others⟩ r.2
  let s := if !w && decide (q.1.1 = stOk) then storeMem q.2 la q.1.2 else q.2
  (if r.1 = stOk then q.1.1 else r.1, s)

/-- The copy of the memory-port descriptor: GO reads 0 and the status is written when it ends (R426). -/
def portCopy (faults : List DramFault) (others : List (Nat × DramFault)) (s : State) : State :=
  let v := beNat (readMem s 0x6FFE0 32)
  match activeNow s with
  | none => s
  | some x =>
    let st := fieldFail (portDescChecks v)
    let r := if st ≠ 0 then (st, s) else
      (List.range (nf v 159 144)).foldl (fun r i => portLine x v i (faults.getD i .none) others r) (stOk, s)
    storeMem r.2 0x6FFEF (beBytes 1 0 ++ beBytes 1 r.1)

/-- MEMORY_PORT_COPY (R426). -/
def execMemoryPortCopy (t : Nat) (x : CopyFaults) (s : State) : Host.Outcome State Fault Refusal :=
  .next (event t (fun s => s.seq.active.isSome && decide (beNat (readMem s 0x6FFEF 1) = 1)) (portCopy x.lines x.others) s)

/-! ### MG.REGION (R422 to R424) -/

/-- A descriptor of 32 octets in local memory. -/
def mgDesc (e : Env) (s : State) : Nat := beNat (readMem s e.imm 32)

/-- The operand checks of MG.REGION and MG.REKEY, with those of the descriptor. -/
def mgDescChecks (e : Env) (s : State) (f : Nat → List Check) : List Check :=
  [highA e 4, zeroB e] ++ ptrChecks e.k false 32 e.imm 32 ++
    if ptrOk e.k false 32 e.imm 32 then f (mgDesc e s) else []

/-- The checks of a key source's slot (R423). -/
def mgSlotChecks (s : State) (ksrc : Bool) (slot kgen : Nat) : List Check :=
  let a := (getSlot s slot).attr
  [(ksrc && decide (nf a 31 28 = 0), stKeyErased),
   (ksrc && (decide (nf a 31 28 ≠ 1) || !nb a 20 || decide (nf a 11 0 ≠ kgen)), stAttr)]

/-- The fields of a region descriptor that R423 checks. -/
def regionFieldChecks (s : State) (v : Nat) : List Check :=
  let base := nf v 225 202
  let n := nf v 201 178
  [(decide (nf v 167 0 ≠ 0), stReserved), (decide (n = 0), stRange),
   (decide (s.mg.ready = .ready (mgPages s) ∧ usablePages (mgPages s) < base + n), stRange),
   (s.mg.regions.any (fun g => decide (g.2.base < base + n ∧ base < g.2.base + g.2.pages)), stRange),
   (!nb v 254 && decide (nf v 245 238 ≠ 0 ∨ nf v 237 226 ≠ 0), stRange)]

/-- The quarantine entries whose pages all lie in a range are dropped (R424). -/
def dropQuarantine (base n : Nat) (s : State) : State :=
  { s with mg := { s.mg with quarantine := s.mg.quarantine.filter (fun q => !nodeWithin q.1 q.2 base n) } }

/-- The metadata lines whose pages all lie in a range are fresh: all zeros, with every counter that they hold, in DRAM and in the
node cache (R431). A line that reaches beyond the range keeps its content. -/
def freshPages (base n : Nat) (s : State) : State :=
  { s with mg := { s.mg with
      blocks := s.mg.blocks.filter (fun b => !decide (base ≤ b.1 ∧ b.1 < base + n))
      lines := s.mg.lines.filter (fun l => !decide (base ≤ l.1 / 64 ∧ l.1 / 64 < base + n))
      nodes := s.mg.nodes.filter (fun c => !nodeWithin c.level c.idx base n)
      tags := s.mg.tags.filter (fun c => !nodeWithin (c.1 / 2 ^ 30) (c.1 % 2 ^ 30) base n)
      parents := s.mg.parents.filter (fun c => !nodeWithin (c.1 / 2 ^ 30 + 1) (c.1 % 2 ^ 30 / 8) base n) } }

/-- Whether a range of pages holds the whole spill area, 192 pages (R100, R114). -/
def holdsSpill (base n : Nat) : Bool := decide (base ≤ Config.spillPage ∧ Config.spillPage + 192 ≤ base + n)

/-- A region is created (R424). -/
def createRegion (r v : Nat) (s : State) : State :=
  let base := nf v 225 202
  let n := nf v 201 178
  let s := loadKey (nf v 251 246) (if nb v 254 then some (nf v 245 238) else none) (freshPages base n (dropQuarantine base n s))
  let s := setRegion s r
    { ksrc := nb v 254, retain_ := nb v 253, patrol := nb v 252, keyid := nf v 251 246, slot := nf v 245 238
      kgen := nf v 237 226, base := base, pages := n, rights := nf v 177 168, birth := s.mg.treeClock }
  { s with mg := { s.mg with treeClock := s.mg.treeClock + 1 } }

/-! ### The rootstock's own regions (R114) -/

/-- First page and number of pages of the rootstock's region `i`: of the Association Table and the statistics table, 8 192
and 2 048 pages, or of the spill area. -/
def rootPages (i : Nat) : Nat × Nat :=
  if i = 0 then
    let lo := min Config.assocPage Config.statsPage
    (lo, max (Config.assocPage + 8192) (Config.statsPage + 2048) - lo)
  else (Config.spillPage, 192)

/-- The flags RETAIN and PATROL of the rootstock's region `i`: the region of the tables is retained (the worked example after
R435). -/
def rootFlags (i : Nat) : Nat := if i = 0 then 2 ||| Config.rootFlags i % 4 else Config.rootFlags i % 4

/-- The rights word of the rootstock's region `i`: the cache engine alone reaches the tables (R119), and it reaches the
spill area (R426). -/
def rootRights (i : Nat) : Nat := if i = 0 then 0x030 else 0x030 ||| Config.rootRights i % 1024

/-- The descriptor of the rootstock's region `i`, its key from the DRBG. -/
def rootDesc (i : Nat) : Nat :=
  let g := rootPages i
  2 ^ 255 + rootFlags i * 2 ^ 252 + Config.rootKeyId i % 64 * 2 ^ 246 + g.1 % 2 ^ 24 * 2 ^ 202 +
    g.2 % 2 ^ 24 * 2 ^ 178 + rootRights i * 2 ^ 168

/-- Whether MG.REGION can create region `r` under descriptor `v` (R423). -/
def canCreate (r v : Nat) (s : State) : Bool :=
  (match s.mg.ready with | .ready _ => true | _ => false) && !s.vault.drbgStopped && (getRegion s r).isNone &&
    !keyInUse s (nf v 251 246) && firstFail (regionFieldChecks s v) == stOk

/-- The rootstock creates its region `i` where MG.REGION can succeed. -/
def createRoot (i : Nat) (s : State) : State :=
  let r := Config.rootNumber i % 16
  if canCreate r (rootDesc i) s then createRegion r (rootDesc i) s else s

/-- With no program asking, the rootstock creates the regions of its tables and of the spill area, and assigns the spill area
while a valid region holds it (R114). -/
def rootstockMemory (s : State) : State :=
  let s := createRoot 1 (createRoot 0 s)
  { s with cls := { s.cls with spillArea := s.mg.regions.any (fun g => holdsSpill g.2.base g.2.pages) } }

/-- The command MG.REGION with VALID = 1. -/
def mgRegionCreateBare : Cmd where
  op := 0x90
  fmt := fun e s => mgDescChecks e s (regionFieldChecks s)
  own := fun e s =>
    let v := mgDesc e s
    [(decide (s.mg.ready = .unavailable) || s.vault.drbgStopped || (nb v 254 && s.crust.quiesce), stFault),
     (decide (s.mg.ready = .training ∨ s.mg.ready = .off), stBusy), ((getRegion s e.a).isSome, stBusy),
     (keyInUse s (nf v 251 246), stBusy)] ++ mgSlotChecks s (nb v 254) (nf v 245 238) (nf v 237 226)
  eff := fun e s => { s := createRegion e.a (mgDesc e s) s }

/-- The spill area is lost with its region (R114). -/
def loseSpill (s : State) : State :=
  let s := s.cls.spillPath.foldl (fun s k => bumpCls k.port 8 1 s) s
  { s with cls := { s.cls with
      spillArea := false, spillPath := [], peers := s.cls.peers.filter (fun p => decide (p.1 % 16 < 4)) } }

/-- An operation on a region ends early, if it runs. -/
def endMgOp (code : Nat) (cseq : Option Nat) (st : Nat) (s : State) : State :=
  match cseq with
  | some q => complete code q st 0 0 s
  | none => s

/-- What runs on a region ends with a status (R424). -/
def endRegionOps (g : Region) (st : Nat) (s : State) : State :=
  let s := if g.rotating then endMgOp 0x800A g.rotCseq st s else s
  endMgOp 0x800B g.scrubbing st (endMgOp 0x800A g.rebuilding st s)

/-- A region is removed: its keys are zeroed and its content is lost (R424). -/
def removeRegion (r st : Nat) (s : State) : State :=
  match getRegion s r with
  | none => s
  | some g =>
    let s := endRegionOps g st s
    let s := dropKey g.keyid (match g.alias_ with | some a => dropKey a s | none => s)
    let s := dropQuarantine g.base g.pages { s with mg := { s.mg with regions := tabDel s.mg.regions r } }
    if holdsSpill g.base g.pages && s.cls.spillArea then loseSpill s else s

/-- MG_TRAINING_COMPLETE (R114, R419): the event carries the installed size in octets, or names the place that failed. -/
def execMgTrainingComplete (t : Nat) (ok : Bool) (place : Nat) (s : State) : Host.Outcome State Fault Refusal :=
  .next (event t (fun s => decide (s.mg.ready = .training))
    (fun s =>
      let p := installedPages s.mg.setting
      if ok then rootstockMemory (raise 0x8001 0 (p * 4096) { s with mg := { s.mg with ready := .ready p } })
      else raise 0x8002 0 place { s with mg := { s.mg with ready := .unavailable } }) s)

/-- MG.REGION with VALID = 0. -/
def mgRegionRemoveCmd : Cmd where
  op := 0x90
  fmt := fun e s => mgDescChecks e s (fun v =>
    [(decide (nf v 167 0 ≠ 0), stReserved), (decide (nf v 254 168 ≠ 0), stRange)])
  own := fun _ s =>
    [(decide (s.mg.ready = .unavailable) || s.vault.drbgStopped, stFault),
     (decide (s.mg.ready = .training ∨ s.mg.ready = .off), stBusy)]
  eff := fun e s => { s := rootstockMemory (removeRegion e.a stAborted s) }

/-- MG_REGION_REMOVE (R424). -/
def execMgRegionRemove (w : IWord) (s : State) : Host.Outcome State Fault Refusal := .next (runCmd mgRegionRemoveCmd w s)

/-- MG.RIGHTS. -/
def mgRightsCmd : Cmd where
  op := 0x93
  fmt := fun e s => [highA e 4, zeroB e, highI e 10, ((getRegion s e.a).isNone, stRange)]
  own := fun _ s => mgReadyChecks s
  eff := fun e s =>
    match getRegion s e.a with
    | some g => { s := setRegion s e.a { g with rights := e.imm } }
    | none => { s := s, st := stRange }

/-- MG_RIGHTS (R426). -/
def execMgRights (w : IWord) (s : State) : Host.Outcome State Fault Refusal := .next (runCmd mgRightsCmd w s)

/-! ### MG.REKEY (R442 to R445) -/

/-- The field checks that both modes share (R442). -/
def rekeyFieldChecks (s : State) (r v : Nat) : List Check :=
  [(decide (nf v 255 254 = 0 ∨ nf v 255 254 = 3), stReserved), (decide (nf v 225 0 ≠ 0), stReserved),
   ((getRegion s r).isNone, stRange), (!nb v 253 && decide (nf v 252 226 ≠ 0), stRange),
   (!nb v 252 && decide (nf v 245 226 ≠ 0), stRange)]

/-- Whether a rotation or rebuild runs on a region. -/
def rekeyRuns (g : Region) : Bool := g.rotating || g.rebuilding.isSome

/-- The checks of MG.REKEY that both modes share after the fields. -/
def rekeyOwn (s : State) (r v : Nat) : List Check :=
  [((nb v 253 && s.vault.drbgStopped) || (nb v 252 && s.crust.quiesce), stFault),
   (match getRegion s r with | some g => rekeyRuns g | none => false, stBusy),
   (nb v 253 && keyInUse s (nf v 251 246), stBusy)]

/-- Whether a region is revoked. -/
def isRevoked (s : State) (r : Nat) : Bool := match getRegion s r with | some g => g.revoked | none => false

/-- The source of a new key in a rekey descriptor. -/
def rekeySource (v : Nat) : Option Nat := if nb v 252 then some (nf v 245 238) else none

/-- The command MG.REKEY with MODE ROTATE. -/
def mgRotateBare : Cmd where
  op := 0x91
  fmt := fun e s => mgDescChecks e s (fun v => rekeyFieldChecks s e.a v ++ [(!nb v 253, stRange)])
  own := fun e s =>
    let v := mgDesc e s
    mgReadyChecks s ++ rekeyOwn s e.a v ++ [(isRevoked s e.a, stPoisoned)] ++
      mgSlotChecks s (nb v 252) (nf v 245 238) (nf v 237 226)
  eff := fun e s =>
    let v := mgDesc e s
    match getRegion s e.a with
    | some g =>
      { s := beginRotation e.a { g with ksrc := nb v 252, slot := nf v 245 238, kgen := nf v 237 226 }
          (nf v 251 246) (rekeySource v) (some e.cseq) s
        st := stPending
        event := some 0x800A }
    | none => { s := s, st := stRange }

/-- A revoked region takes its new key, and is fresh (R444). -/
def reviveRegion (r v : Nat) (g : Region) (s : State) : State :=
  let s := match g.alias_ with
    | some a => dropKey a s
    | none => s
  let s := loadKey (nf v 251 246) (rekeySource v) (dropKey g.keyid s)
  setRegion (freshPages g.base g.pages s) r { g with
    keyid := nf v 251 246, alias_ := none, revoked := false, birth := s.mg.treeClock
    ksrc := nb v 252, slot := nf v 245 238, kgen := nf v 237 226 }

/-- The command MG.REKEY with MODE REBUILD. -/
def mgRebuildBare : Cmd where
  op := 0x91
  fmt := fun e s => mgDescChecks e s (fun v =>
    rekeyFieldChecks s e.a v ++ [(nb v 253 && (getRegion s e.a).isSome && !isRevoked s e.a, stRange)])
  own := fun e s =>
    let v := mgDesc e s
    mgReadyChecks s ++ rekeyOwn s e.a v ++ [(isRevoked s e.a && !nb v 253, stKeyErased)] ++
      mgSlotChecks s (nb v 253 && nb v 252) (nf v 245 238) (nf v 237 226)
  eff := fun e s =>
    let v := mgDesc e s
    match getRegion s e.a with
    | some g =>
      let s := if g.revoked then reviveRegion e.a v g s else s
      { s := match getRegion s e.a with
          | some n => setRegion s e.a { n with rebuilding := some e.cseq }
          | none => s
        st := stPending
        event := some 0x800A }
    | none => { s := s, st := stRange }

/-- The pages that a rotation moves: those under another key and not quarantined (R443). -/
def pagesToMove (s : State) (g : Region) : List Nat :=
  (s.mg.blocks.filter (fun b => inRegion g b.1 && b.2.kid != g.keyid && !pageQuarantined s (b.1 * 4096))).map (·.1)

/-- A rotation has passed all pages, with what the DRAM brought beside their lines; the old key is zeroed (R443). -/
def finishRotation (r : Nat) (g : Region) (faults : List (Nat × DramFault)) (s : State) : State :=
  let s := (pagesToMove s g).foldl (fun s p => repage r p g.keyid none faults s) s
  let s := match g.alias_ with
    | some a => dropKey a s
    | none => s
  let s := bumpMg 17 1 (setRegion s r { g with rotating := false, rotCseq := none })
  match g.rotCseq with
  | some q => complete 0x800A q stOk g.keyid 0 s
  | none => s

/-- MG_ROTATION_COMPLETE (R443). -/
def execMgRotationComplete (t : Nat) (x : RotationEnd) (s : State) : Host.Outcome State Fault Refusal :=
  .next (event t (fun s => match getRegion s x.region with | some g => g.rotating | none => false)
    (fun s => match getRegion s x.region with
      | some g => finishRotation x.region g x.faults s
      | none => s) s)

/-- A quarantined line is written as zeros under a new parent counter; every page below it is fresh (R444). -/
def rebuildEntry (q : Nat × Nat) (s : State) : State :=
  let n := 8 ^ q.1
  let lo := q.2 * n
  let s := { s with mg := { s.mg with
    blocks := s.mg.blocks.filter (fun b => !decide (lo ≤ b.1 ∧ b.1 < lo + n))
    lines := s.mg.lines.filter (fun l => !decide (lo ≤ l.1 / 64 ∧ l.1 / 64 < lo + n))
    parents := s.mg.parents.filter (fun c => !nodeBelow q.1 q.2 (c.1 / 2 ^ 30, c.1 % 2 ^ 30))
    nodes := s.mg.nodes.filter (fun c => !nodeBelow q.1 q.2 (c.level, c.idx))
    quarantine := s.mg.quarantine.filter (· != q) } }
  bumpMg 19 1 (writeBackNode q.1 q.2 s)

/-- MG_REBUILD_COMPLETE (R444). -/
def execMgRebuildComplete (t r : Nat) (s : State) : Host.Outcome State Fault Refusal :=
  .next (event t (fun s => match getRegion s r with | some g => g.rebuilding.isSome | none => false)
    (fun s => match getRegion s r with
      | some g =>
        let l := s.mg.quarantine.filter (fun q => nodeMeets q.1 q.2 g.base g.pages)
        let s := setRegion (l.foldl (fun s q => rebuildEntry q s) s) r { g with rebuilding := none }
        match g.rebuilding with
        | some c => complete 0x800A c stOk g.keyid 0 s
        | none => s
      | none => s) s)

/-- A region is revoked (R445): its pages are quarantined, a rotation ends with ST_KEY_ERASED. -/
def revokeRegion (r : Nat) (g : Region) (s : State) : State :=
  let s := if g.rotating then endMgOp 0x800A g.rotCseq stKeyErased s else s
  let s := setRegion s r { g with revoked := true, rotating := false, rotCseq := none }
  coldPages (inRegion g) (raise 0x8009 r 0 s)

/-- Whether a key ID was loaded from a slot. -/
def keyFrom (s : State) (slot kid : Nat) : Bool :=
  match tabFind s.mg.keys kid with | some k => k.source == some slot | none => false

/-- An erase of a Key Vault slot clears the key IDs loaded from it and revokes their regions (R445). -/
def mgSlotErased (slot : Nat) (s : State) : State :=
  let hit := s.mg.regions.filter (fun r => keyFrom s slot r.2.keyid ||
    (r.2.rotating && match r.2.alias_ with | some a => keyFrom s slot a | none => false))
  let s := hit.foldl (fun s r => revokeRegion r.1 r.2 s) s
  { s with mg := { s.mg with keys := s.mg.keys.filter (fun k => k.2.source != some slot) } }

/-- A Crust response of ERASE_WORKING or ERASE_ALL (R448): keys, metadata key, root and regions; training is kept. -/
def mgWiped (s : State) : State :=
  let s := s.mg.regions.foldl (fun s r => removeRegion r.1 stKeyErased s) s
  { s with mg := { s.mg with
      keys := [], metaKey := 0, blocks := [], lines := [], tags := [], nodes := [], parents := [] } }

/-! ### Scrubbing (R446) -/

/-- The lines of a region that are not fresh: page and line. -/
def liveLines (s : State) (g : Region) : List (Nat × Nat) :=
  (s.mg.blocks.filter (fun b => inRegion g b.1)).flatMap (fun b => b.2.minors.map (fun m => (b.1, m.1)))

/-- MG.SCRUB with STOP = 0. -/
def mgScrubStartCmd : Cmd where
  op := 0x92
  fmt := fun e s => [highA e 4, highB e 1, zeroI e, ((getRegion s e.a).isNone, stRange)]
  own := fun e s => mgReadyChecks s ++
    [(match getRegion s e.a with | some g => g.scrubbing.isSome | none => false, stBusy)]
  eff := fun e s =>
    match getRegion s e.a with
    | some g => { s := setRegion s e.a { g with scrubbing := some e.cseq }, st := stPending, event := some 0x800B }
    | none => { s := s, st := stRange }

/-- MG_SCRUB_START (R446). -/
def execMgScrubStart (w : IWord) (s : State) : Host.Outcome State Fault Refusal := .next (runCmd mgScrubStartCmd w s)

/-- A stopped pass: how far it came is not stated beyond the lines there are. -/
def stopScrub (r : Nat) (g : Region) (s : State) : State :=
  match g.scrubbing with
  | none => s
  | some q =>
    let d := draw (setRegion s r { g with scrubbing := none })
    let n := d.1 % ((liveLines s g).length + 1)
    complete 0x800B q stAborted 0 (n % 2 ^ 32 * 2 ^ 32) (bumpMg 21 n d.2)

/-- MG.SCRUB with STOP = 1. -/
def mgScrubStopCmd : Cmd where
  op := 0x92
  fmt := fun e _ => [highA e 4, highB e 1, zeroI e]
  own := fun _ s => mgReadyChecks s
  eff := fun e s =>
    match getRegion s e.a with
    | some g => { s := stopScrub e.a g s }
    | none => { s := s }

/-- MG_SCRUB_STOP (R446). -/
def execMgScrubStop (w : IWord) (s : State) : Host.Outcome State Fault Refusal := .next (runCmd mgScrubStopCmd w s)

/-- A scrub checks a line; a poisoned one stays so (R440, R446). -/
def scrubLine (r : Nat) (x : Nat × Nat) (fault : DramFault) (s : State) : State :=
  if linePoisoned (getLine s x.1 x.2) then s else (readStored r x.1 x.2 fault s).2

/-- A region pass ends, with what it met on its lines in their order: the lines checked, corrected and poisoned (R446). -/
def finishScrub (r : Nat) (found : List DramFault) (g : Region) (s : State) : State :=
  let l := liveLines s g
  let mended := ((l.zipIdx).filter (fun x =>
    !linePoisoned (getLine s x.1.1 x.1.2) && lineMended (found.getD x.2 .none))).length
  let s := l.zipIdx.foldl (fun s x => scrubLine r x.1 (found.getD x.2 .none) s) s
  let bad := (l.filter (fun x => linePoisoned (getLine s x.1 x.2))).length
  let s := bumpRegion r 4 (bumpMg 21 l.length
    (match getRegion s r with | some n => setRegion s r { n with scrubbing := none } | none => s))
  match g.scrubbing with
  | some q =>
    complete 0x800B q stOk 0 (min l.length (2 ^ 32 - 1) * 2 ^ 32 + min mended 65535 * 2 ^ 16 + min bad 65535) s
  | none => s

/-- MG_SCRUB_COMPLETE (R446). -/
def execMgScrubComplete (t : Nat) (pass : ScrubPass) (s : State) : Host.Outcome State Fault Refusal :=
  .next (event t (fun s => match getRegion s pass.region with | some g => g.scrubbing.isSome | none => false)
    (fun s => match getRegion s pass.region with
      | some g => finishScrub pass.region pass.found g s
      | none => s) s)

/-- The metadata line at a line number, if it is one (R432). -/
def nodeAtLine (s : State) (line : Nat) : Option (Nat × Nat) :=
  (List.range 8).findSome? (fun k =>
    if levelBase (mgPages s) k ≤ line ∧ line < levelBase (mgPages s) k + levelSize (mgPages s) k then
      some (k, line - levelBase (mgPages s) k) else none)

/-- The patrol checks a metadata line in DRAM: a correctable one is rewritten, its cached copy dirty (R441, R446). -/
def patrolNode (k idx : Nat) (fault : DramFault) (s : State) : State :=
  if lineLost fault || decide (fault = .tagFailure) then quarantineNode k idx (bumpMg 10 1 s)
  else if lineMended fault then markDirty k idx (bumpMg 7 1 s) else s

/-- The patrol checks a data line of a PATROL region (R440). -/
def patrolData (r p i : Nat) (fault : DramFault) (s : State) : State := scrubLine r (p, i) fault s

/-- Whether the patrol checks a line: metadata that is not fresh, or a line that is not fresh of a PATROL region. -/
def patrolled (s : State) (line : Nat) : Bool :=
  match nodeAtLine s line with
  | some (k, idx) => !nodeFresh s k idx
  | none => match regionOf s (line / 64) with
    | some (_, g) => g.patrol && decide (tabGet 0 (getBlock s (line / 64)).minors (line % 64) ≠ 0)
    | none => false

/-- One line of the patrol; a line at or before the last one begins a new pass (R446). -/
def patrolLine (line : Nat) (fault : DramFault) (s : State) : State :=
  let s := if line ≤ s.mg.patrolLast && decide (s.mg.patrolLast ≠ 0) then bumpMg 22 1 s else s
  let s := bumpMg 21 1 { s with mg := { s.mg with patrolLast := line } }
  match nodeAtLine s line with
  | some (k, idx) => patrolNode k idx fault s
  | none => match regionOf s (line / 64) with
    | some (r, _) => patrolData r (line / 64) (line % 64) fault s
    | none => s

/-- PATROL_SCRUB (R446). -/
def execPatrolScrub (t line : Nat) (fault : DramFault) (s : State) : Host.Outcome State Fault Refusal :=
  .next (event t (fun s => decide (s.mg.ready = .ready (mgPages s)) && patrolled s line) (patrolLine line fault) s)

end Sys2Proof.Machine
end

