-- ==== Sys2Proof/Machine/Vault.lean ====
section
/-! DEFINITION. The Key Vault, Graft messages, the block engine and the DRBG (12_key_vault.md). -/

namespace Sys2Proof.Machine

/-- Adds to a counter of scope 17, index 0 (R382). -/
def bumpVault (k n : Nat) (s : State) : State := bump 17 0 k 48 n s

/-! ### Slots (R352 to R356, R370 to R372) -/

/-- The generation after a change (R356). -/
def nextGen (attr : Nat) : Nat := (attrGen attr + 1) % 4096

/-- A slot with new content: its generation advances (R356). -/
def rewritten (k : Slot) (payload : Bytes) (attr : Nat) : Slot := ⟨payload, attr + nextGen k.attr⟩

/-- A slot after an erase (R370): empty, DOMAIN kept, GENERATION advanced. A system slot keeps LOCK set, and one that is held
empty shows nothing else (R352). -/
def emptied (i : Nat) (k : Slot) : Slot :=
  if 4 ≤ i ∧ i < 16 then slotReset i
  else ⟨[], (slotReset i).attr + attrDomain k.attr * 2 ^ 16 + nextGen k.attr⟩

/-- The erase of a slot (R370): block-engine registers, the Press and the Memory Guard lose what they took from it. The
overwriting is a request to the DRBG (R378). -/
def eraseNow (i : Nat) (s : State) : State :=
  let s := (internalRandom 72 (setSlot s i (emptied i (getSlot s i)))).2
  let s := { s with vault := { s.vault with bk := s.vault.bk.filter (fun b => b.2.slot != i) } }
  bumpVault 30 1 (mgSlotErased i (pressErased i s))

/-! ### Content checks (step 9 of R365) -/

/-- Whether a generation differs from EXPGEN with ANY = 0. -/
def genDiffers (k : Slot) (expgen : Nat) : Bool := !nb expgen 15 && decide (attrGen k.attr ≠ expgen % 4096)

/-- Whether payload octets beyond the used length are not zero. -/
def payloadLong (attr : Nat) (payload : Bytes) : Bool := (payload.drop (usedLength attr)).any (· != 0)

/-- Whether a P-256 or P-384 scalar is out of range. -/
def scalarOut (attr : Nat) (payload : Bytes) : Bool :=
  match attrType attr with
  | 3 => scalarBad 1 (beNat (payload.take 32))
  | 4 => scalarBad 2 (beNat (payload.take 48))
  | _ => false

/-- The checks of an attribute word and payload that are written, for a domain. -/
def writeChecks (domain attr : Nat) (payload : Bytes) : List Check :=
  let typ := attrType attr
  [(decide (typ = 0 ∨ 8 < typ) || decide (nf attr 27 20 &&& usageOf typ ≠ nf attr 27 20) ||
      decide (attrDomain attr ≠ domain) || (nb attr 14 && decide (typ ≠ 8)), stAttr),
   (payloadLong attr payload, stRange), (scalarOut attr payload, stScalar)]

/-- Whether a SETATTR does more than narrow (R365). -/
def widens (k : Slot) (attr : Nat) : Bool :=
  decide (attrType attr ≠ attrType k.attr) || decide (attrDomain attr ≠ attrDomain k.attr) ||
    (nb attr 14 != nb k.attr 14) || decide (nf attr 27 20 &&& nf k.attr 27 20 ≠ nf attr 27 20) ||
    (nb attr 12 && !nb k.attr 12) || (nb k.attr 15 && !nb attr 15)

/-- The checks of one operation of a message of a domain. -/
def slotOpChecks (s : State) (domain : Nat) (o : SlotOp) : List Check :=
  let k := getSlot s o.slot
  [(decide (o.slot < 16), stAttr),
   (decide (attrType k.attr ≠ 0 ∧ attrDomain k.attr ≠ domain), stAttr),
   (nb k.attr 15 && decide (o.op ≠ 2), stAttr), (genDiffers k o.expgen, stAttr)] ++
    if o.op = 1 then writeChecks domain o.attr o.payload
    else if o.op = 3 then [(widens k o.attr, stAttr)] else []

/-- The operation takes its effect at the commit edge (R367). -/
def applyOp (o : SlotOp) (s : State) : State :=
  let k := getSlot s o.slot
  if o.op = 2 then eraseNow o.slot s
  else if o.op = 1 then setSlot s o.slot (rewritten k o.payload o.attr)
  else setSlot s o.slot (rewritten k k.payload o.attr)

/-! ### Graft messages (R362 to R368) -/

/-- O: where the operation entries begin (R362). -/
def opsAt (m : Bytes) : Nat := if mf m 6 1 = 2 then 1728 else 64
/-- T: where they end. -/
def opsEnd (m : Bytes) : Nat := opsAt m + 96 * mf m 7 1

/-- Entry `i`. -/
def entryOf (m : Bytes) (i : Nat) : Bytes := fit 96 (m.drop (opsAt m + 96 * i))

/-- Whether an entry has a reserved encoding or a reserved field that is not zero; `n` is how many of its octets lie within the
length operand: only those are checked (R365 step 1). -/
def entryReserved (n : Nat) (x : Bytes) : Bool :=
  let y := fit 96 (x.take n)
  (decide (0 < n) && decide (mf x 0 1 = 0 ∨ 3 < mf x 0 1)) || decide (mf y 2 2 / 2 ^ 12 % 8 ≠ 0) ||
    decide (mf y 8 8 ≠ 0) || decide (mf y 88 8 ≠ 0)

/-- The entries that NOPS names. -/
def entries (m : Bytes) : List Bytes := (List.range (mf m 7 1)).map (entryOf m)

/-- Step 1. -/
def graftReserved (m : Bytes) : Bool :=
  decide (2 < mf m 5 1 ∨ 2 < mf m 6 1 ∨ 16 ≤ mf m 48 1 ∨ mf m 51 1 ≠ 0 ∨ 1024 ≤ mf m 52 2 ∨ 1024 ≤ mf m 54 2 ∨
    mf m 58 6 ≠ 0) ||
    (List.range (mf m 7 1)).any (fun i => entryReserved (m.length - (opsAt m + 96 * i)) (entryOf m i))

/-- A Press operand slot that exists and is shorter than `n` octets. -/
def pkShort (s : State) (g n : Nat) : Bool := match slotAt s g with | some o => decide (opLen o < n) | none => false

/-- Whether the message is signed (AUTH 1 or 2). -/
def signedMsg (m : Bytes) : Bool := decide (mf m 5 1 ≠ 0)

/-- Step 2. -/
def graftLength (s : State) (m : Bytes) : Bool :=
  decide (16 < mf m 7 1 ∨ mf m 56 2 ≠ m.length ∨ m.length ≠ opsEnd m + if signedMsg m then 4723 else 48) ||
    (signedMsg m && (pkShort s (mf m 52 2) 96 || pkShort s (mf m 54 2) 2592))

/-- Whether two entries name one slot. -/
def sameSlot : List Bytes → Bool
  | [] => false
  | x :: l => l.any (fun y => mf x 1 1 == mf y 1 1) || sameSlot l

/-- What step 3 checks in an entry. -/
def entryRange (conf : Nat) (x : Bytes) : Bool :=
  decide ((mf x 0 1 = 1 ∧ conf = 0) ∨ (mf x 0 1 ≠ 1 ∧ mf x 16 72 ≠ 0) ∨ mf x 4 4 % 4096 ≠ 0 ∨
    (mf x 0 1 = 2 ∧ mf x 4 4 ≠ 0))

/-- Step 3. -/
def graftRange (s : State) (m : Bytes) : Bool :=
  decide (mf m 0 4 ≠ 0x47524654 ∨ mf m 4 1 ≠ 1 ∨ mf m 7 1 = 0 ∨
    (mf m 5 1 = 0 ∧ (mf m 6 1 = 2 ∨ mf m 52 4 ≠ 0)) ∨ (mf m 5 1 = 2 ∧ mf m 49 1 ≠ 0) ∨
    (mf m 6 1 ≠ 1 ∧ mf m 50 1 ≠ 0)) ||
    (entries m).any (entryRange (mf m 6 1)) || sameSlot (entries m) ||
    (signedMsg m && ((slotAt s (mf m 52 2)).isNone || (slotAt s (mf m 54 2)).isNone))

/-- The checks of AUTHSLOT (R355). -/
def authSlotChecks (s : State) (m : Bytes) : List Check :=
  let a := (getSlot s (mf m 49 1)).attr
  [(decide (attrType a = 0), stKeyErased),
   (decide (attrType a ≠ 8) || !nb a 14 || decide (attrDomain a ≠ mf m 48 1) || (nb a 21 != decide (mf m 5 1 = 0)),
    stAttr)]

/-- The checks of WRAPSLOT (R363). -/
def wrapSlotChecks (s : State) (m : Bytes) : List Check :=
  let a := (getSlot s (mf m 50 1)).attr
  [(decide (attrType a = 0), stKeyErased),
   (decide (attrType a ≠ 1) || !nb a 24 || decide (attrDomain a ≠ mf m 48 1), stAttr)]

/-- Whether a slot of the domain has GRAFTKEY = 1 (R364). -/
def domainOwned (s : State) (domain : Nat) : Bool :=
  s.vault.slots.any (fun p => decide (attrDomain p.2.attr = domain) && nb p.2.attr 14)

/-- Steps 1 to 6. -/
def graftChecks (s : State) (m : Bytes) : List Check :=
  [(graftReserved m, stReserved), (graftLength s m, stLength), (graftRange s m, stRange),
   (decide ((m.drop 8).take 32 ≠ s.boot.devid), stIdentity)] ++
    (if mf m 5 1 = 2 then [] else authSlotChecks s m) ++ (if mf m 6 1 = 1 then wrapSlotChecks s m else []) ++
    [(decide (mf m 5 1 = 2) && domainOwned s (mf m 48 1), stAttr),
     (decide (mf m 40 8 ≤ graftCounter s (mf m 48 1)), stReplay)]

/-- Content of a Press operand slot, cut to `n` octets. -/
def pkData (s : State) (g n : Nat) : Bytes := match slotAt s g with | some o => (opData o).take n | none => []

/-- "GRAFT", the context string of the signature. -/
def graftLabel : Bytes := beBytes 5 0x4752414654

/-- Whether an ECDSA P-384 signature `r ‖ s` verifies, its range included. -/
def ecSigOk (pub digest sig : Bytes) : Bool :=
  let r := mf sig 0 48
  let v := mf sig 48 48
  !scalarBad 2 r && !scalarBad 2 v && ecdsaOk 2 (pointOf 2 pub) digest r v

/-- The digest of the signer's public keys (R355). -/
def keysDigest (s : State) (m : Bytes) : Bytes := sha384 (pkData s (mf m 52 2) 96 ++ pkData s (mf m 54 2) 2592)

/-- Step 7, with the digest of the keys as of the edge at which the message was dequeued. -/
def graftAuth (s : State) (m keys : Bytes) : List Check :=
  let t := m.take (opsEnd m)
  let tail := m.drop (opsEnd m)
  if mf m 5 1 = 0 then
    [(decide (fit 48 (hmac384 (fit 64 (getSlot s (mf m 49 1)).payload) t) ≠ tail.take 48), stAuth)]
  else
    let ec := pkData s (mf m 52 2) 96
    let pq := pkData s (mf m 54 2) 2592
    let anchor := if mf m 5 1 = 2 then imgProvAnchor s.boot.image else (getSlot s (mf m 49 1)).payload
    (decide (keys ≠ fit 48 anchor), stAuth) :: pointChecks 2 (pointOf 2 ec) ++
      [(!(ecSigOk ec (sha384 t) (tail.take 96) && dsaVerify pq t graftLabel (tail.drop 96)), stAuth)]

/-- "GRAFTKEK". -/
def kekLabel : Bytes := beBytes 8 0x47524146544B454B

/-- The key-encryption key (R363). -/
def graftKek (s : State) (m : Bytes) : Nat :=
  if mf m 6 1 = 1 then beNat (fit 32 (getSlot s (mf m 50 1)).payload)
  else
    let ct := (m.drop 64).take 1568
    let epk := (m.drop 1632).take 96
    let ss1 := fit 32 (kemDecaps (fit 64 (getSlot s 2).payload) ct)
    let ss2 := sharedX 2 (secretScalar 2 (fit 64 (getSlot s 3).payload)) (pointOf 2 epk)
    beNat (fit 32 (sha3 (ss1 ++ ss2 ++ ct ++ epk ++ (m.drop 8).take 32 ++ (m.drop 40).take 8 ++ kekLabel)))

/-- The payload that an entry writes: none where its WKEY fails to unwrap to 64 octets. -/
def entryPayload (kek : Nat) (x : Bytes) : Option Bytes :=
  if mf x 0 1 ≠ 1 then some []
  else
    match kwpUnwrap 256 kek ((x.drop 16).take 72) with
    | some p => if p.length = 64 then some p else none
    | none => none

/-- An entry as an operation. -/
def slotOpOf (kek : Nat) (x : Bytes) : SlotOp :=
  { op := mf x 0 1, slot := mf x 1 1, expgen := mf x 2 2, attr := mf x 4 4
    payload := (entryPayload kek x).getD [] }

/-- The first entry of a list that has a failure, and the failure. -/
def firstEntry (f : SlotOp → Nat) : Nat → List SlotOp → Option (Nat × Nat)
  | _, [] => none
  | i, o :: l => if f o ≠ stOk then some (i, f o) else firstEntry f (i + 1) l

/-- The index of the first entry whose WKEY fails. -/
def firstWrapFail (kek : Nat) : Nat → List Bytes → Option Nat
  | _, [] => none
  | i, x :: l => if (entryPayload kek x).isNone then some i else firstWrapFail kek (i + 1) l

/-- Step 8 for the message as a whole: EPK, and the blinding of the Press, which a stopped DRBG does not give (R379), no more than
the overwriting of an ERASE. -/
def epkChecks (s : State) (m : Bytes) : List Check :=
  ((entries m).any (fun x => decide (mf x 0 1 = 2)) && s.vault.drbgStopped, stFault) ::
  if mf m 6 1 = 2 then (s.vault.drbgStopped, stFault) :: pointChecks 2 (pointOf 2 ((m.drop 1632).take 96)) else []

/-- The result of a message: status, operation index and, when it passes, its operations (R365, R366). -/
def graftVerdict (s : State) (m keys : Bytes) : Nat × Nat × List SlotOp :=
  let st := firstFail (graftChecks s m ++ graftAuth s m keys ++ epkChecks s m)
  if st ≠ stOk then (st, 0x1F, [])
  else
    let kek := graftKek s m
    match firstWrapFail kek 0 (entries m) with
    | some i => (stAuth, i, [])
    | none =>
      let l := (entries m).map (slotOpOf kek)
      match firstEntry (fun o => firstFail (slotOpChecks s (mf m 48 1) o)) 0 l with
      | some (i, st) => (st, i, [])
      | none => (stOk, 0x1F, l)

/-- The place of a failure in the counters of R382. -/
def graftPlace (st : Nat) : Option Nat :=
  ([stReserved, stLength, stRange, stIdentity, stKeyErased, stAttr, stReplay, stAuth, stNotInField, stNotOnCurve,
    stScalar].findIdx? (· == st)).map (· + 17)

/-- Content of a Graft result service (R502): status, operation index, counter. DESIGN CHOICE (log entry 68): the spec gives the
service no layout. -/
def graftResult (st idx counter : Nat) : Bytes := beBytes 1 st ++ beBytes 1 idx ++ beBytes 6 0 ++ beBytes 8 counter

/-- A message is done without effect, or its relayed result returns (R366, R502). -/
def graftEnds (g : GraftMsg) (st idx : Nat) (s : State) : State :=
  let c := graftCounter s (mf g.octets 48 1 % 16)
  match g.relay with
  | some (src, relay) => answerService src relay 4 (graftResult st idx c) s
  | none => complete 0x7001 g.cseq st idx c s

/-- Whether a message passes steps 1 to 6 and some checks more. -/
def graftReaches (s : State) (m : Bytes) (l : List Check) : Bool := decide (firstFail (graftChecks s m ++ l) = stOk)

/-- QCLK for which the verification of both signatures of a message, and the forming of its hybrid key, keep the Press: the times
of R395 for the same computations (DEDUCED). -/
def verifyCycles : Nat := 118750 + 75000
def agreeCycles : Nat := 57500 + 31250

/-- Requests to the Press that the Key Vault makes for a message: of step 7, after the digest of the keys, and of step 8
(R365). -/
def pressServes (m keys : Bytes) (s : State) : State :=
  let kem := decide (mf m 6 1 = 2) && graftReaches s m (graftAuth s m keys) && !s.vault.drbgStopped
  let s := if signedMsg m && graftReaches s m ((graftAuth s m keys).take 1) then internalUse verifyCycles s else s
  if kem then internalUse agreeCycles (internalRandom 8 s).2 else s

/-- A message that fails is counted by its status and ends without effect (R366). -/
def graftFails (g : GraftMsg) (st idx : Nat) (s : State) : State :=
  graftEnds g st idx (match graftPlace st with
    | some k => bumpVault k 1 s
    | none => s)

/-! ### The slots that a message uses (R370) -/

/-- The key slots that a message reads. -/
def keySlots (m : Bytes) : List Nat :=
  (if mf m 5 1 = 2 then [] else [mf m 49 1]) ++ (if mf m 6 1 = 1 then [mf m 50 1] else []) ++
    if mf m 6 1 = 2 then [2, 3] else []

/-- Its target slots. -/
def targets (m : Bytes) : List Nat := (entries m).map (fun x => mf x 1 1)

/-- The message in service ends with ST_KEY_ERASED. -/
def servingErased (v : Serving) (s : State) : State :=
  graftFails v.msg stKeyErased 0x1F { s with vault := { s.vault with serving := none } }

/-- The erase of a slot, and what it means to the message in service (R370): before the check edge it ends the message where it
takes a key, after it wherever the message names the slot; once the journal is ARMED the message commits first. -/
def eraseSlot (i : Nat) (s : State) : State :=
  match s.vault.serving with
  | none => eraseNow i s
  | some v =>
    let named := (keySlots v.msg.octets).contains i || (v.phase != .taken && (targets v.msg.octets).contains i)
    if v.phase = .armed ∧ named then
      { s with vault := { s.vault with serving := some { v with erases := v.erases ++ [i] } } }
    else if named then servingErased v (eraseNow i s)
    else eraseNow i s

/-! ### Rows and masks (R357 to R360) -/

/-- The four Feistel rounds of π on the halves of a row number (R358). -/
def feistel (key : Nat) : Nat → BitVec 4 × BitVec 4 → BitVec 4 × BitVec 4
  | 0, h => h
  | n + 1, h => feistel key n (h.2, h.1 ^^^ Config.scrambleRound key n h.2)

/-- π: the physical row of a slot under a scramble key (R358). -/
def rowOf (key : Nat) (slot : BitVec 8) : BitVec 8 :=
  let h := feistel key 4 (slot.extractLsb' 4 4, slot.extractLsb' 0 4)
  h.1 ++ h.2

/-- The physical row of a slot. -/
def rowNum (s : State) (slot : Nat) : Nat := (rowOf s.vault.scramble (BitVec.ofNat 8 slot)).toNat

/-- The slot whose row is `r` (R358). -/
def slotOfRow (s : State) (r : Nat) : Option Nat := (List.range 256).find? (fun i => rowNum s i == r)

/-- The permutation of `n` bit lines under a scramble key: each line is put in at a place of the ones before it (R358). -/
def lineOrder (key : Nat) : Nat → List Nat
  | 0 => []
  | n + 1 => (lineOrder key n).insertIdx (Config.bitChoice key n % (n + 1)) n

/-- The epoch bit of a row: a pass under way has inverted those of the rows that it has rewritten (R357, R359). -/
def rowEpoch (s : State) (r : Nat) : Nat := if r < s.vault.remaskRow then 1 - s.vault.epoch else s.vault.epoch

/-- M_e(r): four AES-256 blocks under the mask key of an epoch (R357). -/
def maskOfRow (s : State) (e row : Nat) : Bytes :=
  (List.range 4).flatMap (fun i =>
    beBytes 16 (aesEnc 256 (tabGet 0 s.vault.maskKeys e) (Config.maskBlock row i)))

/-- The check word of a slot's row: the epoch, and the check over the unmasked payload and the attribute word (R357). -/
def rowCheckWord (s : State) (slot : Nat) : Nat :=
  let e := rowEpoch s (rowNum s slot)
  e * 2 ^ 31 + (Config.rowCheck (tabGet 0 s.vault.maskKeys e) (fit 64 (getSlot s slot).payload) (getSlot s slot).attr).toNat

/-- The 72 octets of a slot's row: masked payload, attribute word, check word. -/
def rowOctets (s : State) (slot : Nat) : Bytes :=
  let r := rowNum s slot
  (fit 64 (getSlot s slot).payload).zipWith (· ^^^ ·) (maskOfRow s (rowEpoch s r) r) ++
    beBytes 4 (getSlot s slot).attr ++ beBytes 4 (rowCheckWord s slot)

/-- The cells of a slot's row: each bit on its bit line (R358). -/
def rowCells (s : State) (slot : Nat) : List Bool :=
  let v := beNat (rowOctets s slot)
  (lineOrder s.vault.scramble 576).map (fun i => nb v i)

/-- The ECC that the row carries beside them (R357). -/
def rowEcc (s : State) (slot : Nat) : Nat := Config.rowEcc (rowCells s slot)

/-- A row fails its check word: its slot is erased, it is counted and raised (R360). -/
def slotFails (i : Nat) (s : State) : State := raise 0x7002 0 0 (bumpVault 31 1 (eraseSlot i s))

/-- The read of a slot's row with `n` adjacent cells struck (R32, R360): up to 16 are corrected and counted; a row with more
fails. -/
def struckRow (i n : Nat) (s : State) : State :=
  if n = 0 then s else if n ≤ 16 then bumpVault 32 1 s else slotFails i s

/-- A key of the mask area. -/
def drawKey (s : State) : Nat × State :=
  let r := internalRandom 32 s
  (beNat r.1, r.2)

/-- A vault that has become VAULT_EMPTY draws its scramble key and a first mask key; its mask area is good again (R358, R360). -/
def newMaskArea (s : State) : State :=
  let k := drawKey s
  let m := drawKey k.2
  { m.2 with vault := { m.2.vault with
      scramble := k.1, epoch := 0, remaskRow := 0, maskKeys := tabSet 0 [] 0 m.1, areaLost := false } }

/-- What a re-mask pass finds in the rows `lo` to `hi` - 1 that it reads (R360). -/
def readRows (run : RemaskRun) (lo hi : Nat) (s : State) : State :=
  (run.bursts.filter (fun b => decide (lo ≤ b.1 ∧ b.1 < hi))).foldl (fun s b =>
    match slotOfRow s b.1 with
    | some i => struckRow i b.2 s
    | none => s) s

/-- A pass begins: a new mask key is drawn into the unused key cell. -/
def beginRemask (s : State) : State :=
  if s.vault.remaskRow = 0 then
    let k := drawKey s
    { k.2 with vault := { k.2.vault with maskKeys := tabSet 0 k.2.vault.maskKeys (1 - k.2.vault.epoch) k.1 } }
  else s

/-- The rows up to `n` are rewritten, each read and checked first; after the last one the old key is zeroed. -/
def remaskTo (run : RemaskRun) (s : State) : State :=
  let n := min run.upTo 256
  let s := readRows run s.vault.remaskRow n (beginRemask s)
  if n = 256 then
    let e := 1 - s.vault.epoch
    bumpVault 35 1 { s with vault := { s.vault with
      epoch := e, remaskRow := 0, remaskAt := s.clk.root, maskKeys := tabSet 0 [] e (tabGet 0 s.vault.maskKeys e) } }
  else { s with vault := { s.vault with remaskRow := max s.vault.remaskRow n } }

/-- REMASK_PASS (R359): a pass begins once a second, one that reset or power loss cut short goes on where it was; its rows up to
one are held under the new mask key in the other cell. -/
def execRemaskPass (run : RemaskRun) (s : State) : Host.Outcome State Fault Refusal :=
  .next (event run.t
    (fun s => !s.vault.drbgStopped && !s.power.held && decide (s.vault.remaskRow < run.upTo) &&
      (decide (s.vault.remaskRow ≠ 0) || waited s s.vault.remaskAt (1000 * msec)))
    (remaskTo run) s)

/-! ### Commit (R361, R367) -/

/-- The cells after an update of which `bad` writes fail their readback: a cell whose retry fails too is retired, counted and
raised (R361). -/
def writeCells (domain counter : Nat) : Nat → Nat → State → State
  | 0, _, s => s
  | n + 1, bad, s =>
    match nextCell (tabGet {} s.vault.mram domain) with
    | none => s
    | some i =>
      if bad < 2 then putCell domain i (cellOf counter) s
      else
        let s := putCell domain i (tornCell counter) s
        let m := tabGet {} s.vault.mram domain
        writeCells domain counter n (bad - 2) (raise 0x7004 0 0 (bumpVault 34 1 { s with vault := { s.vault with
          mram := tabPut s.vault.mram domain { m with retired := m.retired ++ [i] } } }))

/-- The write of a counter is torn: a cell whose CRC fails, and the previous value stays current (R361). -/
def tornWrite (domain counter : Nat) (s : State) : State :=
  match nextCell (tabGet {} s.vault.mram domain) with
  | some i => putCell domain i (tornCell counter) s
  | none => s

/-- The message in service with its step. -/
def setServing (v : Serving) (s : State) : State := { s with vault := { s.vault with serving := some v } }

/-- The Key Vault takes the message at the front of its queue (R366). -/
def graftTake (s : State) : State :=
  match s.vault.serving, s.vault.journal, s.vault.grafts with
  | none, none, g :: rest =>
    { s with vault := { s.vault with
        grafts := rest, serving := some { msg := g, phase := .taken, keys := keysDigest s g.octets } } }
  | _, _, _ => s

/-- The rows of the key slots of the message being checked are read with the cells that bursts have struck (R360). -/
def graftStruck (bursts : List (Nat × Nat)) (s : State) : State :=
  match s.vault.serving with
  | some v =>
    if v.phase = .taken then
      (bursts.filter (fun b => (keySlots v.msg.octets).contains b.1)).foldl (fun s b => struckRow b.1 b.2 s) s
    else s
  | none => s

/-- Up to the check edge (R365): a message that needs the Press waits until that is idle (R388). -/
def graftCheck (run : GraftRun) (s : State) : State :=
  let s := graftStruck run.bursts s
  match s.vault.serving with
  | some v =>
    if v.phase ≠ .taken ∨ (graftNeedsPress v.msg.octets ∧ pressIdle s = false) then s
    else
      let r := graftVerdict s v.msg.octets v.keys
      let s := pressServes v.msg.octets v.keys s
      if r.1 = stOk then setServing { v with phase := .checked, ops := r.2.2 } s
      else graftFails v.msg r.1 r.2.1 { s with vault := { s.vault with serving := none } }
  | none => s

/-- Step 1 of R367: the counter is consumed once its readback passes. -/
def graftCount (run : GraftRun) (s : State) : State :=
  match s.vault.serving with
  | some v =>
    if v.phase = .checked then
      let m := v.msg.octets
      if run.torn then tornWrite (mf m 48 1) (mf m 40 8) s
      else setServing { v with phase := .counted } (writeCells (mf m 48 1) (mf m 40 8) 64 run.badWrites s)
    else s
  | none => s

/-- Step 2: the present rows are copied and the journal is ARMED. -/
def graftArm (s : State) : State :=
  match s.vault.serving with
  | some v =>
    if v.phase = .counted then
      let m := v.msg.octets
      let rows := v.ops.map (fun o => (o.slot, getSlot s o.slot))
      setServing { v with phase := .armed } { s with vault := { s.vault with journal := some ⟨mf m 48 1, mf m 40 8, rows⟩ } }
    else s
  | none => s

/-- Steps 3 and 4: every target shows its new content at one edge, the commit edge; the erases that waited follow. The journal is
CLEAR when the completion event is raised, which a message of the Trellis has not (R502). -/
def graftCommit (s : State) : State :=
  match s.vault.serving with
  | some v =>
    if v.phase = .armed then
      let g := v.msg
      let s := { s with vault := { s.vault with serving := none } }
      let s := extendReg 5 (sha384 (g.octets.take (opsEnd g.octets))) (v.ops.foldl (fun s o => applyOp o s) s)
      let s := v.erases.foldl (fun s i => eraseNow i s) (bumpVault 16 1 s)
      match g.relay with
      | some _ => graftEnds g stOk 0x1F { s with vault := { s.vault with journal := none } }
      | none => endPending g.cseq stOk 0x1F (mf g.octets 40 8) s
    else s
  | none => s

/-- The Key Vault works on its message up to a step. -/
def graftWork (run : GraftRun) (s : State) : State :=
  let s := graftTake s
  if run.upTo = .taken then s
  else
    let s := graftCheck run s
    if run.upTo = .checked then s
    else
      let s := graftCount run s
      if run.upTo = .counted then s
      else
        let s := graftArm s
        if run.upTo = .armed then s else graftCommit s

/-- GRAFT_PROCESS (R365 to R367). -/
def execGraftProcess (run : GraftRun) (s : State) : Host.Outcome State Fault Refusal :=
  .next (event run.t
    (fun s => s.vault.serving.isSome || (s.vault.journal.isNone && !s.vault.grafts.isEmpty)) (graftWork run) s)

/-! ### Reads of a slot (R32, R360, R367) -/

/-- A read of a slot that the message in service is writing waits for its commit edge (R367). -/
def committedFor (i : Nat) (s : State) : State :=
  match s.vault.serving with
  | some v => if v.phase = .armed ∧ (targets v.msg.octets).contains i then graftCommit s else s
  | none => s

/-- A command that reads the row of a slot: after a commit that is writing it, and with the cells that a burst has struck. A row
that fails ends the command with ST_KEY_ERASED, with what `lost` says of it. -/
def readingSlot (slot : Env → State → Option Nat) (lost : Env → State → State) (c : Cmd) : Cmd :=
  let at_ := fun e s => match slot e s with
    | some i => committedFor i s
    | none => s
  { c with
    slotRow := true
    own := fun e s => if e.burst = 0 then c.own e (at_ e s) else []
    eff := fun e s =>
      let s := at_ e s
      if e.burst = 0 then c.eff e s
      else match slot e s with
        | some i =>
          if 16 < e.burst then { s := lost e (slotFails i s), st := stKeyErased }
          else
            let s := struckRow i e.burst s
            let st := firstFail (c.own e s)
            if st ≠ stOk then { s := s, st := st } else c.eff e s
        | none =>
          let st := firstFail (c.own e s)
          if st ≠ stOk then { s := s, st := st } else c.eff e s }

/-- SLOT.ERASE; its overwriting takes DRBG output (R378, R379). -/
def slotEraseCmd : Cmd where
  op := 0x71
  fmt := fun e _ => [zeroA e, highB e 8, zeroI e]
  own := fun e s =>
    [(decide (e.b < 16) || nb (getSlot s e.b).attr 15, stAttr), (s.vault.drbgStopped, stFault)]
  eff := fun e s => { s := eraseSlot e.b s }

/-- SLOT_ERASE (R372). -/
def execSlotErase (w : IWord) (s : State) : Host.Outcome State Fault Refusal := .next (runCmd slotEraseCmd w s)

/-- The command SLOT.INFO. -/
def slotInfoBare : Cmd where
  op := 0x72
  fmt := fun e _ => [zeroA e, highB e 8, zeroI e]
  eff := fun e s =>
    let a := (getSlot s e.b).attr
    { s := s, regs := [(1, BitVec.ofNat 64 (a + bn (decide (attrType a ≠ 0)) * 2 ^ 32))] }

/-- SLOT.INFO. -/
def slotInfoCmd : Cmd := readingSlot (fun e _ => some (e.b % 256)) (fun _ s => s) slotInfoBare

/-- SLOT_INFO (R347). -/
def execSlotInfo (w : IWord) (s : State) : Host.Outcome State Fault Refusal := .next (runCmd slotInfoCmd w s)

/-- Whether one message more finds no room: one is taken at a time, and up to 8 wait (R347). -/
def graftFull (s : State) : Bool :=
  decide (9 ≤ s.vault.grafts.length + bn (s.vault.serving.isSome || s.vault.journal.isSome))

/-- GRAFT. -/
def graftCmd : Cmd where
  op := 0x70
  xm := 1
  host := hostFlag
  fmt := fun e _ => [zeroA e, highB e 14, (decide (e.b = 0), stRange), (decide (8192 < e.b), stLength)] ++
    addrChecks e false 1 e.b
  own := fun _ s => [(s.crust.quiesce, stFault), (graftFull s, stBusy)]
  eff := fun e s =>
    { s := { s with vault := { s.vault with
        grafts := s.vault.grafts ++ [{ octets := addrRead e s e.b, cseq := e.cseq }] } }
      st := stPending
      event := some 0x7001 }

/-- GRAFT (R347). -/
def execGraft (w : IWord) (s : State) : Host.Outcome State Fault Refusal := .next (runCmd graftCmd w s)

/-- The journal at a start (R368): an ARMED one is rolled back. -/
def rollBack (s : State) : State :=
  match s.vault.journal with
  | none => s
  | some j =>
    let s := j.rows.foldl (fun s p => setSlot s p.1 p.2) s
    raise 0x7003 0 0 (bumpVault 33 1 { s with vault := { s.vault with journal := none } })

/-! ### UNWRAP (R373, R374) -/

/-- The unwrap descriptor. -/
def unwrapDesc (e : Env) (s : State) : Bytes := readMem s e.imm 96

/-- The destination of an UNWRAP. -/
def unwrapDst (e : Env) : Nat := e.b / 256

/-- The checks of UNWRAP before the unwrapping. -/
def unwrapOwn (e : Env) (s : State) : List Check :=
  let key := getSlot s (e.b % 256)
  let dst := getSlot s (unwrapDst e)
  [(s.crust.quiesce, stFault), (decide (attrType key.attr = 0), stKeyErased),
   (decide (attrType key.attr ≠ 1) || !nb key.attr 24, stAttr),
   (decide (unwrapDst e < 16) || nb dst.attr 15 ||
      decide (attrType dst.attr ≠ 0 ∧ attrDomain dst.attr ≠ attrDomain key.attr), stAttr),
   (genDiffers dst (mf (unwrapDesc e s) 80 2), stAttr)]

/-- The checks of what was unwrapped: attribute word and payload. -/
def unwrapContent (domain : Nat) (p : Bytes) : List Check :=
  let attr := mf p 0 4
  [(decide (p.length ≠ 68), stAuth), (decide (attrGen attr ≠ 0), stRange), (nb attr 14, stAttr)] ++
    writeChecks domain attr (p.drop 4)

/-- What an unwrapping gives a key of a domain: a status, and the new attribute word and payload. -/
def unwrapOf (domain : Nat) (r : Option Bytes) : Nat × Nat × Bytes :=
  match r with
  | none => (stAuth, 0, [])
  | some p => (firstFail (unwrapContent domain p), mf p 0 4, p.drop 4)

/-- The unwrapping under the wrapping key. -/
def unwrapResult (e : Env) (s : State) : Nat × Nat × Bytes :=
  let key := getSlot s (e.b % 256)
  unwrapOf (attrDomain key.attr) (kwpUnwrap 256 (beNat (fit 32 key.payload)) ((unwrapDesc e s).take 80))

/-- The command UNWRAP. -/
def unwrapBare : Cmd where
  op := 0x76
  fmt := fun e s => [zeroA e, highB e 16] ++ ptrChecks e.k false 16 e.imm 96 ++
    if ptrOk e.k false 16 e.imm 96 then
      [(decide (mf (unwrapDesc e s) 82 14 ≠ 0 ∨ mf (unwrapDesc e s) 80 2 / 2 ^ 12 % 8 ≠ 0), stReserved)] else []
  eff := fun e s =>
    let own := firstFail (unwrapOwn e s)
    let r := unwrapResult e s
    let st := if own ≠ stOk then own else r.1
    if st ≠ stOk then { s := bumpVault 29 1 s, st := st }
    else
      { s := extendReg 5 (sha384 (unwrapDesc e s))
          (bumpVault 28 1 (setSlot s (unwrapDst e) (rewritten (getSlot s (unwrapDst e)) r.2.2 r.2.1))) }

/-- UNWRAP. -/
def unwrapCmd : Cmd :=
  readingSlot (fun e _ => some (e.b % 256)) (fun _ s => bumpVault 29 1 s) unwrapBare

/-- UNWRAP (R374). -/
def execUnwrap (w : IWord) (s : State) : Host.Outcome State Fault Refusal := .next (runCmd unwrapCmd w s)

/-! ### The block engine (R375 to R377) -/

/-- The command BLK.KEY. -/
def blkKeyBare : Cmd where
  op := 0x73
  fmt := fun e _ => [highA e 2, highB e 20, zeroI e]
  own := fun e s =>
    let a := (getSlot s (e.b % 256)).attr
    [(s.crust.quiesce, stFault), (decide (attrType a = 0), stKeyErased),
     (decide (attrType a ≠ 1 ∧ attrType a ≠ 2) || !nb a 12 || decide (attrGen a ≠ e.b / 256), stAttr)]
  eff := fun e s =>
    let k := getSlot s (e.b % 256)
    let bits := if attrType k.attr = 1 then 256 else 128
    let r : BKey :=
      { key := beNat (fit (bits / 8) k.payload), bits := bits, slot := e.b % 256, gen := attrGen k.attr
        enc := nb k.attr 27, dec := nb k.attr 26 }
    { s := { s with vault := { s.vault with bk := tabPut s.vault.bk e.a r } } }

/-- BLK.KEY; a row that fails leaves BKn empty (R370). -/
def blkKeyCmd : Cmd :=
  readingSlot (fun e _ => some (e.b % 256))
    (fun e s => { s with vault := { s.vault with bk := tabDel s.vault.bk (e.a % 4) } }) blkKeyBare

/-- BLK_KEY (R375). -/
def execBlkKey (w : IWord) (s : State) : Host.Outcome State Fault Refusal := .next (runCmd blkKeyCmd w s)

/-- The register that an instruction names. -/
def blkReg (e : Env) (s : State) : Option BKey := tabFind s.vault.bk (e.a % 4)

/-- The checks of BLK.OP and BLK.CMP after the fields; each block takes a fresh mask (R376, R379). -/
def blkOwn (e : Env) (s : State) : List Check :=
  match blkReg e s with
  | none => [(true, stKeyErased)]
  | some k => [(if nb e.a 2 then !k.dec else !k.enc, stAttr), (s.vault.drbgStopped, stFault)]

/-- `n` blocks under a register. -/
def blkRun (k : BKey) (dec : Bool) (l : Bytes) (n : Nat) : Bytes :=
  (List.range n).flatMap (fun i =>
    let b := mf l (16 * i) 16
    beBytes 16 (if dec then aesDec k.bits k.key b else aesEnc k.bits k.key b))

/-- The masks of `n` blocks are drawn. -/
def drawMasks : Nat → State → State
  | 0, s => s
  | n + 1, s => drawMasks n (internalRandom 16 s).2

/-- BLK.OP. -/
def blkOpCmd : Cmd where
  op := 0x74
  fmt := fun e _ => [highA e 3, highB e 8, (decide (e.b = 0), stRange), (decide (128 < e.b), stLength)] ++
    ptrChecks e.k true 16 e.imm (16 * e.b)
  own := blkOwn
  eff := fun e s =>
    match blkReg e s with
    | some k => { s := drawMasks e.b (storeMem s e.imm (blkRun k (nb e.a 2) (readMem s e.imm (16 * e.b)) e.b)) }
    | none => { s := s, st := stKeyErased }

/-- BLK_OP (R376). -/
def execBlkOp (w : IWord) (s : State) : Host.Outcome State Fault Refusal := .next (runCmd blkOpCmd w s)

/-- BLK.CMP. -/
def blkCmpCmd : Cmd where
  op := 0x75
  fmt := fun e _ => [highA e 3, highB e 8, (decide (e.b = 0), stRange), (decide (64 < e.b), stLength)] ++
    ptrChecks e.k false 16 e.imm (32 * e.b)
  own := blkOwn
  eff := fun e s =>
    match blkReg e s with
    | some k =>
      { s := drawMasks e.b s
        st := if blkRun k (nb e.a 2) (readMem s e.imm (16 * e.b)) e.b = readMem s (e.imm + 16 * e.b) (16 * e.b)
          then stOk else stAuth }
    | none => { s := s, st := stKeyErased }

/-- BLK_CMP (R348). -/
def execBlkCmp (w : IWord) (s : State) : Host.Outcome State Fault Refusal := .next (runCmd blkCmpCmd w s)

/-! ### The DRBG (R378 to R381) -/

/-- DRBG.GET. -/
def drbgGetCmd : Cmd where
  op := 0x77
  fmt := fun e _ => [zeroA e, highB e 3, zeroI e, (decide (e.b = 0 ∨ 4 < e.b), stRange)]
  own := fun _ s => [(s.vault.drbgStopped, stFault)]
  eff := fun e s =>
    let r := internalRandom (8 * e.b) s
    { s := r.2, regs := (List.range e.b).map (fun i => (i + 1, BitVec.ofNat 64 (mf r.1 (8 * i) 8))) }

/-- DRBG_GET (R378). -/
def execDrbgGet (w : IWord) (s : State) : Host.Outcome State Fault Refusal := .next (runCmd drbgGetCmd w s)

/-- The DRBG is instantiated afresh; the rootstock then has its regions again if it had lost them (R114). -/
def drbgInstantiated (s : State) : State :=
  let s := drbgSeed (0, 0) s
  rootstockMemory { s with vault := { s.vault with
      drbgStopped := false, drbgErased := false, drbgAttempts := 0, drbgRequests := 0, drbgReseedAt := s.clk.root } }

/-- DRBG_RESEED (R378). -/
def execDrbgReseed (t : Nat) (s : State) : Host.Outcome State Fault Refusal :=
  .next (event t
    (fun s => !s.vault.drbgStopped &&
      (decide (2 ^ 16 ≤ s.vault.drbgRequests) || waited s s.vault.drbgReseedAt (100 * msec)))
    (fun s =>
      let s := drbgSeed (s.vault.drbgKey, s.vault.drbgV) s
      bumpVault 36 1 { s with vault := { s.vault with drbgRequests := 0, drbgReseedAt := s.clk.root } }) s)

/-- A health test fails and the DRBG stops (R379). -/
def healthFails (s : State) : State :=
  bumpVault 37 1 (raise 0x7005 0 0
    { s with vault := { s.vault with
        drbgStopped := true, drbgErased := false, drbgAttempts := 0, drbgFailedAt := s.clk.root } })

/-- The cutoffs of the continuous tests (R379). -/
def repetitionCutoff : Nat := 1 + 40
def proportionCutoff : Nat := 793

/-- The number of equal bits at the start of a string. -/
def leadingRun : List Bool → Nat
  | [] => 0
  | [_] => 1
  | a :: b :: l => if a = b then leadingRun (b :: l) + 1 else 1

/-- Whether the source's bits, the latest first, fail the repetition count test with the last of them. -/
def repetitionFails (raw : List Bool) : Bool := decide (repetitionCutoff ≤ leadingRun raw)

/-- Whether they end a window of 1 024 bits whose first bit occurs in it too often. -/
def proportionFails (raw : List Bool) : Bool :=
  let w := (raw.take 1024).reverse
  decide (raw.length % 1024 = 0) && decide (proportionCutoff ≤ (w.filter (· == w.headD false)).length)

/-- HEALTH_TEST_FAILURE (R379): the raw bits so far, the latest first, fail a continuous test. -/
def execHealthTestFailure (raw : RawBits) (s : State) : Host.Outcome State Fault Refusal :=
  .next (event raw.t
    (fun s => !s.vault.drbgStopped && !s.power.held && (repetitionFails raw.bits || proportionFails raw.bits))
    healthFails s)

/-- A reinstantiation attempt ends; after three that fail the DRBG stays stopped (R379). -/
def reinstantiate (pass : Bool) (s : State) : State :=
  if pass then drbgInstantiated s
  else
    let n := s.vault.drbgAttempts + 1
    let s := { s with vault := { s.vault with drbgAttempts := n } }
    if n = 3 then raise 0x7006 0 0 s else s

/-- DRBG_REINSTANTIATE (R379). -/
def execDrbgReinstantiate (t : Nat) (pass : Bool) (s : State) : Host.Outcome State Fault Refusal :=
  .next (event t
    (fun s => s.vault.drbgStopped && !s.vault.drbgErased && decide (s.vault.drbgAttempts < 3) &&
      waited s s.vault.drbgFailedAt (10 * msec * s.vault.drbgAttempts))
    (reinstantiate pass) s)

/-- DRBG_POST_ERASE_INSTANTIATE (R381). -/
def execDrbgPostEraseInstantiate (t : Nat) (pass : Bool) (s : State) : Host.Outcome State Fault Refusal :=
  .next (event t (fun s => s.vault.drbgStopped && s.vault.drbgErased)
    (fun s => if pass then drbgInstantiated s else healthFails s) s)

/-! ### Crust responses (R380) -/

/-- Operations in flight end with ST_KEY_ERASED and are counted, the block engine and the DRBG state are cleared. A message that
has not committed commits no more. -/
def vaultWorkingErased (s : State) : State :=
  let l := (s.vault.serving.map (·.msg)).toList ++ s.vault.grafts
  let s := { s with vault := { s.vault with
    bk := [], grafts := [], serving := none, journal := if s.vault.serving.isSome then none else s.vault.journal
    drbgStopped := true, drbgErased := true, drbgAttempts := 0, drbgKey := 0, drbgV := 0 } }
  l.foldl (fun s g => graftFails g stKeyErased 0x1F s) s

/-- What a slot holds once every row has been erased: DOMAIN is kept (R370) and every generation is 0 (R356). -/
def erasedSlot (p : Nat × Slot) : Nat × Slot :=
  (p.1, if p.1 < 16 then slotReset p.1 else ⟨[], attrDomain p.2.attr * 2 ^ 16⟩)

/-- Every row, the keys of the mask area and the journal are erased; the vault is VAULT_EMPTY at the next power-up (R360,
R380). Each of the 256 rows counts as an erase (R370, R382; DEDUCED). -/
def vaultAllErased (s : State) : State :=
  bumpVault 30 256 { s with vault := { s.vault with
    slots := (s.vault.slots.map erasedSlot).filter (fun p => decide (p.2 ≠ slotReset p.1))
    journal := none, maskKeys := [], scramble := 0, remaskRow := 0 } }

/-! ### Commands and starts that read a slot (R32, R360) -/

/-- The start of a PK.OP with the cells that a burst has struck in the row of its slot (R389). -/
def startRead (burst : Nat) (op : PressOp) (rest : List PressOp) (s : State) : State :=
  startOp op rest (if op.vault then struckRow op.slot burst (committedFor op.slot s) else s)

/-- PRESS_OP_START (R388, R389): an operation whose row fails finds its slot empty. -/
def execPressOpStart (x : PressStart) (s : State) : Host.Outcome State Fault Refusal :=
  .next (event x.t opStarts
    (fun s => match s.press.queue with
      | op :: rest => startRead x.burst op rest s
      | [] => s) s)

/-- The slot that MG.REGION and MG.REKEY take their key from, where `k` is the bit that says so. -/
def mgKeySlot (k : Nat) (e : Env) (s : State) : Option Nat :=
  if nb (mgDesc e s) k then some (nf (mgDesc e s) 245 238) else none

/-- MG.REGION with VALID = 1. -/
def mgRegionCreateCmd : Cmd := readingSlot (mgKeySlot 254) (fun _ s => s) mgRegionCreateBare

/-- MG_REGION_CREATE (R424). -/
def execMgRegionCreate (w : IWord) (s : State) : Host.Outcome State Fault Refusal := .next (runCmd mgRegionCreateCmd w s)

/-- MG.REKEY with MODE ROTATE. -/
def mgRotateCmd : Cmd := readingSlot (mgKeySlot 252) (fun _ s => s) mgRotateBare

/-- MG_REKEY_ROTATE (R443). -/
def execMgRekeyRotate (w : IWord) (s : State) : Host.Outcome State Fault Refusal := .next (runCmd mgRotateCmd w s)

/-- MG.REKEY with MODE REBUILD. -/
def mgRebuildCmd : Cmd := readingSlot (mgKeySlot 252) (fun _ s => s) mgRebuildBare

/-- MG_REKEY_REBUILD (R444). -/
def execMgRekeyRebuild (w : IWord) (s : State) : Host.Outcome State Fault Refusal := .next (runCmd mgRebuildCmd w s)

end Sys2Proof.Machine
end

