-- ==== Sys2Proof/Machine/TrellisSetting.lean ====
section
/-! DEFINITION. The Trellis setting, roles and the election (R491 to R495), and TR.ROLE. -/

namespace Sys2Proof.Machine

/-! ### The setting (R492, R493) -/

/-- The setting in rootstock data. -/
def trSettingMem (s : State) : Nat := beNat (readMem s 0x60040 64)

/-- EN of a setting. -/
def trEn (v : Nat) : Bool := nb v 511
/-- SYNCP of a setting. -/
def trSyncp (v : Nat) : Nat := nf v 445 438
/-- RINGSLOT of a setting. -/
def trRingSlot (v : Nat) : Nat := nf v 497 490
/-- The lane fields SSC, TWO and FAST of a setting. -/
def trLanes (v : Nat) : Nat := nf v 508 506

/-- The field checks of a setting. -/
def trFieldChecks (v : Nat) : List Check :=
  [(decide (v % 2 ^ 433 ≠ 0), stReserved), (trEn v && decide (trSyncp v = 0), stRange),
   (!nb v 437 && decide (nf v 436 433 ≠ 0), stRange)]

/-- The checks of RINGSLOT. -/
def trSlotChecks (s : State) (v : Nat) : List Check :=
  let a := (getSlot s (trRingSlot v)).attr
  [(decide (attrType a = 0), stKeyErased),
   (decide (attrType a ≠ 8) || !nb a 21 || decide (attrGen a ≠ nf v 489 478), stAttr)]

/-- Both ports begin link bring-up at step 1, or are off (R496). -/
def trBringUp (s : State) : State :=
  let step := if trEn s.trellis.setting then LinkStep.lock else .off
  { s with trellis := { s.trellis with
      portW := { s.trellis.portW with step := step, since := s.clk.root, keyTx := 0, keyRx := 0, oldRx := none, offer := none, answer := none }
      portE := { s.trellis.portE with step := step, since := s.clk.root, keyTx := 0, keyRx := 0, oldRx := none, offer := none, answer := none } } }

/-! ### Roles and the election (R494, R495) -/

/-- Whether this Wenok is a candidate. -/
def candidate (s : State) : Bool :=
  if s.trellis.role = 0 then s.trellis.strap else decide (s.trellis.role = 1)

/-- This Wenok as a node. -/
def selfNode (s : State) : TopoNode :=
  { node := nodeField s, devid := beNat s.boot.devid, prio := nf s.trellis.setting 505 498, candidate := candidate s }

/-- Whether `a` wins over `b`: higher PRIO, then lower DEVID. -/
def outranks (a b : TopoNode) : Bool :=
  decide (b.prio < a.prio) || (decide (a.prio = b.prio) && decide (a.devid < b.devid))

/-- Whether this Wenok wins among the nodes it knows. -/
def winsElection (s : State) : Bool :=
  trEn s.trellis.setting && candidate s &&
    s.trellis.members.all (fun m => !m.candidate || outranks (selfNode s) m)

/-- The election: the winner becomes node 0; a former manager that loses gives its number up. A change of role raises
0xA006. -/
def elect (s : State) : State :=
  let s := bumpTr 26 1 s
  let wins := winsElection s
  if wins = s.trellis.isManager then s
  else
    let s := { s with trellis := { s.trellis with isManager := wins, node := if wins then some 0 else none } }
    raise 0xA006 (nodeField s) 0 s

/-- A setting is taken (R493): links that are up stay up unless EN becomes 0, RINGSLOT or the lane fields change. -/
def takeSetting (v : Nat) (s : State) : State :=
  let old := s.trellis.setting
  let s := { s with trellis := { s.trellis with setting := v } }
  if trEn old = trEn v && trRingSlot old = trRingSlot v && trLanes old = trLanes v then s else trBringUp s

/-- The setting is read when Complex A is released (R492); one that fails its checks is not taken. -/
def trStart (s : State) : State :=
  let v := trSettingMem s
  if firstFail (trFieldChecks v ++ trSlotChecks s v) = stOk then elect (takeSetting v s) else s

/-- TR.ROLE. -/
def trRoleCmd : Cmd where
  op := 0xB2
  fmt := fun e s => [zeroA e, highB e 2, zeroI e, (decide (e.b = 3), stRange)] ++ trFieldChecks (trSettingMem s)
  own := fun _ s => trSlotChecks s (trSettingMem s)
  eff := fun e s =>
    let s := takeSetting (trSettingMem s) s
    { s := elect { s with trellis := { s.trellis with role := e.b } } }

/-- TR_ROLE (R493). -/
def execTrRole (w : IWord) (s : State) : Host.Outcome State Fault Refusal := .next (runCmd trRoleCmd w s)

end Sys2Proof.Machine
end

