-- ==== Sys2Proof/Machine/Boot.lean ====
section
/-! DEFINITION. Secure boot and the Vintage statement (14_boot_and_vintage.md), recovery (R409, R514), and the end of a
staging (R332). -/

namespace Sys2Proof.Machine

/-! ### The checks of an image (R405) -/

/-- A reserved field of the header that is not zero. -/
def imageReserved (m : Bytes) : Bool :=
  decide (8 ≤ imgFlags m ∨ mf m 6 2 ≠ 0 ∨ mf m 36 12 ≠ 0 ∨ mf m 192 64 ≠ 0 ∨ mf m 7667 525 ≠ 0)

/-- A length out of range, or an image longer than the `room` octets there are. -/
def imageLength (room : Nat) (m : Bytes) : Bool :=
  decide (imgCodeLen m % 16 ≠ 0 ∨ imgCodeLen m < 16 ∨ 131072 < imgCodeLen m ∨ imgDataLen m % 16 ≠ 0 ∨
    65536 < imgDataLen m ∨ room < 8192 + imgCodeLen m + imgDataLen m)

/-- A field out of range. -/
def imageRange (s : State) (m : Bytes) : Bool :=
  decide (mf m 0 4 ≠ 0x5253544B ∨ mf m 4 1 ≠ 1 ∨ mf m 8 4 / 256 ≠ 0x6400B0 ∨ imgSvn m = 0 ∨
    imgSvn m < s.boot.minSvn ∨ imgEntry m % 16 ≠ 0 ∨ imgCodeLen m ≤ imgEntry m ∨
    (!nb (imgFlags m) 0 ∧ mf m 144 48 ≠ 0))

/-- "ROOTSTOCK". -/
def rootstockLabel : Bytes := beBytes 9 0x524F4F5453544F434B

/-- The signer's P-384 key. -/
def imgSignEc (m : Bytes) : Bytes := mb m 256 96
/-- The signer's ML-DSA-87 key. -/
def imgSignDsa (m : Bytes) : Bytes := mb m 352 2592

/-- Whether both signatures verify. -/
def imageSigned (m : Bytes) : Bool :=
  ecSigOk (imgSignEc m) (imgDigest m) (mb m 2944 96) &&
    dsaVerify (imgSignDsa m) (mb m 0 2944) rootstockLabel (mb m 3040 4627)

/-- The checks of an image that come before those of the Press (R405). -/
def imageFields (s : State) (room : Nat) (m : Bytes) : List Check :=
  [(imageReserved m, stReserved), (imageLength room m, stLength), (imageRange s m, stRange),
   (decide (sha384 (imgSignEc m ++ imgSignDsa m) ≠ fit 48 (anchorNow s)), stAuth)]

/-- The Press validates the key and verifies the signatures of an image that has come so far, as an internal request (R403). -/
def imageServed (room : Nat) (m : Bytes) (s : State) : State :=
  if firstFail (imageFields s room m) = stOk then internalUse verifyCycles s else s

/-- The status of an image in the order of R405. -/
def imageStatus (s : State) (room : Nat) (m : Bytes) : Nat :=
  firstFail (imageFields s room m ++
    pointChecks 2 (pointOf 2 (imgSignEc m)) ++
    [(!imageSigned m, stAuth), (decide (sha384 (imgCode m ++ imgData m) ≠ mb m 48 48), stAuth)])

/-! ### Boot ROM steps (R408, R410) -/

/-- Step 1 (R360, R368, R467): the mask area and the erase flag, then the journal. A vault that comes up VAULT_EMPTY has every
general slot empty at generation 0 and its journal clear, and its mask area holds nothing until its keys are drawn. -/
def bootVault (s : State) : State :=
  let empty := s.crust.eraseFlag || s.vault.areaLost
  let s := { s with crust := { s.crust with erased := s.crust.eraseFlag, eraseFlag := false, flips := tabDel s.crust.flips 66 }
                    vault := { s.vault with vaultEmpty := empty, areaLost := empty } }
  if empty then { s with vault := { s.vault with slots := [], journal := none } } else rollBack s

/-- A P-384 scalar of step 4. -/
def idScalar (uds label : Bytes) : Nat :=
  beNat (fit 64 (shake256 (uds ++ label) 64)) % (curveN 2 - 1) + 1

/-- A system slot: its payload, TYPE and usage, LOCK set, GENERATION kept. -/
def systemSlot (i typ usage : Nat) (payload : Bytes) (s : State) : State :=
  setSlot s i ⟨payload, typ * 2 ^ 28 + usage + 2 ^ 15 + attrGen (getSlot s i).attr⟩

/-- Step 4: the device identity from a secret (R410). -/
def deriveIdentity (uds : Bytes) (s : State) : State :=
  let d0 := idScalar uds (beBytes 6 0x574E4B494430)
  let xi := fit 32 (shake256 (uds ++ beBytes 6 0x574E4B494431) 32)
  let dz := fit 64 (shake256 (uds ++ beBytes 6 0x574E4B494432) 64)
  let d3 := idScalar uds (beBytes 6 0x574E4B494433)
  let s := systemSlot 0 4 (2 ^ 23) (beBytes 48 d0) s
  let s := systemSlot 1 7 (2 ^ 23) xi s
  let s := systemSlot 2 6 (2 ^ 22) dz s
  let s := systemSlot 3 4 (2 ^ 22) (beBytes 48 d3) s
  { s with boot := { s.boot with
      devid := fit 32 (sha3 (pointBytes 2 (ecMul 2 d0 (curveG 2)) ++ fit 2592 (dsaPub xi))) } }

/-- The measurements of step 7 (R411), with the anchor that was in force when the image was checked. -/
def measureStart (m : Bytes) (s : State) : State :=
  let s := extendReg 0 (beBytes 4 Config.romVer) (extendReg 0 (fit 48 Config.romDigest) s)
  let s := extendReg 1 (imgDigest m) s
  let s := commitImage m (extendReg 2 (fit 48 (anchorNow s)) s)
  extendReg 3 (beBytes 4 s.boot.minSvn ++ beBytes 1 (bootFlags s)) s

/-- A DEBUG image is accepted (R407): the vault is erased and the identity derived from 32 zero octets. -/
def debugStart (s : State) : State :=
  let s := newMaskArea (drbgInstantiated (vaultAllErased (vaultWorkingErased s)))
  deriveIdentity (List.replicate 32 0) { s with vault := { s.vault with areaLost := true } }

/-- Complex A, active for the first time, with its image loaded and its program started (R412). -/
def firstActive (s : State) : State :=
  startRootstock { s with seq := { s.seq with active := some 0, healthA := .active } }

/-- The hash seed and the metadata key drawn for this start (R101, R421). -/
def startSecrets (s : State) : State :=
  let seed := internalRandom 4 s
  let key := internalRandom 32 seed.2
  { key.2 with
    cls := { key.2.cls with seed := beNat seed.1 }
    mg := { key.2.mg with metaKey := beNat key.1 } }

/-- The first base image, of the moment control is given (R322). -/
def firstImage (s : State) : State :=
  { s with seq := { s.seq with ckptValid := true, image := snapshot s.clk.root s.seq, journal := 0, baseGen := 1 } }

/-- Complex A is released (R305, R408, R532): the rootstock runs, FAULT_N is released, training of the Memory Guard
starts (R419), the Trellis unit reads its setting (R492), the Peer Table has its seed (R101). -/
def releaseA (s : State) : State :=
  let s := startSecrets (firstActive s)
  let s := { s with
    power := { s.power with faultN := false, booting := false }
    boot := { s.boot with running := true, code := 0, rwait := false
                          jtagOpen := s.boot.flagDebug && !s.crust.quiesce } }
  trStart (mgBegin (firstImage s))

/-- Step 7: an image that passed is started. -/
def startImage (m : Bytes) (offset : Nat) (imageB recovery : Bool) (s : State) : State :=
  let s := { s with boot := { s.boot with
    flagDebug := nb (imgFlags m) 2, flagImageB := imageB, flagRecovery := recovery, image := m, offset := offset } }
  let s := if nb (imgFlags m) 2 then debugStart s else s
  releaseA (measureStart m s)

/-- RWAIT becomes 1 and cause 23 is set (R514, R520). -/
def waitRecovery (s : State) : State := setCause 23 { s with boot := { s.boot with rwait := true, reading := none } }

/-- Recovery (R409): FAULT_N is low, the boot status code stands in BAR0, 0xC007 is raised. -/
def enterRecovery (code : Nat) (s : State) : State :=
  let s := raiseEv { code := 0xC007, aux := code }
    { s with boot := { s.boot with code := code }, power := { s.power with faultN := true } }
  if code = 3 then waitRecovery s else s

/-- The flash room of an image at an offset. -/
def flashRoom (offset : Nat) : Nat := Config.flashSize - offset

/-- Whether the boot header's CRC-32C holds. -/
def headerGood (h : Bytes) : Bool := decide (crc32c (mb h 0 12) = mf h 12 4)

/-- Steps 5 to 7: image A, then image B, then recovery. -/
def bootImages (h a b : Bytes) (s : State) : State :=
  let offA := mf h 4 4
  let offB := mf h 8 4
  let stA := imageStatus s (flashRoom offA) a
  let s := if headerGood h then imageServed (flashRoom offA) a s else s
  if headerGood h && decide (stA = stOk) then startImage a offA false false s
  else
    let stB := imageStatus s (flashRoom offB) b
    let s := imageServed (flashRoom offB) b s
    let s := { s with boot := { s.boot with statA := if headerGood h then stA else 0 } }
    if stB = stOk then startImage b offB true false s
    else enterRecovery 3 { s with boot := { s.boot with statB := stB } }

/-- The Boot ROM (R404, R408, R409). A vault that has come up VAULT_EMPTY draws its scramble key once the DRBG runs (R358). -/
def bootRom (selfTest drbg : Bool) (h a b : Bytes) (s : State) : State :=
  let s := turnRecord 2 (bootVault s)
  let s := { s with boot := { s.boot with bootCount := (s.boot.bootCount + 1) % 2 ^ 32 } }
  let dead := { s with vault := { s.vault with drbgStopped := true, drbgAttempts := 3 } }
  if !selfTest then enterRecovery 1 dead
  else if !drbg then enterRecovery 2 dead
  else
    let s := drbgInstantiated s
    bootImages h a b (deriveIdentity (fit 32 Config.uds) (if s.vault.vaultEmpty then newMaskArea s else s))

/-- BOOT_ROM (R408). -/
def execBootRom (t : Nat) (selfTest drbg : Bool) (h a b : Bytes) (s : State) : Host.Outcome State Fault Refusal :=
  .next (event t (fun s => s.power.booting && s.power.powerGood && !s.power.held && decide (s.boot.code = 0))
    (bootRom selfTest drbg h a b) s)

/-! ### Recovery reads (R409, R514) -/

/-- A recovery attempt fails: RSTATUS, RWAIT, cause 23. -/
def recoveryFails (st : Nat) (s : State) : State := waitRecovery { s with boot := { s.boot with rstatus := st } }

/-- A recovery image has been read: it is checked and started. What w1 holds for it is not stated. -/
def recoveryRead (m : Bytes) (s : State) : State :=
  let st := imageStatus s s.hostIf.recLen (fit s.hostIf.recLen m)
  let s := imageServed s.hostIf.recLen (fit s.hostIf.recLen m) s
  if st ≠ stOk then recoveryFails st s
  else
    let d := draw { s with boot := { s.boot with rstatus := stOk, reading := none } }
    startImage (fit s.hostIf.recLen m) (d.1 % 2 ^ 64) false true d.2

/-- RECOVERY_READ_COMPLETE (R514). -/
def execRecoveryReadComplete (t : Nat) (image : HostXfer) (s : State) : Host.Outcome State Fault Refusal :=
  .next (event t (fun s => s.boot.reading.isSome && decide (image ≠ .late))
    (fun s => match image with
      | .bytes m => recoveryRead m s
      | .error => recoveryFails stFault (bump 20 0 1 48 1 s)
      | .late => s) s)

/-- RECOVERY_READ_TIMEOUT (R514). No event is raised: R489 lists no code for it (DESIGN CHOICE, log entry 101). -/
def execRecoveryReadTimeout (t : Nat) (s : State) : Host.Outcome State Fault Refusal :=
  .next (event t (fun s => match s.boot.reading with | some r => expired s (r + 100 * msec) | none => false)
    (fun s => recoveryFails stTimeout (bump 20 0 2 48 1 s)) s)

/-- REC_CTL_GO (R514). -/
def execRecCtlGo (t value : Nat) (s : State) : Host.Outcome State Fault Refusal :=
  .next (event t (fun s => nb value 31 && s.boot.rwait)
    (fun s =>
      if s.hostIf.recAddr % 4096 ≠ 0 then recoveryFails stAlign s
      else if s.hostIf.recLen < 8192 ∨ 204800 < s.hostIf.recLen then recoveryFails stRange s
      else { s with boot := { s.boot with rwait := false, reading := some s.clk.root } }) s)

/-! ### Staging (R332) -/

/-- STAGE_COMPLETE (R332). -/
def execStageComplete (t : Nat) (image : Bytes) (s : State) : Host.Outcome State Fault Refusal :=
  .next (event t (fun s => s.seq.staging.isSome)
    (fun s => match s.seq.staging with
      | some (o, q) =>
        let st := imageStatus s (flashRoom o) image
        let staged := if st = stOk then some (o, image) else none
        complete 0x6005 q st 0 0
          (imageServed (flashRoom o) image { s with seq := { s.seq with staging := none, staged := staged } })
      | none => s) s)

/-! ### The Vintage statement (R350, R412 to R414) -/

/-- "VINTAGE". -/
def vintageLabel : Bytes := beBytes 7 0x56494E54414745

/-- The ECDSA signature over a body. -/
def vintageEc (s : State) (body rnd : Bytes) : Bytes :=
  let d := beNat (fit 48 (getSlot s 0).payload)
  let r := ecdsaSig 2 d (hedgedNonce 2 d (sha384 body) rnd) (sha384 body)
  beBytes 48 r.1 ++ beBytes 48 r.2

/-- A statement is signed and written; `up` is what a fault has put on the final step of its signatures, which the redundant
path finds (R398). -/
def vintageWrite (v : VintReq) (body up : Bytes) (s : State) : State :=
  let ec := internalRandom 48 s
  let pq := internalRandom 32 ec.2
  let s := bump 17 1 12 48 1 pq.2
  if up.any (· != 0) then complete 0x600B v.cseq stFault 0 0 (pressMismatch s)
  else
    match dsaSign (fit 32 (getSlot s 1).payload) body vintageLabel pq.1 with
    | none => complete 0x600B v.cseq stFault 0 0 (raise 0x7008 0 0 s)
    | some sig =>
      let l := body ++ vintageEc s body ec.1 ++ fit 4627 sig
      complete 0x600B v.cseq stOk 0 0 (emit (.hostWrite v.addr l) s)

/-- The statement under way is done, and the working registers are cleared (R399). -/
def vintageDone (v : VintReq) (body up : Bytes) (s : State) : State :=
  clearing
    (if s.vault.drbgStopped || !s.hostIf.linkUp then complete 0x600B v.cseq stFault 0 0 s
     else if v.len < body.length + 4723 then complete 0x600B v.cseq stLength 0 0 s
     else vintageWrite v body up s)

/-- Whether the statement under way has been taken. -/
def vintageTaken (s : State) : Bool := match s.press.vintages with | v :: _ => v.snap.isSome | [] => false

/-- The statement under way ends. -/
def vintageEnds (up : Bytes) (s : State) : State :=
  match s.press.vintages with
  | v :: rest => vintageDone v (v.snap.getD []) up { s with press := { s.press with vintages := rest } }
  | [] => s

/-- SYS.VINTAGE. -/
def sysVintageCmd : Cmd where
  op := 0xC3
  fmt := fun e s => [zeroA e, highB e 16, (decide (e.imm % 64 ≠ 0), stAlign), (decide (e.b = 0), stRange),
    (decide (0 < e.b ∧ e.b < vintageLength s), stLength)]
  own := fun _ s => [(decide (4 ≤ s.press.vintages.length), stBusy)]
  eff := fun e s =>
    let c := getCtx s e.k
    let nonce := [1, 2, 3, 4].flatMap (fun i => beBytes 8 (readReg c i).toNat)
    { s := startVintage { s with press := { s.press with
        vintages := s.press.vintages ++ [{ nonce := nonce, len := e.b, addr := e.imm, cseq := e.cseq }] } }
      st := stPending
      event := some 0x600B }

/-- SYS_VINTAGE (R350). -/
def execSysVintage (w : IWord) (s : State) : Host.Outcome State Fault Refusal := .next (runCmd sysVintageCmd w s)

/-- A Crust erase ends the statements in flight with ST_KEY_ERASED (R380). -/
def vintagesErased (s : State) : State :=
  let l := s.press.vintages
  l.foldl (fun s v => complete 0x600B v.cseq stKeyErased 0 0 s) { s with press := { s.press with vintages := [] } }

end Sys2Proof.Machine
end

