-- ==== Sys2Proof/Machine/CrustUnit.lean ====
section
/-! DEFINITION. The Crust (16_crust.md): monitor settings, arming, alarms and their responses, injection, the log. -/

namespace Sys2Proof.Machine

/-- Adds to a counter of scope 18 (R477). -/
def bumpCrust (k n : Nat) (s : State) : State := bump 18 0 k 48 n s

/-! ### Monitor settings (R453 to R460) -/

/-- The voltage thresholds of R458 in mV, by rail of monitors 12 to 18: LOW default, its permitted range, HIGH default, its
permitted range. -/
def voltTable : List (Nat × Nat × Nat × Nat × Nat × Nat) :=
  [(690, 660, 720, 810, 780, 840), (735, 705, 770, 865, 830, 895), (830, 795, 865, 970, 935, 1005),
   (1105, 1055, 1150, 1295, 1250, 1345), (1010, 970, 1055, 1190, 1145, 1230), (1655, 1585, 1730, 1945, 1870, 2015),
   (2350, 2200, 2450, 3750, 3650, 3900)]

/-- The row of a voltage monitor. -/
def voltRow (m : Nat) : Nat × Nat × Nat × Nat × Nat × Nat := voltTable.getD (m - 12) (0, 0, 0, 0, 0, 0)

/-- The reset value of a monitor's setting. -/
def crustReset (m : Nat) : Nat :=
  if m < 4 then 4 * 2 ^ 55
  else if m < 12 then 2 * 2 ^ 58 + 2 * 2 ^ 54
  else if m < 19 then
    let r := voltRow m
    r.1 / 5 * 2 ^ 50 + r.2.2.2.1 / 5 * 2 ^ 40 + 10 * 2 ^ 32
  else if m = 19 then 0xC9 * 2 ^ 52 + 0x7D * 2 ^ 44 + 4 * 2 ^ 40
  else 0

/-- The setting of a monitor. -/
def crustSetting (s : State) (m : Nat) : Nat := tabGet (crustReset m) s.crust.settings m

/-- RESP of a monitor; monitor 21 always responds at ERASE_ALL (R462). -/
def crustLevel (s : State) (m : Nat) : Nat := if m = 21 then 4 else nf (crustSetting s m) 62 60

/-- Whether a monitor raises alarms: enabled, and active (R452). -/
def monitorLive (s : State) (m : Nat) : Bool :=
  decide (m < 22) && (m == 21 || nb (crustSetting s m) 63) &&
    (!decide (12 ≤ m ∧ m < 18) || s.power.powerGood) && (m != 20 || (s.power.powerGood && !s.power.onVco))

/-- FILT of a setting. -/
def crustFilt (m v : Nat) : Nat :=
  if m < 4 then nf v 58 55 else if m < 12 then nf v 57 54 else if m < 19 then nf v 39 32 else nf v 43 40

/-- LOW of a voltage or temperature setting. -/
def crustLow (m v : Nat) : Int := if m = 19 then signed 8 (nf v 59 52) else (nf v 59 50 : Nat)
/-- HIGH of a voltage or temperature setting. -/
def crustHigh (m v : Nat) : Int := if m = 19 then signed 8 (nf v 51 44) else (nf v 49 40 : Nat)

/-- Reserved encodings and fields of a setting. -/
def crustReserved (m v : Nat) : Bool :=
  decide (5 ≤ nf v 62 60) ||
    (if m < 4 then decide (v % 2 ^ 55 ≠ 0)
     else if m < 12 then decide (v % 2 ^ 54 ≠ 0 ∨ nf v 59 58 = 3)
     else if m < 19 then decide (v % 2 ^ 32 ≠ 0)
     else if m = 19 then decide (v % 2 ^ 40 ≠ 0)
     else if m = 20 then decide (v % 2 ^ 60 ≠ 0)
     else false)

/-- A filter or threshold out of its permitted range, or LOW not below HIGH. -/
def crustRange (m v : Nat) : Bool :=
  let f := crustFilt m v
  if m < 4 then decide (f < 2)
  else if m < 12 then decide (f < 1)
  else if m < 19 then
    let r := voltRow m
    decide (f < 1 ∨ 5 * nf v 59 50 < r.2.1 ∨ r.2.2.1 < 5 * nf v 59 50 ∨ 5 * nf v 49 40 < r.2.2.2.2.1 ∨
      r.2.2.2.2.2 < 5 * nf v 49 40 ∨ nf v 49 40 ≤ nf v 59 50)
  else if m = 19 then
    decide (f < 1 ∨ crustLow m v < -70 ∨ -45 < crustLow m v ∨ crustHigh m v < 115 ∨ 140 < crustHigh m v)
  else false

/-- A change that R471 refuses while the mode is ARMED. -/
def crustLoosens (m old v : Nat) : Bool :=
  (nb old 63 && !nb v 63) || decide (nf v 62 60 < nf old 62 60) ||
    (decide (12 ≤ m ∧ m < 19) && decide (crustLow m v < crustLow m old ∨ crustHigh m old < crustHigh m v)) ||
    (decide (m = 19) && decide (crustLow m old < crustLow m v ∨ crustHigh m v < crustHigh m old)) ||
    (decide (m < 20) && decide (crustFilt m old < crustFilt m v)) ||
    (decide (4 ≤ m ∧ m < 12) && decide (nf v 59 58 ≠ nf old 59 58 ∧ nf v 59 58 ≠ 2))

/-- Settings or mode change at the edge of now (R476). -/
def keepBefore (s : State) : State :=
  if s.crust.before.1 = pclkEdge s then s
  else { s with crust := { s.crust with before := (pclkEdge s, s.crust.settings, s.crust.mode) } }

/-- A stored word of the Crust is written: what had turned over in it is gone (R461). -/
def writeWord (id : Nat) (s : State) : State :=
  { s with crust := { s.crust with flips := tabDel s.crust.flips id } }

/-- A monitor takes a setting: its filter starts again (R454). -/
def setMonitor (m v : Nat) (s : State) : State :=
  let s := writeWord (1 + m) (writeWord (32 + m) (keepBefore s))
  let w := match tabFind s.crust.watches m with
    | some w => tabPut s.crust.watches m { w with count := 0, since := s.clk.root }
    | none => s.crust.watches
  { s with crust := { s.crust with
      settings := tabSet (crustReset m) s.crust.settings m v, watches := w
      filterFrom := tabPut s.crust.filterFrom m s.clk.root } }

/-- CRUST.CFG. -/
def crustCfgCmd : Cmd where
  op := 0xC5
  fmt := fun e _ => [highA e 5, zeroB e, (crustReserved e.a e.imm, stReserved),
    (decide (21 < e.a) || crustRange e.a e.imm, stRange)]
  own := fun e s => [(decide (e.a = 21), stAttr),
    (decide (s.crust.mode = .armed) && crustLoosens e.a (crustSetting s e.a) e.imm, stAttr)]
  eff := fun e s => { s := setMonitor e.a e.imm s }

/-- CRUST_CFG (R454). -/
def execCrustCfg (w : IWord) (s : State) : Host.Outcome State Fault Refusal := .next (runCmd crustCfgCmd w s)

/-! ### The Crust log (R473 to R475) -/

/-- Root cycles of one count of the Crust clock: 1 024 cycles of an oscillator of 1.024 MHz within 15 % (R451). -/
def crustTick : Nat := 8695653 + Config.coscPeriod % 3069053

/-- The Crust clock (R451). -/
def crustTime (s : State) : Nat := (s.clk.root - s.crust.clockFrom) / crustTick % 2 ^ 48

/-- The oldest circulating record makes room (R474): 8 records are kept, 56 circulate. -/
def logRoom (kept : Nat) (l : List CrustRec) : List CrustRec :=
  if kept + 56 ≤ l.length then l.take kept ++ l.drop (kept + 1) else l

/-- A confirmation (SOURCE names a monitor) joins the newest record if SOURCE and LEVELS are the same; anything else is a new
record (R470, R474). The log runs oldest first. -/
def logCrust (source levels detail : Nat) (s : State) : State :=
  match s.crust.log.getLast? with
  | some r =>
    if source % 32 < 22 && r.source = source && r.levels = levels then
      { s with crust := { s.crust with
          log := s.crust.log.dropLast ++ [{ r with repeat_ := min (r.repeat_ + 1) 65535 }] } }
    else addRec
  | none => addRec
where
  addRec : State :=
    let r : CrustRec := ⟨crustTime s, source, levels, 0, detail, s.crust.seq⟩
    { s with crust := { s.crust with
        log := logRoom s.crust.kept s.crust.log ++ [r]
        kept := min 8 (s.crust.kept + 1)
        seq := (s.crust.seq + 1) % 65536
        unraised := if s.crust.onVbat then s.crust.unraised ++ [s.crust.seq] else s.crust.unraised } }

/-- The Cellar Book event of a record; `vbat` is FLAGS bit 5 (R463, R475). -/
def crustEvent (source levels detail : Nat) (vbat : Bool) (s : State) : State :=
  raiseEv { code := 0x9000 + source % 32, obj := if source % 32 < 22 then source % 32 else 0, aux := levels, data := detail
            flags := if vbat then 0x20 else 0 } s

/-- A record is written; while the main domain runs its event is raised. -/
def recordCrust (source levels detail : Nat) (s : State) : State :=
  let s := logCrust source levels detail s
  if s.power.powerGood then crustEvent source levels detail false s else s

/-- LEVELS bits 7 and 6 of a record written now. -/
def crustBits (s : State) : Nat := bn s.crust.onVbat * 128 + bn (decide (s.crust.mode = .test)) * 64

/-- The records written on VBAT are raised at the first start after them (R475). -/
def raiseKept (s : State) : State :=
  let l := s.crust.log.filter (fun r => s.crust.unraised.contains r.seq)
  l.foldl (fun s r => crustEvent r.source r.levels r.detail (nb r.levels 7) s)
    { s with crust := { s.crust with unraised := [] } }

/-! ### What the monitors see (R452, R455 to R461) -/

/-- The monitor that a sight belongs to. -/
def sightMonitor : CrustSight → Nat
  | .case n _ => n
  | .loop n _ _ => 4 + n
  | .rail m _ _ _ => m
  | .temp _ _ => 19
  | .clock _ _ => 20
  | .words _ | .osc _ => 21

/-- The sampling period of a monitor at a root cycle: 1 024 COSC-A cycles of a case input and of the clock count, a step of
16 of a wire loop, 1 ms or on VBAT 100 ms of the temperature, and one root cycle of what is watched all the time. -/
def periodOf (s : State) (m root : Nat) : Nat :=
  let n := root - s.crust.clockFrom
  if m < 4 ∨ m = 20 then n / crustTick
  else if m < 12 then 64 * n / crustTick
  else if m = 19 then n / (if s.crust.onVbat then 100 * msec else msec)
  else n

/-- The remainder of `2 p` by x³¹ + x³ + 1 over two elements, a polynomial as the number of its coefficients. -/
def timesX (p : Nat) : Nat := if p < 2 ^ 30 then 2 * p else (2 * p - 2 ^ 31) ^^^ 9

/-- A product of two such polynomials, by the low `n` coefficients of the second. -/
def polyMul : Nat → Nat → Nat → Nat
  | 0, _, _ => 0
  | n + 1, p, q => (if q % 2 = 1 then p else 0) ^^^ polyMul n (timesX p) (q / 2)

/-- The power `k` of `p`, by the low `n` bits of `k`. -/
def polyPow : Nat → Nat → Nat → Nat
  | 0, _, _ => 1
  | n + 1, p, k => (if k % 2 = 1 then polyMul 31 p else id) (polyPow n (polyMul 31 p p) (k / 2))

/-- Bit `k` of the sequence of x³¹ + x²⁸ + 1 that begins with the bits of a seed, lowest first (R457): each bit is the sum of
those 28 and 31 before it. -/
def loopBit (seed k : Nat) : Bool := popCount 31 (seed &&& polyPow 64 2 k) % 2 == 1

/-- What wire loop `n` drives in the two halves of the step at root cycle `root` (R456). -/
def driven (s : State) (n root : Nat) : Bool × Bool :=
  let mode := nf (crustSetting s (4 + n)) 59 58
  if mode = 2 then
    let b := loopBit (tabGet 0 s.crust.seeds n) (periodOf s (4 + n) root - periodOf s (4 + n) s.crust.seedsAt)
    (b, !b)
  else (mode == 1, mode == 1)

/-- The thresholds of the fast path in mV, by rail; VBAT has none (R458). -/
def fastPath (m : Nat) : Option (Nat × Nat) :=
  [(640, 860), (680, 920), (765, 1035), (1020, 1380), (935, 1265), (1530, 2070)][m - 12]?

/-- Whether a rail is beyond a threshold of the fast path for 3 ns (R458). -/
def fastTrips (m mv past : Nat) : Bool :=
  match fastPath m with
  | some (lo, hi) => decide (mv < lo ∨ hi < mv) && decide (30 ≤ past)
  | none => false

/-- A sight of a rail: an excursion of 1 ns or more that does not last 3 ns trips the fast path or not, which is not stated
(R458). -/
def settledSight (x : CrustSight) (s : State) : CrustSight × State :=
  match x with
  | .rail m mv outside past =>
    if 10 ≤ past ∧ past < 30 then
      let d := draw s
      (.rail m mv outside (if d.1 % 2 = 1 then 30 else 9), d.2)
    else (x, s)
  | _ => (x, s)

/-- The readings that the temperature monitor takes (R459). -/
def tempReadings (s : State) (die : List Int) (crust : Int) : List Int := if s.crust.onVbat then [crust] else die.take 4

/-- Whether an injection runs on monitor `m`. -/
def injected (s : State) (m : Nat) : Bool := match s.crust.injecting with | some (i, _, _) => i == m | none => false

/-- Whether a sight of monitor `m` at root cycle `root` shows the condition, judged under the setting of now (R454 to R460). -/
def shows (s : State) (m root since : Nat) : CrustSight → Bool
  | .case _ high => high != nb (crustSetting s m) 59
  | .loop n a b => (a, b) != driven s n root
  | .rail _ mv outside past =>
    let v := crustSetting s m
    ((injected s m || decide (mv < 5 * nf v 59 50 ∨ 5 * nf v 49 40 < mv)) &&
      decide (1000 * crustFilt m v ≤ min outside (root - since))) || fastTrips m mv past
  | .temp die crust =>
    (tempReadings s die crust).any (fun c =>
      decide (c < crustLow m (crustSetting s m) ∨ crustHigh m (crustSetting s m) < c))
  | .clock pclks phase => decide (pclks < 200000 ∨ 300000 < pclks ∨ phase < 300)
  | .words _ => !s.crust.flips.isEmpty
  | .osc _ => s.crust.oscStopped

/-- Since when the injection runs. -/
def injectedSince (s : State) : Nat := match s.crust.injecting with | some (_, _, t) => t | none => s.clk.root

/-- A sight as an injection forces it inside its monitor (R472). -/
def forced (s : State) (m : Nat) : CrustSight → CrustSight
  | .case n _ => .case n (!nb (crustSetting s m) 59)
  | .loop n a b => .loop n (!a) (!b)
  | .rail _ mv _ past => .rail m mv (s.clk.root - injectedSince s) past
  | .temp _ _ => .temp [crustHigh m (crustSetting s m) + 1] (crustHigh m (crustSetting s m) + 1)
  | .clock n _ => .clock n 0
  | x => x

/-- FILT as samples in a row: of what is confirmed at once, one (R452). -/
def filterCount (s : State) (m : Nat) : Nat := if m < 12 ∨ m = 19 then crustFilt m (crustSetting s m) else 1

/-- Whether the condition of monitor `m` is true, by what it saw last in this sampling period or the one before. -/
def conditionOf (s : State) (m : Nat) : Bool :=
  if m = 21 then !s.crust.flips.isEmpty || s.crust.oscStopped || injected s 21
  else
    match tabFind s.crust.watches m with
    | some w =>
      shows s m w.at_ w.since w.sight && (decide (12 ≤ m ∧ m < 19) || decide (periodOf s m s.clk.root ≤ w.period + 1))
    | none => false

/-- DETAIL of the record of an alarm (R473). -/
def sightDetail (s : State) (count : Nat) : CrustSight → Nat
  | .case _ high => bn high
  | .loop _ _ _ => count
  | .rail _ mv _ _ => mv / 5
  | .temp die crust =>
    let out := (tempReadings s die crust).filter (fun c =>
      decide (c < crustLow 19 (crustSetting s 19) ∨ crustHigh 19 (crustSetting s 19) < c))
    (out.headD 0 % 65536).toNat
  | .clock pclks _ => pclks / 16
  | _ => 0

/-! ### Stored words (R461) -/

/-- The codewords of a stored word: 0 the mode, 1 + m EN and 32 + m RESP of monitor m, 64 and 65 the NOTIFY and QUIESCE
latches, 66 the erase flag. -/
def wordCodes (id : Nat) : List Nat :=
  if id = 0 then [0x00FF, 0x0F0F, 0x3333]
  else if 32 ≤ id ∧ id < 53 then [0x0FF0, 0x33CC, 0x3C3C, 0x55AA, 0x5A5A]
  else if id < 22 ∨ (64 ≤ id ∧ id < 67) then [0x5555, 0x6666]
  else []

/-- Which of its values a stored word has. -/
def wordValue (s : State) (id : Nat) : Nat :=
  if id = 0 then match s.crust.mode with
    | .disarmed => 0
    | .armed => 1
    | .test => 2
  else if id < 22 then bn (nb (crustSetting s (id - 1)) 63)
  else if id < 53 then nf (crustSetting s (id - 32)) 62 60
  else if id = 64 then bn s.crust.notify
  else if id = 65 then bn s.crust.quiesce
  else bn s.crust.eraseFlag

/-- A stored word as its cells hold it. -/
def storedWord (s : State) (id : Nat) : Nat := (wordCodes id).getD (wordValue s id) 0 ^^^ tabGet 0 s.crust.flips id

/-- A bit of a setting takes a value. -/
def withField (v hi lo n : Nat) : Nat := v - nf v hi lo * 2 ^ lo + n * 2 ^ lo

/-- A stored word takes one of its values. -/
def correctWord (id i : Nat) (s : State) : State :=
  let s := writeWord id s
  if id = 0 then { s with crust := { s.crust with
      mode := match i with
        | 0 => .disarmed
        | 1 => .armed
        | _ => .test } }
  else if id < 22 then { s with crust := { s.crust with
      settings := tabSet (crustReset (id - 1)) s.crust.settings (id - 1)
        (withField (crustSetting s (id - 1)) 63 63 i) } }
  else if id < 53 then { s with crust := { s.crust with
      settings := tabSet (crustReset (id - 32)) s.crust.settings (id - 32)
        (withField (crustSetting s (id - 32)) 62 60 i) } }
  else if id = 64 then { s with crust := { s.crust with notify := i == 1 } }
  else if id = 65 then { s with crust := { s.crust with quiesce := i == 1 } }
  else { s with crust := { s.crust with eraseFlag := i == 1 } }

/-- Bits in which two words of 16 differ. -/
def distance (a b : Nat) : Nat := popCount 16 (a ^^^ b)

/-- Bits turn over in a stored word: within 3 bits of a codeword it is corrected to it, counted and logged; else it stays as
it is and sets the condition of monitor 21 (R461). -/
def turnOver (id mask : Nat) (s : State) : State :=
  let w := storedWord s id ^^^ mask % 2 ^ 16
  match (wordCodes id).findIdx? (fun c => decide (distance c w ≤ 3)) with
  | some i =>
    if (wordCodes id).getD i 0 = w then correctWord id i s
    else
      let s := if s.power.powerGood then bumpCrust 22 1 s else s
      recordCrust 29 (crustBits s) 0 (correctWord id i s)
  | none =>
    if wordCodes id = [] then s
    else { s with crust := { s.crust with
      flips := tabSet 0 s.crust.flips id ((wordCodes id).getD (wordValue s id) 0 ^^^ w) } }

/-! ### CRUST.ARM (R469 to R472) -/

/-- Whether an enabled condition is true. -/
def conditionTrue (s : State) : Bool :=
  (List.range 22).any (fun m => conditionOf s m && (m == 21 || nb (crustSetting s m) 63))

/-- The field checks of the arming word; only INJECT names a monitor. -/
def armChecks (inject : Bool) (e : Env) : List Check :=
  [zeroA e, zeroB e, (decide (e.imm % 2 ^ 55 ≠ 0), stReserved),
   (if inject then decide (21 < nf e.imm 59 55) else decide (nf e.imm 59 55 ≠ 0), stRange)]

/-- M4 is extended with the arming word of operation `op` (R411, R469). -/
def measureArm (op : Nat) (e : Env) (s : State) : State :=
  extendReg 4 (beBytes 8 (op * 2 ^ 60 + nf e.imm 59 55 * 2 ^ 55)) s

/-- The mode changes, with its log record. -/
def setCrustMode (m : CrustMode) (source : Nat) (s : State) : State :=
  let s := writeWord 0 (keepBefore s)
  recordCrust source (crustBits { s with crust := { s.crust with mode := m } }) 0
    { s with crust := { s.crust with mode := m } }

/-- The loop seeds of ARM (R457). -/
def drawSeeds (s : State) : State :=
  let r := internalRandom 32 s
  let l := (List.range 8).map (fun i => (i, max 1 (mf r.1 (4 * i) 4 % 2 ^ 31)))
  { r.2 with crust := { r.2.crust with seeds := l, seedsAt := r.2.clk.root } }

/-- CRUST.ARM with OP ARM. -/
def crustArmCmd : Cmd where
  op := 0xC6
  fmt := fun e _ => armChecks false e
  own := fun _ s =>
    if s.crust.mode = .armed then []
    else [(decide (s.crust.mode = .test) || conditionTrue s || !s.crust.charged, stBusy), (s.vault.drbgStopped, stFault)]
  eff := fun e s =>
    let s := measureArm 1 e s
    { s := if s.crust.mode = .armed then s else setCrustMode .armed 24 (drawSeeds s) }

/-- CRUST_ARM (R470). -/
def execCrustArm (w : IWord) (s : State) : Host.Outcome State Fault Refusal := .next (runCmd crustArmCmd w s)

/-- CRUST.ARM with OP DISARM. -/
def crustDisarmCmd : Cmd where
  op := 0xC6
  fmt := fun e _ => armChecks false e
  eff := fun e s =>
    let s := measureArm 2 e s
    { s := if s.crust.mode = .disarmed then s else setCrustMode .disarmed 25 s }

/-- CRUST_DISARM (R470). -/
def execCrustDisarm (w : IWord) (s : State) : Host.Outcome State Fault Refusal := .next (runCmd crustDisarmCmd w s)

/-- CRUST.ARM with OP TEST; in TEST already it changes nothing. -/
def crustTestCmd : Cmd where
  op := 0xC6
  fmt := fun e _ => armChecks false e
  own := fun _ s => [(decide (s.crust.mode = .armed), stBusy)]
  eff := fun e s =>
    let s := measureArm 3 e s
    { s := if s.crust.mode = .test then s else setCrustMode .test 26 s }

/-- CRUST_TEST (R470). -/
def execCrustTest (w : IWord) (s : State) : Host.Outcome State Fault Refusal := .next (runCmd crustTestCmd w s)

/-- CRUST.ARM with OP INJECT. -/
def crustInjectCmd : Cmd where
  op := 0xC6
  fmt := fun e _ => armChecks true e
  own := fun _ s => [(decide (s.crust.mode ≠ .test) || s.crust.injecting.isSome, stBusy)]
  eff := fun e s =>
    let s := measureArm 4 e s
    { s := { s with crust := { s.crust with injecting := some (nf e.imm 59 55, e.cseq, s.clk.root) } }
      st := stPending
      event := some 0x9020 }

/-- CRUST_INJECT (R472). -/
def execCrustInject (w : IWord) (s : State) : Host.Outcome State Fault Refusal := .next (runCmd crustInjectCmd w s)

/-- CRUST.ARM with OP CLEAR. -/
def crustClearCmd : Cmd where
  op := 0xC6
  fmt := fun e _ => armChecks false e
  own := fun _ s => [(conditionTrue s, stBusy)]
  eff := fun e s =>
    let s := measureArm 5 e s
    let s := writeWord 64 (writeWord 65 s)
    { s := recordCrust 28 (crustBits s) 0
        { s with crust := { s.crust with notify := false, quiesce := false, alarmOut := false } } }

/-- CRUST_CLEAR (R470). -/
def execCrustClear (w : IWord) (s : State) : Host.Outcome State Fault Refusal := .next (runCmd crustClearCmd w s)

/-- CRUST.ARM with OP LOGCLEAR. -/
def crustLogclearCmd : Cmd where
  op := 0xC6
  fmt := fun e _ => armChecks false e
  own := fun _ s => [(decide (s.crust.mode ≠ .disarmed), stBusy)]
  eff := fun e s =>
    let s := measureArm 6 e s
    { s := recordCrust 27 (crustBits s) 0 { s with crust := { s.crust with log := [], kept := 0, unraised := [] } } }

/-- CRUST_LOGCLEAR (R470). -/
def execCrustLogclear (w : IWord) (s : State) : Host.Outcome State Fault Refusal := .next (runCmd crustLogclearCmd w s)

/-! ### Alarms and responses (R463 to R468) -/

/-- A monitor whose condition is confirmed (R452), with the DETAIL of its log record (R473). -/
structure CrustAlarm where
  monitor : Nat
  detail : Nat
  deriving DecidableEq, Repr

/-- Associations under an erase response (R192): every state word as after nPOR, cached keys and proofing slots gone;
frames that wait for a fill find their channel absent. No event of R145 is raised for the states that end (log entry 116). -/
def assocWiped (s : State) : State :=
  let pins := s.assoc.chans.filterMap (fun p => p.2.pinning)
  let waiting := s.assoc.missBuf
  let arrays := s.cipher.arrays.map (fun p => (p.1, { p.2 with refills := [] }))
  let s := { s with assoc := {}, cipher := { s.cipher with slots := [], arrays := arrays } }
  let s := waiting.foldl (fun s _ => dropAbsent 0 s) s
  pins.foldl (fun s q => complete 0x3007 q stKeyErased 0 0 s) s

/-- ERASE_WORKING (R192, R380, R400, R448). -/
def eraseWorking (s : State) : State := assocWiped (mgWiped (vintagesErased (pressWiped (vaultWorkingErased s))))

/-- ERASE_ALL (R380, R466, R467): the Key Vault, the erase flag; it draws on the reservoir. -/
def eraseAll (s : State) : State :=
  let s := writeWord 66 (vaultAllErased s)
  { s with crust := { s.crust with eraseFlag := true, charged := false, chargeAt := s.clk.root + 500 * usec } }

/-- The level that is carried out for an alarm of level `l` of monitor `m` (R463, R465). -/
def executed (s : State) (m l : Nat) : Nat :=
  if m = 21 then 4
  else
    let c := match s.crust.mode with
      | .test => 0
      | .disarmed => min l 1
      | .armed => l
    if s.crust.onVbat && c = 3 then 4 else c

/-- The NOTIFY latch, ALARM_OUT and, with main power, interrupt cause 17 (R463, R520). -/
def notifyLatch (s : State) : State :=
  let s := writeWord 64 { s with crust := { s.crust with notify := true, alarmOut := true } }
  if s.power.powerGood then setCause 17 s else s

/-- The actions of a response at level `u`, the most severe first (R464). -/
def respond (u : Nat) (s : State) : State :=
  let s := if u = 4 then eraseAll s else s
  let s := if 3 ≤ u && s.power.powerGood then eraseWorking s else s
  let s := if 2 ≤ u then writeWord 65 { s with crust := { s.crust with quiesce := true } } else s
  let s := if 1 ≤ u then notifyLatch s else s
  if s.power.powerGood then bumpCrust (23 + u) 1 s else s

/-- SOURCE of an alarm's record: the monitor, CAPPED, ESCALATED. -/
def alarmSource (s : State) (m : Nat) : Nat :=
  let l := crustLevel s m
  m + bn (decide (m ≠ 21 ∧ s.crust.mode = .disarmed ∧ 1 < l)) * 32 +
    bn (decide (m ≠ 21 ∧ s.crust.mode = .armed ∧ l = 3) && s.crust.onVbat) * 64

/-- The record of one alarm with the union `u`. -/
def recordAlarm (u : Nat) (a : CrustAlarm) (s : State) : State :=
  let s := if s.power.powerGood then bumpCrust a.monitor 1 s else s
  recordCrust (alarmSource s a.monitor) (crustBits s + u * 8 + crustLevel s a.monitor) (a.detail % 65536) s

/-- An injection ends: its forced condition ends with it (R472). -/
def endInjection (m : Nat) (s : State) : State :=
  { s with crust := { s.crust with injecting := none, watches := tabDel s.crust.watches m } }

/-- An injection whose alarm is confirmed ends with ST_OK (R472). -/
def injectionPasses (l : List CrustAlarm) (s : State) : State :=
  match s.crust.injecting with
  | some (m, q, _) =>
    if l.any (fun a => a.monitor == m) then
      complete 0x9020 q stOk 0 0 (bumpCrust 28 1 (endInjection m s))
    else s
  | none => s

/-- The count of samples in a row with a new one that shows the condition: it goes on from the sample of the period before,
and what is watched all the time counts once for each time that it becomes true (R455 to R460). -/
def nextCount (s : State) (m p : Nat) (x : CrustSight) (old : Option Watch) : Nat :=
  match old, x with
  | some w, .rail _ _ outside past =>
    if w.count ≠ 0 ∧ s.clk.root ≤ w.at_ + max outside past then w.count + 1 else 1
  | some w, _ => if m = 21 ∨ w.period + 1 = p then w.count + 1 else 1
  | none, _ => 1

/-- What a sight leaves beside the watch of its monitor (R452, R461): bits of stored words turned over, whether an oscillator
has stopped, or the reading of VBAT. -/
def sawWords (x : CrustSight) (s : State) : State :=
  match x with
  | .words l => l.foldl (fun s p => turnOver p.1 p.2 s) s
  | .osc still => { s with crust := { s.crust with oscStopped := decide (8 * usec ≤ still) } }
  | .rail 18 mv _ _ => { s with crust := { s.crust with vbat := mv } }
  | _ => s

/-- Monitor `m` takes a sight: its watch goes on, and a condition that its filter confirms is an alarm (R452). A second
sample of a sampling period does nothing. -/
def watch (m : Nat) (x : CrustSight) (s : State) : State × Option CrustAlarm :=
  let q := settledSight (if injected s m then forced s m x else x) s
  let x := q.1
  let s := sawWords x q.2
  let p := periodOf s m s.clk.root
  let old := tabFind s.crust.watches m
  let since := tabGet 0 s.crust.filterFrom m
  let true_ := if m = 21 then conditionOf s 21 else shows s m s.clk.root since x
  let repeated := match old with
    | some w => decide (m < 12 ∨ m = 19 ∨ m = 20) && decide (w.period = p ∧ w.count ≠ 0)
    | none => false
  if repeated then (s, none)
  else
    let n := if true_ then nextCount s m p x old else 0
    let s := { s with crust := { s.crust with
      watches := tabPut s.crust.watches m { sight := x, at_ := s.clk.root, period := p, count := n, since := since } } }
    (s, if n = filterCount s m && monitorLive s m then some ⟨m, sightDetail s n x⟩ else none)

/-- The sights of an edge are taken in ascending monitor order, and what is confirmed is collected. -/
def takeSights (l : List CrustSight) (s : State) : State × List CrustAlarm :=
  (List.range 22).foldl (fun r m =>
    (l.filter (fun x => sightMonitor x == m)).foldl (fun r x =>
      let w := watch m x r.1
      (w.1, r.2 ++ if r.2.any (fun a => a.monitor == m) then [] else w.2.toList)) r) (s, [])

/-- The alarms of an edge get the union of their responses, and a record each (R464). -/
def raiseAlarms (live : List CrustAlarm) (s : State) : State :=
  if live.isEmpty then s
  else
    let u := (live.map (fun a => executed s a.monitor (crustLevel s a.monitor))).foldl max 0
    let t := live.foldl (fun s a => recordAlarm u a s) (respond u s)
    injectionPasses live t

/-- The settings and mode of before the edge of now: a change at the edge of a confirmation applies after it (R476). -/
def asBefore (s : State) : State :=
  if s.crust.before.1 = pclkEdge s then
    { s with crust := { s.crust with settings := s.crust.before.2.1, mode := s.crust.before.2.2 } }
  else s

/-- The sights of an edge are taken, and the alarms that they confirm answered. -/
def alarmEdge (l : List CrustSight) (s : State) : State :=
  let r := takeSights l (asBefore s)
  let t := raiseAlarms r.2 r.1
  if s.crust.before.1 = pclkEdge s then
    { t with crust := { t.crust with settings := s.crust.settings, mode := s.crust.mode } }
  else t

/-- CRUST_ALARM (R452, R464): the monitors sample at root cycle `t`, and the alarms that this confirms are answered. -/
def execCrustAlarm (t : Nat) (sights : List CrustSight) (s : State) : Host.Outcome State Fault Refusal :=
  .next (event t (fun _ => true) (alarmEdge sights) s)

/-- CRUST_INJECT_TIMEOUT (R472). -/
def execCrustInjectTimeout (t : Nat) (s : State) : Host.Outcome State Fault Refusal :=
  .next (event t
    (fun s => match s.crust.injecting with | some (_, _, since) => expired s (since + 40 * msec) | none => false)
    (fun s => match s.crust.injecting with
      | some (m, q, _) => complete 0x9020 q stFault 0 0 (bumpCrust 29 1 (endInjection m s))
      | none => s) s)

/-- RESERVOIR_CHARGED (R466). -/
def execReservoirCharged (t : Nat) (s : State) : Host.Outcome State Fault Refusal :=
  .next (event t (fun s => !s.crust.charged && decide (s.crust.chargeAt ≤ s.clk.root))
    (fun s => { s with crust := { s.crust with charged := true } }) s)

/-- The Crust domain right after a cold start at root cycle `n` (R450): every field at its reset value, a cold-start
record; bit 1 of the cause of R534. -/
def crustCold (n : Nat) : Crust :=
  { clockFrom := n, chargeAt := n + 500 * usec, log := [⟨0, 30, 0, 0, 0, 0⟩], seq := 1, kept := 1, cause := 2 }

/-- A Crust cold start (R450, R360): the cells of the Key Vault hold nothing valid. -/
def coldStart (s : State) : State :=
  { s with crust := crustCold s.clk.root
           vault := { s.vault with slots := [], journal := none, areaLost := true, maskKeys := [], scramble := 0
                                   remaskRow := 0, serving := none } }

/-- CRUST_COLD_START (R450): the domain powers up with neither source present before. -/
def execCrustColdStart (t : Nat) (s : State) : Host.Outcome State Fault Refusal :=
  .next (event t (fun s => !s.power.powerGood) coldStart s)

end Sys2Proof.Machine
end

