-- ==== Sys2Proof/Machine/Data.lean ====
section
/-! DEFINITION. The data group (0x10 to 0x1B): R345 and the table of data instructions. -/

namespace Sys2Proof.Machine

/-- Field rd of operand A. -/
def opRd (e : Env) : Nat := nf e.a 15 12
/-- Field rs of operand A. -/
def opRs (e : Env) : Nat := nf e.a 11 8
/-- Field rt of operand A. -/
def opRt (e : Env) : Nat := nf e.a 7 4

/-- The checks every instruction of the group shares: SRC and RX zero (R335), A[3:0] and B zero. -/
def dataChecks (w : IWord) (e : Env) : List Check :=
  [(decide (w.src ≠ 0 ∨ w.rx ≠ 0), stReserved), (decide (e.a % 16 ≠ 0), stReserved),
   (decide (w.b ≠ 0), stReserved)]

/-- The checks of an instruction with op2. -/
def op2Checks (w : IWord) (e : Env) (_ : State) : List Check :=
  dataChecks w e ++
    [(decide (2 ≤ e.x), stReserved), (decide (e.x = 0) && decide (e.imm ≠ 0), stReserved),
     (decide (e.x = 1) && decide (opRt e ≠ 0), stReserved)]

/-- The first operand. -/
def op1Of (e : Env) (s : State) : Word64 := readReg (getCtx s e.k) (opRs e)
/-- The second operand. -/
def op2Of (e : Env) (s : State) : Word64 :=
  if e.x = 1 then BitVec.ofNat 64 e.imm else readReg (getCtx s e.k) (opRt e)

/-- A result goes to rd, its flags to Z and C; a write to w0 is discarded, the flags are still set. -/
def aluWrite (r : Alu) (e : Env) (s : State) : State :=
  finish e.k none (setCtx s e.k { writeReg (getCtx s e.k) (opRd e) r.val with z := r.z, c := r.c })

/-- An instruction with op2 that writes rd and the flags. -/
def runAlu (op : Nat) (f : Word64 → Word64 → Alu) (w : IWord) (s : State) : Host.Outcome State Fault Refusal :=
  .next (runLoc { op := op, fmt := op2Checks
                  eff := fun e s => aluWrite (f (op1Of e s) (op2Of e s)) e s } w s)

/-- MOVI. -/
def execMovi (w : IWord) (s : State) : Host.Outcome State Fault Refusal :=
  .next (runLoc
    { op := 0x10
      fmt := fun w e _ => dataChecks w e ++ [(decide (e.x ≠ 0 ∨ opRs e ≠ 0 ∨ opRt e ≠ 0), stReserved)]
      eff := fun e s =>
        finish e.k none (setCtx s e.k (writeReg (getCtx s e.k) (opRd e) (BitVec.ofNat 64 e.imm))) } w s)

/-- MOV: X[0] takes SR. -/
def execMov (w : IWord) (s : State) : Host.Outcome State Fault Refusal :=
  .next (runLoc
    { op := 0x11
      fmt := fun w e _ => dataChecks w e ++
        [(decide (2 ≤ e.x ∨ opRt e ≠ 0 ∨ e.imm ≠ 0), stReserved),
         (decide (e.x = 1) && decide (opRs e ≠ 0), stReserved)]
      eff := fun e s =>
        let c := getCtx s e.k
        let v := if e.x = 1 then BitVec.ofNat 64 c.sr else readReg c (opRs e)
        finish e.k none (setCtx s e.k (writeReg c (opRd e) v)) } w s)

/-- ADD. -/
def execAdd (w : IWord) (s : State) : Host.Outcome State Fault Refusal := runAlu 0x12 aluAdd w s
/-- SUB. -/
def execSub (w : IWord) (s : State) : Host.Outcome State Fault Refusal := runAlu 0x13 aluSub w s
/-- AND. -/
def execAndW (w : IWord) (s : State) : Host.Outcome State Fault Refusal :=
  runAlu 0x14 (fun a b => aluLogic (a &&& b)) w s
/-- OR. -/
def execOrW (w : IWord) (s : State) : Host.Outcome State Fault Refusal :=
  runAlu 0x15 (fun a b => aluLogic (a ||| b)) w s
/-- XOR. -/
def execXorW (w : IWord) (s : State) : Host.Outcome State Fault Refusal :=
  runAlu 0x16 (fun a b => aluLogic (a ^^^ b)) w s
/-- SHL. -/
def execShl (w : IWord) (s : State) : Host.Outcome State Fault Refusal := runAlu 0x17 aluShl w s
/-- SHR. -/
def execShr (w : IWord) (s : State) : Host.Outcome State Fault Refusal := runAlu 0x18 aluShr w s

/-- CMP: flags as SUB, nothing written. -/
def execCmp (w : IWord) (s : State) : Host.Outcome State Fault Refusal :=
  .next (runLoc
    { op := 0x19
      fmt := fun w e s => op2Checks w e s ++ [(decide (opRd e ≠ 0), stReserved)]
      eff := fun e s =>
        let r := aluSub (op1Of e s) (op2Of e s)
        finish e.k none (setCtx s e.k { getCtx s e.k with z := r.z, c := r.c }) } w s)

/-- Octets of an LD or ST: X 0 is 64 bits, 1 is 32, 2 is 16, 3 is 8 (R345). -/
def accessWidth (x : Nat) : Nat := 2 ^ (3 - x % 4)

/-- The address of an LD or ST, modulo 2^64 (R345). -/
def accessAddr (e : Env) (s : State) : Nat := ((op1Of e s).toNat + e.imm) % 2 ^ 64

/-- The checks of the address (R345). -/
def accessChecks (write : Bool) (e : Env) (s : State) : List Check :=
  [(decide (accessAddr e s % accessWidth e.x ≠ 0), stAlign),
   (!areaOk e.k write (accessAddr e s) (accessWidth e.x), stRange)]

/-- LD (R345). -/
def execLd (w : IWord) (s : State) : Host.Outcome State Fault Refusal :=
  .next (runLoc
    { op := 0x1A, cost := fun _ _ => 2
      fmt := fun w e s => dataChecks w e ++ [(decide (opRt e ≠ 0), stReserved)] ++ accessChecks false e s
      eff := fun e s =>
        let v := beNat (readMem s (accessAddr e s) (accessWidth e.x))
        finish e.k none (setCtx s e.k (writeReg (getCtx s e.k) (opRd e) (BitVec.ofNat 64 v))) } w s)

/-- ST (R345): the store joins the journal (R323). -/
def execSt (w : IWord) (s : State) : Host.Outcome State Fault Refusal :=
  .next (runLoc
    { op := 0x1B, cost := fun _ _ => 2
      fmt := fun w e s => dataChecks w e ++ [(decide (opRd e ≠ 0), stReserved)] ++ accessChecks true e s
      eff := fun e s =>
        let v := (readReg (getCtx s e.k) (opRt e)).toNat
        finish e.k none
          (storeMem s (accessAddr e s) (beBytes (accessWidth e.x) v)) } w s)

end Sys2Proof.Machine
end

