-- ==== Sys2Proof/Machine/HostIf.lean ====
section
/-! DEFINITION. The host interface (19_host_interface.md): queues and rings, punts and injection, interrupts, the Memory
Guard aperture, the Crust window, the time latch, register writes, link changes. -/

namespace Sys2Proof.Machine

/-- Adds to a counter of scope 20 (R524). -/
def bumpHost (k n : Nat) (s : State) : State := bump 20 0 k 48 n s

/-! ### Program queues (R517 to R519) -/

/-- Whether a producer index is accepted: outstanding entries within the ring (R519). -/
def doorFits (producer consumer size : Nat) : Bool := decide ((producer + 2 ^ 16 - consumer) % 2 ^ 16 ≤ 2 ^ size)

/-- A doorbell overrun: ignored, with its event (R317, R519). -/
def overrun (obj : Nat) (s : State) : State := raise 0xB003 obj 0 (bumpHost 4 1 s)

/-- QDOOR_WRITE (R517, R519); the queue of R501 takes no doorbell. -/
def execQdoorWrite (t q value : Nat) (s : State) : Host.Outcome State Fault Refusal :=
  .next (event t (fun s => decide (q < 16) && s.power.powerGood)
    (fun s =>
      let n := getQueue s q
      let v := value % 2 ^ 16
      if !n.enabled || forwardedQueue s q then bumpHost 5 1 s
      else if doorFits v n.consumer n.size then setQueue s q { n with producer := v }
      else overrun q s) s)

/-- EN = 1 is written to QCTL: refused with CFGERR, or the queue runs with both indices 0 (R517). -/
def enableQueue (q value : Nat) (s : State) : State :=
  let n := getQueue s q
  let size := value % 16
  if n.enabled then bumpHost 5 (bn (decide (size ≠ n.size))) s
  else if size < 4 ∨ 12 < size ∨ n.qd = 0 ∨ n.qc = 0 then setQueue s q { n with size := size, cfgErr := true }
  else setQueue s q { n with size := size, cfgErr := false, enabled := true, producer := 0, consumer := 0 }

/-- QUEUE_ENABLE (R517). -/
def execQueueEnable (t q value : Nat) (s : State) : Host.Outcome State Fault Refusal :=
  .next (event t (fun s => decide (q < 16) && s.power.powerGood && nb value 31) (enableQueue q value) s)

/-- Whether the copies of a program are under way (R315). -/
def isCopying : Run → Bool
  | .copying _ => true
  | _ => false

/-- The program of queue `q` is to end at its next instruction boundary, which may be now: with its record, or without
one. One that has not started is discarded, and so is the descriptor fetched (R316, R512, R518). -/
def cutQueue (q : Nat) (recorded : Bool) (s : State) : State :=
  let n := { getQueue s q with fetched := none }
  let r := (getCtx s (queueCtx q)).run
  match n.prog with
  | none => if recorded then setQueue s q { n with enabled := false } else setQueue s q n
  | some p =>
    let s' := setQueue s q { n with prog := some { p with cut := some recorded } }
    if atBoundary r && executing s && (getCtx s (queueCtx q)).due.isNone then endProgram q stAborted s'
    else if isCopying r then
      commit (setCtx (setQueue s q { n with prog := none, enabled := n.enabled && !recorded }) (queueCtx q)
        { getCtx s (queueCtx q) with run := .idle })
    else s'

/-- EN = 0 is written to QCTL: the running program ends with ST_ABORTED at its next instruction boundary, where the
disable takes effect, and descriptors that are waiting are discarded (R518). -/
def disableQueue (q value : Nat) (s : State) : State :=
  let n := getQueue s q
  let size := value % 16
  if n.enabled then cutQueue q true (bumpHost 5 (bn (decide (size ≠ n.size))) s)
  else setQueue s q { n with size := size, cfgErr := false }

/-- QUEUE_DISABLE (R518). -/
def execQueueDisable (t q value : Nat) (s : State) : Host.Outcome State Fault Refusal :=
  .next (event t (fun s => decide (q < 16) && s.power.powerGood && !nb value 31) (disableQueue q value) s)

/-! ### Rings (R517, R519, R522, R523) -/

/-- RDOOR_WRITE (R519). -/
def execRdoorWrite (t r value : Nat) (s : State) : Host.Outcome State Fault Refusal :=
  .next (event t (fun s => decide (r < 4) && s.power.powerGood)
    (fun s =>
      let n := getRing s r
      let v := value % 2 ^ 16
      if !n.enabled then bumpHost 5 1 s
      else if doorFits v n.consumer n.size then setRing s r { n with producer := v }
      else overrun (16 + r) s) s)

/-- A restart of an inject ring gives it a new head descriptor, whose first refusal counts again (R235, R523). -/
def newHead (r : Nat) (s : State) : State :=
  if 2 ≤ r then { s with cask := { s.cask with injectRefused := tabDel s.cask.injectRefused (r - 2) } } else s

/-- EN = 1 is written to RCTL. -/
def enableRing (r value : Nat) (s : State) : State :=
  let n := getRing s r
  let size := value % 16
  if n.enabled then bumpHost 5 (bn (decide (size ≠ n.size))) s
  else if size < 4 ∨ 14 < size ∨ n.base = 0 then setRing s r { n with size := size, cfgErr := true }
  else setRing (newHead r s) r { n with size := size, cfgErr := false, enabled := true, producer := 0, consumer := 0 }

/-- RING_ENABLE (R517). -/
def execRingEnable (t r value : Nat) (s : State) : Host.Outcome State Fault Refusal :=
  .next (event t (fun s => decide (r < 4) && s.power.powerGood && nb value 31) (enableRing r value) s)

/-- Punted frames of a side whose ring is disabled are dropped, as punt-ring drops (R116, R522). -/
def dropPunts (side : Nat) (s : State) : State :=
  let l := tabGet [] s.cask.punts side
  l.foldl (fun s f => bump 5 0 2 48 1 (freeFrame (.punt side) f.cells f.chain s))
    { s with cask := { s.cask with punts := tabSet [] s.cask.punts side [] } }

/-- EN = 0 is written to RCTL: nothing more is taken; a descriptor whose frame is being read completes (R523). -/
def disableRing (r value : Nat) (s : State) : State :=
  let n := getRing s r
  let size := value % 16
  if n.enabled then
    let s := setRing (bumpHost 5 (bn (decide (size ≠ n.size))) s) r { n with enabled := false }
    if r < 2 then dropPunts r s else newHead r s
  else setRing s r { n with size := size, cfgErr := false }

/-- RING_DISABLE (R523). -/
def execRingDisable (t r value : Nat) (s : State) : Host.Outcome State Fault Refusal :=
  .next (frameEvent t (fun s => decide (r < 4) && s.power.powerGood && !nb value 31) (disableRing r value) s)

/-- PHASE of the entry at a consumer index (R317). -/
def ringPhase (n : Ring) : Nat := if n.consumer / 2 ^ n.size % 2 = 0 then 1 else 0

/-- An entry is written back and the consumer index advances (R519). -/
def writeBack (r v : Nat) (irq : Option Nat) (s : State) : State :=
  let n := getRing s r
  let s := emit (.hostWrite (n.base + 32 * (n.consumer % 2 ^ n.size)) (beBytes 32 v)) s
  let s := setRing s r { n with consumer := (n.consumer + 1) % 2 ^ 16 }
  match irq with
  | some k => setCause k s
  | none => s

/-! ### Punts (R522) -/

/-- The checks of a punt entry. -/
def puntStatus (v : Nat) : Nat :=
  fieldFail [(decide (nf v 132 96 ≠ 0), stReserved), (decide (nf v 255 192 % 64 ≠ 0), stAlign),
    (decide (nf v 191 178 < 64 ∨ 10240 < nf v 191 178), stRange)]

/-- A punt entry as it is written back with its frame. -/
def puntEntry (v phase : Nat) (f : PuntFrame) : Nat :=
  nf v 255 178 * 2 ^ 178 + f.octets.length * 2 ^ 164 + f.reason * 2 ^ 161 + phase * 2 ^ 160 + f.inPort * 2 ^ 146 +
    (if f.reason = 2 then f.rule else 0) * 2 ^ 136 + (if f.reason ≤ 3 then f.cls else 0) * 2 ^ 133 + todForm f.stamp

/-- The first punted frame of a side leaves the account. -/
def puntGone (side : Nat) (f : PuntFrame) (rest : List PuntFrame) (s : State) : State :=
  freeFrame (.punt side) f.cells f.chain { s with cask := { s.cask with punts := tabSet [] s.cask.punts side rest } }

/-- A punted frame leaves for its buffer: what the read of its cells found drops it, or its ingress stamp is pushed as it is
delivered (R220, R289). -/
def puntSend (side v : Nat) (f : PuntFrame) (hurt : Bool) (s : State) : State :=
  if hurt then countHurt s
  else
    let s := emit (.hostWrite (nf v 255 192) f.octets) (pushIngress f.inPort f.octets f.rxq f.stamp s)
    bumpHost (7 + side) 1 (writeBack side (puntEntry v (ringPhase (getRing s side)) f) (some (19 + side)) s)

/-- A posted entry meets the frame at the front of the side's account (R522). -/
def puntDeliver (side : Nat) (entry : Bytes) (read : CellRead) (f : PuntFrame) (rest : List PuntFrame) (s : State) :
    State :=
  let v := beNat (fit 32 entry)
  let st := puntStatus v
  if st ≠ stOk then
    writeBack side (nf v 255 178 * 2 ^ 178 + ringPhase (getRing s side) * 2 ^ 160 + st * 2 ^ 152) (some (19 + side)) s
  else if nf v 191 178 < f.octets.length then bumpHost (11 + side) 1 (puntGone side f rest s)
  else
    let r := readCells f.chain read s
    puntSend side v f r.1 (puntGone side f rest r.2)

/-- PUNT_DELIVER (R220, R522): what the read of the frame's cells found is in `read`. -/
def execPuntDeliver (t side : Nat) (x : PuntBuffer) (s : State) : Host.Outcome State Fault Refusal :=
  .next (frameEvent t
    (fun s => decide (side < 2) && s.hostIf.linkUp && (getRing s side).enabled &&
      decide ((getRing s side).producer ≠ (getRing s side).consumer))
    (fun s => match tabGet [] s.cask.punts side with
      | f :: rest => puntDeliver side x.entry x.read f rest s
      | [] => s) s)

/-- PUNT_WAIT_EXPIRY (R522). No event is raised: R489 lists no code for it (DESIGN CHOICE, log entry 101). -/
def execPuntWaitExpiry (t side : Nat) (s : State) : Host.Outcome State Fault Refusal :=
  .next (frameEvent t
    (fun s => decide (side < 2) && match tabGet [] s.cask.punts side with
      | f :: _ => expired s (f.since + msec)
      | [] => false)
    (fun s => match tabGet [] s.cask.punts side with
      | f :: rest => bump 5 0 2 48 1 (bumpHost (9 + side) 1 (puntGone side f rest s))
      | [] => s) s)

/-! ### Injection (R523) -/

/-- The egress port of an inject entry. -/
def injPort (side v : Nat) : Nat := 32 * side + nf v 151 147

/-- The checks of an inject entry. -/
def injectStatus (side v : Nat) (s : State) : Nat :=
  let p := injPort side v
  let len := nf v 191 178
  let c := nf v 176 161
  let h := (getChan s c).header
  fieldFail [(decide (nf v 125 0 ≠ 0), stReserved), (decide (nf v 255 192 % 64 ≠ 0), stAlign),
    (portEnabled s p && decide (psMtu (getPort s p).setting < len), stLength),
    (decide (len < 64) || !portEnabled s p || decide (nf v 146 144 = 7), stRange),
    (nb v 177 && (decide (side = 1) || !present s c || hRx h || decide (hPort h ≠ nf v 151 147)), stRange),
    (!nb v 177 && decide (c ≠ 0), stRange), (!nb v 143 && decide (nf v 141 126 ≠ 0), stRange)]

/-- The entry is written back with its status. -/
def injectBack (side v st : Nat) (s : State) : State :=
  let s := bumpHost ((if st = stOk then 13 else 15) + side) 1 s
  let low := nf v 151 126 * 2 ^ 126
  writeBack (2 + side) (nf v 255 161 * 2 ^ 161 + ringPhase (getRing s (2 + side)) * 2 ^ 160 + st * 2 ^ 152 + low)
    (if nb v 142 then some (21 + side) else none)
    { s with hostIf := { s.hostIf with injectRead := tabDel s.hostIf.injectRead side }
             cask := { s.cask with injectRefused := tabDel s.cask.injectRefused side } }

/-- A frame that has been read enters the class queue of its port; its FCS octets are replaced. Origin mode applies to it
whatever PTPEN says, which is for frames that enter a port (R283, R284, R523). -/
def injectFrame (side v : Nat) (l : Bytes) (s : State) : State :=
  let p := injPort side v
  let body := (fit (nf v 191 178) l).take (nf v 191 178 - 4)
  let octets := body ++ fcsOf body
  let cells := cellsOf octets.length
  let ch := nf v 176 161
  let s := if nb v 177 then requestFill ch s else s
  let r := takeCells (.inject side) cells (charge (.inject side) cells s)
  enqueue { octets := octets, cls := nf v 146 144, inPort := p, outPort := p
            channel := if nb v 177 then some ch else none
            header := if nb v 177 then (getChan s ch).header else 0
            account := .inject side, cells := cells, chain := r.1, admitted := s.clk.root, ref := s.clk.root
            ends := s.clk.root, stamp := 0, origin := .inject (nb v 143) (nf v 141 126), stomp := false
            ptp := isPtpEvent octets } r.2

/-- A descriptor whose fields pass is taken: its frame is read (R337, R523). -/
def injectRead (side v : Nat) (frame : HostXfer) (s : State) : State :=
  match frame with
  | .bytes l => injectBack side v stOk (injectFrame side v l s)
  | .error => injectBack side v stFault (bumpHost 1 1 s)
  | .late =>
    match tabFind s.hostIf.injectRead side with
    | some _ => s
    | none => { s with hostIf := { s.hostIf with
        injectRead := tabPut s.hostIf.injectRead side (s.clk.root, beBytes 32 v) } }

/-- Whether the frame of a descriptor fits the inject account (R235). -/
def injectFits (side v : Nat) (s : State) : Bool := fitsAccount s (.inject side) (cellsOf (nf v 191 178))

/-- The head descriptor of an inject ring. -/
def injectHead (side v : Nat) (frame : HostXfer) (s : State) : State :=
  let st := injectStatus side v s
  if st ≠ stOk then injectBack side v st s
  else if injectFits side v s then injectRead side v frame s
  else if tabGet 0 s.cask.injectRefused side = 0 then
    bump 10 0 (2 + side) 48 1
      { s with cask := { s.cask with injectRefused := tabSet 0 s.cask.injectRefused side 1 } }
  else s

/-- INJECT_TAKE (R523): the head descriptor, or the end of a read that is under way. -/
def execInjectTake (t side : Nat) (entry : Bytes) (frame : HostXfer) (s : State) : Host.Outcome State Fault Refusal :=
  .next (frameEvent t
    (fun s => decide (side < 2) && s.hostIf.linkUp &&
      (tabHas s.hostIf.injectRead side || ((getRing s (2 + side)).enabled &&
        decide ((getRing s (2 + side)).producer ≠ (getRing s (2 + side)).consumer))))
    (fun s => match tabFind s.hostIf.injectRead side with
      | some (_, e) => injectRead side (beNat e) frame s
      | none => injectHead side (beNat (fit 32 entry)) frame s) s)

/-- HOST_TRANSFER_TIMEOUT (R337, R523): of a context's transfer, by context number, or of the frame read of inject ring
2 or 3, numbered 32 and 33. -/
def execHostTransferTimeout (t k : Nat) (s : State) : Host.Outcome State Fault Refusal :=
  .next (event t
    (fun s =>
      if k < 32 then executing s && match (getCtx s k).run with | .waitHost since => expired s (since + 100 * usec) | _ => false
      else match tabFind s.hostIf.injectRead (k - 32) with
        | some (since, _) => expired s (since + 100 * usec)
        | none => false)
    (fun s =>
      if k < 32 then hostTransferLate k s
      else match tabFind s.hostIf.injectRead (k - 32) with
        | some (_, e) => injectBack (k - 32) (beNat e) stTimeout (bumpHost 2 1 s)
        | none => s) s)

/-! ### Interrupts (R520) -/

/-- Whether cause `k` has occurred at the PCLK edge of now; such a cause stays set when 1 is written to it (R9). -/
def causeFresh (s : State) (k : Nat) : Bool := ((tabFind s.hostIf.causeAt k).map (·.1)) == some (pclkEdge s)

/-- A write of 1 to cause `k`: cleared, unless the cause has occurred at this edge. It then stays set, and a cause that was
set before that occurrence signals its vector again (R9, R520). -/
def clearCause (k : Nat) (s : State) : State :=
  if !nb s.hostIf.intCause k then s
  else if causeFresh s k then
    if (tabFind s.hostIf.causeAt k).any (·.2) && nb s.hostIf.intEnable k then signalVector k s else s
  else { s with hostIf := { s.hostIf with intCause := s.hostIf.intCause - 2 ^ k } }

/-- INT_CAUSE_WRITE (R520): write one to clear. -/
def execIntCauseWrite (t value : Nat) (s : State) : Host.Outcome State Fault Refusal :=
  .next (event t (fun s => s.power.powerGood)
    (fun s => (List.range 32).foldl (fun s k => if nb value k then clearCause k s else s) s) s)

/-- INT_ENABLE_WRITE (R520): a cause that is set and enabled signals its vector. -/
def execIntEnableWrite (t value : Nat) (s : State) : Host.Outcome State Fault Refusal :=
  .next (event t (fun s => s.power.powerGood)
    (fun s =>
      let v := value % 2 ^ 32
      let s := { s with hostIf := { s.hostIf with intEnable := v } }
      (List.range 32).foldl (fun s k => if nb v k && nb s.hostIf.intCause k then signalVector k s else s) s) s)

/-! ### Time of day and windows (R515, R516) -/

/-- TOD_LATCH (R516): network time at the first TCLK edge after the write. -/
def execTodLatch (t value : Nat) (s : State) : Host.Outcome State Fault Refusal :=
  .next (event t (fun s => nb value 0 && s.power.powerGood)
    (fun s =>
      let s := advance (edgeAt 10 (s.clk.root + 1)) s
      { s with hostIf := { s.hostIf with todCount := (s.hostIf.todCount + 1) % 2 ^ 32, todLatch := s.clk.tod } }) s)

/-- CRC-16 of R473: polynomial 0x1021, initial value 0xFFFF. -/
def crc16 (l : Bytes) : Nat := l.foldl (fun c b => crc16Bits 8 (c ^^^ b.toNat * 256)) 0xFFFF
where
  /-- Bit steps, most significant bit first. -/
  crc16Bits : Nat → Nat → Nat
    | 0, c => c
    | n + 1, c => crc16Bits n (if nb c 15 then (2 * c % 65536) ^^^ 0x1021 else 2 * c % 65536)

/-- The 16 octets of a Crust log record (R473). -/
def crustBytes (r : CrustRec) : Bytes :=
  let l := beBytes 6 r.ctime ++ beBytes 1 r.source ++ beBytes 1 r.levels ++ beBytes 2 r.repeat_ ++ beBytes 2 r.detail ++
    beBytes 2 r.seq
  l ++ beBytes 2 (crc16 l)

/-- The record that CRUST_CURSOR names; zeros where it is no longer held. -/
def crustShown (s : State) : Bytes :=
  match s.crust.log.find? (fun r => r.seq == s.hostIf.crustCursor) with
  | some r => crustBytes r
  | none => List.replicate 16 0

/-- A read of word `k` of the Crust window. -/
def crustRead (k : Nat) (s : State) : State :=
  let s := if k = 0 then { s with hostIf := { s.hostIf with crustLatch := crustShown s } } else s
  let s := emit (.readData (mf s.hostIf.crustLatch (4 * k) 4)) s
  if k = 3 then { s with hostIf := { s.hostIf with crustCursor := (s.hostIf.crustCursor + 1) % 65536 } } else s

/-- CRUST_WINDOW_READ (R515). -/
def execCrustWindowRead (t k : Nat) (s : State) : Host.Outcome State Fault Refusal :=
  .next (event t (fun s => decide (k < 4) && s.power.powerGood) (crustRead k) s)

/-! ### The Memory Guard aperture (R521) -/

/-- The first refusal of the PCLK edge of now: that edge, its status, and what MGWIN_STAT held before the edge. -/
def refusalNote (st : Nat) (s : State) : Nat × Nat × Nat :=
  match s.hostIf.mgNew with
  | some (e, f, old) => if e = pclkEdge s then (e, f, old) else (pclkEdge s, st, s.hostIf.mgStat)
  | none => (pclkEdge s, st, s.hostIf.mgStat)

/-- An access that is refused or fails: counted, its status kept if it is the first, cause 24. -/
def apertureFails (st : Nat) (s : State) : State :=
  let s := bumpHost 17 1 s
  setCause 24 { s with hostIf := { s.hostIf with
    mgNew := some (refusalNote st s), mgStat := if s.hostIf.mgStat = 0 then st else s.hostIf.mgStat } }

/-- The address of an aperture octet. -/
def apertureAddr (offset : Nat) (s : State) : Nat := s.hostIf.mgBase + offset

/-- MGWIN_READ (R521). Which octet of the line stands where in the word the spec does not say: the octet at the lowest
address in bits [31:24], as R6 has it for multi-octet fields and R482 for the Cellar Book's window (DESIGN CHOICE). -/
def execMgwinRead (t offset : Nat) (fault : DramFault) (s : State) : Host.Outcome State Fault Refusal :=
  .next (event t (fun s => decide (offset < 65536) && decide (offset % 4 = 0) && s.power.powerGood)
    (fun s =>
      let a := apertureAddr offset s
      let r := mgAccess .pcieDma { write := false, addr := a - a % 64, mask := 0, data := [], fault := fault } s
      if r.1.1 = stOk then emit (.readData (mf r.1.2 (a % 64) 4)) r.2
      else emit (.readData 0xFFFFFFFF) (apertureFails r.1.1 r.2)) s)

/-- MGWIN_WRITE (R521): a partial write of four octets, bits [31:24] of the word at the lowest address (DESIGN CHOICE, as
for MGWIN_READ). -/
def execMgwinWrite (t offset value : Nat) (x : WindowFault) (s : State) : Host.Outcome State Fault Refusal :=
  .next (event t (fun s => decide (offset < 65536) && decide (offset % 4 = 0) && s.power.powerGood)
    (fun s =>
      let a := apertureAddr offset s
      let acc : MgAccess := { write := true, addr := a - a % 64, mask := 15 * 2 ^ (a % 64)
                              data := List.replicate (a % 64) 0 ++ beBytes 4 value, fault := x.fault, others := x.others }
      let r := mgAccess .pcieDma acc s
      if r.1.1 = stOk then r.2 else apertureFails r.1.1 r.2) s)

/-- What a read of MGWIN_STAT returns, and what the field holds after its clear: a refusal at the PCLK edge of the read
comes after it (R10). -/
def mgStatRead (s : State) : Nat × Nat :=
  match s.hostIf.mgNew with
  | some (e, st, old) => if e = pclkEdge s then (old, st) else (s.hostIf.mgStat, 0)
  | none => (s.hostIf.mgStat, 0)

/-- MGWIN_STAT_READ (R521). -/
def execMgwinStatRead (t : Nat) (s : State) : Host.Outcome State Fault Refusal :=
  .next (event t (fun s => s.power.powerGood)
    (fun s => { emit (.readData (mgStatRead s).1) s with hostIf := { s.hostIf with
      mgStat := (mgStatRead s).2, mgNew := none } }) s)

/-! ### Register reads (R8, R511)

The table has no row for a read that changes nothing: what such a read returns is defined here. -/

/-- The Revision ID of the configuration space, with the other identifiers of R510. -/
def pcieRevision : Nat := 0xB0

/-- BOOTSTAT. -/
def bootStatWord (b : Boot) : Nat :=
  b.statB * 2 ^ 16 + b.statA * 2 ^ 8 + bn b.rwait * 2 ^ 7 + bn b.flagRecovery * 2 ^ 6 + bn b.flagImageB * 2 ^ 5 + b.code

/-- STANDBY of SYSSTAT: none while no complex is active. -/
def standbyCode (q : Seq) : Nat :=
  match q.active with
  | none => 0
  | some n => match (if n = 0 then q.healthB else q.healthA) with
    | .standby => 2
    | .failed => 3
    | _ => 1

/-- MG of SYSSTAT. -/
def mgCode : MgReady → Nat
  | .ready _ => 1
  | .unavailable => 2
  | _ => 0

/-- FAULTN of SYSSTAT: from its Reset value 0 the Boot ROM's recovery (R409), R331 and programs set it; the pin itself is low
while the Wenok starts as well (R530). -/
def faultShown (s : State) : Bool := s.power.faultN && (s.boot.running || decide (s.boot.code ≠ 0))

/-- SYSSTAT. NOACTIVE is R331's, and reads as its Reset value 0 until the rootstock runs (R12). -/
def sysStatWord (s : State) : Nat :=
  bn (faultShown s) * 2 ^ 31 + bn (decide (activeNow s = some 1)) * 2 ^ 30 + bn (s.boot.running && s.seq.active.isNone) * 2 ^ 29 +
    standbyCode s.seq * 2 ^ 27 + bn s.seq.staged.isSome * 2 ^ 26 + mgCode s.mg.ready * 2 ^ 24 + bn s.hostIf.traffic * 2 ^ 23

/-- VBATOK: VBAT is above LOW of its monitor. -/
def vbatOk (c : Crust) : Bool := decide (5 * nf (tabGet (crustReset 18) c.settings 18) 59 50 < c.vbat)

/-- CRUST_STAT. -/
def crustStatWord (c : Crust) : Nat :=
  bn c.notify * 2 ^ 31 + bn c.quiesce * 2 ^ 30 + bn c.erased * 2 ^ 29 + bn (vbatOk c) * 2 ^ 28 + bn c.charged * 2 ^ 27 +
    (match c.mode with | .disarmed => 0 | .armed => 1 | .test => 2) * 2 ^ 25

/-- The low or the high half of a 64-bit register. -/
def halfOf (hi : Bool) (v : Nat) : Nat := if hi then v / 2 ^ 32 % 2 ^ 32 else v % 2 ^ 32

/-- QCTL. -/
def qctlWord (n : Queue) : Nat :=
  bn n.enabled * 2 ^ 31 + bn n.cfgErr * 2 ^ 30 + bn n.prog.isSome * 2 ^ 29 + n.size

/-- A register of queue `n` at offset `o` of its block; the write-only doorbell reads as zero. -/
def queueWord (n : Queue) (o : Nat) : Nat :=
  match o with
  | 0x00 => halfOf false n.qd
  | 0x04 => halfOf true n.qd
  | 0x08 => halfOf false n.qc
  | 0x0C => halfOf true n.qc
  | 0x10 => qctlWord n
  | 0x18 => n.producer * 2 ^ 16 + n.consumer
  | 0x1C => n.mask
  | _ => 0

/-- A register of BAR2 ring `n` at offset `o` of its block; the write-only doorbell reads as zero. -/
def ringWord (n : Ring) (o : Nat) : Nat :=
  match o with
  | 0x00 => halfOf false n.base
  | 0x04 => halfOf true n.base
  | 0x08 => bn n.enabled * 2 ^ 31 + bn n.cfgErr * 2 ^ 30 + n.size
  | 0x10 => n.producer * 2 ^ 16 + n.consumer
  | _ => 0

/-- The words of BAR0 that have an offset of their own. -/
def bar0Word (s : State) (o : Nat) : Nat :=
  match o with
  | 0x00 => identWord
  | 0x04 => Config.romVer % 2 ^ 32
  | 0x08 => bootStatWord s.boot
  | 0x0C => sysStatWord s
  | 0x10 => s.hostIf.rstat
  | 0x20 => halfOf false s.hostIf.recAddr
  | 0x24 => halfOf true s.hostIf.recAddr
  | 0x28 => s.hostIf.recLen
  | 0x2C => s.boot.rstatus * 2 ^ 8
  | 0x20000 => s.hostIf.intCause
  | 0x20004 => s.hostIf.intEnable
  | 0x20008 => bn s.hostIf.pinEn
  | 0x30000 => s.hostIf.todCount
  | 0x30004 => todSec s.hostIf.todLatch / 2 ^ 32
  | 0x30008 => todSec s.hostIf.todLatch % 2 ^ 32
  | 0x3000C => todNs s.hostIf.todLatch
  | 0x30010 => todFrac s.hostIf.todLatch
  | 0x40000 => bn s.book.autoinc * 2 ^ 31 + s.book.cursor
  | 0x40004 => bn s.book.frozen * 2 ^ 31 + s.book.count
  | 0x40008 => s.book.missed
  | 0x4000C => s.hostIf.cbIrq
  | 0x50000 => crustStatWord s.crust
  | 0x50004 => s.hostIf.crustCursor
  | 0x50008 => s.crust.seq
  | 0x60000 => halfOf false s.hostIf.mgBase
  | 0x60004 => halfOf true s.hostIf.mgBase
  | 0x60008 => (mgStatRead s).1
  | 0x3F1000 => s.hostIf.msixPend
  | _ => 0

/-- What the word at offset `o` of BAR0 or BAR2 reads as. Where a read has an effect, its own command has it (CB_WIN0 and
CB_WIN7, CRUST_WIN0 and CRUST_WIN3, MGWIN, MGWIN_STAT); an offset that no table assigns reads as zero. -/
def regWord (s : State) (bar o : Nat) : Nat :=
  if bar = 0 then
    if 0x10000 ≤ o ∧ o < 0x10400 then queueWord (getQueue s ((o - 0x10000) / 0x40)) (o % 0x40)
    else if 0x40020 ≤ o ∧ o < 0x40040 then
      if o = 0x40020 then mf (recordBytes s s.book.cursor) 0 4 else mf s.book.latch (o - 0x40020) 4
    else if 0x50010 ≤ o ∧ o < 0x50020 then
      if o = 0x50010 then mf (crustShown s) 0 4 else mf s.hostIf.crustLatch (o - 0x50010) 4
    else if 0x3F0000 ≤ o ∧ o < 0x3F0200 then
      tabGet (if o / 4 % 4 = 3 then 1 else 0) s.hostIf.msixTable ((o - 0x3F0000) / 4)
    else bar0Word s o
  else if bar = 2 ∧ o < 0x80 then ringWord (getRing s (o / 0x20)) (o % 0x20)
  else 0

/-- A read of `n` octets at offset `o`: 64 bits as two words, 8 or 16 bits as the octets that the read names. The octet at
the lowest address is the least significant one, as BAR0 is little-endian on the bus (R6, R511). -/
def regRead (s : State) (bar o n : Nat) : Nat :=
  let lo := regWord s bar (o / 4 * 4)
  let hi := regWord s bar (o / 4 * 4 + 4)
  (hi * 2 ^ 32 + lo) / 256 ^ (o % 4) % 256 ^ n

/-! ### Pins and configuration requests -/

/-- Whether INT_N is driven low (R520); released otherwise, as in reset (R532). -/
def intNLow (s : State) : Bool := s.hostIf.pinEn && decide (s.hostIf.intCause &&& s.hostIf.intEnable ≠ 0)

/-- Whether FAULT_N is driven low (R331, R409, R532). -/
def faultNLow (s : State) : Bool := s.power.faultN

/-- Whether configuration requests are answered with Retry Status: until Complex A is released or recovery entered (R409). -/
def configRetry (s : State) : Bool := s.power.booting && decide (s.boot.code = 0)

/-! ### Register writes (R511) -/

/-- The low or high word of a 64-bit register replaced. -/
def putWord (hi : Bool) (v old : Nat) : Nat :=
  if hi then v * 2 ^ 32 + old % 2 ^ 32 else old / 2 ^ 32 * 2 ^ 32 + v

/-- A write to QD or QC: ignored and counted while EN = 1 (R517). Bits [11:0] are reserved. -/
def writeQueueBase (q k v : Nat) (s : State) : State :=
  let n := getQueue s q
  if n.enabled then bumpHost 5 1 s
  else
    let w := if k % 2 = 0 then v / 4096 * 4096 else v
    if k < 2 then setQueue s q { n with qd := putWord (k == 1) w n.qd }
    else setQueue s q { n with qc := putWord (k == 3) w n.qc }

/-- A write to RB. -/
def writeRingBase (r k v : Nat) (s : State) : State :=
  let n := getRing s r
  if n.enabled then bumpHost 5 1 s
  else setRing s r { n with base := putWord (k == 1) (if k = 0 then v / 4096 * 4096 else v) n.base }

/-- A word of the MSI-X table is written; a vector that is unmasked while it pends is sent, as PCIe defines (R520). -/
def writeMsix (w v : Nat) (s : State) : State :=
  let s := { s with hostIf := { s.hostIf with
    msixTable := tabSet (if w % 4 = 3 then 1 else 0) s.hostIf.msixTable w v } }
  let k := w / 4
  if w % 4 = 3 && !nb v 0 && nb s.hostIf.msixPend k then
    signalVector k { s with hostIf := { s.hostIf with msixPend := s.hostIf.msixPend - 2 ^ k } }
  else s

/-- BAR0 words that are read-only. -/
def bar0ReadOnly (o : Nat) : Bool :=
  decide (o ≤ 0x10 ∨ (0x30004 ≤ o ∧ o ≤ 0x30010) ∨ o = 0x40004 ∨ o = 0x40008 ∨ (0x40020 ≤ o ∧ o ≤ 0x4003C) ∨
    o = 0x50000 ∨ o = 0x50008 ∨ (0x50010 ≤ o ∧ o ≤ 0x5001C) ∨ o = 0x60008 ∨ o = 0x3F1000) ||
    (decide (0x10000 ≤ o ∧ o < 0x10400) && decide (o % 0x40 = 0x18 ∨ o % 0x40 = 0x1C))

/-- A whole word is written to BAR0. The registers that have commands of their own are not written here. -/
def writeBar0 (o v : Nat) (s : State) : State :=
  if bar0ReadOnly o then bumpHost 6 1 s
  else if 0x10000 ≤ o ∧ o < 0x10400 ∧ o % 0x40 < 0x10 then writeQueueBase ((o - 0x10000) / 0x40) (o % 0x40 / 4) v s
  else if 0x3F0000 ≤ o ∧ o < 0x3F0200 then writeMsix ((o - 0x3F0000) / 4) v s
  else
    match o with
    | 0x20 => { s with hostIf := { s.hostIf with recAddr := putWord false v s.hostIf.recAddr } }
    | 0x24 => { s with hostIf := { s.hostIf with recAddr := putWord true v s.hostIf.recAddr } }
    | 0x28 => { s with hostIf := { s.hostIf with recLen := v } }
    | 0x20008 => { s with hostIf := { s.hostIf with pinEn := nb v 0 } }
    | 0x40000 => { s with book := { s.book with
        cursor := v % 2 ^ 31, autoinc := nb v 31, cursorAt := some (pclkEdge s) } }
    | 0x4000C => { s with hostIf := { s.hostIf with cbIrq := v } }
    | 0x50004 => { s with hostIf := { s.hostIf with crustCursor := v % 65536 } }
    | 0x60000 => { s with hostIf := { s.hostIf with mgBase := putWord false (v / 65536 * 65536) s.hostIf.mgBase } }
    | 0x60004 => { s with hostIf := { s.hostIf with mgBase := putWord true v s.hostIf.mgBase } }
    | _ => s

/-- A whole word is written to BAR2. -/
def writeBar2 (o v : Nat) (s : State) : State :=
  if 0x80 ≤ o then s
  else if o % 0x20 = 0x10 then bumpHost 6 1 s
  else if o % 0x20 < 8 then writeRingBase (o / 0x20) (o % 0x20 / 4) v s
  else s

/-- A whole word is written. -/
def writeReg32 (bar o v : Nat) (s : State) : State :=
  if bar = 0 then writeBar0 o v s else if bar = 2 then writeBar2 o v s else s

/-- A write of some octets: anything but aligned words is ignored and counted; 64 bits are two words in ascending address
order (R511). -/
def registerWrite (bar o octets v : Nat) (s : State) : State :=
  if o % 4 ≠ 0 ∨ (octets ≠ 4 ∧ octets ≠ 8) then bumpHost 6 1 s
  else
    let s := writeReg32 bar o (v % 2 ^ 32) s
    if octets = 8 then writeReg32 bar (o + 4) (v / 2 ^ 32 % 2 ^ 32) s else s

/-- REGISTER_WRITE (R511). -/
def execRegisterWrite (t bar o octets v : Nat) (s : State) : Host.Outcome State Fault Refusal :=
  .next (event t (fun s => s.power.powerGood) (registerWrite bar o octets v) s)

/-! ### Resets and link changes of the host interface (R512, R513) -/

/-- Every queue and ring is disabled (R512). -/
def disableAll (s : State) : State :=
  let s := (List.range 16).foldl (fun s q => cutQueue q false s) s
  let s := (List.range 16).foldl (fun s q =>
    setQueue s q { ({} : Queue) with mask := (getQueue s q).mask, prog := (getQueue s q).prog }) s
  let s := (List.range 2).foldl (fun s side => dropPunts side s) s
  { s with hostIf := { s.hostIf with rings := [], injectRead := [] }
           cask := { s.cask with injectRefused := [] } }

/-- PCIE_FUNCTION_RESET (R512). -/
def execPcieFunctionReset (t : Nat) (s : State) : Host.Outcome State Fault Refusal :=
  .next (event t (fun s => s.power.powerGood)
    (fun s =>
      let s := bumpHost 19 1 (disableAll s)
      raise 0xB004 0 0 { s with hostIf := { s.hostIf with
        intCause := 0, intEnable := 0, pinEn := false, mgBase := 0, msixTable := [], msixPend := 0 } }) s)

/-- Transfers that the link carried end with ST_FAULT (R513). -/
def linkLost (s : State) : State :=
  let s := (List.range 32).foldl (fun s k => match (getCtx s k).run with
    | .waitHost _ => if (getCtx s k).due.isNone then transferOver k stFault (bumpHost 1 1 s) else s
    | _ => s) s
  let s := (List.range 16).foldl (fun s q => match (getCtx s (queueCtx q)).run, (getQueue s q).prog with
    | .copying _, some p =>
      let s := bumpHost 1 1 s
      if executing s then copyFails q p stFault s
      else setCtx (copyEvent q stFault s) (queueCtx q) { getCtx s (queueCtx q) with due := some (.unstarted stFault) }
    | _, _ => s) s
  { s with hostIf := { s.hostIf with injectRead := [] } }

/-- PCIE_LINK_CHANGE (R513). -/
def execPcieLinkChange (t : Nat) (up : Bool) (s : State) : Host.Outcome State Fault Refusal :=
  .next (event t (fun s => s.power.powerGood && s.hostIf.linkUp != up)
    (fun s =>
      let s := raise 0xB004 0 (bn up) (bumpHost 0 1 { s with hostIf := { s.hostIf with linkUp := up } })
      if up then s else linkLost s) s)

end Sys2Proof.Machine
end

