-- ==== Sys2Proof/Machine/Lanes.lean ====
section
/-! DEFINITION. Lanes: tests (R65 to R69), recovered clocks (R71 to R73), equalisation and calibration (R74 to R79). -/

namespace Sys2Proof.Machine

/-- The checks of a lane identifier in operand A (R46). -/
def laneIdChecks (e : Env) : List Check :=
  [highA e 7, (decide (nf e.a 6 5 = 3), stRange), (decide (nf e.a 6 5 = 2 ∧ 3 < e.a % 32), stRange)]

/-- Whether a lane signals PAM4; none where no enabled port gives it a rate. Trellis lanes are NRZ (R45). -/
def lanePam4 (s : State) (l : Nat) : Option Bool :=
  if 64 ≤ l then some false
  else match portOfLane s l with
    | some p => if portRate s p = 0 then none else some (decide (3 ≤ portRate s p))
    | none => none

/-! ### LANE.CFG -/

/-- |PRE2| + |PRE1| + MAIN + |POST1| of a lane setting (R75). -/
def tapSum (v : Nat) : Nat :=
  (signed 6 (nf v 59 54)).natAbs + (signed 6 (nf v 53 48)).natAbs + nf v 47 42 + (signed 6 (nf v 41 36)).natAbs

/-- The checks of a lane setting (R74, R75). -/
def laneCfgChecks (l v : Nat) (s : State) : List Check :=
  [(decide (v % 2 ^ 34 ≠ 0), stReserved),
   (nb v 60 && decide (nf v 47 42 < 32), stRange),
   (nb v 60 && decide (63 < tapSum v), stRange),
   (nb v 60 && (match portOfLane s l with | some p => psLt (getPort s p).setting | none => false), stRange),
   (decide (32 ≤ l) && (nb v 35 || nb v 34), stRange)]

/-- The divisor from a lane rate of R47 to 156.25 MHz (R71); none for a lane without a rate. -/
def rateDivisor (rate : Nat) : Option Nat := [none, some 66, some 165, some 340, some 680, some 1360].getD rate none

/-- The divisor that output `i` applies to the recovered clock of its source (R71). -/
def synceDivisor (s : State) (i : Nat) : Option Nat :=
  match (tabGet {} s.synce i : SyncE).source with
  | some l => match portOfLane s l with
    | some p => rateDivisor (portRate s p)
    | none => none
  | none => none

/-- Output `i` follows bit `b` of the setting that lane `l` takes (R71, R73): the source changes, and the new source's
own lock state then governs. -/
def synceFollow (i b l v : Nat) (s : State) : State :=
  let y : SyncE := tabGet {} s.synce i
  if nb v b then
    if y.source = some l then s
    else
      let s := match y.source with
        | some o =>
          let old := getLane s o
          setLane s o { old with setting := if nb old.setting b then old.setting - 2 ^ b else old.setting }
        | none => s
      { s with synce := tabSet {} s.synce i { source := some l, squelched := !(getLane s l).cdrLock } }
  else if y.source = some l then { s with synce := tabSet {} s.synce i {} }
  else s

/-- The four taps of a lane setting with FFEMAN = 1, else those of training or the mode's default (R74). -/
def settingTaps (l v : Nat) : List Int :=
  if nb v 60 then [signed 6 (nf v 59 54), signed 6 (nf v 53 48), (nf v 47 42 : Int), signed 6 (nf v 41 36)]
  else (List.range 4).map (Config.autoTap l)

/-- A tap on its way from `a` to `b`, `n` units on. -/
def tapToward (n : Nat) (a b : Int) : Int :=
  if a ≤ b then min b (a + n) else max b (a - n)

/-- The taps in force on a lane now: after a change under traffic each tap moves one unit per microsecond until it reaches
its new value (R76). -/
def tapsNow (s : State) (l : Nat) : List Int :=
  let o := getLane s l
  let dest := settingTaps l o.setting
  if o.tapsFrom.isEmpty then dest
  else o.tapsFrom.zipWith (tapToward ((s.clk.root - o.tapsAt) / usec)) dest

/-- Whether the lane belongs to a port that is UP. -/
def laneUp (s : State) (l : Nat) : Bool :=
  match portOfLane s l with
  | some p => decide ((getPort s p).state = .up)
  | none => false

/-- A lane takes a new setting: polarity at once, the taps from where they are, step by step under traffic (R76). -/
def takeLaneSetting (l v : Nat) (s : State) : State :=
  setLane s l { getLane s l with
    setting := v, tapsFrom := if laneUp s l then tapsNow s l else [], tapsAt := s.clk.root }

/-- The effect of LANE.CFG (R71 to R76). -/
def laneCfgEff (l v : Nat) (s : State) : State :=
  synceFollow 1 34 l v (synceFollow 0 35 l v (takeLaneSetting l v s))

/-- The command LANE.CFG. -/
def laneCfgCmd : Cmd where
  op := 0x20
  fmt e s := laneIdChecks e ++ [zeroB e] ++ laneCfgChecks e.a e.imm s
  eff e s := { s := laneCfgEff e.a e.imm s }

/-- LANE.CFG (R74 to R76). -/
def execLaneCfg (w : IWord) (s : State) : Host.Outcome State Fault Refusal := .next (runCmd laneCfgCmd w s)

/-! ### LANE.TEST -/

/-- Whether a pattern code is for PAM4 lanes; none for 0 (off) and the codes that name no pattern. -/
def patternPam4 (c : Nat) : Option Bool :=
  if c = 0 ∨ 11 < c then none else some (decide (8 ≤ c ∧ c ≤ 10))

/-- The checks of a pattern code on a lane (R67). A lane that no enabled port gives a rate has no signalling that a code
could disagree with: every pattern is accepted there (DESIGN CHOICE). -/
def patternBad (l c : Nat) (s : State) : Bool :=
  decide (12 ≤ c) ||
    match patternPam4 c, lanePam4 s l with
    | some a, some b => a != b
    | _, _ => false

/-- A setting that puts the lane under test: a loop, a generator or a checker; the injector alone acts on live traffic
(R67, R69). -/
def testsLane (v : Nat) : Bool := decide (nf v 63 61 ≠ 0 ∨ nf v 60 57 ≠ 0 ∨ nf v 56 53 ≠ 0)

/-- Whether the lane's port is neither DISABLED nor TEST. -/
def laneInService (l : Nat) (s : State) : Bool :=
  match portOfLane s l with
  | some p => decide ((getPort s p).state ≠ .test)
  | none => false

/-- The field checks of a lane test setting (R66, R67). -/
def laneTestChecks (l v : Nat) (s : State) : List Check :=
  [(decide (4 ≤ nf v 63 61), stReserved), (decide (4 ≤ nf v 50 48), stReserved),
   (patternBad l (nf v 60 57) s, stRange), (patternBad l (nf v 56 53) s, stRange),
   (decide (nf v 60 57 = 11 ∨ nf v 56 53 = 11) && decide (nf v 31 0 = 0 ∨ nf v 31 0 = 0xFFFFFFFF), stRange),
   (decide (nf v 50 48 = 2) && decide (nf v 47 40 = 0 ∨ 64 < nf v 47 40), stRange),
   (decide (nf v 50 48 = 3) && decide (nf v 39 34 < 10 ∨ 40 < nf v 39 34), stRange)]

/-- Bits that the injector inverts once when the setting takes effect (R69). -/
def injectedNow (v : Nat) : Nat := if nf v 50 48 = 1 then 1 else if nf v 50 48 = 2 then nf v 47 40 else 0

/-- The lane counters are cleared (R66 CLR). -/
def clearLaneCounters (l : Nat) (s : State) : State := (List.range 5).foldl (fun s k => setCnt s 0 l k 0) s

/-- Whether the lane is under test with setting `v`: one with LOOP, GEN, CHK and INJ all zero ends a test (R67). -/
def stillTesting (was : Bool) (v : Nat) : Bool := testsLane v || (was && decide (nf v 50 48 ≠ 0))

/-- The injector inverts the next `n` bits of a lane: they are counted; they leave the part unless the transmitter sends
something else, and in a near-end loop they come to the lane's own receive path (R65, R66, R69). -/
def invertBits (l n : Nat) (s : State) : State :=
  let s := if laneSends s l = .own then emit (.inverted l n) s else s
  let s := if laneSees s l = .own then setLane s l { getLane s l with inject := (getLane s l).inject + n } else s
  bump 0 l 4 48 n s

/-- The bits that the injector inverts at once (R69). -/
def injectNow (l v : Nat) (s : State) : State :=
  let n := injectedNow v
  if n = 0 then s else invertBits l n s

/-- The effect of LANE.TEST (R66 to R69). -/
def laneTestEff (l v : Nat) (s : State) : State :=
  let was := (getLane s l).testing
  let s := if nb v 33 then clearLaneCounters l s else s
  let s := setLane s l { getLane s l with
    test := v, testing := stillTesting was v, check := {}, gen := [], inject := 0, injFrom := s.clk.root, injDone := 0 }
  let s := injectNow l v s
  if stillTesting was v then laneEnters l s else if was then laneLeaves l s else s

/-- The command LANE.TEST. -/
def laneTestCmd : Cmd where
  op := 0x21
  fmt e s := laneIdChecks e ++ [zeroB e] ++ laneTestChecks e.a e.imm s
  own e s := [(testsLane e.imm && !nb e.imm 32 && laneInService e.a s, stBusy)]
  eff e s := { s := laneTestEff e.a e.imm s }

/-- LANE.TEST (R66 to R69). -/
def execLaneTest (w : IWord) (s : State) : Host.Outcome State Fault Refusal := .next (runCmd laneTestCmd w s)

/-! ### Patterns (R66) -/

/-- The exponents of a PRBS polynomial beside the constant 1, by pattern code; PRBS13Q and PRBS31Q are PRBS13 and PRBS31
after Gray decoding. -/
def prbsTaps (c : Nat) : List Nat :=
  match c with
  | 1 => [7, 6]
  | 2 => [9, 5]
  | 3 => [11, 9]
  | 4 | 8 => [13, 12, 2, 1]
  | 5 => [15, 14]
  | 6 => [23, 18]
  | 7 | 9 => [31, 28]
  | _ => []

/-- Bits that fix where a pattern goes on. -/
def patternSeed (c : Nat) : Nat := if c = 11 then 32 else if c = 10 then 31 else (prbsTaps c).headD 0

/-- The 32 bits of USER from a place on, bit 31 first. -/
def userBits (user place : Nat) : List Bool := (List.range 32).map (fun i => nb user (31 - (place + i) % 32))

/-- The next bit of pattern `c` after the bits before it, latest first. With the user pattern bits that stand nowhere in the
repeated word have no next one. -/
def patternNext (c user : Nat) (hist : List Bool) : Option Bool :=
  if c = 11 then
    if (List.range 32).any (fun k => userBits user k == (hist.take 32).reverse) then hist[31]? else none
  else if c = 10 then some (Config.ssprqNext hist)
  else some ((prbsTaps c).foldl (fun b k => Bool.xor b (hist.getD (k - 1) false)) false)

/-- The bit that the generator of a lane test setting sends after the bits of its pattern before it; GENINV inverts it. -/
def generatorBit (v : Nat) (hist : List Bool) : Bool :=
  Bool.xor ((patternNext (nf v 60 57) (nf v 31 0) hist).getD false) (nb v 52)

/-! ### The checker (R68) -/

/-- What a checker has counted: bits checked under lock, bit errors, symbol errors, losses of lock. -/
structure Checked where
  bits : Nat := 0
  errors : Nat := 0
  symbols : Nat := 0
  losses : Nat := 0
  deriving DecidableEq, Repr

/-- A checked bit under lock: the sequence goes on from what was expected. 128 errors among the last 1 024 bits checked are a
loss of lock, and the checker seeds itself anew. On a PAM4 lane two bits are a symbol, which is counted with its second one. -/
def checkLocked (pam4 : Bool) (want got : Bool) (k : Checker) (n : Checked) : Checker × Checked :=
  let bad := want != got
  let window := (bad :: k.window).take 1024
  let n := { n with bits := n.bits + 1, errors := n.errors + bn bad
                    symbols := n.symbols + bn (pam4 && k.odd && (k.half || bad)) }
  if 128 ≤ window.count true then ({ odd := k.odd }, { n with losses := n.losses + 1 })
  else ({ k with hist := (want :: k.hist).take 32, window := window, half := !k.odd && bad }, n)

/-- One received bit: it seeds the checker, or is compared with the pattern; 256 right bits in a row are lock, and a wrong
one before that starts the seeding anew. -/
def checkBit (v : Nat) (pam4 : Bool) (k : Checker) (n : Checked) (got : Bool) : Checker × Checked :=
  let c := nf v 56 53
  let b := Bool.xor got (nb v 51)
  if k.hist.length < patternSeed c then ({ k with hist := b :: k.hist }, n)
  else
    match patternNext c (nf v 31 0) k.hist with
    | none => ({ k with hist := [b], run := 0, lock := false }, n)
    | some want =>
      if k.lock then checkLocked pam4 want b k n
      else if want = b then
        ({ k with hist := (b :: k.hist).take 32, run := k.run + 1, lock := decide (256 ≤ k.run + 1) }, n)
      else ({ k with hist := [b], run := 0 }, n)

/-- The checker past a bit: the other bit of the symbol follows. -/
def nextBit (r : Checker × Checked) : Checker × Checked := ({ r.1 with odd := !r.1.odd }, r.2)

/-- Received bits one by one; on a PAM4 lane the first one after the test began is the first of its symbol. -/
def checkBits (v : Nat) (pam4 : Bool) (k : Checker) : List Bool → Checker × Checked
  | l => l.foldl (fun r b => nextBit (checkBit v pam4 r.1 r.2 b)) (k, {})

/-- Whether the checker of a lane counts PAM4 symbols: by the lane's signalling, or, where no enabled port gives it one, by its
pattern's (R66, R67). -/
def checksPam4 (s : State) (l : Nat) : Bool :=
  ((lanePam4 s l).orElse (fun _ => patternPam4 (nf (getLane s l).test 56 53))).getD false

/-- What the checker of a lane makes of received bits. -/
def laneChecks (s : State) (l : Nat) (received : List Bool) : Checker × Checked :=
  checkBits (getLane s l).test (checksPam4 s l) (getLane s l).check received

/-- `n` more bits of the generator of a lane, behind the last ones of its pattern, with those that the injector inverts; and the
pattern's last bits then. Where the pattern begins is not stated: `Config.patternStart` (R66, R69). -/
def generate (v inject : Nat) : Nat → List Bool → List Bool × List Bool
  | 0, gen => ([], gen)
  | n + 1, gen =>
    let b := generatorBit v gen
    let r := generate v (inject - 1) n ((Bool.xor b (nb v 52) :: gen).take 32)
    (Bool.xor b (decide (inject ≠ 0)) :: r.1, r.2)

/-- The bits before the first one of a generator's pattern: the user pattern begins with bit 31, a shift register anywhere but
with nothing set (R66). -/
def patternBegin (c user : Nat) : List Bool :=
  if c = 11 then (List.range 32).map (nb user)
  else
    let l := (List.range 32).map (Config.patternStart c)
    if (l.take (patternSeed c)).any id then l else List.replicate 32 true

/-- The last bits of a generator's pattern; before its first bit those at which it begins. -/
def generatorFrom (o : Lane) : List Bool :=
  if o.gen.isEmpty then patternBegin (nf o.test 60 57) (nf o.test 31 0) else o.gen

/-- Whether a lane's receive path sees the lane's own generator: in a near-end loop with a pattern (R65, R66). -/
def seesGenerator (s : State) (l : Nat) : Bool := laneSees s l == .own && nf (getLane s l).test 60 57 != 0

/-- The bits that the receive path of a lane sees for as many as a row brings: those, or the lane's own generator's (R65). -/
def bitsSeen (s : State) (l : Nat) (received : List Bool) : List Bool :=
  let o := getLane s l
  if seesGenerator s l then (generate o.test o.inject received.length (generatorFrom o)).1 else received

/-- The generator of a lane has sent as many bits as a row brings, where the lane sees its own. -/
def generatorOn (l : Nat) (received : List Bool) (s : State) : State :=
  let o := getLane s l
  if seesGenerator s l then
    setLane s l { o with gen := (generate o.test o.inject received.length (generatorFrom o)).2
                         inject := o.inject - received.length }
  else s

/-- The checker of a lane takes received bits, and the lane counters what it has counted. -/
def checkerTakes (l : Nat) (received : List Bool) (s : State) : State :=
  let r := laneChecks s l received
  bump 0 l 3 16 r.2.losses (bump 0 l 2 48 r.2.symbols (bump 0 l 1 48 r.2.errors (bump 0 l 0 64 r.2.bits
    (setLane s l { getLane s l with check := r.1 }))))

/-- CHECKER_LOCK (R68): bits with which the checker locks, or keeps its lock; its counters advance while it is locked. -/
def execCheckerLock (t : Nat) (x : LaneBits) (s : State) : Host.Outcome State Fault Refusal :=
  .next (event t
    (fun s => decide (nf (getLane s x.lane).test 56 53 ≠ 0) &&
      (laneChecks s x.lane (bitsSeen s x.lane x.received)).1.lock)
    (fun s => checkerTakes x.lane (bitsSeen s x.lane x.received) (generatorOn x.lane x.received s)) s)

/-- CHECKER_LOSS_OF_LOCK (R68): the bits before the window in which the checker loses its lock, that window, and those behind
it, from which it reseeds; the loss is counted. -/
def execCheckerLossOfLock (t l : Nat) (before window behind : List Bool) (s : State) :
    Host.Outcome State Fault Refusal :=
  let received := before ++ window ++ behind
  .next (event t
    (fun s => decide (nf (getLane s l).test 56 53 ≠ 0) &&
      decide ((laneChecks s l (bitsSeen s l received)).2.losses ≠ 0))
    (fun s => checkerTakes l (bitsSeen s l received) (generatorOn l received s)) s)

/-- A lane rate of R47 in units of 10 kb/s. -/
def rateUnits (rate : Nat) : Nat := [0, 1031250, 2578125, 5312500, 10625000, 21250000].getD rate 0

/-- The rate of a lane in units of 10 kb/s, which is 10^-6 bit a root cycle; none where no enabled port gives it one. A Trellis
lane runs at the rate of its port's link mode, at 10.3125 Gb/s until one is tried (R496). -/
def laneRate (s : State) (l : Nat) : Option Nat :=
  if 64 ≤ l then some (rateUnits (if (getTPort s (l % 32 / 2)).mode < 2 then 1 else 2))
  else match portOfLane s l with
  | some p => if portRate s p = 0 then none else some (rateUnits (portRate s p))
  | none => none

/-- Whether the next error of rate injection is due: 2^EXP bits after the one before. A lane that no enabled port gives a
rate is not timed here (DESIGN CHOICE). -/
def injectionDue (s : State) (l : Nat) : Bool :=
  let o := getLane s l
  match laneRate s l with
  | some r => decide ((o.injDone + 1) * 2 ^ nf o.test 39 34 * 1000000 ≤ (s.clk.root - o.injFrom) * r)
  | none => true

/-- RATE_INJECTION (R69). -/
def execRateInjection (t l : Nat) (s : State) : Host.Outcome State Fault Refusal :=
  .next (event t (fun s => decide (nf (getLane s l).test 50 48 = 3) && injectionDue s l)
    (fun s => invertBits l 1 (setLane s l { getLane s l with injDone := (getLane s l).injDone + 1 })) s)

/-! ### Recovered clocks and margins -/

/-- Since when a lane has held lock, if the row says that a lost lock came back at `since`. -/
def heldSince (o : Lane) (since : Nat) : Nat := if o.cdrLock then o.lockSince else max o.lockSince since

/-- SYNCE_UNSQUELCH (R72): the source lane, which has had its lock again since `since`, has held it for 10 ms. -/
def execSynceUnsquelch (t : Nat) (x : LockHeld) (s : State) : Host.Outcome State Fault Refusal :=
  .next (event t
    (fun s =>
      let y : SyncE := tabGet {} s.synce x.output
      match y.source with
      | some l => y.squelched && decide (heldSince (getLane s l) x.since + 10 * msec ≤ s.clk.root)
      | none => false)
    (fun s =>
      let y : SyncE := tabGet {} s.synce x.output
      match y.source with
      | some l => setLane { s with synce := tabSet {} s.synce x.output { y with squelched := false } } l
          { getLane s l with cdrLock := true, lockSince := heldSince (getLane s l) x.since }
      | none => s) s)

/-- EYE_MARGIN_CHECK (R77): margin before and after a re-adaptation. -/
def execEyeMarginCheck (t l before after : Nat) (s : State) : Host.Outcome State Fault Refusal :=
  .next (event t (fun s => decide (before * 100 < 60 * (getLane s l).recorded))
    (fun s =>
      let low := decide (after * 100 < 40 * (getLane s l).recorded)
      let s := raise 0x1006 l 0 s
      if low then raise 0x1007 l 0 s else s) s)

/-! ### LANE.CAL -/

/-- The calibration group of a lane: eight lanes of a side, or T0 to T3 (R79). -/
def calGroup (l : Nat) : Nat := l / 8

/-- The checks that every mode of LANE.CAL shares (R78). -/
def laneCalChecks (e : Env) : List Check :=
  laneIdChecks e ++ [zeroB e, (decide (e.imm % 2 ^ 61 ≠ 0), stReserved), (decide (nf e.imm 63 62 = 3), stReserved)]

/-- The command LANE.CAL, mode ADAPT: a hitless re-adaptation changes nothing a program can read. -/
def laneCalAdaptCmd : Cmd where
  op := 0x22
  fmt e _ := laneCalChecks e
  eff _ s := { s := s }

/-- LANE_CAL_ADAPT (R78). -/
def execLaneCalAdapt (w : IWord) (s : State) : Host.Outcome State Fault Refusal :=
  .next (runCmd laneCalAdaptCmd w s)

/-- The command LANE.CAL, mode MARGIN: the margins are measured, so their values are free. -/
def laneCalMarginCmd : Cmd where
  op := 0x22
  fmt e _ := laneCalChecks e
  eff _ s :=
    let v := draw s
    let h := draw v.2
    { s := h.2, regs := [(1, BitVec.ofNat 64 (v.1 % 2 ^ 32 * 2 ^ 32 + h.1 % 2 ^ 32))] }

/-- LANE_CAL_MARGIN (R78). -/
def execLaneCalMargin (w : IWord) (s : State) : Host.Outcome State Fault Refusal :=
  .next (runCmd laneCalMarginCmd w s)

/-- A calibration engine. -/
def getCal (s : State) (g : Nat) : CalEngine := tabGet {} s.cals g
/-- Writes a calibration engine. -/
def setCal (s : State) (g : Nat) (v : CalEngine) : State := { s with cals := tabSet {} s.cals g v }

/-- The command LANE.CAL, mode FULL: the lane joins its group's queue; its port goes to TEST. -/
def laneCalFullCmd : Cmd where
  op := 0x22
  fmt e _ := laneCalChecks e
  own e s := [(!nb e.imm 61 && laneInService e.a s, stBusy)]
  eff e s :=
    let c := getCal s (calGroup e.a)
    let s := setCal s (calGroup e.a) { c with waiting := c.waiting ++ [(e.a, e.cseq)] }
    let s := setLane s e.a { getLane s e.a with calibrating := true }
    { s := laneEnters e.a s, st := stPending, event := some 0x1008 }

/-- LANE_CAL_FULL (R78, R79). -/
def execLaneCalFull (w : IWord) (s : State) : Host.Outcome State Fault Refusal :=
  .next (runCmd laneCalFullCmd w s)

/-- CALIBRATION_START (R79): requests of a group run one at a time in order. -/
def execCalibrationStart (t g : Nat) (s : State) : Host.Outcome State Fault Refusal :=
  .next (event t (fun s => (getCal s g).running.isNone && !(getCal s g).waiting.isEmpty)
    (fun s =>
      let c := getCal s g
      setCal s g { waiting := c.waiting.drop 1, running := c.waiting.head?, since := s.clk.root }) s)

/-- CALIBRATION_COMPLETE (R77 to R79): the margin is recorded and the completion event raised; a lane that waits for
another calibration stays under it. -/
def execCalibrationComplete (t g vmargin : Nat) (s : State) : Host.Outcome State Fault Refusal :=
  .next (event t (fun s => (getCal s g).running.isSome)
    (fun s =>
      let c := getCal s g
      match c.running with
      | none => s
      | some (l, q) =>
        let again := c.waiting.any (fun p => p.1 == l)
        let s := setCal s g { c with running := none }
        let s := setLane s l { getLane s l with calibrating := again, recorded := vmargin }
        laneLeaves l (complete 0x1008 q stOk 0 0 s)) s)

end Sys2Proof.Machine
end

