-- ==== Sys2Proof/Machine/TrellisUnit.lean ====
section
/-! DEFINITION. The Trellis (18_trellis.md): link bring-up and security, frames, services, time distribution, breaks and
restores, events. Port 0 is W, port 1 is E; what the state keeps of a port is `TPort`. -/

namespace Sys2Proof.Machine

/-! ### Sending and receiving through the receive queue (R500) -/

/-- Whether a link is up. -/
def trAnyUp (s : State) : Bool := s.trellis.portW.step == .up || s.trellis.portE.step == .up

/-- Whether the management partition has no room for a frame of `n` octets (R224, R235). -/
def mgmtFull (n : Nat) (s : State) : Bool := !fitsAccount s .management (max 1 (cellsOf n))

/-- Whether the service header of a message has a nonzero reserved octet, or a reserved SERVICE (R11, R500). -/
def svcReserved (l : Bytes) : Bool := decide (mf l 3 1 ≠ 0 ∨ mf l 6 2 ≠ 0 ∨ 6 ≤ mf l 0 1)

/-- TR.SEND. -/
def trSendCmd : Cmd where
  op := 0xB0
  xm := 1
  host := hostFlag
  fmt := fun e s => [highA e 6, highB e 12, (nb e.a 5 && decide (e.a % 32 ≠ 0), stRange), (decide (e.b = 0), stRange),
    (decide (2048 < e.b), stLength)] ++ addrChecks e false 1 e.b ++
      (if addrOk e false 1 e.b && decide (e.b ≤ 2048) then [(svcReserved (addrRead e s e.b), stReserved)] else [])
  own := fun _ s => [(!trEn s.trellis.setting || !trAnyUp s, stBusy)]
  eff := fun e s =>
    if mgmtFull e.b s then { s := bump 10 0 10 48 1 s, st := stNoRoom }
    else { s := bumpTr 18 1 (trSendFrame 0x10 (if nb e.a 5 then 0x3F else e.a % 32) (addrRead e s e.b) s) }

/-- TR_SEND (R11, R500). -/
def execTrSend (w : IWord) (s : State) : Host.Outcome State Fault Refusal := .next (runCmd trSendCmd w s)

/-- TR.RECV; with no frame waiting the source node is not stated and w2 takes a free value. -/
def trRecvCmd : Cmd where
  op := 0xB1
  xm := 1
  host := hostFlag
  fmt := fun e s => [zeroA e, highB e 12] ++ addrChecks e true 1 e.b ++ match s.trellis.rxq with
    | (_, l) :: _ => [(decide (e.b < l.length), stLength)]
    | [] => []
  eff := fun e s => match s.trellis.rxq with
    | (src, l) :: rest =>
      { s := addrWrite e l { s with trellis := { s.trellis with rxq := rest } }
        regs := [(1, BitVec.ofNat 64 l.length), (2, BitVec.ofNat 64 src)] }
    | [] =>
      let d := draw s
      { s := d.2, regs := [(1, 0), (2, BitVec.ofNat 64 d.1)] }

/-- TR_RECV (R500). -/
def execTrRecv (w : IWord) (s : State) : Host.Outcome State Fault Refusal := .next (runCmd trRecvCmd w s)

/-! ### Link bring-up (R496) -/

/-- A port at bring-up step `st`, from now on. -/
def setStep (p : Nat) (st : LinkStep) (s : State) : State :=
  setTPort s p { getTPort s p with step := st, since := s.clk.root }

/-- A frame whose payload layout is open leaves port `p`, and is counted. -/
def trSent (p : Nat) (o : Output) (s : State) : State :=
  bumpTr (8 * p + 3) 1 (setTPort (emit o s) p { getTPort s p with lastTx := s.clk.root })

/-- 0xA007 with this node in OBJ: a check failure, or a restart of a port. -/
def trFault (s : State) : State := raise 0xA007 (nodeField s) 0 s

/-- A failed check on port `p` (R499). -/
def trCheckFails (p : Nat) (s : State) : State := trFault (bumpTr (8 * p + 5) 1 s)

/-- TRELLIS_LINK_LOCK (R496): step 1 is done. -/
def execTrellisLinkLock (t p : Nat) (s : State) : Host.Outcome State Fault Refusal :=
  .next (event t (fun s => decide (p < 2) && decide ((getTPort s p).step = .lock)) (setStep p .hello) s)

/-- The HELLO of this end. -/
def ownHello (p : Nat) (s : State) : Hello :=
  { east := p == 1, version := 1, two := nb s.trellis.setting 507, fast := nb s.trellis.setting 506
    candidate := candidate s, prio := nf s.trellis.setting 505 498, node := nodeField s, devid := beNat s.boot.devid }

/-- HELLO_SEND (R496). -/
def execHelloSend (t p : Nat) (s : State) : Host.Outcome State Fault Refusal :=
  .next (event t
    (fun s => decide (p < 2) && decide ((getTPort s p).step = .hello ∨ (getTPort s p).step = .mode) &&
      waited s (getTPort s p).lastTx (100 * usec))
    (fun s => trSent p (.hello p (ownHello p s)) s) s)

/-- The best common mode: 2 for FAST at both ends, 1 for TWO. -/
def bestMode (s : State) (h : Hello) : Nat :=
  2 * bn (h.fast && nb s.trellis.setting 506) + bn (h.two && nb s.trellis.setting 507)

/-- The next mode below: one that both ends can run. Below mode 0 the ends stay in it until the step's timeout. -/
def nextMode (s : State) (h : Hello) (m : Nat) : Nat :=
  if m = 3 then 2 else if m = 2 && h.two && nb s.trellis.setting 507 then 1 else 0

/-- HELLO_RECEIVE (R490, R496): a link whose ends report the same side, or no common version, is refused. -/
def execHelloReceive (t p : Nat) (h : Hello) (s : State) : Host.Outcome State Fault Refusal :=
  .next (event t (fun s => decide (p < 2) && decide ((getTPort s p).step = .hello))
    (fun s =>
      if h.east = (p == 1) || decide (h.version = 0) then trCheckFails p s
      else
        let s := bumpTr (8 * p + 4) 1 s
        setTPort s p { getTPort s p with
          step := .mode, since := s.clk.root, heldFrom := s.clk.root, peer := some h, mode := bestMode s h
          lastRx := s.clk.root }) s)

/-! ### The key exchange (R498) -/

/-- The public identity keys of slots 0 and 1. -/
def idKeys (s : State) : Bytes := slotPoint s 0 ++ fit 2592 (dsaPub (fit 32 (getSlot s 1).payload))

/-- An ephemeral P-384 scalar. -/
def ephScalar (rnd : Bytes) : Nat := beNat (fit 56 rnd) % (curveN 2 - 1) + 1

/-- The point of a scalar. -/
def scalarPoint (d : Nat) : Bytes := pointBytes 2 (ecMul 2 d (curveG 2))

/-- The link stays down (R496, R498). -/
def sessionFails (p : Nat) (s : State) : State :=
  setTPort s p { getTPort s p with
    step := .waiting, since := s.clk.root, offer := none, answer := none, waits := [], ephKem := [], ephEc := 0
    keyTx := 0, keyRx := 0
    oldRx := none, fails := 0 }

/-- A port goes down: its keys are cleared, the Wenok wraps, the port starts afresh (R496, R507). -/
def linkDown (p : Nat) (s : State) : State :=
  let s := bumpTr (8 * p + 6) 1 (sessionFails p s)
  let s := setStep p .lock s
  let s := raise 0xA001 (nodeField s) 0 s
  if s.trellis.wrapped then s
  else bumpTr 25 1 { s with trellis := { s.trellis with wrapped := true } }

/-- A key exchange fails: a link that was up goes down, one in bring-up stays down. -/
def exchangeFails (p : Nat) (s : State) : State :=
  if (getTPort s p).step = .up then linkDown p s else sessionFails p s

/-- QCLK for which the messages of the exchange keep the Press: the times of R395 for the same computations, and the check of the
encapsulation key (R394; DEDUCED). -/
def offerCycles : Nat := 25000 + 52500
def answerCycles : Nat := kemCheckTime + 31250 + 52500
def confirmCycles : Nat := 60000 + 187500 + 9750

/-- Step 1: the initiator, the end on port E, sends its offer. -/
def sendOffer (p : Nat) (s : State) : State :=
  if s.vault.drbgStopped then exchangeFails p s
  else
    let r := internalRandom 120 (internalUse offerCycles s)
    let seed := r.1.take 64
    let d := ephScalar (r.1.drop 64)
    let m := Keyx.offer (idKeys r.2) (fit 1568 (kemPub seed)) (scalarPoint d)
    let s := trSent p (.keyx p m) r.2
    setTPort s p { getTPort s p with offer := some m, answer := none, ephKem := seed, ephEc := d }

/-- LINK_MODE_HELD (R496): a mode held for 1 ms settles and the session begins; a failure falls one mode. -/
def modeHeld (p : Nat) (held : Bool) (s : State) : State :=
  let q := getTPort s p
  if held then
    let s := raise 0xA005 (nodeField s) (Config.linkModeData q.mode) (setStep p .session s)
    if p = 1 then sendOffer p s else s
  else
    match q.peer with
    | some h => setTPort s p { q with mode := nextMode s h q.mode, heldFrom := s.clk.root }
    | none => s

/-- LINK_MODE_HELD (R496). -/
def execLinkModeHeld (t p : Nat) (held : Bool) (s : State) : Host.Outcome State Fault Refusal :=
  .next (event t
    (fun s => decide (p < 2) && decide ((getTPort s p).step = .mode) &&
      (!held || waited s (getTPort s p).heldFrom msec))
    (modeHeld p held) s)

/-- The transcript: the contents of the two messages of steps 1 and 2, in order. DESIGN CHOICE (log entry 78): the spec gives the
messages no layout. -/
def transcript (offer answer : Option Keyx) : Bytes :=
  (match offer with | some (.offer a b c) => a ++ b ++ c | _ => []) ++
    (match answer with | some (.answer a b c) => a ++ b ++ c | _ => [])

/-- The ring key (R492). -/
def ringKey (s : State) : Bytes := fit 64 (getSlot s (trRingSlot s.trellis.setting)).payload

/-- Step 3: this end's signatures and HMAC. -/
def sendConfirm (p : Nat) (s : State) : State :=
  let q := getTPort s p
  let tr := transcript q.offer q.answer
  let dg := fit 32 (sha3 tr)
  let r1 := internalRandom 48 (internalUse confirmCycles s)
  let r2 := internalRandom 32 r1.2
  let s := r2.2
  let ec := vintageEcOf s dg r1.1
  let pq := fit 4627 ((dsaSign (fit 32 (getSlot s 1).payload) dg [] r2.1).getD [])
  trSent p (.keyx p (.confirm ec pq (fit 48 (hmac384 (ringKey s) tr)))) s
where
  /-- ECDSA P-384 under slot 0 of a digest. -/
  vintageEcOf (s : State) (dg rnd : Bytes) : Bytes :=
    let d := beNat (fit 48 (getSlot s 0).payload)
    let r := ecdsaSig 2 d (hedgedNonce 2 d dg rnd) dg
    beBytes 48 r.1 ++ beBytes 48 r.2

/-- Step 2: the responder answers an offer, and signs. -/
def answerOffer (p : Nat) (m : Keyx) (kem : Bytes) (s : State) : State :=
  if s.vault.drbgStopped || !kemKeyOk kem then exchangeFails p s
  else
    let r := internalRandom 88 (internalUse answerCycles s)
    let ct := kemEncaps kem (r.1.take 32)
    let d := ephScalar (r.1.drop 32)
    let a := Keyx.answer (idKeys r.2) (fit 1568 ct.1) (scalarPoint d)
    let s := trSent p (.keyx p a) r.2
    sendConfirm p (setTPort s p { getTPort s p with
      offer := some m, answer := some a, ephKem := fit 32 ct.2, ephEc := d })

/-- The identity keys of the other end, in the exchange as port `p` sees it. -/
def peerKeys (p : Nat) (q : TPort) : Bytes :=
  if p = 1 then (match q.answer with | some (.answer a _ _) => a | _ => [])
  else (match q.offer with | some (.offer a _ _) => a | _ => [])

/-- The shared secrets of the exchange: of the KEM and of ECDH. -/
def sharedSecrets (p : Nat) (q : TPort) : Bytes :=
  if p = 1 then
    match q.answer with
    | some (.answer _ ct pt) => fit 32 (kemDecaps q.ephKem ct) ++ sharedX 2 q.ephEc (pointOf 2 pt)
    | _ => []
  else
    match q.offer with
    | some (.offer _ _ pt) => q.ephKem ++ sharedX 2 q.ephEc (pointOf 2 pt)
    | _ => []

/-- The point that the other end sent. -/
def peerPoint (p : Nat) (q : TPort) : Bytes :=
  if p = 1 then (match q.answer with | some (.answer _ _ c) => c | _ => [])
  else (match q.offer with | some (.offer _ _ c) => c | _ => [])

/-- Step 4: the checks of the other end's confirmation. -/
def confirmGood (p : Nat) (q : TPort) (s : State) (sigEc sigPq mac : Bytes) : Bool :=
  let tr := transcript q.offer q.answer
  let dg := fit 32 (sha3 tr)
  let keys := peerKeys p q
  decide (fit 32 (sha3 keys) = beBytes 32 ((q.peer.map (·.devid)).getD 0)) &&
    decide (firstFail (pointChecks 2 (pointOf 2 (peerPoint p q)) ++ pointChecks 2 (pointOf 2 keys)) = stOk) &&
    ecSigOk keys dg sigEc && dsaVerify (keys.drop 96) dg [] sigPq &&
    decide (mac = fit 48 (hmac384 (ringKey s) tr))

/-- "TRELLISK". -/
def trellisLabel : Bytes := beBytes 8 0x5452454C4C49534B

/-- The list of nodes and the wrap state that this node tells (R508). -/
def ownTopo (s : State) : Topo := ⟨selfNode s :: s.trellis.members, s.trellis.wrapped⟩

/-- TOPO leaves a port whose link is up. -/
def sendTopo (p : Nat) (s : State) : State :=
  if (getTPort s p).step = .up then trSent p (.topo p (ownTopo s)) s else s

/-- Step 5: the keys take force; LSEQ begins at 1 under them. On a link that was up already KEYPHASE is inverted (R499). -/
def sessionUp (p : Nat) (s : State) : State :=
  let q := getTPort s p
  let was := q.step == .up
  let k := fit 64 (shake256
    (sharedSecrets p q ++ fit 32 (sha3 (transcript q.offer q.answer)) ++ trellisLabel) 64)
  let i2r := beNat (k.take 32)
  let r2i := beNat (k.drop 32)
  let s := setTPort s p { q with
    step := .up, keyTx := if p = 1 then i2r else r2i, keyRx := if p = 1 then r2i else i2r, seqTx := 1, seqRx := 0
    oldRx := if was then some (q.keyRx, q.seqRx) else none
    phase := if was then !q.phase else false, keyedAt := s.clk.root, fails := 0
    lastRx := s.clk.root, lastTx := s.clk.root, offer := none, answer := none, ephKem := [], ephEc := 0 }
  let s := bumpTr (8 * p + 7) 1 s
  if was then s else sendTopo p s

/-- A key-exchange message at port `p`. -/
def keyxMeans (p : Nat) (m : Keyx) (s : State) : State :=
  let q := getTPort s p
  match m with
  | .offer _ kem _ => if p = 0 then answerOffer p m kem s else s
  | .answer _ _ _ =>
    if p = 1 && q.offer.isSome && q.answer.isNone then
      if s.vault.drbgStopped then exchangeFails p s
      else sendConfirm p (setTPort s p { q with answer := some m })
    else s
  | .confirm a b c =>
    if q.offer.isSome && q.answer.isSome then
      if confirmGood p q s a b c then sessionUp p s else exchangeFails p (trCheckFails p s)
    else s

/-- Whether the Press serves the exchange on port `p`. -/
def inSession (s : State) (p : Nat) : Bool := decide ((getTPort s p).step = .session ∨ (getTPort s p).step = .up)

/-- A message is taken; a computation whose redundant path differs fails the exchange (R398). -/
def keyxTaken (p : Nat) (m : Keyx × Bytes) (s : State) : State :=
  if !inSession s p then s
  else if m.2.any (· != 0) then exchangeFails p (pressMismatch s)
  else keyxMeans p m.1 s

/-- Whether the Press is at an operation, which no internal request interrupts (R388). -/
def pressAtWork (s : State) : Bool := s.press.running.isSome || vintageRuns s

/-- The messages that port `p` kept waiting are taken. -/
def serveWaits (p : Nat) (s : State) : State :=
  let l := (getTPort s p).waits
  l.foldl (fun s m => keyxTaken p m s) (setTPort s p { getTPort s p with waits := [] })

/-- Messages that waited are served once the Press has ended its operation (R388). -/
def serveKeyx (s : State) : State :=
  if pressAtWork s || ((getTPort s 0).waits.isEmpty && (getTPort s 1).waits.isEmpty) then s else serveWaits 1 (serveWaits 0 s)

/-- A message arrives at port `p`: it waits for a running operation of the Press. -/
def keyxArrives (p : Nat) (m : Keyx × Bytes) (s : State) : State :=
  let s := serveKeyx (bumpTr (8 * p + 4) 1 s)
  if pressAtWork s then setTPort s p { getTPort s p with waits := (getTPort s p).waits ++ [m] } else keyxTaken p m s

/-- KEYX_RECEIVE (R498). -/
def execKeyxReceive (run : PressRun) (p : Nat) (m : Keyx) (s : State) : Host.Outcome State Fault Refusal :=
  .next (event run.t (fun s => decide (p < 2) && inSession s p) (keyxArrives p (m, run.upset)) s)

/-- PRESS_OP_COMPLETE (R402). -/
def execPressOpComplete (t : Nat) (s : State) : Host.Outcome State Fault Refusal :=
  .next (event t runningDue (fun s => serveKeyx (completeRunning s)) s)

/-- VINTAGE_COMPLETE (R414): after the snapshot edge. -/
def execVintageComplete (run : PressRun) (s : State) : Host.Outcome State Fault Refusal :=
  .next (event run.t vintageTaken (fun s => serveKeyx (vintageEnds run.upset s)) s)

/-- PK.ABORT (R401). -/
def execPkAbort (w : IWord) (s : State) : Host.Outcome State Fault Refusal := .next (serveKeyx (runCmd pkAbortCmd w s))

/-- LINK_REKEY (R499): at LSEQ 2^48 or after 24 h the initiator offers new keys while frames go on. -/
def execLinkRekey (t p : Nat) (s : State) : Host.Outcome State Fault Refusal :=
  .next (event t
    (fun s => decide (p = 1) && decide ((getTPort s p).step = .up) &&
      (decide (2 ^ 48 ≤ (getTPort s p).seqTx) || waited s (getTPort s p).keyedAt (86400000 * msec)))
    (sendOffer p) s)

/-- TRELLIS_STEP_TIMEOUT (R496): a step not done in 10 ms waits 100 ms; then the port restarts. -/
def execTrellisStepTimeout (t p : Nat) (s : State) : Host.Outcome State Fault Refusal :=
  .next (event t
    (fun s => decide (p < 2) &&
      match (getTPort s p).step with
      | .lock | .hello | .mode | .session => expired s ((getTPort s p).since + 10 * msec)
      | .waiting => waited s (getTPort s p).since (100 * msec)
      | _ => false)
    (fun s => if (getTPort s p).step = .waiting then trFault (setStep p .lock s) else sessionFails p s) s)

/-! ### Frames (R499) -/

/-- A validated frame: its header fields and payload in clear. -/
structure TFrame where
  typ : Nat
  dst : Nat
  src : Nat
  ttl : Nat
  wrapped : Bool
  phase : Bool
  lseq : Nat
  payload : Bytes
  deriving DecidableEq, Repr

/-- The check of a frame at a port (R499): header, LSEQ above the last one validated under its keys, tag. The old keys open
frames until the first one under the new keys. -/
def trOpen (q : TPort) (l : Bytes) : Option TFrame :=
  let len := mf l 16 2
  let f : TFrame :=
    { typ := mf l 3 1, dst := mf l 4 1, src := mf l 5 1, ttl := mf l 6 1, wrapped := nb (mf l 7 1) 1, phase := nb (mf l 7 1) 0
      lseq := mf l 8 8, payload := [] }
  match if f.phase = q.phase then some (q.keyRx, q.seqRx) else q.oldRx with
  | none => none
  | some k =>
  if l.length ≠ 40 + len ∨ mf l 0 2 ≠ 0x5452 ∨ mf l 2 1 ≠ 1 ∨ 64 ≤ f.dst ∨ 4 ≤ mf l 7 1 ∨ mf l 18 6 ≠ 0 ∨ 8192 < len ∨
      f.lseq ≤ k.2 then none
  else
    match gcmOpen 256 k.1 f.lseq (l.take 24) ((l.drop 24).take len) ((l.drop (24 + len)).take 16) with
    | some p => some { f with payload := p }
    | none => none

/-- A frame has validated: LSEQ, link timers, the node heard (R497, R507). -/
def trValidated (p : Nat) (f : TFrame) (s : State) : State :=
  let q := getTPort s p
  let s := setTPort s p { q with
    seqRx := if f.phase = q.phase then f.lseq else q.seqRx
    oldRx := if f.phase = q.phase then none else q.oldRx.map (fun k => (k.1, f.lseq))
    fails := 0, lastRx := s.clk.root }
  let s := { s with trellis := { s.trellis with lastHeard := tabSet 0 s.trellis.lastHeard f.src s.clk.root } }
  bumpTr (8 * p + 4) 1 s

/-- A frame has failed its check; the eighth in a row takes the port down (R497). -/
def trRejected (p : Nat) (s : State) : State :=
  let s := trCheckFails p (setTPort s p { getTPort s p with fails := (getTPort s p).fails + 1 })
  if 8 ≤ (getTPort s p).fails then linkDown p s else s

/-- A frame that came in at port `p` leaves by the other port, or back by the same one, WRAPPED, while the other is down
(R507). A frame whose TTL comes to 0 is dropped. -/
def trForward (p : Nat) (f : TFrame) (payload : Bytes) (s : State) : State :=
  if f.ttl ≤ 1 then bumpTr 23 1 s
  else if (getTPort s (1 - p)).step = .up then trEmit (1 - p) f.typ f.dst f.src (f.ttl - 1) f.wrapped payload s
  else trEmit p f.typ f.dst f.src (f.ttl - 1) true payload s

/-- A service frame is taken for this node. -/
def trTake (f : TFrame) (s : State) : State :=
  if mgmtFull f.payload.length s then bump 10 0 10 48 1 s
  else { s with trellis := { s.trellis with taken := s.trellis.taken ++ [(f.src, f.payload)] } }

/-- Where a service frame goes: to this node, on, or nowhere. -/
def trService (p : Nat) (f : TFrame) (s : State) : State :=
  let own := nodeField s
  if f.dst = 0x3F then (if f.src = own then s else trForward p f f.payload (trTake f s))
  else if f.dst = own then trTake f s
  else if f.src = own then bumpTr 22 1 s
  else trForward p f f.payload s

/-! ### Time distribution (R503) -/

/-- A stamp of now in units of 2^-16 ns (R281). -/
def stamp16 (s : State) : Nat := stampNow s / 2 ^ 16

/-- A time of R272 form in units of 2^-16 ns. -/
def form16 (n : Nat) : Int := ((todOfForm n / 2 ^ 16 : Nat) : Int)

/-- The delay of the inbound link at a port: the link delay and the port's asymmetry, which R303 takes as half the difference
of the two directions. -/
def inboundDelay (p : Nat) (s : State) : Int :=
  let asym := signed 16 (if p = 0 then nf s.trellis.setting 477 462 else nf s.trellis.setting 461 446)
  ((getTPort s p).delay : Int) + asym * 65536 / 1000

/-- A TSYNC payload. -/
def tsyncPayload (origin : Nat) (corr : Int) (incr seq hop : Nat) : Bytes :=
  beBytes 12 origin ++ beBytes 8 (corr % (2 : Int) ^ 64).toNat ++ beBytes 8 incr ++ beBytes 4 seq ++ beBytes 1 hop

/-- A TSYNC at a worker: OFFSET, and with FOLLOW the permanent increment at the next TCLK edge; then it goes on with residence time and inbound delay
added. The residence time is not stated. -/
def tsyncTaken (p : Nat) (f : TFrame) (s : State) : State :=
  if s.trellis.isManager || decide (f.src = nodeField s) || decide (f.payload.length ≠ 33) then s
  else
    let corr := signed 64 (mf f.payload 12 8)
    let d := inboundDelay p s
    let incr := mf f.payload 20 8 % 2 ^ 36
    let s := bumpTr 17 1 s
    let s := { s with trellis := { s.trellis with
      offset := (stamp16 s : Int) - (form16 (mf f.payload 0 12) + corr + d), offsetSeq := mf f.payload 28 4 } }
    let s := if nb s.trellis.setting 510 then
      let s := advance (edgeAt 10 (s.clk.root + 1)) s
      { s with clk := { s.clk with incr := incr } } else s
    let r := draw s
    trForward p f
      (tsyncPayload (mf f.payload 0 12) (corr + d + (r.1 : Int)) incr (mf f.payload 28 4) ((mf f.payload 32 1 + 1) % 256)) r.2

/-- What follows from a frame that has validated. The frames of bring-up, TOPO and the delay exchange have commands of
their own for what they carry. -/
def trTaken (p : Nat) (f : TFrame) (s : State) : State :=
  if f.typ = 0x10 then trService p f s
  else if f.typ = 0x30 then tsyncTaken p f s
  else if [0x01, 0x02, 0x03, 0x04, 0x31, 0x32].contains f.typ then s
  else bumpTr (8 * p + 5) 1 s

/-- A frame arrives at a port whose link is up. -/
def trArrives (p : Nat) (l : Bytes) (s : State) : State :=
  match trOpen (getTPort s p) l with
  | none => trRejected p s
  | some f => trTaken p f (trValidated p f s)

/-- Whether port `p` has its link up. -/
def linkIsUp (p : Nat) (s : State) : Bool := decide (p < 2) && decide ((getTPort s p).step = .up)

/-- TRELLIS_FRAME_RECEIVE (R499). -/
def execTrellisFrameReceive (t p : Nat) (l : Bytes) (s : State) : Host.Outcome State Fault Refusal :=
  .next (event t (linkIsUp p) (trArrives p l) s)

/-- TSYNC_RECEIVE (R503): a frame of TYPE TSYNC. -/
def execTsyncReceive (t p : Nat) (l : Bytes) (s : State) : Host.Outcome State Fault Refusal :=
  .next (event t (fun s => linkIsUp p s && decide (mf l 3 1 = 0x30)) (trArrives p l) s)

/-- TSYNC_SEND (R503): the manager broadcasts TSYNC every SYNCP times 125 µs. -/
def execTsyncSend (t : Nat) (s : State) : Host.Outcome State Fault Refusal :=
  .next (event t
    (fun s => s.trellis.isManager && trEn s.trellis.setting && trAnyUp s &&
      waited s s.trellis.tsyncAt (125 * usec * trSyncp s.trellis.setting))
    (fun s =>
      let seq := s.trellis.tsyncSeq
      let s := trSendFrame 0x30 0x3F (tsyncPayload (todForm (stampNow s)) 0 s.clk.incr seq 0) s
      { s with trellis := { s.trellis with tsyncSeq := (seq + 1) % 2 ^ 32, tsyncAt := s.clk.root } }) s)

/-- DELAY_REQUEST (R503): the stamps are in units of 2^-16 ns; the link delay is half the round trip. -/
def execDelayRequest (t p t1 t2 t3 t4 : Nat) (s : State) : Host.Outcome State Fault Refusal :=
  .next (event t (linkIsUp p)
    (fun s =>
      let s := trSent p (.dreq p) s
      setTPort s p { getTPort s p with delay := ((t4 - t1) - (t3 - t2)) / 2 }) s)

/-- KEEPALIVE_SEND (R497). -/
def execKeepaliveSend (t p : Nat) (s : State) : Host.Outcome State Fault Refusal :=
  .next (event t (linkIsUp p) (fun s => trEmit p 3 0x3F (nodeField s) 32 false [] s) s)

/-! ### Services (R501, R502) -/

/-- The kept result of a service (R502). -/
def keptOf (s : State) (src relay : Nat) : Option KeptSvc :=
  s.trellis.keptSvc.find? (fun k => k.src == src && k.relay == relay)

/-- Whether a service is still in hand: its program runs or its Graft message waits. -/
def svcInHand (s : State) (src relay : Nat) : Bool :=
  (List.range 16).any (fun q => match (getQueue s q).prog with
    | some p => p.relay == some (src, relay)
    | none => false) || s.vault.grafts.any (fun g => g.relay == some (src, relay))

/-- The checks of a program frame's descriptor: those of R315, its own addresses zero, its parts in the frame. -/
def svcProgStatus (content : Bytes) : Nat :=
  let v := beNat (fit 64 content)
  fieldFail (descChecks (v % 2 ^ 384) ++
    [(decide (nf v 511 384 ≠ 0), stRange),
     (decide (content.length < 64 + 16 * (nf v 383 376 + nf v 375 368)), stLength)])

/-- The program of a program frame starts on queue TRQ, or ends at once with a failing status (R501). -/
def svcProgram (src relay : Nat) (content : Bytes) (s : State) : State :=
  let v := beNat (fit 64 content)
  let q := nf s.trellis.setting 436 433
  let p := { progOf s.clk.root v with relay := some (src, relay) }
  if !nb s.trellis.setting 437 then answerService src relay 3 (completionRecord s q stRange p {}) s
  else
    let st := svcProgStatus content
    let s := setCtx s (queueCtx q) { getCtx s (queueCtx q) with switched := false, last := 0 }
    if st ≠ 0 then endUnstarted q p st s
    else startProgram q p ((content.drop 64).take (16 * p.len)) ((content.drop (64 + 16 * p.len)).take (16 * p.dlen)) s

/-- A joined Graft message goes to the Key Vault as GRAFT hands one over (R502). -/
def svcGraft (src relay : Nat) (m : Bytes) (s : State) : State :=
  let g : GraftMsg := { octets := m, cseq := 0, relay := some (src, relay) }
  let st := firstFail [(decide (m.length = 0), stRange), (decide (8192 < m.length), stLength),
    (s.crust.quiesce, stFault), (graftFull s, stBusy)]
  if st ≠ stOk then graftEnds g st 0x1F s
  else { s with vault := { s.vault with grafts := s.vault.grafts ++ [g] } }

/-- A Graft fragment joins the ones there; with all of them the message is whole (R502). -/
def svcFragment (src relay frag nfrag : Nat) (part : Bytes) (s : State) : State :=
  let old := (s.trellis.frags.find? (fun f => f.src == src && f.relay == relay)).getD
    ⟨src, relay, nfrag, [], s.clk.root⟩
  let new := { old with parts := tabPut old.parts frag part }
  let rest := s.trellis.frags.filter (fun f => !(f.src == src && f.relay == relay))
  if old.nfrag ≠ nfrag then s
  else if new.parts.length = nfrag then
    svcGraft src relay (new.parts.flatMap (·.2)) { s with trellis := { s.trellis with frags := rest } }
  else { s with trellis := { s.trellis with frags := rest ++ [new] } }

/-- A frame joins the receive queue of 256, or is dropped and counted (R500). -/
def svcQueue (src : Nat) (payload : Bytes) (s : State) : State :=
  if s.trellis.rxq.length < 256 then { s with trellis := { s.trellis with rxq := s.trellis.rxq ++ [(src, payload)] } }
  else bumpTr 21 1 s

/-- Whether the header of a service frame is well formed (R500). -/
def svcHeaderGood (l : Bytes) : Bool :=
  decide (8 ≤ l.length) && decide (mf l 0 1 < 6) && decide (1 ≤ mf l 2 1 ∧ mf l 2 1 ≤ 4) &&
    decide (mf l 1 1 < mf l 2 1) && decide (mf l 2 1 = 1 ∨ mf l 0 1 = 2)

/-- A service whose header has a nonzero reserved octet ends with ST_RESERVED and no side effect; a message or a result has
no answer, and is dropped (R11). -/
def svcRejected (src relay : Nat) (l : Bytes) (s : State) : State :=
  let q := nf s.trellis.setting 436 433
  if mf l 0 1 = 1 then
    answerService src relay 3 (completionRecord s q stReserved
      { progOf s.clk.root (beNat (fit 64 (l.drop 8))) with relay := some (src, relay) } {}) s
  else if mf l 0 1 = 2 then graftEnds { octets := l.drop 8, cseq := 0, relay := some (src, relay) } stReserved 0x1F s
  else s

/-- A service frame is delivered: on the manager to its receive queue, on a worker applied once (R500 to R502). -/
def svcDeliver (src : Nat) (l : Bytes) (s : State) : State :=
  let service := mf l 0 1
  let relay := mf l 4 2
  if !svcHeaderGood l then s
  else if s.trellis.isManager then
    if service = 1 ∨ service = 2 ∨ svcReserved l = true then s else svcQueue src l s
  else if service ≠ 1 ∧ service ≠ 2 then s
  else
    match keptOf s src relay with
    | some k => sendService src (mf k.result 0 1) relay (k.result.drop 1) (bumpTr 20 1 s)
    | none =>
      if svcInHand s src relay then s
      else if svcReserved l then svcRejected src relay l s
      else if service = 1 then svcProgram src relay (l.drop 8) s
      else svcFragment src relay (mf l 1 1) (mf l 2 1) (l.drop 8) s

/-- Whether a taken frame must wait: a program for a queue that has one, or that FENCE holds, or no complex to run it. -/
def svcWaits (s : State) (l : Bytes) : Bool :=
  decide (mf l 0 1 = 1) && !s.trellis.isManager && nb s.trellis.setting 437 &&
    (!executing s || (getQueue s (nf s.trellis.setting 436 433)).prog.isSome || !fenceOpen s (l.drop 8))

/-- SERVICE_RECEIVE (R501): the first frame that need not wait. -/
def execServiceReceive (t : Nat) (s : State) : Host.Outcome State Fault Refusal :=
  .next (event t (fun s => s.trellis.taken.any (fun f => !svcWaits s f.2))
    (fun s => match s.trellis.taken.find? (fun f => !svcWaits s f.2) with
      | some f => svcDeliver f.1 f.2 { s with trellis := { s.trellis with taken := s.trellis.taken.erase f } }
      | none => s) s)

/-- GRAFT_FRAGMENT_TIMEOUT (R502). No event is raised: R489 lists no code for it (DESIGN CHOICE, log entry 101). -/
def execGraftFragmentTimeout (t src relay : Nat) (s : State) : Host.Outcome State Fault Refusal :=
  .next (event t
    (fun s => s.trellis.frags.any (fun f => f.src == src && f.relay == relay && expired s (f.since + msec)))
    (fun s => match s.trellis.frags.find? (fun f => f.src == src && f.relay == relay) with
      | some f => bumpTr 24 f.parts.length { s with trellis := { s.trellis with
          frags := s.trellis.frags.filter (fun f => !(f.src == src && f.relay == relay)) } }
      | none => s) s)

/-- EVENT_BATCH_SEND (R506): up to eight records in one service. -/
def execEventBatchSend (t : Nat) (s : State) : Host.Outcome State Fault Refusal :=
  .next (event t (fun s => !s.trellis.evBatch.isEmpty && !s.trellis.isManager && trAnyUp s && !s.book.frozen)
    (fun s =>
      let l := s.trellis.evBatch
      sendService 0 5 0 ((l.take 8).flatMap id)
        { s with trellis := { s.trellis with evBatch := l.drop 8, evSince := s.clk.root } }) s)

/-! ### Break, wrap and restore (R507, R508) -/

/-- TRELLIS_LINK_DOWN (R497, R507): the lock is lost, or nothing has validated for 10 µs; a frame of the expiry edge counts as
in time (R41). -/
def execTrellisLinkDown (t : Nat) (x : LinkLost) (s : State) : Host.Outcome State Fault Refusal :=
  .next (event t (fun s => linkIsUp x.port s && (!x.locked || expired s ((getTPort s x.port).lastRx + 10 * usec)))
    (linkDown x.port) s)

/-- NODE_LOST (R507): 0xA004; without a manager the election runs. -/
def execNodeLost (t node : Nat) (s : State) : Host.Outcome State Fault Refusal :=
  .next (event t
    (fun s => s.trellis.members.any (fun m => m.node == node) && expired s (tabGet 0 s.trellis.lastHeard node + msec))
    (fun s => elect (raise 0xA004 node 0 { s with trellis := { s.trellis with
      members := s.trellis.members.filter (fun m => m.node != node) } })) s)

/-- The lowest number from 1 to 31 that no node of a list has (R491). -/
def freeNode (l : List TopoNode) : Option Nat :=
  ((List.range 31).map (· + 1)).find? (fun n => l.all (fun m => m.node != n))

/-- The manager admits the nodes that have no number, or one that is taken; a node that finds no number stays out (R491). -/
def admitNodes : List TopoNode → List TopoNode → List TopoNode
  | done, [] => done
  | done, m :: l =>
    if 1 ≤ m.node && decide (m.node ≤ 31) && done.all (fun d => d.node != m.node) then admitNodes (done ++ [m]) l
    else match freeNode (done ++ l) with
      | some n => admitNodes (done ++ [{ m with node := n }]) l
      | none => admitNodes done l

/-- A TOPO is taken (R508, R491): the nodes of the ring, this node's number, an unwrap once both ports are up, the
election, and the new nodes. -/
def topoTaken (p : Nat) (x : Topo) (s : State) : State :=
  let own := beNat s.boot.devid
  let old := s.trellis.members
  let others := x.nodes.filter (fun m => m.devid != own)
  let mine := (x.nodes.find? (fun m => m.devid == own && decide (m.node ≤ 31))).map (·.node)
  let s := { s with trellis := { s.trellis with
    members := if s.trellis.isManager then admitNodes [] others else others
    refusedNodes := s.trellis.refusedNodes +
      (if s.trellis.isManager then others.length - (admitNodes [] others).length else 0)
    node := if s.trellis.isManager then some 0 else mine.orElse (fun _ => s.trellis.node) } }
  let heard := s.trellis.members.foldl (fun t m => tabSet 0 t m.node s.clk.root) s.trellis.lastHeard
  let s := { s with trellis := { s.trellis with lastHeard := heard } }
  let s :=
    if s.trellis.wrapped && decide (s.trellis.portW.step = .up) && decide (s.trellis.portE.step = .up) then
      raise 0xA002 (nodeField s) 0 { s with trellis := { s.trellis with wrapped := false } }
    else s
  let s := (s.trellis.members.filter (fun m => old.all (fun o => o.devid != m.devid))).foldl
    (fun s m => raise 0xA003 m.node 0 s) s
  let s := elect s
  if s.trellis.members = old then s else sendTopo p (sendTopo (1 - p) s)

/-- TOPO_RECEIVE (R508). -/
def execTopoReceive (t p : Nat) (x : Topo) (s : State) : Host.Outcome State Fault Refusal :=
  .next (event t (linkIsUp p) (topoTaken p x) s)

end Sys2Proof.Machine
end

