-- ==== Sys2Proof/Machine/Power.lean ====
section
/-! DEFINITION. Power, reset and start-up (20_power_and_reset.md), the reference inputs and the root PLLs (R21 to R25,
R538 to R540). -/

namespace Sys2Proof.Machine

/-! ### What a reset leaves (R541) -/

/-- A complex marked failed stays failed until nPOR (R330). -/
def keptHealth (h : Health) : Health := if h = .failed then .failed else .untested

/-- What every reset keeps: the Crust domain (an injection under way ends with its command), the slots with their counters and journal, the MRAM records of the Boot ROM,
and of the model's own the queue, the outputs and the free values drawn. Root cycles go on; network time is zero (R273). -/
def resetCommon (s : State) : State :=
  { pending := s.pending
    clk := { root := s.clk.root }
    vault := { slots := s.vault.slots, mram := s.vault.mram, vaultEmpty := s.vault.vaultEmpty
               areaLost := s.vault.areaLost, journal := s.vault.journal, epoch := s.vault.epoch, remaskRow := s.vault.remaskRow, remaskAt := s.clk.root
               maskKeys := s.vault.maskKeys, scramble := s.vault.scramble }
    boot := { anchor := s.boot.anchor, minSvn := s.boot.minSvn, bootCount := s.boot.bootCount, cells := s.boot.cells }
    crust := { s.crust with injecting := none }
    power := { powerGood := false, held := true, booting := true, faultN := true, owesC004 := s.power.owesC004 }
    drawn := s.drawn
    out := s.out }

/-- The Cellar Book after nRESET (R487): records and freeze state kept, every open record closed. -/
def bookKept (b : Book) : Book :=
  { recs := b.recs, count := b.count, frozen := b.frozen, missed := b.missed }

/-- The counters of scope 18, which only nPOR clears (R477). -/
def crustCounts (l : Tab Nat) : Tab Nat := l.filter (fun p => decide (p.1 / 2 ^ 40 = 18))

/-- The state after nRESET: what nRESET keeps beside `resetCommon` (R541). -/
def resetMain (s : State) : State :=
  { resetCommon s with
    seq := { healthA := keptHealth s.seq.healthA, healthB := keptHealth s.seq.healthB }
    book := bookKept s.book
    trellis := { strap := s.trellis.strap }
    power := { s.power with held := false, booting := true, faultN := true }
    cnt := crustCounts s.cnt }

/-- The cause of this start has been recorded (R534). -/
def causeTaken (s : State) : State := { s with crust := { s.crust with cause := 0 } }

/-! ### nPOR, brown-out, power-good, nRESET -/

/-- NPOR (R528): the main domain is held in reset until the next power-good edge. -/
def execNpor (t : Nat) (s : State) : Host.Outcome State Fault Refusal :=
  .next (event t (fun _ => true) resetCommon s)

/-- Rails good ends (R534, R537): the cause is kept in the Crust domain, which goes on on VBAT. When the main domain is
held in reset already, nothing else ends. -/
def railsFail (s : State) : State :=
  let cause := s.crust.cause ||| (1 + bn (!s.power.warnings.isEmpty) * 4)
  let s := if s.power.powerGood then resetCommon { s with crust := { s.crust with cause := cause } } else s
  { s with crust := { s.crust with onVbat := true } }

/-- BROWN_OUT (R537). -/
def execBrownOut (t rail : Nat) (s : State) : Host.Outcome State Fault Refusal :=
  .next (event t (fun _ => decide (rail < 6)) railsFail s)

/-- The Wenok starts after power-good with reference input `input` (R530, R533, R534): record 0xC001 is the only one. -/
def startAt (input : Nat) (goodA goodB role : Bool) (s : State) : State :=
  let owed := s.power.owesC004
  let s : State := { resetCommon s with
    trellis := { strap := role }
    power := {
      booting := true, faultN := true, refAGood := goodA, refBGood := goodB, selected := some input
      refAFault := s.clk.root, refBFault := s.clk.root } }
  let s := causeTaken (recordNew (nowEv 0xC001 s.crust.cause s) s)
  raiseKept (if owed then raise 0xC004 0 0 s else s)

/-- Power-good asserts: an edge of REFCLK_A within 0.2 ms selects it, else REFCLK_B; with no edge on either the Wenok stays
in reset (R533). -/
def powerGoodEdge (a b role : Bool) (s : State) : State :=
  let s := { s with crust := { s.crust with onVbat := false } }
  if a then startAt 0 a b role s
  else if b then startAt 1 a b role s
  else { s with power := { s.power with owesC004 := true, faultN := true } }

/-- POWER_GOOD (R533, R535). -/
def execPowerGood (t : Nat) (a b role : Bool) (s : State) : Host.Outcome State Fault Refusal :=
  .next (event t (fun s => !s.power.powerGood) (powerGoodEdge a b role) s)

/-- nRESET (R529, R541): 0xC002 with the cause, and the records that the Crust wrote on VBAT. -/
def resetEdge (s : State) : State :=
  let s := resetMain s
  raiseKept (causeTaken (raise 0xC002 0 s.crust.cause s))

/-- NRESET (R529). -/
def execNreset (t : Nat) (s : State) : Host.Outcome State Fault Refusal :=
  .next (event t (fun s => s.power.powerGood) resetEdge s)

/-! ### Rail warnings (R536) -/

/-- RAIL_WARNING (R536). -/
def execRailWarning (t rail : Nat) (s : State) : Host.Outcome State Fault Refusal :=
  .next (event t (fun s => s.power.powerGood && decide (rail < 6) && !s.power.warnings.contains rail)
    (fun s => raise 0xC008 rail 0 { s with power := { s.power with warnings := s.power.warnings ++ [rail] } }) s)

/-- RAIL_WARNING_CLEAR (R536). -/
def execRailWarningClear (t rail : Nat) (s : State) : Host.Outcome State Fault Refusal :=
  .next (event t (fun s => s.power.powerGood && s.power.warnings.contains rail)
    (fun s => closeRec 0xC008 rail { s with power := { s.power with
      warnings := s.power.warnings.filter (fun r => r != rail) } }) s)

/-! ### Reference inputs (R21 to R23, R538, R539) -/

/-- Whether a reference input is good. -/
def refGood (s : State) (i : Nat) : Bool := if i = 0 then s.power.refAGood else s.power.refBGood

/-- Marks a reference input good or lost. -/
def setRef (i : Nat) (g : Bool) (s : State) : State :=
  if i = 0 then { s with power := { s.power with refAGood := g } } else { s with power := { s.power with refBGood := g } }

/-- The selection changes to an input; the change is counted (R22, R32). -/
def selectRef (i : Nat) (s : State) : State :=
  raise 0xC003 i 0 { s with power := { s.power with selected := some i, refFaults := s.power.refFaults + 1 } }

/-- Both inputs are lost: holdover, the lane PLLs on the root (R23, R538). -/
def holdover (s : State) : State :=
  raise 0xC004 0 0 { s with power := { s.power with selected := none, lanesOnRoot := true } }

/-- The root cycle of an input's last fault. -/
def refFault (s : State) (i : Nat) : Nat := if i = 0 then s.power.refAFault else s.power.refBFault

/-- Notes a fault of a reference input now: the 100 ms of R21 begin anew. -/
def noteRefFault (i : Nat) (s : State) : State :=
  if i = 0 then { s with power := { s.power with refAFault := s.clk.root } }
  else { s with power := { s.power with refBFault := s.clk.root } }

/-- A reference input has failed a check of R21: a good one is declared lost and, if it is the selected one, the other
is selected, or holdover begins (R22, R23). One that is lost already only starts its 100 ms anew. -/
def refLost (input : Nat) (s : State) : State :=
  let was := refGood s input
  let s := noteRefFault input (setRef input false s)
  if !was ∨ s.power.selected ≠ some input then s
  else if refGood s (1 - input) then selectRef (1 - input) s
  else holdover s

/-- REFERENCE_LOSS (R21 to R23). -/
def execReferenceLoss (t input : Nat) (s : State) : Host.Outcome State Fault Refusal :=
  .next (event t (fun s => s.power.powerGood && decide (input < 2)) (refLost input) s)

/-- REFERENCE_GOOD (R21, R22, R539): an input without a fault for 100 ms is good again. With an input selected the
selection stays: R22 and R43 let a program select another one, but no instruction of 11_instruction_reference.md does so, and the model has none
(DESIGN CHOICE). -/
def execReferenceGood (t input : Nat) (s : State) : Host.Outcome State Fault Refusal :=
  .next (event t (fun s => s.power.powerGood && decide (input < 2) && !refGood s input &&
      waited s (refFault s input) (100 * msec))
    (fun s =>
      let s := setRef input true s
      if s.power.selected = none then selectRef input s else s) s)

/-- PULL_IN_COMPLETE (R539). -/
def execPullInComplete (t : Nat) (s : State) : Host.Outcome State Fault Refusal :=
  .next (event t (fun s => s.power.powerGood && s.power.lanesOnRoot && s.power.selected.isSome)
    (fun s => { s with power := { s.power with lanesOnRoot := false } }) s)

/-! ### Root PLLs (R24, R25, R540) -/

/-- The active root PLL loses lock: changeover to the other one if it is ready, else the VCO. -/
def pllLost (s : State) : State :=
  let p := s.power
  raise 0xC005 0 0
    (if p.spare = .ready then { s with power := { p with
      pll := 1 - p.pll, spare := .relocking s.clk.root, pllFaults := p.pllFaults + 1 } }
     else { s with power := { p with onVco := true } })

/-- ROOT_PLL_LOCK_LOSS (R24, R540). -/
def execRootPllLockLoss (t : Nat) (s : State) : Host.Outcome State Fault Refusal :=
  .next (event t (fun s => s.power.powerGood && !s.power.onVco) pllLost s)

/-- The relock of the other PLL, or its failure after 10 ms; with none relocking there, that of the active one. -/
def pllRelock (locked : Bool) (s : State) : State :=
  match s.power.spare with
  | .relocking since =>
    if locked && decide (s.clk.root ≤ since + 10 * msec) then { s with power := { s.power with spare := .ready } }
    else if !locked && expired s (since + 10 * msec) then raise 0xC006 0 0 { s with power := { s.power with spare := .failed } }
    else s
  | _ => if locked then { s with power := { s.power with onVco := false } } else s

/-- ROOT_PLL_RELOCK (R25, R540). -/
def execRootPllRelock (t : Nat) (locked : Bool) (s : State) : Host.Outcome State Fault Refusal :=
  .next (event t (fun s => s.power.powerGood) (pllRelock locked) s)

end Sys2Proof.Machine
end

