-- ==== Sys2Proof/Machine/Tables.lean ====
section
/-! DEFINITION. The instructions of the Association Table and its associations (04_association_table.md,
06_rekeying_and_packet_numbers.md) and PEER.ADD: each meets the frames of its own CCLK edge after the Wenok has (R126, R204). -/

namespace Sys2Proof.Machine

/-! ### Traffic of the same edge (R126, R204) -/

/-- The checks of a port's received frames that are due by root cycle `e` are made, in order (R175, R213). -/
def settleChecks (e p : Nat) : Nat → State → State
  | 0, s => s
  | n + 1, s =>
    match dueCheck s (getRx s p) e with
    | some f => settleChecks e p n (atRoot (checkDue s f) (checkRx p f) s)
    | none => s

/-- The DRAINING associations of a channel whose retire time has come retire (R205). -/
def settleRetire (c : Nat) (s : State) : State :=
  (List.range 4).foldl (fun s an =>
    let u := getSub (getChan s c) an
    if u.state = .draining ∧ timeReached (edgeTod s) (rollTime u) then retireDraining c an s else s) s

/-- The frames whose assignment, admission or check falls on the CCLK edge of an instruction on channel `c`, or before it, are
handled first, and so is a retire time (R126, R204). -/
def trafficFirst (c : Nat) (s : State) : State :=
  let s := settleLanes (cclkEdge s) s
  settleRetire c ((s.cipher.rx.map (fun p => (p.1, (rxFrames p.2).length))).foldl
    (fun s p => settleChecks (cclkEdge s) p.1 p.2 s) s)

/-- A command on channel B[15:0] whose checks and effect stand behind the traffic of its edge. -/
def afterTraffic (c : Cmd) : Cmd :=
  { c with
    fmt := fun e s => c.fmt e (trafficFirst (opChan e) s)
    own := fun e s => c.own e (trafficFirst (opChan e) s)
    eff := fun e s => c.eff e (trafficFirst (opChan e) s) }

/-! ### The instructions -/

/-- The command CH.SET. -/
def chSetBare : Cmd where
  op := 0x40
  fmt e s := [zeroA e, highB e 16] ++ ptrChecks e.k false 64 e.imm 64 ++
    if ptrOk e.k false 64 e.imm 64 then headerChecks (beNat (readMem s e.imm 64)) else []
  own e s :=
    let v := beNat (readMem s e.imm 64)
    let h := getChan s e.b
    [(hChen v && chanQuarantined s e.b, stPoisoned),
     (hChen v && hChen h.header && !h.cold && identityDiffers v h.header && anySub h (fun x => x != .empty), stBusy),
     (!hChen v && !h.cold && (chanPinned s e.b || anySub h inUse), stBusy)]
  eff e s := chSetEff e.b (beNat (readMem s e.imm 64)) e s

/-- CH.SET behind the traffic of its edge. -/
def chSetCmd : Cmd := afterTraffic chSetBare

/-- CH.SET (R121 to R123, R144). -/
def execChSet (w : IWord) (s : State) : Host.Outcome State Fault Refusal := .next (runCmd chSetCmd w s)

/-- The command CH.PIN. On a pinned channel it does nothing. -/
def chPinBare : Cmd where
  op := 0x45
  fmt e s := [zeroA e, highB e 16, zeroI e, (!present s e.b, stRange)]
  own e s :=
    let h := getChan s e.b
    [(h.cold, stPoisoned), (h.pinning.isSome, stBusy),
     (!h.pinned && decide (512 ≤ pinnedCount s), stNoRoom)]
  eff e s := if (getChan s e.b).pinned then { s := s } else chPinEff e.b e.cseq s

/-- CH.PIN behind the traffic of its edge. -/
def chPinCmd : Cmd := afterTraffic chPinBare

/-- CH.PIN (R105, R141). -/
def execChPin (w : IWord) (s : State) : Host.Outcome State Fault Refusal := .next (runCmd chPinCmd w s)

/-- The command CH.UNPIN. -/
def chUnpinBare : Cmd where
  op := 0x46
  fmt e _ := [zeroA e, highB e 16, zeroI e]
  own e s := [((getChan s e.b).pinning.isSome, stBusy)]
  eff e s :=
    if (getChan s e.b).pinned then
      { s := touchLine e.b (putChan e.b { getChan s e.b with pinned := false } s) }
    else { s := s }

/-- CH.UNPIN behind the traffic of its edge. -/
def chUnpinCmd : Cmd := afterTraffic chUnpinBare

/-- CH.UNPIN (R142). -/
def execChUnpin (w : IWord) (s : State) : Host.Outcome State Fault Refusal := .next (runCmd chUnpinCmd w s)

/-- The command PEER.ADD. -/
def peerAddBare : Cmd where
  op := 0x32
  fmt e s := [zeroA e, zeroB e] ++ ptrChecks e.k false 16 e.imm 16 ++
    if ptrOk e.k false 16 e.imm 16 then peerDescChecks (peerDesc e s) else []
  own _ s := [(s.cls.flush.isSome, stBusy)]
  eff e s :=
    let v := peerDesc e s
    let s := syncFlush s
    let old := peerChannel s (descPort v) (descSci v)
    let s := countOp 0x32 (noteTables s)
    match peerAdd s (descPort v) (descSci v) (nf v 55 40) with
    | some s =>
      match old with
      | some c => { s := if c = nf v 55 40 then s else discardAll c s }
      | none => { s := s }
    | none => { s := raise 0x2002 (descPort v) 0 (bump 5 0 0 48 1 s), st := stNoRoom }

/-- PEER.ADD behind the traffic of its edge. -/
def peerAddCmd : Cmd := afterTraffic peerAddBare

/-- PEER.ADD (R102, R104, R109, R111, R164). -/
def execPeerAdd (w : IWord) (s : State) : Host.Outcome State Fault Refusal := .next (runCmd peerAddCmd w s)

/-- The command CH.READ. -/
def chReadBare : Cmd where
  op := 0x47
  fmt e _ := [zeroA e, highB e 16] ++ ptrChecks e.k true 64 e.imm 512
  own e s := [(present s e.b && !(getChan s e.b).resident && entryQuarantined s e.b, stPoisoned)]
  eff e s := { s := storeMem s e.imm (entryBytes (getChan s e.b)) }

/-- CH.READ behind the traffic of its edge. -/
def chReadCmd : Cmd := afterTraffic chReadBare

/-- CH.READ (R128, R148). -/
def execChRead (w : IWord) (s : State) : Host.Outcome State Fault Refusal := .next (runCmd chReadCmd w s)

/-- The command SYS.RECONCILE: one command for each 256 channels, all answered (R349). -/
def sysReconcileBare : Cmd where
  op := 0xC2
  fmt e _ := reconcileChecks e
  eff e s :=
    let s := { s with seq := { s.seq with cseq := s.seq.cseq + (e.imm - 1) / 256 } }
    { s := (List.range e.imm).foldl (fun s i => reconcileOne (e.b + i) s) s }

/-- SYS.RECONCILE behind the traffic of its edge. -/
def sysReconcileCmd : Cmd := afterTraffic sysReconcileBare

/-- Reads of SYS.RECONCILE that are answered before the lost one: fewer than the pass has. -/
def readsDone (w : IWord) (e : Env) : Nat := min w.reads ((e.imm - 1) / 256)

/-- The pass up to its lost read: the channels of the reads before it are reconciled, w1 takes their number, and the lost
read, under a CSEQ of its own, is waited for (R146, R321, R349). -/
def reconcileUpTo (w : IWord) (k : Nat) (s : State) : State :=
  let e := resolve s k w
  let n := readsDone w e
  let s := (List.range (256 * n)).foldl (fun s i => reconcileOne (e.b + i) s) (trafficFirst (opChan e) s)
  let s := setCtx s k (writeReg (getCtx s k) 1 (BitVec.ofNat 64 (256 * n)))
  match (getCtx s k).run with
  | .waitStatus q _ =>
    setCtx { s with seq := { s.seq with cseq := s.seq.cseq + n } } k
      { getCtx s k with run := .waitStatus (q + n) s.clk.root }
  | _ => s

/-- SYS.RECONCILE with a lost read: the instruction waits for a status that does not come. -/
def reconcileLost (w : IWord) (s : State) : State :=
  let t := runCmd sysReconcileCmd { w with via := .lostBefore } s
  match readyCtx (toBoundary s) with
  | some k => (match (getCtx t k).run with
    | .waitStatus _ _ => reconcileUpTo w k t
    | _ => t)
  | none => t

/-- SYS.RECONCILE (R146, R349). -/
def execSysReconcile (w : IWord) (s : State) : Host.Outcome State Fault Refusal :=
  .next (if w.via = .answered then runCmd sysReconcileCmd w s else reconcileLost w s)

/-- The command SA.LOAD. -/
def saLoadBare : Cmd where
  op := 0x41
  fmt e s := [zeroA e, highB e 18] ++ ptrChecks e.k false 32 e.imm 32 ++
    if ptrOk e.k false 32 e.imm 32 then saLoadFields e s else []
  own := saLoadOwn
  eff e s := onResident (opChan e) e (fun r => { s := saLoadEff (opChan e) (opAn e) (saDesc e s) r }) s

/-- SA.LOAD behind the traffic of its edge. -/
def saLoadCmd : Cmd := afterTraffic (readingSlot (fun e s => some (saSlot e s)) (fun _ s => s) saLoadBare)

/-- SA.LOAD (R193 to R196). -/
def execSaLoad (w : IWord) (s : State) : Host.Outcome State Fault Refusal := .next (runCmd saLoadCmd w s)

/-- The command SA.ARM. -/
def saArmBare : Cmd where
  op := 0x42
  fmt e s := [zeroA e, highB e 18] ++ ptrChecks e.k false 32 e.imm 32 ++
    if ptrOk e.k false 32 e.imm 32 then saArmFields e s else []
  own := saArmOwn
  eff e s := onResident (opChan e) e (fun r => { s := saArmEff (opChan e) (opAn e) (saDesc e s) r }) s

/-- SA.ARM behind the traffic of its edge. -/
def saArmCmd : Cmd := afterTraffic saArmBare

/-- SA.ARM (R201, R202). -/
def execSaArm (w : IWord) (s : State) : Host.Outcome State Fault Refusal := .next (runCmd saArmCmd w s)

/-- The command SA.ROLL. -/
def saRollBare : Cmd where
  op := 0x43
  fmt e s := [zeroA e, highB e 18, zeroI e, (!present s (opChan e) || decide ((opSub e s).state ≠ .loaded), stRange)]
  own := saArmOwn
  eff e s := onResident (opChan e) e (fun s => { s := saRollEff (opChan e) (opAn e) s }) s

/-- SA.ROLL behind the traffic of its edge. -/
def saRollCmd : Cmd := afterTraffic saRollBare

/-- SA.ROLL (R203). -/
def execSaRoll (w : IWord) (s : State) : Host.Outcome State Fault Refusal := .next (runCmd saRollCmd w s)

/-- The command SA.RETIRE. -/
def saRetireBare : Cmd where
  op := 0x44
  fmt e s := [zeroA e, highB e 19, (decide (60000 < e.imm), stRange), (!present s (opChan e), stRange),
    (decide (e.imm ≠ 0) && decide ((opSub e s).state ≠ .draining), stRange)]
  own e s := [((getChan s (opChan e)).cold, stPoisoned)]
  eff e s :=
    if retireIdle (opSub e s).state (nb e.b 18) then { s := s }
    else onResident (opChan e) e (fun s => { s := saRetireEff (opChan e) (opAn e) e.imm (nb e.b 18) s }) s

/-- SA.RETIRE behind the traffic of its edge. -/
def saRetireCmd : Cmd := afterTraffic saRetireBare

/-- SA.RETIRE (R207). -/
def execSaRetire (w : IWord) (s : State) : Host.Outcome State Fault Refusal := .next (runCmd saRetireCmd w s)

end Sys2Proof.Machine
end

