-- ==== Sys2Proof/Machine/Dispatch.lean ====
section
/-! DEFINITION. What each command does: one arm per constructor, each one call of its meaning. -/

namespace Sys2Proof.Machine

def exec (i : Instr) (s : State) : Host.Outcome State Fault Refusal :=
  match i with
  | .nop a0 => Sys2Proof.Machine.execNop a0 s
  | .halt a0 => Sys2Proof.Machine.execHalt a0 s
  | .jmp a0 => Sys2Proof.Machine.execJmp a0 s
  | .brCc a0 => Sys2Proof.Machine.execBrCc a0 s
  | .call a0 => Sys2Proof.Machine.execCall a0 s
  | .ret a0 => Sys2Proof.Machine.execRet a0 s
  | .waitEv a0 => Sys2Proof.Machine.execWaitEv a0 s
  | .waitT a0 => Sys2Proof.Machine.execWaitT a0 s
  | .fence a0 => Sys2Proof.Machine.execFence a0 s
  | .yield a0 => Sys2Proof.Machine.execYield a0 s
  | .movi a0 => Sys2Proof.Machine.execMovi a0 s
  | .mov a0 => Sys2Proof.Machine.execMov a0 s
  | .add a0 => Sys2Proof.Machine.execAdd a0 s
  | .sub a0 => Sys2Proof.Machine.execSub a0 s
  | .andW a0 => Sys2Proof.Machine.execAndW a0 s
  | .orW a0 => Sys2Proof.Machine.execOrW a0 s
  | .xorW a0 => Sys2Proof.Machine.execXorW a0 s
  | .shl a0 => Sys2Proof.Machine.execShl a0 s
  | .shr a0 => Sys2Proof.Machine.execShr a0 s
  | .cmp a0 => Sys2Proof.Machine.execCmp a0 s
  | .ld a0 => Sys2Proof.Machine.execLd a0 s
  | .st a0 => Sys2Proof.Machine.execSt a0 s
  | .laneCfg a0 => Sys2Proof.Machine.execLaneCfg a0 s
  | .laneTest a0 => Sys2Proof.Machine.execLaneTest a0 s
  | .laneCalAdapt a0 => Sys2Proof.Machine.execLaneCalAdapt a0 s
  | .laneCalMargin a0 => Sys2Proof.Machine.execLaneCalMargin a0 s
  | .laneCalFull a0 => Sys2Proof.Machine.execLaneCalFull a0 s
  | .portCfg a0 => Sys2Proof.Machine.execPortCfg a0 s
  | .portState a0 => Sys2Proof.Machine.execPortState a0 s
  | .clsMap a0 => Sys2Proof.Machine.execClsMap a0 s
  | .clsRule a0 => Sys2Proof.Machine.execClsRule a0 s
  | .peerAdd a0 => Sys2Proof.Machine.execPeerAdd a0 s
  | .peerDel a0 => Sys2Proof.Machine.execPeerDel a0 s
  | .peerSearch a0 => Sys2Proof.Machine.execPeerSearch a0 s
  | .peerNext a0 => Sys2Proof.Machine.execPeerNext a0 s
  | .peerFlush a0 => Sys2Proof.Machine.execPeerFlush a0 s
  | .chSet a0 => Sys2Proof.Machine.execChSet a0 s
  | .saLoad a0 => Sys2Proof.Machine.execSaLoad a0 s
  | .saArm a0 => Sys2Proof.Machine.execSaArm a0 s
  | .saRoll a0 => Sys2Proof.Machine.execSaRoll a0 s
  | .saRetire a0 => Sys2Proof.Machine.execSaRetire a0 s
  | .chPin a0 => Sys2Proof.Machine.execChPin a0 s
  | .chUnpin a0 => Sys2Proof.Machine.execChUnpin a0 s
  | .chRead a0 => Sys2Proof.Machine.execChRead a0 s
  | .cntRead a0 => Sys2Proof.Machine.execCntRead a0 s
  | .cntClear a0 => Sys2Proof.Machine.execCntClear a0 s
  | .classMap a0 => Sys2Proof.Machine.execClassMap a0 s
  | .shapeSet a0 => Sys2Proof.Machine.execShapeSet a0 s
  | .policeSet a0 => Sys2Proof.Machine.execPoliceSet a0 s
  | .gateLoad a0 => Sys2Proof.Machine.execGateLoad a0 s
  | .gateSwap a0 => Sys2Proof.Machine.execGateSwap a0 s
  | .gateSwapCancel a0 => Sys2Proof.Machine.execGateSwapCancel a0 s
  | .preemptSet a0 => Sys2Proof.Machine.execPreemptSet a0 s
  | .timeSet a0 => Sys2Proof.Machine.execTimeSet a0 s
  | .timeSetAtPps a0 => Sys2Proof.Machine.execTimeSetAtPps a0 s
  | .timeAdj a0 => Sys2Proof.Machine.execTimeAdj a0 s
  | .timeIncr a0 => Sys2Proof.Machine.execTimeIncr a0 s
  | .trigArm a0 => Sys2Proof.Machine.execTrigArm a0 s
  | .captCfg a0 => Sys2Proof.Machine.execCaptCfg a0 s
  | .probeSend a0 => Sys2Proof.Machine.execProbeSend a0 s
  | .probeResponderWrite a0 => Sys2Proof.Machine.execProbeResponderWrite a0 s
  | .tsPop a0 => Sys2Proof.Machine.execTsPop a0 s
  | .graft a0 => Sys2Proof.Machine.execGraft a0 s
  | .slotErase a0 => Sys2Proof.Machine.execSlotErase a0 s
  | .slotInfo a0 => Sys2Proof.Machine.execSlotInfo a0 s
  | .blkKey a0 => Sys2Proof.Machine.execBlkKey a0 s
  | .blkOp a0 => Sys2Proof.Machine.execBlkOp a0 s
  | .blkCmp a0 => Sys2Proof.Machine.execBlkCmp a0 s
  | .unwrap a0 => Sys2Proof.Machine.execUnwrap a0 s
  | .drbgGet a0 => Sys2Proof.Machine.execDrbgGet a0 s
  | .pkLoad a0 => Sys2Proof.Machine.execPkLoad a0 s
  | .pkOp a0 => Sys2Proof.Machine.execPkOp a0 s
  | .pkShape a0 => Sys2Proof.Machine.execPkShape a0 s
  | .ecPub a0 => Sys2Proof.Machine.execEcPub a0 s
  | .ecdsaSign a0 => Sys2Proof.Machine.execEcdsaSign a0 s
  | .ecdsaVerify a0 => Sys2Proof.Machine.execEcdsaVerify a0 s
  | .ecdhMac a0 => Sys2Proof.Machine.execEcdhMac a0 s
  | .ecMul a0 => Sys2Proof.Machine.execEcMul a0 s
  | .modexp a0 => Sys2Proof.Machine.execModexp a0 s
  | .rsaPkcs1 a0 => Sys2Proof.Machine.execRsaPkcs1 a0 s
  | .rsaPss a0 => Sys2Proof.Machine.execRsaPss a0 s
  | .kemPub a0 => Sys2Proof.Machine.execKemPub a0 s
  | .kemMac a0 => Sys2Proof.Machine.execKemMac a0 s
  | .dsaPub a0 => Sys2Proof.Machine.execDsaPub a0 s
  | .dsaSign a0 => Sys2Proof.Machine.execDsaSign a0 s
  | .dsaVerify a0 => Sys2Proof.Machine.execDsaVerify a0 s
  | .pkRead a0 => Sys2Proof.Machine.execPkRead a0 s
  | .pkAbort a0 => Sys2Proof.Machine.execPkAbort a0 s
  | .mgRegionCreate a0 => Sys2Proof.Machine.execMgRegionCreate a0 s
  | .mgRegionRemove a0 => Sys2Proof.Machine.execMgRegionRemove a0 s
  | .mgRekeyRotate a0 => Sys2Proof.Machine.execMgRekeyRotate a0 s
  | .mgRekeyRebuild a0 => Sys2Proof.Machine.execMgRekeyRebuild a0 s
  | .mgScrubStart a0 => Sys2Proof.Machine.execMgScrubStart a0 s
  | .mgScrubStop a0 => Sys2Proof.Machine.execMgScrubStop a0 s
  | .mgRights a0 => Sys2Proof.Machine.execMgRights a0 s
  | .logWrite a0 => Sys2Proof.Machine.execLogWrite a0 s
  | .logFreeze a0 => Sys2Proof.Machine.execLogFreeze a0 s
  | .logThaw a0 => Sys2Proof.Machine.execLogThaw a0 s
  | .logClear a0 => Sys2Proof.Machine.execLogClear a0 s
  | .trSend a0 => Sys2Proof.Machine.execTrSend a0 s
  | .trRecv a0 => Sys2Proof.Machine.execTrRecv a0 s
  | .trRole a0 => Sys2Proof.Machine.execTrRole a0 s
  | .sysCkpt a0 => Sys2Proof.Machine.execSysCkpt a0 s
  | .sysSwitchGo a0 => Sys2Proof.Machine.execSysSwitchGo a0 s
  | .sysSwitchStage a0 => Sys2Proof.Machine.execSysSwitchStage a0 s
  | .sysSwitchHoldoff a0 => Sys2Proof.Machine.execSysSwitchHoldoff a0 s
  | .sysReconcile a0 => Sys2Proof.Machine.execSysReconcile a0 s
  | .sysVintage a0 => Sys2Proof.Machine.execSysVintage a0 s
  | .evBind a0 => Sys2Proof.Machine.execEvBind a0 s
  | .evUnbind a0 => Sys2Proof.Machine.execEvUnbind a0 s
  | .crustCfg a0 => Sys2Proof.Machine.execCrustCfg a0 s
  | .crustArm a0 => Sys2Proof.Machine.execCrustArm a0 s
  | .crustDisarm a0 => Sys2Proof.Machine.execCrustDisarm a0 s
  | .crustTest a0 => Sys2Proof.Machine.execCrustTest a0 s
  | .crustInject a0 => Sys2Proof.Machine.execCrustInject a0 s
  | .crustClear a0 => Sys2Proof.Machine.execCrustClear a0 s
  | .crustLogclear a0 => Sys2Proof.Machine.execCrustLogclear a0 s
  | .hostFrameReceive a0 a1 a2 a3 => Sys2Proof.Machine.execHostFrameReceive a0 a1 a2 a3 s
  | .lineFrameReceive a0 a1 a2 a3 => Sys2Proof.Machine.execLineFrameReceive a0 a1 a2 a3 s
  | .spillReadComplete a0 a1 => Sys2Proof.Machine.execSpillReadComplete a0 a1 s
  | .spillTimeout a0 a1 => Sys2Proof.Machine.execSpillTimeout a0 a1 s
  | .pendingAgeExpiry a0 a1 a2 => Sys2Proof.Machine.execPendingAgeExpiry a0 a1 a2 s
  | .peerFlushComplete a0 => Sys2Proof.Machine.execPeerFlushComplete a0 s
  | .pauseFrameReceive a0 a1 a2 a3 => Sys2Proof.Machine.execPauseFrameReceive a0 a1 a2 a3 s
  | .pauseTimeExpiry a0 a1 a2 => Sys2Proof.Machine.execPauseTimeExpiry a0 a1 a2 s
  | .pauseLimitRelease a0 a1 a2 => Sys2Proof.Machine.execPauseLimitRelease a0 a1 a2 s
  | .pauseRefresh a0 a1 a2 => Sys2Proof.Machine.execPauseRefresh a0 a1 a2 s
  | .egressSelect a0 a1 => Sys2Proof.Machine.execEgressSelect a0 a1 s
  | .calendarSlotReached a0 a1 a2 => Sys2Proof.Machine.execCalendarSlotReached a0 a1 a2 s
  | .frameTransmit a0 a1 => Sys2Proof.Machine.execFrameTransmit a0 a1 s
  | .icvCheck a0 a1 => Sys2Proof.Machine.execIcvCheck a0 a1 s
  | .probeTimeout a0 a1 => Sys2Proof.Machine.execProbeTimeout a0 a1 s
  | .fillComplete a0 a1 a2 => Sys2Proof.Machine.execFillComplete a0 a1 a2 s
  | .fillTimeout a0 a1 => Sys2Proof.Machine.execFillTimeout a0 a1 s
  | .cacheEvict a0 => Sys2Proof.Machine.execCacheEvict a0 s
  | .writeBackComplete a0 a1 a2 => Sys2Proof.Machine.execWriteBackComplete a0 a1 a2 s
  | .proofRefill a0 a1 a2 => Sys2Proof.Machine.execProofRefill a0 a1 a2 s
  | .sliceFault a0 a1 a2 a3 => Sys2Proof.Machine.execSliceFault a0 a1 a2 a3 s
  | .rotationStep a0 a1 => Sys2Proof.Machine.execRotationStep a0 a1 s
  | .sliceTestComplete a0 a1 a2 => Sys2Proof.Machine.execSliceTestComplete a0 a1 a2 s
  | .retireTimeReached a0 a1 a2 => Sys2Proof.Machine.execRetireTimeReached a0 a1 a2 s
  | .caskScrub a0 a1 a2 a3 => Sys2Proof.Machine.execCaskScrub a0 a1 a2 a3 s
  | .ageCheck a0 => Sys2Proof.Machine.execAgeCheck a0 s
  | .puntDeliver a0 a1 a2 => Sys2Proof.Machine.execPuntDeliver a0 a1 a2 s
  | .puntWaitExpiry a0 a1 => Sys2Proof.Machine.execPuntWaitExpiry a0 a1 s
  | .injectTake a0 a1 a2 a3 => Sys2Proof.Machine.execInjectTake a0 a1 a2 a3 s
  | .gateEntryChange a0 a1 => Sys2Proof.Machine.execGateEntryChange a0 a1 s
  | .gateSwapChange a0 a1 => Sys2Proof.Machine.execGateSwapChange a0 a1 s
  | .temporaryIncrementEnd a0 => Sys2Proof.Machine.execTemporaryIncrementEnd a0 s
  | .secondsWrap a0 => Sys2Proof.Machine.execSecondsWrap a0 s
  | .ppsSetEdge a0 a1 a2 => Sys2Proof.Machine.execPpsSetEdge a0 a1 a2 s
  | .ppsSetTimeout a0 => Sys2Proof.Machine.execPpsSetTimeout a0 s
  | .captureEdge a0 a1 a2 a3 => Sys2Proof.Machine.execCaptureEdge a0 a1 a2 a3 s
  | .triggerPulse a0 a1 => Sys2Proof.Machine.execTriggerPulse a0 a1 s
  | .verifyTimeout a0 a1 => Sys2Proof.Machine.execVerifyTimeout a0 a1 s
  | .verifyRespondReceive a0 a1 => Sys2Proof.Machine.execVerifyRespondReceive a0 a1 s
  | .anResolved a0 a1 a2 => Sys2Proof.Machine.execAnResolved a0 a1 a2 s
  | .trainingComplete a0 a1 => Sys2Proof.Machine.execTrainingComplete a0 a1 s
  | .trainingTimeout a0 a1 => Sys2Proof.Machine.execTrainingTimeout a0 a1 s
  | .alignmentHeld a0 a1 => Sys2Proof.Machine.execAlignmentHeld a0 a1 s
  | .alignmentTimeout a0 a1 => Sys2Proof.Machine.execAlignmentTimeout a0 a1 s
  | .negotiationRestartWait a0 a1 => Sys2Proof.Machine.execNegotiationRestartWait a0 a1 s
  | .linkLoss a0 a1 => Sys2Proof.Machine.execLinkLoss a0 a1 s
  | .synceUnsquelch a0 a1 => Sys2Proof.Machine.execSynceUnsquelch a0 a1 s
  | .eyeMarginCheck a0 a1 a2 a3 => Sys2Proof.Machine.execEyeMarginCheck a0 a1 a2 a3 s
  | .calibrationStart a0 a1 => Sys2Proof.Machine.execCalibrationStart a0 a1 s
  | .calibrationComplete a0 a1 a2 => Sys2Proof.Machine.execCalibrationComplete a0 a1 a2 s
  | .referenceLoss a0 a1 => Sys2Proof.Machine.execReferenceLoss a0 a1 s
  | .referenceGood a0 a1 => Sys2Proof.Machine.execReferenceGood a0 a1 s
  | .rootPllLockLoss a0 => Sys2Proof.Machine.execRootPllLockLoss a0 s
  | .rootPllRelock a0 a1 => Sys2Proof.Machine.execRootPllRelock a0 a1 s
  | .programStart a0 a1 a2 a3 a4 => Sys2Proof.Machine.execProgramStart a0 a1 a2 a3 a4 s
  | .programCopyTimeout a0 a1 => Sys2Proof.Machine.execProgramCopyTimeout a0 a1 s
  | .programTimeLimit a0 a1 => Sys2Proof.Machine.execProgramTimeLimit a0 a1 s
  | .commandTimeout a0 a1 => Sys2Proof.Machine.execCommandTimeout a0 a1 s
  | .commandCompletion a0 a1 => Sys2Proof.Machine.execCommandCompletion a0 a1 s
  | .instructionWatchdog a0 a1 => Sys2Proof.Machine.execInstructionWatchdog a0 a1 s
  | .complexFault a0 a1 => Sys2Proof.Machine.execComplexFault a0 a1 s
  | .standbySelfTest a0 a1 => Sys2Proof.Machine.execStandbySelfTest a0 a1 s
  | .repairSelfTest a0 a1 => Sys2Proof.Machine.execRepairSelfTest a0 a1 s
  | .holdoffExpiry a0 => Sys2Proof.Machine.execHoldoffExpiry a0 s
  | .stageComplete a0 a1 => Sys2Proof.Machine.execStageComplete a0 a1 s
  | .eventRecord a0 => Sys2Proof.Machine.execEventRecord a0 s
  | .handlerStart a0 a1 => Sys2Proof.Machine.execHandlerStart a0 a1 s
  | .graftProcess a0 => Sys2Proof.Machine.execGraftProcess a0 s
  | .remaskPass a0 => Sys2Proof.Machine.execRemaskPass a0 s
  | .drbgReseed a0 => Sys2Proof.Machine.execDrbgReseed a0 s
  | .healthTestFailure a0 => Sys2Proof.Machine.execHealthTestFailure a0 s
  | .drbgReinstantiate a0 a1 => Sys2Proof.Machine.execDrbgReinstantiate a0 a1 s
  | .drbgPostEraseInstantiate a0 a1 => Sys2Proof.Machine.execDrbgPostEraseInstantiate a0 a1 s
  | .pressOpStart a0 => Sys2Proof.Machine.execPressOpStart a0 s
  | .pressOpComplete a0 => Sys2Proof.Machine.execPressOpComplete a0 s
  | .vintageComplete a0 => Sys2Proof.Machine.execVintageComplete a0 s
  | .powerGood a0 a1 a2 a3 => Sys2Proof.Machine.execPowerGood a0 a1 a2 a3 s
  | .bootRom a0 a1 a2 a3 a4 a5 => Sys2Proof.Machine.execBootRom a0 a1 a2 a3 a4 a5 s
  | .recoveryReadComplete a0 a1 => Sys2Proof.Machine.execRecoveryReadComplete a0 a1 s
  | .npor a0 => Sys2Proof.Machine.execNpor a0 s
  | .nreset a0 => Sys2Proof.Machine.execNreset a0 s
  | .railWarning a0 a1 => Sys2Proof.Machine.execRailWarning a0 a1 s
  | .railWarningClear a0 a1 => Sys2Proof.Machine.execRailWarningClear a0 a1 s
  | .brownOut a0 a1 => Sys2Proof.Machine.execBrownOut a0 a1 s
  | .mgTrainingComplete a0 a1 a2 => Sys2Proof.Machine.execMgTrainingComplete a0 a1 a2 s
  | .mgAccess a0 a1 a2 => Sys2Proof.Machine.execMgAccess a0 a1 a2 s
  | .memoryPortCopy a0 a1 => Sys2Proof.Machine.execMemoryPortCopy a0 a1 s
  | .mgRotationComplete a0 a1 => Sys2Proof.Machine.execMgRotationComplete a0 a1 s
  | .mgRebuildComplete a0 a1 => Sys2Proof.Machine.execMgRebuildComplete a0 a1 s
  | .mgScrubComplete a0 a1 => Sys2Proof.Machine.execMgScrubComplete a0 a1 s
  | .patrolScrub a0 a1 a2 => Sys2Proof.Machine.execPatrolScrub a0 a1 a2 s
  | .crustAlarm a0 a1 => Sys2Proof.Machine.execCrustAlarm a0 a1 s
  | .crustInjectTimeout a0 => Sys2Proof.Machine.execCrustInjectTimeout a0 s
  | .crustColdStart a0 => Sys2Proof.Machine.execCrustColdStart a0 s
  | .trellisLinkLock a0 a1 => Sys2Proof.Machine.execTrellisLinkLock a0 a1 s
  | .helloReceive a0 a1 a2 => Sys2Proof.Machine.execHelloReceive a0 a1 a2 s
  | .linkModeHeld a0 a1 a2 => Sys2Proof.Machine.execLinkModeHeld a0 a1 a2 s
  | .keyxReceive a0 a1 a2 => Sys2Proof.Machine.execKeyxReceive a0 a1 a2 s
  | .trellisStepTimeout a0 a1 => Sys2Proof.Machine.execTrellisStepTimeout a0 a1 s
  | .trellisFrameReceive a0 a1 a2 => Sys2Proof.Machine.execTrellisFrameReceive a0 a1 a2 s
  | .serviceReceive a0 => Sys2Proof.Machine.execServiceReceive a0 s
  | .graftFragmentTimeout a0 a1 a2 => Sys2Proof.Machine.execGraftFragmentTimeout a0 a1 a2 s
  | .tsyncReceive a0 a1 a2 => Sys2Proof.Machine.execTsyncReceive a0 a1 a2 s
  | .tsyncSend a0 => Sys2Proof.Machine.execTsyncSend a0 s
  | .delayRequest a0 a1 a2 a3 a4 a5 => Sys2Proof.Machine.execDelayRequest a0 a1 a2 a3 a4 a5 s
  | .topoReceive a0 a1 a2 => Sys2Proof.Machine.execTopoReceive a0 a1 a2 s
  | .keepaliveSend a0 a1 => Sys2Proof.Machine.execKeepaliveSend a0 a1 s
  | .trellisLinkDown a0 a1 => Sys2Proof.Machine.execTrellisLinkDown a0 a1 s
  | .nodeLost a0 a1 => Sys2Proof.Machine.execNodeLost a0 a1 s
  | .linkRekey a0 a1 => Sys2Proof.Machine.execLinkRekey a0 a1 s
  | .eventBatchSend a0 => Sys2Proof.Machine.execEventBatchSend a0 s
  | .pcieFunctionReset a0 => Sys2Proof.Machine.execPcieFunctionReset a0 s
  | .pcieLinkChange a0 a1 => Sys2Proof.Machine.execPcieLinkChange a0 a1 s
  | .qdoorWrite a0 a1 a2 => Sys2Proof.Machine.execQdoorWrite a0 a1 a2 s
  | .queueEnable a0 a1 a2 => Sys2Proof.Machine.execQueueEnable a0 a1 a2 s
  | .queueDisable a0 a1 a2 => Sys2Proof.Machine.execQueueDisable a0 a1 a2 s
  | .ringEnable a0 a1 a2 => Sys2Proof.Machine.execRingEnable a0 a1 a2 s
  | .ringDisable a0 a1 a2 => Sys2Proof.Machine.execRingDisable a0 a1 a2 s
  | .rdoorWrite a0 a1 a2 => Sys2Proof.Machine.execRdoorWrite a0 a1 a2 s
  | .recCtlGo a0 a1 => Sys2Proof.Machine.execRecCtlGo a0 a1 s
  | .intCauseWrite a0 a1 => Sys2Proof.Machine.execIntCauseWrite a0 a1 s
  | .intEnableWrite a0 a1 => Sys2Proof.Machine.execIntEnableWrite a0 a1 s
  | .todLatch a0 a1 => Sys2Proof.Machine.execTodLatch a0 a1 s
  | .cbWindowRead a0 a1 => Sys2Proof.Machine.execCbWindowRead a0 a1 s
  | .crustWindowRead a0 a1 => Sys2Proof.Machine.execCrustWindowRead a0 a1 s
  | .mgwinRead a0 a1 a2 => Sys2Proof.Machine.execMgwinRead a0 a1 a2 s
  | .mgwinWrite a0 a1 a2 a3 => Sys2Proof.Machine.execMgwinWrite a0 a1 a2 a3 s
  | .mgwinStatRead a0 => Sys2Proof.Machine.execMgwinStatRead a0 s
  | .registerWrite a0 a1 a2 a3 a4 => Sys2Proof.Machine.execRegisterWrite a0 a1 a2 a3 a4 s
  | .faultSequenceChange a0 a1 a2 a3 => Sys2Proof.Machine.execFaultSequenceChange a0 a1 a2 a3 s
  | .checkerLock a0 a1 => Sys2Proof.Machine.execCheckerLock a0 a1 s
  | .checkerLossOfLock a0 a1 a2 a3 a4 => Sys2Proof.Machine.execCheckerLossOfLock a0 a1 a2 a3 a4 s
  | .rateInjection a0 a1 => Sys2Proof.Machine.execRateInjection a0 a1 s
  | .waitEvTimeout a0 a1 => Sys2Proof.Machine.execWaitEvTimeout a0 a1 s
  | .waitTExpiry a0 a1 => Sys2Proof.Machine.execWaitTExpiry a0 a1 s
  | .hostTransferTimeout a0 a1 => Sys2Proof.Machine.execHostTransferTimeout a0 a1 s
  | .recoveryReadTimeout a0 => Sys2Proof.Machine.execRecoveryReadTimeout a0 s
  | .reservoirCharged a0 => Sys2Proof.Machine.execReservoirCharged a0 s
  | .helloSend a0 a1 => Sys2Proof.Machine.execHelloSend a0 a1 s
  | .pullInComplete a0 => Sys2Proof.Machine.execPullInComplete a0 s
  | .rollStraddleWindow a0 a1 => Sys2Proof.Machine.execRollStraddleWindow a0 a1 s

end Sys2Proof.Machine
end

