-- ==== Sys2Proof/Machine/Words.lean ====
section
/-! DEFINITION. Instruction words (R334 to R336): the command that a word of 128 bits spells, and the word at a program counter. The
table of commands gives no bits, so no command enters the queue this way. -/

namespace Sys2Proof.Machine

/-- The opcode of a word. -/
def opcodeOf (v : BitVec 128) : Nat := (v.extractLsb' 120 8).toNat

/-- The fields of a word below its opcode (R334). -/
def wordOf (v : BitVec 128) : IWord :=
  { src := v.extractLsb' 118 2, x := v.extractLsb' 116 2, rx := v.extractLsb' 112 4, a := v.extractLsb' 96 16
    b := v.extractLsb' 64 32, imm := v.extractLsb' 0 64 }

/-- The 16 octets of a word, the most significant first (R334). -/
def wordOfBytes (l : Bytes) : BitVec 128 := BitVec.ofNat 128 (beNat (fit 16 l))

/-- Opcodes of the flow group. -/
def flowWord (op : Nat) (w : IWord) : Option Instr :=
  match op with
  | 0x00 => some (.nop w)
  | 0x01 => some (.halt w)
  | 0x02 => some (.jmp w)
  | 0x03 => some (.brCc w)
  | 0x04 => some (.call w)
  | 0x05 => some (.ret w)
  | 0x06 => some (.waitEv w)
  | 0x07 => some (.waitT w)
  | 0x08 => some (.fence w)
  | 0x09 => some (.yield w)
  | _ => none

/-- Opcodes of the data group. -/
def dataWord (op : Nat) (w : IWord) : Option Instr :=
  match op with
  | 0x10 => some (.movi w)
  | 0x11 => some (.mov w)
  | 0x12 => some (.add w)
  | 0x13 => some (.sub w)
  | 0x14 => some (.andW w)
  | 0x15 => some (.orW w)
  | 0x16 => some (.xorW w)
  | 0x17 => some (.shl w)
  | 0x18 => some (.shr w)
  | 0x19 => some (.cmp w)
  | 0x1A => some (.ld w)
  | 0x1B => some (.st w)
  | _ => none

/-- Opcodes of lanes, ports, classification, associations and counters with one form. -/
def frameWord (op : Nat) (w : IWord) : Option Instr :=
  match op with
  | 0x20 => some (.laneCfg w)
  | 0x21 => some (.laneTest w)
  | 0x23 => some (.portCfg w)
  | 0x24 => some (.portState w)
  | 0x30 => some (.clsMap w)
  | 0x31 => some (.clsRule w)
  | 0x32 => some (.peerAdd w)
  | 0x33 => some (.peerDel w)
  | 0x34 => some (.peerSearch w)
  | 0x35 => some (.peerNext w)
  | 0x36 => some (.peerFlush w)
  | 0x40 => some (.chSet w)
  | 0x41 => some (.saLoad w)
  | 0x42 => some (.saArm w)
  | 0x43 => some (.saRoll w)
  | 0x44 => some (.saRetire w)
  | 0x45 => some (.chPin w)
  | 0x46 => some (.chUnpin w)
  | 0x47 => some (.chRead w)
  | 0x48 => some (.cntRead w)
  | 0x49 => some (.cntClear w)
  | _ => none

/-- Opcodes of scheduling and time with one form. -/
def timeWord (op : Nat) (w : IWord) : Option Instr :=
  match op with
  | 0x50 => some (.classMap w)
  | 0x51 => some (.shapeSet w)
  | 0x52 => some (.policeSet w)
  | 0x53 => some (.gateLoad w)
  | 0x55 => some (.preemptSet w)
  | 0x61 => some (.timeAdj w)
  | 0x62 => some (.timeIncr w)
  | 0x63 => some (.trigArm w)
  | 0x64 => some (.captCfg w)
  | 0x66 => some (.tsPop w)
  | _ => none

/-- Opcodes of keys and the Press. -/
def keyWord (op : Nat) (w : IWord) : Option Instr :=
  match op with
  | 0x70 => some (.graft w)
  | 0x71 => some (.slotErase w)
  | 0x72 => some (.slotInfo w)
  | 0x73 => some (.blkKey w)
  | 0x74 => some (.blkOp w)
  | 0x75 => some (.blkCmp w)
  | 0x76 => some (.unwrap w)
  | 0x77 => some (.drbgGet w)
  | 0x80 => some (.pkLoad w)
  | 0x81 => some (.pkOp w)
  | 0x82 => some (.pkRead w)
  | 0x83 => some (.pkAbort w)
  | _ => none

/-- Opcodes of the Memory Guard, the log, the Trellis and the system with one form. -/
def systemWord (op : Nat) (w : IWord) : Option Instr :=
  match op with
  | 0x93 => some (.mgRights w)
  | 0xA0 => some (.logWrite w)
  | 0xA1 => some (.logFreeze w)
  | 0xA2 => some (.logThaw w)
  | 0xA3 => some (.logClear w)
  | 0xB0 => some (.trSend w)
  | 0xB1 => some (.trRecv w)
  | 0xB2 => some (.trRole w)
  | 0xC0 => some (.sysCkpt w)
  | 0xC2 => some (.sysReconcile w)
  | 0xC3 => some (.sysVintage w)
  | 0xC5 => some (.crustCfg w)
  | _ => none

/-- The opcodes whose operands choose between commands, a mode of the word or of the descriptor that it names. A reserved mode of
SYS.SWITCH, PROBE.SEND, LANE.CAL or MG.REKEY goes to the first command, whose checks refuse it; an arming word with a reserved OP
is no command. -/
def formWord (op : Nat) (w : IWord) (e : Env) (s : State) : Option Instr :=
  match op with
  | 0x22 => some (if nf e.imm 63 62 = 1 then .laneCalMargin w else if nf e.imm 63 62 = 2 then .laneCalFull w else .laneCalAdapt w)
  | 0x54 => some (if nb e.imm 0 then .gateSwapCancel w else .gateSwap w)
  | 0x60 => some (if nb (timeDesc e s) 31 then .timeSetAtPps w else .timeSet w)
  | 0x65 => some (if e.b % 4 = 1 then .probeResponderWrite w else .probeSend w)
  | 0x90 => some (if nb (mgDesc e s) 255 then .mgRegionCreate w else .mgRegionRemove w)
  | 0x91 => some (if nf (mgDesc e s) 255 254 = 2 then .mgRekeyRebuild w else .mgRekeyRotate w)
  | 0x92 => some (if nb e.b 0 then .mgScrubStop w else .mgScrubStart w)
  | 0xC1 => some (if e.b % 4 = 1 then .sysSwitchStage w else if e.b % 4 = 2 then .sysSwitchHoldoff w else .sysSwitchGo w)
  | 0xC4 => some (if nb e.b 20 then .evUnbind w else .evBind w)
  | 0xC6 =>
    match nf e.imm 63 60 with
    | 1 => some (.crustArm w)
    | 2 => some (.crustDisarm w)
    | 3 => some (.crustTest w)
    | 4 => some (.crustInject w)
    | 5 => some (.crustClear w)
    | 6 => some (.crustLogclear w)
    | _ => none
  | _ => none

/-- The command that a word spells in the context that runs it; none for an opcode that no table assigns. -/
def readWord (v : BitVec 128) (e : Env) (s : State) : Option Instr :=
  let op := opcodeOf v
  let w := wordOf v
  (((((flowWord op w).orElse fun _ => dataWord op w).orElse fun _ => frameWord op w).orElse fun _ => timeWord op w).orElse
    fun _ => keyWord op w).orElse fun _ => (systemWord op w).orElse fun _ => formWord op w e s

/-- A word that spells no command ends with ST_RESERVED and has no effect (R336). -/
def badWord (v : BitVec 128) (s : State) : State :=
  runLoc { op := opcodeOf v, fmt := fun _ _ _ => [(true, stReserved)], eff := fun _ s => s } (wordOf v) s

/-- The context that runs next executes a word. -/
def runWord (v : BitVec 128) (s : State) : Host.Outcome State Fault Refusal :=
  match readyCtx (toBoundary s) with
  | none => .next s
  | some k =>
    let b := boundary (toBoundary s)
    match readWord v (resolve b k (wordOf v)) b with
    | some i => exec i s
    | none => .next (badWord v s)

/-- The word at a context's program counter. -/
def wordAt (k : Nat) (s : State) : BitVec 128 := wordOfBytes (readMem s (getCtx s k).pc 16)

end Sys2Proof.Machine
end

