-- ==== Sys2Proof/Safety.lean ====
section
/-! DEFINITION. What claims about runs use: a state whose step neither stops nor is refused, the states that runs of the
block reach from a given state as commands are sent to it, and the conditions on state and operands under which an
instruction reaches its own effect. -/

namespace Sys2Proof.Machine

/-- The step answers a next state. -/
def Safe (s : State) : Prop := ∃ t, step s = .next t

/-- One sender puts a command at the end of the queue. -/
def submit (c : Instr) (s : State) : State := { s with pending := s.pending ++ [c] }

/-- The states reached from `s` by sending commands and taking steps. -/
inductive Reach (s : State) : State → Prop where
  | refl : Reach s s
  | submit {t : State} (c : Instr) : Reach s t → Reach s (submit c t)
  | step {t u : State} : Reach s t → Machine.step t = .next u → Reach s u

/-! ### Command instructions -/

/-- The state in which the next instruction begins: what the sequencer owed is done, and its boundary passed (R322). -/
def begun (s : State) : State := boundary (toBoundary s)

/-- The state in which the fields of a command instruction are checked: begun, its cost charged (R341). -/
def issued (s : State) : State := issue 2 (begun s)

/-- The operands of a command of context `k` as its block sees them, with the CSEQ it leaves with (R320, R335). -/
def envAt (w : IWord) (s : State) (k : Nat) : Env :=
  { resolve (issued s) k w with cseq := (takeCseq k (issued s)).1 }

/-- The state in which the block applies the command of context `k`. -/
def atBlock (s : State) (k : Nat) : State := (takeCseq k (issued s)).2

/-- Whether the command instruction `c` with word `w` reaches its effect in context `k`: the context is the one the
sequencer runs (R310), every field check passes (R37, R313), the fabric has a place (R311), the transfer its HOST flag asks
for has brought its octets (R337, R513), the CSEQ is new to the block (R321), the status returns, and the checks of the
command's own chapter pass. -/
def runs (c : Cmd) (w : IWord) (s : State) (k : Nat) : Bool :=
  decide (readyCtx (toBoundary s) = some k) && decide (cmdFieldStatus c w (resolve (issued s) k w) (issued s) = 0) &&
    decide (outstanding (issued s) < 4) && decide (w.via = .answered) &&
    ((!c.host (envAt w s k) && !c.host (resolve (issued s) k w)) ||
      ((issued s).hostIf.linkUp && decide (w.host ≠ .error) && decide (w.host ≠ .late))) &&
    decide (tabGet 0 (issued s).seq.applied (groupOf c.op) < (envAt w s k).cseq) &&
    decide (firstFail (c.own (envAt w s k) (atBlock s k)) = 0) && decide (w.burst = 0)

/-- The state once the block has answered: the command kept (R320), the operation pending where it has answered
ST_PENDING (R309), status, result registers, program counter and commit in its context (R308, R316, R323, R338). -/
def answered (c : Cmd) (w : IWord) (s : State) (k : Nat) (r : Res) : State :=
  returnStatus (envAt w s k) { r with s := keepCmd c.op (envAt w s k) r.st (addPending (envAt w s k) r) }

/-- The state once a command instruction that reaches its effect is done: its block has applied it and answered. -/
def done (c : Cmd) (w : IWord) (s : State) (k : Nat) : State :=
  answered c w s k (c.eff (envAt w s k) (atBlock s k))

/-! ### Instructions inside the sequencer -/

/-- The state of a flow or data instruction of cost `n` QCLK: begun, its cost charged. -/
def local_ (n : Nat) (s : State) : State := issue n (begun s)

/-- Whether context `k` is the one the sequencer runs and its group mask permits group `g` (R310, R313). -/
def mayRun (g : Nat) (s : State) (k : Nat) : Bool :=
  decide (readyCtx (toBoundary s) = some k) && nb (ctxMask (begun s) k) g

/-! ### Legal states -/

/-- The tables of lanes, ports, shapers, gates, meters and counters are in canonical form. -/
def LegalTabs (lanes : Tab Lane) (cals : Tab CalEngine) (synce : Tab SyncE) (ports : Tab Port) (shapers : Tab Shaper)
    (gates : Tab Gates) (meters : Tab Meter) (cnt : Tab Nat) : Prop :=
  tabWf {} lanes = true ∧ tabWf {} cals = true ∧ tabWf {} synce = true ∧ tabWf {} ports = true ∧
    tabWf {} shapers = true ∧ tabWf {} gates = true ∧ tabWf {} meters = true ∧ tabWf 0 cnt = true

/-- Local memory and its images in the checkpoint, contexts and queues are in canonical form, the active complex, if there
is one, is A or B (R305), and so is the one that was active before it. -/
def LegalSeq (q : Seq) : Prop :=
  Memory.wf q.mem = true ∧ Memory.wf q.image.mem = true ∧ tabWf {} q.ctxs = true ∧ tabWf {} q.queues = true ∧
    (∀ x, q.active = some x → x < 2) ∧ (∀ x, q.took.2 = some x → x < 2) ∧
    ∀ r, q.returned = some r → Memory.wf r.image.mem = true

/-- Staging holds at most 1 024 records (R235), at most 64 records are open (R480), and COUNT has not passed 0x7FFF_FFFF
(R483). -/
def LegalBook (b : Book) : Prop := b.staged.length ≤ 1024 ∧ b.opens.length ≤ 64 ∧ b.count < 2 ^ 31

/-- The Crust log keeps at most 8 first records, and 56 circulate (R474). -/
def LegalCrust (c : Crust) : Prop := c.kept ≤ 8 ∧ c.log.length ≤ c.kept + 56

/-- What every step keeps: canonical tables, the bounds of the Cellar Book and of the Crust log, and a network time below
the wrap of SEC (R273). -/
def Legal (s : State) : Prop :=
  LegalTabs s.lanes s.cals s.synce s.ports s.shapers s.gates s.meters s.cnt ∧ LegalSeq s.seq ∧ LegalBook s.book ∧
    LegalCrust s.crust ∧ s.clk.tod < todWrap

end Sys2Proof.Machine
end

