-- ==== Sys2Proof/Certificates/Slice0/Obligations.lean ====
section
/-! DEFINITION. The statements for the provers. A hardware event's statement speaks of the state `a` of its edge: the
clocks at its root cycle, nothing else changed. A command's statement speaks of the state in which its block gets it, and
`answered` adds what the sequencer does with the answer. -/

open Sys2Proof Sys2Proof.Machine

/-- R341, R342, R310: NOP and YIELD go to the next instruction; the jumps move the program counter to their target, and
CALL leaves the address of the next instruction in w15. Nothing else of the state changes. The state is legal, as every
step keeps it.
R316, R319, R343, R344, R309: HALT ends a program with ST_OK and a handler without a status; WAIT.EV waits for an event,
or with SEQ ends at once when its completion event has been raised; WAIT.T waits on QCLK, or with ABS for a network time;
FENCE ends at once when no operation of its context is pending, and else waits.
It rests on choices of the model: log entries 9, 11. -/
def Obligations.SequencerFlow : Prop :=
  (∀ w s k, mayRun 0 s k = true → fieldFail (bareChecks w (resolve (begun s) k w) s) = 0 →
    exec (.nop w) s = .next (finish k none (local_ 1 s))) ∧
  (∀ w s k, mayRun 0 s k = true → fieldFail (bareChecks w (resolve (begun s) k w) s) = 0 →
    exec (.yield w) s = .next (commit (finish k none (local_ 1 s)))) ∧
  (∀ w s k a e tgt, mayRun 0 s k = true → a = local_ 3 s → e = resolve (begun s) k w →
    tgt = targetOf e a →
    fieldFail (wordChecks 1 w ++ [zeroA e, zeroB e] ++ targetChecks k tgt) = 0 →
    exec (.jmp w) s = .next (setCtx a k
      { getCtx a k with pc := tgt, last := pcIndex k (getCtx a k), run := .ready })) ∧
  (∀ w s k a e tgt, mayRun 0 s k = true → a = local_ 3 s → e = resolve (begun s) k w →
    w.a.toNat < 8 → tgt = targetOf e a → fieldFail (wordChecks 1 w ++ [zeroB e] ++ targetChecks k tgt) = 0 →
    branchTaken w.a.toNat (getCtx a k).z (getCtx a k).c (getCtx a k).e = some true →
    exec (.brCc w) s = .next (setCtx a k
      { getCtx a k with pc := tgt, last := pcIndex k (getCtx a k), run := .ready })) ∧
  (∀ w s k a e, mayRun 0 s k = true → a = local_ 1 s → e = resolve (begun s) k w →
    w.a.toNat < 8 → fieldFail (wordChecks 1 w ++ [zeroB e] ++ targetChecks k (targetOf e a)) = 0 →
    branchTaken w.a.toNat (getCtx a k).z (getCtx a k).c (getCtx a k).e = some false →
    exec (.brCc w) s = .next (finish k none a)) ∧
  (∀ w s k a e tgt, Legal s → mayRun 0 s k = true → a = local_ 3 s → e = resolve (begun s) k w →
    tgt = targetOf e a →
    fieldFail (wordChecks 1 w ++ [zeroA e, zeroB e] ++ targetChecks k tgt) = 0 →
    exec (.call w) s = .next (setCtx a k
      { writeReg (getCtx a k) 15 (BitVec.ofNat 64 ((getCtx a k).pc + 16)) with
        pc := tgt, last := pcIndex k (getCtx a k), run := .ready })) ∧
  (∀ w s k a tgt, mayRun 0 s k = true → a = local_ 3 s → tgt = (readReg (getCtx a k) 15).toNat →
    fieldFail (bareChecks w (resolve (begun s) k w) a ++ targetChecks k tgt) = 0 →
    exec (.ret w) s = .next (setCtx a k
      { getCtx a k with pc := tgt, last := pcIndex k (getCtx a k), run := .ready })) ∧
  (∀ w s k a, mayRun 0 s k = true → a = local_ 1 s → fieldFail (bareChecks w (resolve (begun s) k w) s) = 0 →
    exec (.halt w) s = .next (endContext k stOk
      (setCtx a k { getCtx a k with last := pcIndex k (getCtx a k) }))) ∧
  (∀ w s k a e, mayRun 0 s k = true → a = local_ 2 s → e = resolve (begun s) k w → fieldFail (wordChecks 1 w) = 0 →
    e.x = 0 → e.b < 2 ^ 16 → e.imm < 2 ^ 32 →
    exec (.waitEv w) s = .next (commit (wait k (.waitEv e.a e.b
      (if e.imm = 0 then none else some (a.clk.root + e.imm * 10000))) a))) ∧
  (∀ w s k a e q, mayRun 0 s k = true → a = local_ 2 s → e = resolve (begun s) k w → fieldFail (wordChecks 1 w) = 0 →
    e.x = 1 → e.a = 0 → e.b = 0 → e.imm < 2 ^ 32 → (getCtx a k).lastPending = some q →
    exec (.waitEv w) s = .next (match (getCtx a k).doneEv with
      | some ev => commit (finish k (some stOk) (setCtx a k (writeRegs (getCtx a k) (recRegs (recBytes ev 0)))))
      | none => commit (wait k (.waitSeq q
          (if e.imm = 0 then none else some (a.clk.root + e.imm * 10000))) a))) ∧
  (∀ w s k a e, mayRun 0 s k = true → a = local_ 2 s → e = resolve (begun s) k w → fieldFail (wordChecks 1 w) = 0 →
    e.x = 1 → e.a = 0 → e.b = 0 → e.imm < 2 ^ 32 → (getCtx a k).lastPending = none →
    exec (.waitEv w) s = .next (commit (finish k (some stOk) (setCtx a k (writeRegs (getCtx a k) (recRegs [])))))) ∧
  (∀ w s k a e, mayRun 0 s k = true → a = local_ 2 s → e = resolve (begun s) k w → fieldFail (wordChecks 1 w) = 0 →
    e.x = 0 → e.a = 0 → e.b = 0 → 0 < e.imm → e.imm < 2 ^ 32 →
    exec (.waitT w) s = .next (commit (wait k (.waitQ (a.clk.root + (e.imm * 10 + 7) / 8 * 8)) a))) ∧
  (∀ w s k a e tm, mayRun 0 s k = true → a = local_ 2 s → e = resolve (begun s) k w → fieldFail (wordChecks 1 w) = 0 →
    e.x = 1 → e.a = 0 → e.b = 0 → ptrOk k false 16 e.imm 12 = true → tm = beNat (readMem a e.imm 12) →
    fieldFail (todFormChecks tm) = 0 →
    exec (.waitT w) s = .next (if todOfForm tm ≤ a.clk.tod then commit (finish k (some stOk) a)
      else commit (wait k (.waitAbs (todOfForm tm)) a))) ∧
  (∀ w s k a, mayRun 0 s k = true → a = local_ 2 s → fieldFail (bareChecks w (resolve (begun s) k w) s) = 0 →
    exec (.fence w) s = .next (if a.seq.pendOps.all (fun p => p.ctx != k) then commit (finish k (some stOk) a)
      else commit (wait k .fence a)))

/-- R345: MOVI, MOV, ADD, SUB, AND, OR, XOR write rd (a write to w0 is discarded) and set Z and C as the table of data
instructions says; nothing else changes but the clock and the program counter.
R345: SHL and SHR shift by op2[5:0], C the last bit shifted out and 0 for a shift of 0; CMP sets the flags of SUB and
writes nothing; LD zero-extends 8, 4, 2 or 1 octets of local memory into rd; ST writes the low octets of rt there.
It rests on choices of the model: log entries 6, 9, 11. -/
def Obligations.DataInstructions : Prop :=
  (∀ w s k a e, mayRun 1 s k = true → a = local_ 1 s → e = resolve (begun s) k w → fieldFail (dataChecks w e) = 0 →
    w.x = 0 → opRs e = 0 → opRt e = 0 →
    exec (.movi w) s = .next (finish k none (setCtx a k (writeReg (getCtx a k) (opRd e) w.imm)))) ∧
  (∀ w s k a e, mayRun 1 s k = true → a = local_ 1 s → e = resolve (begun s) k w → fieldFail (dataChecks w e) = 0 →
    w.x = 0 → opRt e = 0 → w.imm = 0 →
    exec (.mov w) s = .next (finish k none
      (setCtx a k (writeReg (getCtx a k) (opRd e) (readReg (getCtx a k) (opRs e)))))) ∧
  (∀ w s k a e, mayRun 1 s k = true → a = local_ 1 s → e = resolve (begun s) k w → fieldFail (dataChecks w e) = 0 →
    w.x = 1 → opRs e = 0 → opRt e = 0 → w.imm = 0 →
    exec (.mov w) s = .next (finish k none
      (setCtx a k (writeReg (getCtx a k) (opRd e) (BitVec.ofNat 64 (getCtx a k).sr))))) ∧
  (∀ w s k a e x y, mayRun 1 s k = true → a = local_ 1 s → e = resolve (begun s) k w →
    fieldFail (op2Checks w e s) = 0 → x = readReg (getCtx a k) (opRs e) →
    y = (if w.x = 1 then w.imm else readReg (getCtx a k) (opRt e)) →
    exec (.add w) s = .next (finish k none (setCtx a k
      { writeReg (getCtx a k) (opRd e) (x + y) with
        z := decide (x + y = 0), c := decide (2 ^ 64 ≤ x.toNat + y.toNat) })) ∧
    exec (.sub w) s = .next (finish k none (setCtx a k
      { writeReg (getCtx a k) (opRd e) (x - y) with
        z := decide (x = y), c := decide (x.toNat < y.toNat) })) ∧
    exec (.andW w) s = .next (finish k none (setCtx a k
      { writeReg (getCtx a k) (opRd e) (x &&& y) with z := decide (x &&& y = 0), c := false })) ∧
    exec (.orW w) s = .next (finish k none (setCtx a k
      { writeReg (getCtx a k) (opRd e) (x ||| y) with z := decide (x ||| y = 0), c := false })) ∧
    exec (.xorW w) s = .next (finish k none (setCtx a k
      { writeReg (getCtx a k) (opRd e) (x ^^^ y) with z := decide (x = y), c := false }))) ∧
  (∀ w s k a e x n, mayRun 1 s k = true → a = local_ 1 s → e = resolve (begun s) k w →
    fieldFail (op2Checks w e s) = 0 → x = readReg (getCtx a k) (opRs e) →
    n = (if w.x = 1 then w.imm else readReg (getCtx a k) (opRt e)).toNat % 64 →
    exec (.shl w) s = .next (finish k none (setCtx a k
      { writeReg (getCtx a k) (opRd e) (x <<< n) with
        z := decide (x <<< n = 0), c := if n = 0 then false else x.getLsbD (64 - n) })) ∧
    exec (.shr w) s = .next (finish k none (setCtx a k
      { writeReg (getCtx a k) (opRd e) (x >>> n) with
        z := decide (x >>> n = 0), c := if n = 0 then false else x.getLsbD (n - 1) }))) ∧
  (∀ w s k a e x y, mayRun 1 s k = true → a = local_ 1 s → e = resolve (begun s) k w →
    fieldFail (op2Checks w e s) = 0 → opRd e = 0 → x = readReg (getCtx a k) (opRs e) →
    y = (if w.x = 1 then w.imm else readReg (getCtx a k) (opRt e)) →
    exec (.cmp w) s = .next (finish k none (setCtx a k
      { getCtx a k with z := decide (x = y), c := decide (x.toNat < y.toNat) }))) ∧
  (∀ w s k a e n ad, mayRun 1 s k = true → a = local_ 2 s → e = resolve (begun s) k w → fieldFail (dataChecks w e) = 0 →
    opRt e = 0 → n = 2 ^ (3 - w.x.toNat) → ad = ((readReg (getCtx a k) (opRs e)).toNat + w.imm.toNat) % 2 ^ 64 →
    ad % n = 0 → areaOk k false ad n = true →
    exec (.ld w) s = .next (finish k none
      (setCtx a k (writeReg (getCtx a k) (opRd e) (BitVec.ofNat 64 (beNat (readMem a ad n))))))) ∧
  (∀ w s k a e n ad, mayRun 1 s k = true → a = local_ 2 s → e = resolve (begun s) k w → fieldFail (dataChecks w e) = 0 →
    opRd e = 0 → n = 2 ^ (3 - w.x.toNat) → ad = ((readReg (getCtx a k) (opRs e)).toNat + w.imm.toNat) % 2 ^ 64 →
    ad % n = 0 → areaOk k true ad n = true →
    exec (.st w) s = .next (finish k none
      (storeMem a ad (beBytes n (readReg (getCtx a k) (opRt e)).toNat))))

/-- R66 to R76: LANE.CFG stores the lane setting, with the taps on an UP port starting from where they are, and the recovered
clock outputs follow its two source bits; LANE.TEST stores the test setting, counts the bits injected at once, and takes a
lane's port to TEST or, when the lane leaves its test, back to its bring-up. A checker that comes to lock, one that loses it
and the injector's rate act on the lane's own counters;
where a lane sends its generator's bits and does not see them itself, an injection inverts what goes out.
R72, R77 to R79: the modes of LANE.CAL and the calibration engine of a group, a recovered clock output that opens
again, and the margin events. ADAPT changes nothing a program can read; MARGIN returns two measured values, which the model
leaves free; FULL waits its turn in the group and answers ST_PENDING.
It rests on choices of the model: log entries 2, 29, 30, 50. -/
def Obligations.Lanes : Prop :=
  (∀ w s k e a, runs laneCfgCmd w s k = true → e = envAt w s k → a = atBlock s k →
    exec (.laneCfg w) s = .next (answered laneCfgCmd w s k
      { s := synceFollow 1 34 e.a e.imm (synceFollow 0 35 e.a e.imm (setLane a e.a { getLane a e.a with
          setting := e.imm, tapsFrom := if laneUp a e.a then tapsNow a e.a else [], tapsAt := a.clk.root })) })) ∧
  (∀ w s k e a b, runs laneTestCmd w s k = true → e = envAt w s k → a = atBlock s k →
    b = (if nb e.imm 33 then clearLaneCounters e.a a else a) → testsLane e.imm = true →
    exec (.laneTest w) s = .next (answered laneTestCmd w s k
      { s := laneEnters e.a (injectNow e.a e.imm (setLane b e.a { getLane b e.a with
          test := e.imm, testing := true, check := {}, gen := [], inject := 0, injFrom := b.clk.root, injDone := 0 })) })) ∧
  (∀ w s k e a b, runs laneTestCmd w s k = true → e = envAt w s k → a = atBlock s k →
    b = (if nb e.imm 33 then clearLaneCounters e.a a else a) → testsLane e.imm = false → nf e.imm 50 48 = 0 →
    (getLane a e.a).testing = true →
    exec (.laneTest w) s = .next (answered laneTestCmd w s k
      { s := laneLeaves e.a (setLane b e.a { getLane b e.a with
          test := e.imm, testing := false, check := {}, gen := [], inject := 0, injFrom := b.clk.root, injDone := 0 }) })) ∧
  (∀ t x s a b, a = comeTo t s → nf (getLane a x.lane).test 56 53 ≠ 0 → b = bitsSeen a x.lane x.received →
    (laneChecks a x.lane b).1.lock = true →
    exec (.checkerLock t x) s = .next (checkerTakes x.lane b (generatorOn x.lane x.received a))) ∧
  (∀ t l before window behind s a b, a = comeTo t s → nf (getLane a l).test 56 53 ≠ 0 →
    b = bitsSeen a l (before ++ window ++ behind) → (laneChecks a l b).2.losses ≠ 0 →
    exec (.checkerLossOfLock t l before window behind) s =
      .next (checkerTakes l b (generatorOn l (before ++ window ++ behind) a))) ∧
  (∀ t l s a, a = comeTo t s → nf (getLane a l).test 50 48 = 3 → injectionDue a l = true →
    exec (.rateInjection t l) s = .next (invertBits l 1
      (setLane a l { getLane a l with injDone := (getLane a l).injDone + 1 }))) ∧
  (∀ l n s, laneSends s l = .own → laneSees s l ≠ .own →
    invertBits l n s = bump 0 l 4 48 n (emit (.inverted l n) s)) ∧
  (∀ w s k, runs laneCalAdaptCmd w s k = true →
    exec (.laneCalAdapt w) s = .next (answered laneCalAdaptCmd w s k { s := atBlock s k })) ∧
  (∀ w s k a, runs laneCalMarginCmd w s k = true → a = atBlock s k →
    exec (.laneCalMargin w) s = .next (answered laneCalMarginCmd w s k
      { s := { a with drawn := a.drawn + 2 }
        regs := [(1, BitVec.ofNat 64 (Config.measured a.drawn % 2 ^ 32 * 2 ^ 32 +
          Config.measured (a.drawn + 1) % 2 ^ 32))] })) ∧
  (∀ w s k e a g, runs laneCalFullCmd w s k = true → e = envAt w s k → a = atBlock s k → g = e.a / 8 →
    exec (.laneCalFull w) s = .next (answered laneCalFullCmd w s k
      { s := laneEnters e.a (setLane
          { a with cals := tabSet {} a.cals g { getCal a g with waiting := (getCal a g).waiting ++ [(e.a, e.cseq)] } }
          e.a { getLane a e.a with calibrating := true })
        st := stPending, event := some 0x1008 })) ∧
  (∀ t g s a x l, a = comeTo t s → (getCal a g).running = none → (getCal a g).waiting = x :: l →
    exec (.calibrationStart t g) s = .next
      (setCal a g { waiting := l, running := some x, since := a.clk.root })) ∧
  (∀ t g m s a l q, a = comeTo t s → (getCal a g).running = some (l, q) →
    exec (.calibrationComplete t g m) s = .next (laneLeaves l (complete 0x1008 q stOk 0 0
      (setLane (setCal a g { getCal a g with running := none }) l
        { getLane a l with calibrating := (getCal a g).waiting.any (fun p => p.1 == l), recorded := m })))) ∧
  (∀ t x s a y l, a = comeTo t s → y = tabGet {} a.synce x.output → y.source = some l → y.squelched = true →
    heldSince (getLane a l) x.since + 100000000 ≤ a.clk.root →
    exec (.synceUnsquelch t x) s = .next (setLane { a with synce := tabSet {} a.synce x.output { y with squelched := false } } l
      { getLane a l with cdrLock := true, lockSince := heldSince (getLane a l) x.since })) ∧
  (∀ t l before after s a, a = comeTo t s → before * 100 < 60 * (getLane a l).recorded →
    exec (.eyeMarginCheck t l before after) s = .next
      (if after * 100 < 40 * (getLane a l).recorded then raise 0x1007 l 0 (raise 0x1006 l 0 a)
       else raise 0x1006 l 0 a))

/-- R48 to R51: PORT.CFG stores the setting; with EN = 1 it first disables the enabled ports it overlaps and the port starts
its bring-up in the state of R51, with EN = 0 it is DISABLED. PORT.STATE returns setting and state and changes nothing.
It rests on choices of the model: log entry 26. -/
def Obligations.PortSettings : Prop :=
  (∀ w s k e a b, runs portCfgCmd w s k = true → e = envAt w s k → nb e.imm 63 = true → a = atBlock s k →
    b = portTo e.a .disabled (disableOverlaps e.a e.imm a) →
    exec (.portCfg w) s = .next (answered portCfgCmd w s k
      { s := startBringUp e.a (setPort b e.a { getPort b e.a with
          setting := e.imm, speedNow := 0, preempt := if nb e.imm 11 then (getPort b e.a).preempt else .off }) })) ∧
  (∀ w s k e a b, runs portCfgCmd w s k = true → e = envAt w s k → nb e.imm 63 = false → a = atBlock s k →
    b = portTo e.a .disabled a →
    exec (.portCfg w) s = .next (answered portCfgCmd w s k
      { s := setPort b e.a { getPort b e.a with setting := e.imm, speedNow := 0 } })) ∧
  (∀ w s k e a, runs portStateCmd w s k = true → e = envAt w s k → a = atBlock s k →
    exec (.portState w) s = .next (answered portStateCmd w s k
      { s := a, regs := [(1, BitVec.ofNat 64 (getPort a e.a).setting),
          (2, BitVec.ofNat 64 (bn (getPort a e.a).rfault * 2 ^ 17 + bn (getPort a e.a).lfault * 2 ^ 16 +
            portFec a e.a * 2 ^ 12 + (getPort a e.a).speedNow * 2 ^ 8 + preemptCode (getPort a e.a).preempt * 2 ^ 4 +
            portStateCode (getPort a e.a).state))] }))

/-- R51 to R53: the bring-up of a port. Negotiation resolves to the highest speed both ends advertise; training leads to
ALIGNING; 10 ms of alignment lead to UP, with 0x1001 at every change of state; a timer that expires restarts the bring-up.
It rests on choices of the model: log entries 2, 27, 112. -/
def Obligations.PortBringUp : Prop :=
  (∀ t p x s a n, a = comeTo t s → (getPort a p).state = .negotiating → (getPort a p).waitUntil = none →
    n = topAbility 8 ((getPort a p).advert &&& x.ability) → n ≠ 0 →
    exec (.anResolved t p x) s = .next (portTo p (if nb (getPort a p).setting 51 then .training else .aligning)
      (setPort a p { getPort a p with speedNow := n, partnerFec := x.rsFec }))) ∧
  (∀ t p s a, a = comeTo t s → (getPort a p).state = .training →
    exec (.trainingComplete t p) s = .next (portTo p .aligning (recordMargins p a))) ∧
  (∀ t p s a, a = comeTo t s → (getPort a p).state = .training →
    (getPort a p).since + (if portRate a p ≤ 2 then 5000000000 else 30000000000) < a.clk.root →
    exec (.trainingTimeout t p) s = .next
      (restartBringUp p (if nb (getPort a p).setting 52 then withdrawMode p a else a))) ∧
  (∀ t p s a b, a = comeTo t s → (getPort a p).state = .aligning → (getPort a p).since + 100000000 ≤ a.clk.root →
    b = portTo p .up (locksHeld p a) →
    exec (.alignmentHeld t p) s = .next (sendVerify p (setPort b p { getPort b p with
      advert := nf (getPort b p).setting 50 43, preempt := preemptAtUp (getPort b p).setting
      attempts := 1, verifyAt := b.clk.root }))) ∧
  (∀ t p s a, a = comeTo t s → (getPort a p).state = .aligning → (getPort a p).since + 1000000000 < a.clk.root →
    exec (.alignmentTimeout t p) s = .next (restartBringUp p a)) ∧
  (∀ t p s a u, a = comeTo t s → (getPort a p).state = .negotiating → (getPort a p).waitUntil = some u →
    u ≤ a.clk.root →
    exec (.negotiationRestartWait t p) s = .next (setPort a p { getPort a p with
      waitUntil := none, advert := nf (getPort a p).setting 50 43, since := a.clk.root }))

/-- R51, R54, R62, R63, R72: a lane that loses its signal squelches the outputs it feeds and takes its port out of UP; local
and remote fault follow what is received; verification gives up after three attempts or succeeds.
R55, R57 to R60: a pause frame that passes the MAC's checks is consumed and counted and acts on the classes that the port
honours; one that fails is counted under its fault; a pause ends at its time, and at the limit with 0x1003.
It rests on choices of the model: log entries 2, 28, 112. -/
def Obligations.PortsAndPause : Prop :=
  (∀ t x s a b, a = comeTo t s → x.lane < 68 → (x.cause = .signal ∨ x.cause = .cdrLock) →
    b = squelchOutputs x.lane (setLane a x.lane { getLane a x.lane with cdrLock := false, lockSince := a.clk.root }) →
    exec (.linkLoss t x) s = .next (match portOfLane b x.lane with
      | some p => if (getPort b p).state = .up then restartBringUp p b else b
      | none => b)) ∧
  (∀ t x s a, a = comeTo t s → x.lane < 68 → x.cause ≠ .signal → x.cause ≠ .cdrLock →
    exec (.linkLoss t x) s = .next (match portOfLane a x.lane with
      | some p => if (getPort a p).state = .up then restartBringUp p a else a
      | none => a)) ∧
  (∀ t p lf rf s a, a = comeTo t s → (getPort a p).state = .up →
    exec (.faultSequenceChange t p lf rf) s = .next (setPort a p { getPort a p with lfault := lf, rfault := rf })) ∧
  (∀ t p s a, a = comeTo t s → (getPort a p).state = .up → (getPort a p).preempt = .verifying →
    (getPort a p).verifyAt + (nf (getPort a p).setting 7 1 + 1) * 10000000 < a.clk.root →
    exec (.verifyTimeout t p) s = .next
      (if (getPort a p).attempts < 3 then
        sendVerify p (setPort a p { getPort a p with attempts := (getPort a p).attempts + 1, verifyAt := a.clk.root })
      else raise 0x1004 p 0 (bump 1 p 37 16 1 (setPort a p { getPort a p with preempt := .failed })))) ∧
  (∀ t p s a, a = comeTo t s → (getPort a p).state = .up → (getPort a p).preempt = .verifying →
    exec (.verifyRespondReceive t p) s = .next (setPort a p { getPort a p with preempt := .verified })) ∧
  (∀ t p l x s a b n, a = settleControl p (comeTo t s) → p < 64 → etherType l = 0x8808 → b = countSeen p x.mark x.seen a →
    receives b p = true → macFault b p l x.mark = some n →
    exec (.pauseFrameReceive t p l x) s = .next (if n = 36 then b else bump 1 p n 48 1 b)) ∧
  (∀ t p l x s a b, a = settleControl p (comeTo t s) → p < 64 → etherType l = 0x8808 → b = countSeen p x.mark x.seen a →
    receives b p = true → macFault b p l x.mark = none → mf l 14 2 = 0x0001 → 18 ≤ l.length →
    exec (.pauseFrameReceive t p l x) s = .next (pauseAll p (mf l 16 2) b.clk.root (bump 1 p 46 48 1 b))) ∧
  (∀ t p l x s a b, a = settleControl p (comeTo t s) → p < 64 → etherType l = 0x8808 → b = countSeen p x.mark x.seen a →
    receives b p = true → macFault b p l x.mark = none → mf l 14 2 = 0x0101 → 18 ≤ l.length →
    exec (.pauseFrameReceive t p l x) s = .next (pausePfc p (mf l 16 2) (l.drop 18) b.clk.root (bump 1 p 46 48 1 b))) ∧
  (∀ t p c s a u, a = settleControl p (comeTo t s) → (getPause a p c).until_ = some u → u < a.clk.root →
    exec (.pauseTimeExpiry t p c) s = .next (setPause a p c { getPause a p c with until_ := none })) ∧
  (∀ t p c s a u, a = settleControl p (comeTo t s) → (getPause a p c).until_ = some u → a.clk.root < u → c < 6 →
    (getPause a p c).since + nf (getPort a p).setting 20 13 * 100000 ≤ a.clk.root →
    exec (.pauseLimitRelease t p c) s = .next (raiseEv { code := 0x1003, obj := p, aux := c }
      (bump 1 p (25 + c) 32 1 (setPause a p c { getPause a p c with until_ := none, ignoring := true }))))

/-- R87, R91, R110: CLS.MAP writes one map entry or port record and CLS.RULE one rule, which decide every frame
classified later; no other entry changes, and a lookup at the CCLK edge of a write sees the tables as they were.
R130, R346, R10: CNT.READ writes the block, eight octets a counter, as it stands before its edge, and with its CLEAR bit
clears it at the same edge; a read of a channel folds its deltas first; CNT.CLEAR clears the block.
It rests on choices of the model: log entries 90, 121, 123. -/
def Obligations.ClassifierAndCounters : Prop :=
  (∀ w s k e a, runs clsMapCmd w s k = true → e = envAt w s k → a = atBlock s k →
    exec (.clsMap w) s = .next (answered clsMapCmd w s k
      { s := { noteTables a with cls := { (noteTables a).cls with
          map := tabSet 0 (noteTables a).cls.map (e.a * 4096 + e.b) e.imm } } })) ∧
  (∀ w s k e a, runs clsRuleCmd w s k = true → e = envAt w s k → a = atBlock s k →
    exec (.clsRule w) s = .next (answered clsRuleCmd w s k
      { s := { noteTables a with cls := { (noteTables a).cls with
          rules := tabSet 0 a.cls.rules e.a (beNat (readMem a e.imm 32)) } } })) ∧
  (∀ a b, a.cls.before = some b → b.edge = cclkEdge a →
    lookupView a = { a with cls := { a.cls with map := b.map, rules := b.rules, peers := b.peers } }) ∧
  (∀ w s k e a b, runs cntReadCmd w s k = true → e = envAt w s k → a = settleBefore (atBlock s k) → w.x = 0 →
    b = (if e.a = 7 then foldDeltas e.b a else a) →
    exec (.cntRead w) s = .next (answered cntReadCmd w s k { s := storeMem b e.imm (cntBlock b e.a e.b) })) ∧
  (∀ w s k e a b, runs cntReadCmd w s k = true → e = envAt w s k → a = settleBefore (atBlock s k) → w.x = 1 →
    b = (if e.a = 7 then foldDeltas e.b a else a) →
    exec (.cntRead w) s = .next (answered cntReadCmd w s k
      { s := clearBlock e.a e.b (storeMem b e.imm (cntBlock b e.a e.b)) })) ∧
  (∀ w s k e a, runs cntClearCmd w s k = true → e = envAt w s k → a = settleBefore (atBlock s k) →
    exec (.cntClear w) s = .next (answered cntClearCmd w s k { s := clearBlock e.a e.b a }))

/-- R104, R111: PEER.ADD on a key that stands in way `i` binds it there to its channel, and on a new key takes the lowest
free on-die way; with no room it answers ST_NO_ROOM, counted, with 0x2002; PEER.DEL frees the way of its key; PEER.SEARCH writes
the entry, or a FREE one with its set. Before PEER.ADD the traffic of its edge is handled (R126).
R112, R113, R107: PEER.NEXT writes the entry that follows in the order of set, port and SCI; PEER.FLUSH starts a sweep
and answers ST_PENDING; the sweep ends after 4 096 sets of 4 CCLK with 0x2006; a PENDING entry whose AGE ends is freed,
counted, and raises 0x2003.
It rests on choices of the model: log entries 2, 32, 113. -/
def Obligations.PeerTable : Prop :=
  (∀ w s k e a v p c ch set i, runs peerAddCmd w s k = true → e = envAt w s k → a = trafficFirst (opChan e) (atBlock s k) → a.cls.flush = none →
    v = beNat (readMem a e.imm 16) → p = nf v 63 59 → c = nf v 127 64 → ch = nf v 55 40 → set = peerSet a p c →
    findWay a 16 set p c = some i → chanPinned a ch = false → (∀ x, peerChannel a p c = some x → x = ch) →
    exec (.peerAdd w) s = .next (answered peerAddCmd w s k
      { s := setPeer set i { sci := c, port := p, bound := true, channel := ch, expires := 0 }
             (countOp 0x32 (noteTables a)) })) ∧
  (∀ w s k e a v p c ch set i, runs peerAddCmd w s k = true → e = envAt w s k → a = trafficFirst (opChan e) (atBlock s k) → a.cls.flush = none →
    v = beNat (readMem a e.imm 16) → p = nf v 63 59 → c = nf v 127 64 → ch = nf v 55 40 → set = peerSet a p c →
    findWay a 16 set p c = none → freeWay a set 0 4 = some i →
    exec (.peerAdd w) s = .next (answered peerAddCmd w s k
      { s := setPeer set i { sci := c, port := p, bound := true, channel := ch, expires := 0 }
             (countOp 0x32 (noteTables a)) })) ∧
  (∀ w s k e a v p c ch b, runs peerAddCmd w s k = true → e = envAt w s k → a = trafficFirst (opChan e) (atBlock s k) → a.cls.flush = none →
    v = beNat (readMem a e.imm 16) → p = nf v 63 59 → c = nf v 127 64 → ch = nf v 55 40 →
    b = countOp 0x32 (noteTables a) → peerAdd b p c ch = none →
    exec (.peerAdd w) s = .next (answered peerAddCmd w s k
      { s := raise 0x2002 p 0 (bump 5 0 0 48 1 b), st := stNoRoom })) ∧
  (∀ w s k e a v p c set i, runs peerDelCmd w s k = true → e = envAt w s k → a = atBlock s k →
    v = beNat (readMem a e.imm 16) → p = nf v 63 59 → c = nf v 127 64 → set = peerSet a p c →
    findWay a 16 set p c = some i →
    exec (.peerDel w) s = .next (answered peerDelCmd w s k { s := countOp 0x33 (freePeer set i (noteTables a)) })) ∧
  (∀ w s k e a v p c set i x, runs peerSearchCmd w s k = true → e = envAt w s k → a = atBlock s k → a.cls.flush = none →
    v = beNat (readMem a e.imm 16) → p = nf v 63 59 → c = nf v 127 64 → set = peerSet a p c →
    findWay a 16 set p c = some i → peerAt a set i = some x →
    exec (.peerSearch w) s = .next (answered peerSearchCmd w s k
      { s := countOp 0x34 (storeMem a e.imm (beBytes 16 (peerWord a set i x))) })) ∧
  (∀ w s k e a v p c set, runs peerSearchCmd w s k = true → e = envAt w s k → a = atBlock s k → a.cls.flush = none →
    v = beNat (readMem a e.imm 16) → p = nf v 63 59 → c = nf v 127 64 → set = peerSet a p c →
    findWay a 16 set p c = none →
    exec (.peerSearch w) s = .next (answered peerSearchCmd w s k
      { s := countOp 0x34 (storeMem a e.imm (beBytes 16 (c * 2 ^ 64 + p * 2 ^ 59 + set * 2 ^ 23))) })) ∧
  (∀ w s k e a v i x, runs peerNextCmd w s k = true → e = envAt w s k → a = atBlock s k → a.cls.flush = none →
    v = beNat (readMem a e.imm 16) →
    walkNext a (if nb e.b 0 then 0 else walkKey (peerSet a (nf v 63 59) (nf v 127 64)) (nf v 63 59) (nf v 127 64) + 1)
      (if nb e.b 1 then some (nf v 63 59) else none) (nb e.b 2) = some (i, x) →
    exec (.peerNext w) s = .next (answered peerNextCmd w s k
      { s := countOp 0x35 (storeMem a e.imm (beBytes 16 (peerWord a (i / 16) (i % 16) x))) })) ∧
  (∀ w s k e a b, runs peerFlushCmd w s k = true → e = envAt w s k → a = atBlock s k → b = countOp 0x36 a →
    exec (.peerFlush w) s = .next (answered peerFlushCmd w s k
      { s := { b with cls := { b.cls with flush := some ⟨e.b, e.imm, e.cseq, a.clk.root, 0⟩ } }
        st := stPending, event := some 0x2006 })) ∧
  (∀ t s a f, a = comeTo t s → a.cls.flush = some f → f.since + 4096 * 12 ≤ a.clk.root →
    exec (.peerFlushComplete t) s = .next (complete 0x2006 f.cseq stOk 0 0
      { a with cls := { a.cls with peers := sweepSets f f.done 4096 a.cls.peers, flush := none } })) ∧
  (∀ t set way s a x, a = comeTo t s → a.cls.flush = none → peerAt a set way = some x → x.bound = false →
    x.expires < a.clk.root →
    exec (.pendingAgeExpiry t set way) s = .next
      (raise 0x2003 x.port 0 (bump 3 x.port 4 48 1 (freePeer set way a))))

/-- R123, R141, R142, R148: CH.SET of an absent channel makes it present with fresh content, of a present one writes its
header, with CHEN = 0 removes it; an entry whose fill fails is left as it is, with the status of the fill; CH.PIN asks for the
entry and its slots and ends when all it waits for is there; CH.UNPIN releases the channel; CH.READ writes the 512 octets of
the entry. Each acts behind the traffic of its edge (R126).
R146, R136 to R140: SYS.RECONCILE compares one channel every 2 QCLK with the management view; a fill or write-back that
completes, a fill that times out and the clock of the cache act on the line of their channel. SYS.RECONCILE acts behind the
traffic of its edge (R126).
It rests on choices of the model: log entries 2, 34, 35, 37, 115, 117, 118, 123. -/
def Obligations.Channels : Prop :=
  (∀ w s k e a v, runs chSetCmd w s k = true → e = envAt w s k → a = trafficFirst (opChan e) (atBlock s k) → v = beNat (readMem a e.imm 64) →
    hChen v = true → (present a e.b = false ∨ (getChan a e.b).cold = true) →
    exec (.chSet w) s = .next (answered chSetCmd w s k { s := freshChan e.b v a })) ∧
  (∀ w s k e a b v, runs chSetCmd w s k = true → e = envAt w s k → a = trafficFirst (opChan e) (atBlock s k) → v = beNat (readMem a e.imm 64) →
    hChen v = true → present a e.b = true → (getChan a e.b).cold = false → fillNow e.b e.fill e.back a = (stOk, b) →
    exec (.chSet w) s = .next (answered chSetCmd w s k
      { s := putChan e.b { getChan b e.b with
               header := v, txan := if hRx v then 0 else (getChan b e.b).txan } b })) ∧
  (∀ w s k e a b v st, runs chSetCmd w s k = true → e = envAt w s k → a = trafficFirst (opChan e) (atBlock s k) → v = beNat (readMem a e.imm 64) →
    hChen v = true → present a e.b = true → (getChan a e.b).cold = false → fillNow e.b e.fill e.back a = (st, b) →
    st ≠ stOk →
    exec (.chSet w) s = .next (answered chSetCmd w s k { s := b, st := st })) ∧
  (∀ w s k e a v, runs chSetCmd w s k = true → e = envAt w s k → a = trafficFirst (opChan e) (atBlock s k) → v = beNat (readMem a e.imm 64) →
    hChen v = false →
    exec (.chSet w) s = .next (answered chSetCmd w s k { s := if present a e.b then removeChan e.b a else a })) ∧
  (∀ w s k e a b c, runs chPinCmd w s k = true → e = envAt w s k → a = trafficFirst (opChan e) (atBlock s k) → (getChan a e.b).pinned = false →
    a.cls.flush = none → movePeers e.b (noteTables a) = some b →
    c = syncSlots e.b (setChan (requestFill e.b b) e.b
      { getChan (requestFill e.b b) e.b with pinning := some e.cseq }) → pinReady c e.b = false →
    exec (.chPin w) s = .next (answered chPinCmd w s k { s := c, st := stPending, event := some 0x3007 })) ∧
  (∀ w s k e a, runs chPinCmd w s k = true → e = envAt w s k → a = trafficFirst (opChan e) (atBlock s k) → (getChan a e.b).pinned = true →
    exec (.chPin w) s = .next (answered chPinCmd w s k { s := a })) ∧
  (∀ w s k e a, runs chUnpinCmd w s k = true → e = envAt w s k → a = trafficFirst (opChan e) (atBlock s k) → (getChan a e.b).pinned = true →
    exec (.chUnpin w) s = .next (answered chUnpinCmd w s k
      { s := touchLine e.b (putChan e.b { getChan a e.b with pinned := false } a) })) ∧
  (∀ w s k e a, runs chReadCmd w s k = true → e = envAt w s k → a = trafficFirst (opChan e) (atBlock s k) →
    exec (.chRead w) s = .next (answered chReadCmd w s k
      { s := storeMem a e.imm (entryBytes (getChan a e.b)) })) ∧
  (∀ w s k e a, runs sysReconcileCmd w s k = true → w.via = .answered → e = envAt w s k → a = trafficFirst (opChan e) (atBlock s k) → e.imm = 1 →
    exec (.sysReconcile w) s = .next (answered sysReconcileCmd w s k { s := reconcileOne e.b a })) ∧
  (∀ c s a v x, a = advance (s.clk.root + 16) s → v = beNat (readMem a (viewAddr c) 4) → x = stateWord (getChan a c) →
    reconcileOne c s = if v = x then a
      else raise 0x3008 c (v * 2 ^ 32 + x) (storeMem a (viewAddr c) (beBytes 4 x))) ∧
  (∀ t c res s a b i st, a = settle (comeTo t s) → lineOf a c .writeBack = some i →
    backAnswer c ((tabFind a.assoc.lines i).map (·.back) |>.getD 0) res a = (st, b) →
    exec (.writeBackComplete t c res) s = .next (issueFills (clearLine i
      (if st = stOk then coldIfQuarantined c b else setCold c st b)))) ∧
  (∀ t s a b i, a = settle (comeTo t s) → freeLines a < 32 → turnClock (2 * 2048 + 1) a = (b, some i) →
    exec (.cacheEvict t) s = .next (evictLine i b)) ∧
  (∀ t s a, a = settle (comeTo t s) → 32 ≤ freeLines a → exec (.cacheEvict t) s = .next a)

/-- R195, R201, R203, R207: SA.LOAD writes the sub-entry from its descriptor and the key slot; SA.ARM writes the roll fields;
SA.ROLL on a receive channel takes over at once, on a transmit channel it arms at a number already reached (the model leaves
free which of them, log entry 41); SA.RETIRE retires, sets a retire time, or wipes. Each acts behind the traffic of its edge
(R126).
R205, R166: a DRAINING association is RETIRED at its retire time with 0x300D; from 2 µs before the time of an armed roll
the slots of a pinned channel cover the successor.
It rests on choices of the model: log entries 2, 34, 40, 41, 120. -/
def Obligations.Associations : Prop :=
  (∀ w s k e x a b c n v, runs saLoadCmd w s k = true → e = envAt w s k → x = trafficFirst (opChan e) (atBlock s k) →
    a = committedFor (saSlot e x) x → c = e.b % 2 ^ 16 →
    n = nf e.b 17 16 → v = beNat (readMem a e.imm 32) → fillNow c e.fill e.back a = (stOk, b) →
    exec (.saLoad w) s = .next (answered saLoadCmd w s k
      { s := refreshSide c (putChan c (setSub (getChan b c) n (loadedSub (hBits (getChan b c).header) v (edgeTod b)
          (getSlot b (nf v 255 248)) (getSub (getChan b c) n))) b) })) ∧
  (∀ w s k e x a b st, runs saLoadCmd w s k = true → e = envAt w s k → x = trafficFirst (opChan e) (atBlock s k) →
    a = committedFor (saSlot e x) x → fillNow (e.b % 2 ^ 16) e.fill e.back a = (st, b) → st ≠ stOk →
    exec (.saLoad w) s = .next (answered saLoadCmd w s k { s := b, st := st })) ∧
  (∀ w s k e a b st, e = envAt w s k → a = trafficFirst (opChan e) (atBlock s k) →
    fillNow (e.b % 2 ^ 16) e.fill e.back a = (st, b) → st ≠ stOk →
    (runs saArmCmd w s k = true →
      exec (.saArm w) s = .next (answered saArmCmd w s k { s := b, st := st })) ∧
    (runs saRollCmd w s k = true →
      exec (.saRoll w) s = .next (answered saRollCmd w s k { s := b, st := st })) ∧
    (runs saRetireCmd w s k = true → retireIdle (getSub (getChan a (e.b % 2 ^ 16)) (nf e.b 17 16)).state (nb e.b 18) = false →
      exec (.saRetire w) s = .next (answered saRetireCmd w s k { s := b, st := st }))) ∧
  (∀ w s k e a b c n v, runs saArmCmd w s k = true → e = envAt w s k → a = trafficFirst (opChan e) (atBlock s k) → c = e.b % 2 ^ 16 →
    n = nf e.b 17 16 → v = beNat (readMem a e.imm 32) → fillNow c e.fill e.back a = (stOk, b) →
    exec (.saArm w) s = .next (answered saArmCmd w s k
      { s := putChan c (setSub (getChan b c) n { getSub (getChan b c) n with
          rollMode := nf v 255 254, rollSec := nf v 253 206, rollNs := nf v 205 176, rollPn := nf v 175 112 }) b })) ∧
  (∀ w s k e a b c n, runs saRollCmd w s k = true → e = envAt w s k → a = trafficFirst (opChan e) (atBlock s k) → c = e.b % 2 ^ 16 →
    n = nf e.b 17 16 → fillNow c e.fill e.back a = (stOk, b) → hRx (getChan b c).header = true →
    exec (.saRoll w) s = .next (answered saRollCmd w s k { s := activateRx c n b })) ∧
  (∀ w s k e a b c n top, runs saRollCmd w s k = true → e = envAt w s k → a = trafficFirst (opChan e) (atBlock s k) → c = e.b % 2 ^ 16 →
    n = nf e.b 17 16 → fillNow c e.fill e.back a = (stOk, b) → hRx (getChan b c).header = false →
    top = (activeAn (getChan b c)).elim (lastPn (getChan b c).header) (fun x => (getSub (getChan b c) x).nextPn) →
    exec (.saRoll w) s = .next (answered saRollCmd w s k
      { s := putChan c (setSub (getChan b c) n { getSub (getChan b c) n with
          rollMode := 1, rollPn := 1 + Config.measured b.drawn % max 1 top, rollSec := 0, rollNs := 0 })
          { b with drawn := b.drawn + 1 } })) ∧
  (∀ w s k e a b c n u h, runs saRetireCmd w s k = true → e = envAt w s k → a = trafficFirst (opChan e) (atBlock s k) → c = e.b % 2 ^ 16 →
    n = nf e.b 17 16 → retireIdle (getSub (getChan a c) n).state (nb e.b 18) = false → fillNow c e.fill e.back a = (stOk, b) →
    u = { getSub (getChan b c) n with wipe := (getSub (getChan b c) n).wipe || nb e.b 18 } →
    (u.state = .active ∨ u.state = .loaded) → h = setSub (getChan b c) n (retireSub u) →
    exec (.saRetire w) s = .next (answered saRetireCmd w s k
      { s := putChan c { h with txan := txanRetired h n } b })) ∧
  (∀ w s k e a b c n u, runs saRetireCmd w s k = true → e = envAt w s k → a = trafficFirst (opChan e) (atBlock s k) → c = e.b % 2 ^ 16 →
    n = nf e.b 17 16 → retireIdle (getSub (getChan a c) n).state (nb e.b 18) = false → fillNow c e.fill e.back a = (stOk, b) →
    u = { getSub (getChan b c) n with wipe := (getSub (getChan b c) n).wipe || nb e.b 18 } → u.state = .draining →
    exec (.saRetire w) s = .next (answered saRetireCmd w s k
      { s := if e.imm = 0 then raise 0x300D c 0 (putChan c (setSub (getChan b c) n (retireSub u)) b)
             else putChan c (setSub (getChan b c) n
               (withRetireTime (edgeTod b + e.imm * (1000000 * 2 ^ 32)) u)) b })) ∧
  (∀ w s k e a b c n u, runs saRetireCmd w s k = true → e = envAt w s k → a = trafficFirst (opChan e) (atBlock s k) → c = e.b % 2 ^ 16 →
    n = nf e.b 17 16 → retireIdle (getSub (getChan a c) n).state (nb e.b 18) = false → fillNow c e.fill e.back a = (stOk, b) → u = getSub (getChan b c) n → (u.state = .retired ∨ u.state = .exhausted) →
    nb e.b 18 = true →
    exec (.saRetire w) s = .next (answered saRetireCmd w s k
      { s := putChan c (setSub (getChan b c) n { u with
          state := .empty, key := 0, hkey := 0, salt := 0, ssci := 0, wipe := false }) b })) ∧
  (∀ w s k e a c n u, runs saRetireCmd w s k = true → e = envAt w s k → a = trafficFirst (opChan e) (atBlock s k) → c = e.b % 2 ^ 16 →
    n = nf e.b 17 16 → u = getSub (getChan a c) n →
    (u.state = .empty ∨ ((u.state = .retired ∨ u.state = .exhausted) ∧ nb e.b 18 = false)) →
    exec (.saRetire w) s = .next (answered saRetireCmd w s k { s := a })) ∧
  (∀ t c n s a u, a = settle (comeTo t s) → u = getSub (getChan a c) n → u.state = .draining → rollTime u ≤ a.clk.tod →
    exec (.retireTimeReached t c n) s = .next
      (raise 0x300D c 0 (putChan c (setSub (getChan a c) n (retireSub u)) a))) ∧
  (∀ t c s a n, a = settle (comeTo t s) → (getChan a c).pinned = true → armedAn (getChan a c) = some n →
    (getSub (getChan a c) n).rollMode = 2 → rollTime (getSub (getChan a c) n) ≤ a.clk.tod + 2000 * 2 ^ 32 →
    exec (.rollStraddleWindow t c) s = .next (syncSlots c a))

/-- R244, R252, R258, R269: CLASS.MAP, POLICE.SET, SHAPE.SET and PREEMPT.SET store their settings; FULL fills a meter's
buckets and a shaper starts full or empty, off the wheel; a frame on the wire is preempted where a hold begins.
R259 to R264, R257: GATE.LOAD writes the admin list; GATE.SWAP sets the change time at least 1 µs ahead, CANCEL withdraws
one that is not reached; the lists exchange at the change time; the gates take the states of an entry; the calendar wheel
reaches the slot of a queue.
It rests on choices of the model: log entries 2, 31, 126. -/
def Obligations.Scheduling : Prop :=
  (∀ w s k e a, runs classMapCmd w s k = true → e = envAt w s k → a = atBlock s k →
    exec (.classMap w) s = .next (answered classMapCmd w s k
      { s := setPort a e.a { getPort a e.a with pcpMap := e.b, sched := e.imm } })) ∧
  (∀ w s k e a v, runs policeSetCmd w s k = true → e = envAt w s k → a = atBlock s k →
    v = beNat (readMem a e.imm 32) → nb v 252 = true →
    exec (.policeSet w) s = .next (answered policeSetCmd w s k
      { s := setMeter a e.b { desc := v - 2 ^ 252, tc := (nf v 182 159 : Int) * meterUnit
                              tp := (nf v 158 135 : Int) * meterUnit, last := cclkEdge a, lastGreen := none
                              owed := (getMeter a e.b).owed.filter (fun d => decide (cclkEdge a < d.1)) } })) ∧
  (∀ w s k e a v, runs policeSetCmd w s k = true → e = envAt w s k → a = atBlock s k →
    v = beNat (readMem a e.imm 32) → nb v 252 = false →
    exec (.policeSet w) s = .next (answered policeSetCmd w s k
      { s := setMeter a e.b { desc := v, tc := 0, tp := 0, last := cclkEdge a, lastGreen := none
                              owed := (getMeter a e.b).owed.filter (fun d => decide (cclkEdge a < d.1)) } })) ∧
  (∀ w s k e a, runs shapeSetCmd w s k = true → e = envAt w s k → a = atBlock s k →
    exec (.shapeSet w) s = .next (answered shapeSetCmd w s k
      { s := setShaper a e.a e.b
          { rate := nf e.imm 62 31, burst := nf e.imm 30 7
            tokens := if nb e.imm 63 then (nf e.imm 30 7 : Int) * octUnit else 0
            last := cclkEdge a, wheel := none
            owed := (getShaper a e.a e.b).owed.filter (fun d => decide (cclkEdge a < d.1)) } })) ∧
  (∀ w s k e a, runs preemptSetCmd w s k = true → e = envAt w s k → a = atBlock s k →
    exec (.preemptSet w) s = .next (answered preemptSetCmd w s k
      { s := preemptWire e.a (gateVisit e.a (setPort a e.a { getPort a e.a with hold := nb e.imm 63 })) })) ∧
  (∀ w s k e a n l, runs gateLoadCmd w s k = true → e = envAt w s k → a = atBlock s k →
    n = nf (beNat (addrRead e a 32)) 111 103 → l = addrRead e a (32 + 8 * n) →
    exec (.gateLoad w) s = .next (answered gateLoadCmd w s k
      { s := setGates a e.a { getGates a e.a with
          admin := gateListOf (beNat (l.take 32)) (gateEntries (l.drop 32) n) } })) ∧
  (∀ w s k e a g t, runs gateSwapCmd w s k = true → e = envAt w s k → a = atBlock s k → g = getGates a e.a →
    t = changeTime g (edgeTod a) →
    exec (.gateSwap w) s = .next (answered gateSwapCmd w s k
      { s := setGates a e.a { g with change := some t, suppress := suppressedStart g t } })) ∧
  (∀ w s k e a t, runs gateSwapCancelCmd w s k = true → e = envAt w s k → a = atBlock s k →
    (getGates a e.a).change = some t → edgeTod a < t →
    exec (.gateSwapCancel w) s = .next (answered gateSwapCancelCmd w s k
      { s := setGates a e.a { getGates a e.a with change := none, suppress := none } })) ∧
  (∀ w s k e a, runs gateSwapCancelCmd w s k = true → e = envAt w s k → a = atBlock s k →
    (∀ t, (getGates a e.a).change = some t → t ≤ edgeTod a) →
    exec (.gateSwapCancel w) s = .next (answered gateSwapCancelCmd w s k { s := a })) ∧
  (∀ t p s a c, a = comeTo t s → (getGates a p).change = some c → c ≤ a.clk.tod →
    exec (.gateSwapChange t p) s = .next (doSwap p c a)) ∧
  (∀ t p s a b n, a = comeTo t s → (getGates a p).oper.enable = true → n = cycleStart (getGates a p) a.clk.tod →
    b = (if n = (getGates a p).cycleSeen then a
         else bump 11 p 40 48 1 (setGates a p { getGates a p with cycleSeen := n })) →
    exec (.gateEntryChange t p) s = .next (preemptWire p (gateSync p b))) ∧
  (∀ t p c s a u, a = comeTo t s → (shaperAt a p c a.clk.root).wheel = some u → u ≤ a.clk.root →
    exec (.calendarSlotReached t p c) s = .next (evalShaper p c a.clk.root (shaperTokens a p c a.clk.root) a))

/-- R274, R275, R277, R278, R273: TIME.INCR sets the permanent or the temporary increment at its TCLK edge; TIME.SET and
TIME.ADJ step network time there, counted, with 0x5002 carrying the time before, and every user of time follows; the end of
a temporary increment and the wrap of SEC act as said.
R277, R293: TIME.SET at PPS waits 2 s for a confirmed edge of the selected polarity, after which TIME counts from the
edge, and times out with 0x5004 and the time unchanged; a capture pin counts confirmed and rejected edges, numbers the
captures of the selected polarity and queues an entry.
R294 to R297: TRIG.ARM replaces the descriptor of an output at its TCLK edge; a pulse that is due begins or ends.
It rests on choices of the model: log entries 2, 49, 50, 51, 52. -/
def Obligations.NetworkTime : Prop :=
  (∀ w s k e a b, runs timeIncrCmd w s k = true → e = envAt w s k → a = atBlock s k →
    b = advance (edgeAt 10 (cclkEdge a)) a → e.b = 0 →
    exec (.timeIncr w) s = .next (answered timeIncrCmd w s k
      { s := { b with clk := { b.clk with incr := e.imm } } })) ∧
  (∀ w s k e a b, runs timeIncrCmd w s k = true → e = envAt w s k → a = atBlock s k →
    b = advance (edgeAt 10 (cclkEdge a)) a → e.b ≠ 0 →
    exec (.timeIncr w) s = .next (answered timeIncrCmd w s k
      { s := { b with clk := { b.clk with temp := some (e.imm, e.b) } } })) ∧
  (∀ w s k e a b n, runs timeSetCmd w s k = true → e = envAt w s k → a = atBlock s k →
    b = advance (edgeAt 10 (cclkEdge a)) a → n = todOfForm (beNat (readMem a e.imm 16) / 2 ^ 32) → n < todWrap →
    exec (.timeSet w) s = .next (answered timeSetCmd w s k
      { s := stepUsers b.clk.tod (raise 0x5002 (todForm b.clk.tod / 2 ^ 64) (todForm b.clk.tod % 2 ^ 64)
          (bump 14 0 69 48 1 { b with clk := { b.clk with
            tod := n
            jumps := (b.clk.root, (n : Int) - (b.clk.tod : Int)) ::
              b.clk.jumps.filter (fun j => decide (b.clk.root < j.1 + 20000)) } })) })) ∧
  (∀ w s k e a b n, runs timeAdjCmd w s k = true → e = envAt w s k → a = atBlock s k →
    b = advance (edgeAt 10 (cclkEdge a)) a →
    ((n : Nat) : Int) = (b.clk.tod : Int) + signed 64 e.imm * 65536 → n < todWrap →
    exec (.timeAdj w) s = .next (answered timeAdjCmd w s k
      { s := stepUsers b.clk.tod (raise 0x5002 (todForm b.clk.tod / 2 ^ 64) (todForm b.clk.tod % 2 ^ 64)
          (bump 14 0 69 48 1 { b with clk := { b.clk with
            tod := n
            jumps := (b.clk.root, (n : Int) - (b.clk.tod : Int)) ::
              b.clk.jumps.filter (fun j => decide (b.clk.root < j.1 + 20000)) } })) })) ∧
  (∀ t s a, a = comeTo t s → exec (.temporaryIncrementEnd t) s = .next a) ∧
  (∀ t s a, a = comeTo t s → a.clk.wrapped = true →
    exec (.secondsWrap t) s = .next (stepUsers (todWrap - 1)
      (raise 0x5001 0 0 { a with clk := { a.clk with wrapped := false } }))) ∧
  (∀ w s k e a (q : PpsSet), runs timeSetAtPpsCmd w s k = true → e = envAt w s k → a = atBlock s k →
    q = ⟨todOfForm (beNat (readMem a e.imm 16) / 2 ^ 32), a.clk.root + 20000000000, e.cseq⟩ →
    exec (.timeSetAtPps w) s = .next (answered timeSetAtPpsCmd w s k
      { s := { a with clk := { a.clk with ppsSet := some q } }
        st := stPending, event := some 0x5003 })) ∧
  (∀ t r n s a q v, a = comeTo t s → a.clk.ppsSet = some q → v = (getPin a 8).setting → selects v r = true →
    nf v 59 52 * 40 ≤ n → confirmAt (nf v 59 52) t ≤ q.expiry →
    exec (.ppsSetEdge t r n) s = .next (ppsEdge t a)) ∧
  (∀ t s a q, a = comeTo t s → a.clk.ppsSet = some q → q.expiry < a.clk.root →
    exec (.ppsSetTimeout t) s = .next (complete 0x5004 q.cseq stTimeout 0 0
      { a with clk := { a.clk with ppsSet := none } })) ∧
  (∀ t i r n s a v, a = comeTo t s → i < 9 → v = (getPin a i).setting → nb v 63 = true → n < nf v 59 52 * 40 →
    exec (.captureEdge t i r n) s = .next (bump 14 0 (33 + i) 48 1 a)) ∧
  (∀ t i r n s a b v, a = comeTo t s → i < 9 → v = (getPin a i).setting → nb v 63 = true → nf v 59 52 * 40 ≤ n →
    b = bump 14 0 (24 + i) 48 1 (comeTo (confirmAt (nf v 59 52) t) a) →
    exec (.captureEdge t i r n) s = .next (if selects v r then capture i (stampAgo a (a.clk.root - t)) r b else b)) ∧
  (∀ w s k e a, runs captCfgCmd w s k = true → e = envAt w s k → a = atBlock s k → nf e.a 7 6 = 0 →
    exec (.captCfg w) s = .next (answered captCfgCmd w s k
      { s := setPort a (e.a % 64) { getPort a (e.a % 64) with stamp := e.imm } })) ∧
  (∀ w s k e a, runs captCfgCmd w s k = true → e = envAt w s k → a = atBlock s k → nf e.a 7 6 ≠ 0 →
    exec (.captCfg w) s = .next (answered captCfgCmd w s k
      { s := setPin a (e.a % 16) { getPin a (e.a % 16) with setting := e.imm } })) ∧
  (∀ w s k e a, runs trigArmCmd w s k = true → e = envAt w s k → a = atBlock s k →
    exec (.trigArm w) s = .next (answered trigArmCmd w s k
      { s := armTrig e.a (beNat (readMem a e.imm 32)) (edgeTod a) (advance (edgeAt 10 (cclkEdge a)) a) })) ∧
  (∀ t o s a x, a = comeTo t s → (getTrig a o).endAt = some x → x ≤ a.clk.root →
    exec (.triggerPulse t o) s = .next (endPulse o a)) ∧
  (∀ t o s a, a = comeTo t s → (getTrig a o).endAt = none → trigDone (getTrig a o) = false →
    pulseTime (getTrig a o) (getTrig a o).k ≤ exactNow a →
    exec (.triggerPulse t o) s = .next (beginPulse o (stepOf125 (pulseTime (getTrig a o) (getTrig a o).k)) a))

/-- R290, R300 to R302: TS.POP writes the oldest entries of a stamp queue, zeros beyond them, and removes them; PROBE.SEND
makes the probe outstanding and queues its frame, or is refused and counted where the management partition is full; the responder table is written; a probe that is not answered in time ends
with STATUS 1.
It rests on choices of the model: log entries 2, 48. -/
def Obligations.StampQueuesAndProbes : Prop :=
  (∀ w s k e a b q n x got, runs tsPopCmd w s k = true → e = envAt w s k → a = atBlock s k → q = e.b % 32 →
    n = nf e.b 10 5 → x = tabGet {} a.timeFn.stamps q →
    got = (x.entries.take n).flatMap (beBytes (if q = 11 then 64 else 16)) →
    b = storeMem a e.imm (got ++ List.replicate (n * (if q = 11 then 64 else 16) - got.length) 0) →
    n < x.entries.length →
    exec (.tsPop w) s = .next (answered tsPopCmd w s k
      { s := { b with timeFn := { b.timeFn with
          stamps := tabSet {} b.timeFn.stamps q { x with entries := x.entries.drop n } } } })) ∧
  (∀ w s k e a b v p r, runs probeSendCmd w s k = true → e = envAt w s k → a = atBlock s k →
    fitsAccount a .management 1 = true → v = beNat (readMem a e.imm 32) → p = ⟨nf v 239 224, nf v 223 208, a.clk.root + nf v 96 81 * 10000, 0⟩ →
    b = { a with timeFn := { a.timeFn with probes := tabPut a.timeFn.probes (nf v 255 240) p } } →
    r = sendOwn (nf v 239 224) (nf v 207 205) (if nb v 204 then some (nf v 203 193) else none)
      (probeFrame (beBytes 6 (nf v 192 145)) (beBytes 6 (nf v 144 97)) 1 (nf v 255 240) 0 0 0)
      (.probe (nf v 255 240)) b →
    exec (.probeSend w) s = .next (answered probeSendCmd w s k
      { s := if r.1 then r.2 else endProbe (nf v 255 240) 2 r.2 })) ∧
  (∀ w s k e a, runs probeSendCmd w s k = true → e = envAt w s k → a = atBlock s k → fitsAccount a .management 1 = false →
    exec (.probeSend w) s = .next (answered probeSendCmd w s k { s := bump 10 0 10 48 1 a, st := stNoRoom })) ∧
  (∀ w s k e a v (r : Responder), runs probeResponderCmd w s k = true → e = envAt w s k → a = atBlock s k →
    v = beNat (readMem a e.imm 32) → nb v 246 = true →
    r = ⟨nf v 245 230, nf v 229 214, nf v 213 211, nb v 210, nf v 209 199⟩ →
    exec (.probeResponderWrite w) s = .next (answered probeResponderCmd w s k
      { s := { a with timeFn := { a.timeFn with responders := tabPut a.timeFn.responders (nf v 255 247) r } } })) ∧
  (∀ w s k e a v, runs probeResponderCmd w s k = true → e = envAt w s k → a = atBlock s k →
    v = beNat (readMem a e.imm 32) → nb v 246 = false →
    exec (.probeResponderWrite w) s = .next (answered probeResponderCmd w s k
      { s := { a with timeFn := { a.timeFn with responders := tabDel a.timeFn.responders (nf v 255 247) } } })) ∧
  (∀ t i s a p, a = comeTo t s → tabFind a.timeFn.probes i = some p → p.expiry < a.clk.root →
    exec (.probeTimeout t i) s = .next (endProbe i 1 (bump 14 0 72 48 1 a)))

/-- R347, R356, R370, R372: SLOT.ERASE erases a user slot; SLOT.INFO returns the attribute word and whether the slot is
filled, and changes nothing; an erase keeps DOMAIN and advances GENERATION, a read of the slot finds
no payload, and the erased slots 4 to 15 have LOCK set and the rest zero. A read of a slot that a committed message writes takes
its new content (R367).
R374 to R378, R348: UNWRAP writes its destination slot; BLK.KEY loads a block-engine register with key, source and
rights; BLK.OP runs its blocks through AES in place and BLK.CMP compares them; DRBG.GET returns octets of the
CTR_DRBG.
It rests on choices of the model: log entries 7, 8, 57, 67. -/
def Obligations.KeyVault : Prop :=
  (∀ w s k e a, runs slotEraseCmd w s k = true → e = envAt w s k → a = atBlock s k →
    exec (.slotErase w) s = .next (answered slotEraseCmd w s k { s := eraseSlot e.b a })) ∧
  (∀ w s k e a, runs slotInfoCmd w s k = true → e = envAt w s k → a = committedFor (e.b % 256) (atBlock s k) →
    exec (.slotInfo w) s = .next (answered slotInfoCmd w s k
      { s := a, regs := [(1, BitVec.ofNat 64 ((getSlot a e.b).attr +
          if nf (getSlot a e.b).attr 31 28 = 0 then 0 else 2 ^ 32))] })) ∧
  (∀ (i : Nat) (k : Slot), ¬(4 ≤ i ∧ i < 16) → nf (emptied i k).attr 19 16 = nf k.attr 19 16 ∧
    nf (emptied i k).attr 11 0 = (nf k.attr 11 0 + 1) % 4096 ∧ nf (emptied i k).attr 31 28 = 0 ∧ (emptied i k).payload = []) ∧
  (∀ (i : Nat) (k : Slot), 4 ≤ i → i < 16 → emptied i k = ⟨[], 2 ^ 15⟩) ∧
  (∀ w s k e a d src o (st : Nat), runs unwrapCmd w s k = true → e = envAt w s k →
    a = committedFor (e.b % 256) (atBlock s k) →
    d = getSlot a (e.b / 256) → src = getSlot a (e.b % 256) → firstFail (unwrapOwn e a) = 0 →
    o = kwpUnwrap 256 (beNat (fit 32 src.payload)) ((readMem a e.imm 96).take 80) →
    st = (match o with | none => stAuth | some p => firstFail (unwrapContent (nf src.attr 19 16) p)) →
    exec (.unwrap w) s = .next (answered unwrapCmd w s k
      (if st = 0 then { s := extendReg 5 (sha384 (readMem a e.imm 96)) (bump 17 0 28 48 1
          (setSlot a (e.b / 256) ⟨(o.getD []).drop 4, mf (o.getD []) 0 4 + (nf d.attr 11 0 + 1) % 4096⟩)) }
       else { s := bump 17 0 29 48 1 a, st := st }))) ∧
  (∀ w s k e a x b (r : BKey), runs blkKeyCmd w s k = true → e = envAt w s k →
    a = committedFor (e.b % 256) (atBlock s k) →
    x = getSlot a (e.b % 256) →
    b = (if nf x.attr 31 28 = 1 then 256 else 128) →
    r = { key := beNat (fit (b / 8) x.payload), bits := b, slot := e.b % 256, gen := nf x.attr 11 0
          enc := nb x.attr 27, dec := nb x.attr 26 } →
    exec (.blkKey w) s = .next (answered blkKeyCmd w s k
      { s := { a with vault := { a.vault with bk := tabPut a.vault.bk e.a r } } })) ∧
  (∀ w s k e a r, runs blkOpCmd w s k = true → e = envAt w s k → a = atBlock s k →
    tabFind a.vault.bk (e.a % 4) = some r →
    exec (.blkOp w) s = .next (answered blkOpCmd w s k
      { s := drawMasks e.b (storeMem a e.imm (blkRun r (nb e.a 2) (readMem a e.imm (16 * e.b)) e.b)) })) ∧
  (∀ w s k e a r, runs blkCmpCmd w s k = true → e = envAt w s k → a = atBlock s k →
    tabFind a.vault.bk (e.a % 4) = some r →
    exec (.blkCmp w) s = .next (answered blkCmpCmd w s k
      { s := drawMasks e.b a
        st := if blkRun r (nb e.a 2) (readMem a e.imm (16 * e.b)) e.b =
            readMem a (e.imm + 16 * e.b) (16 * e.b) then stOk else stAuth })) ∧
  (∀ w s k e a r, runs drbgGetCmd w s k = true → e = envAt w s k → a = atBlock s k → r = internalRandom (8 * e.b) a →
    exec (.drbgGet w) s = .next (answered drbgGetCmd w s k
      { s := r.2, regs := (List.range e.b).map (fun i => (i + 1, BitVec.ofNat 64 (mf r.1 (8 * i) 8))) }))

/-- R358: π, the four Feistel rounds that place the slots in the rows, gives no two slots one row, whatever the scramble key. -/
def Obligations.RowsArePermuted : Prop :=
  ∀ (key : Nat) (i j : BitVec 8), rowOf key i = rowOf key j → i = j

/-- R347, R365 to R368: GRAFT queues its message and answers ST_PENDING; the Key Vault takes one message at a time: it is
taken, checked (one that fails is counted under its status and changes no slot), its counter consumed, the old rows kept in the
journal, and every operation applied at one edge, the erases that came meanwhile after them.
R359, R378, R379, R381: the DRBG reseeds after 2^16 requests or 100 ms; a failed health test stops it with 0x7005; it
is instantiated afresh, at most three times, 0x7006 after the last; the re-mask pass of every second draws a key for the
other epoch, reads every row and zeroes the old key; a row that fails its check loses its slot, counted, with 0x7002.
It rests on choices of the model: log entries 2, 8, 57, 65, 66, 67, 68, 129. -/
def Obligations.VaultEvents : Prop :=
  (∀ w s k e a, runs graftCmd w s k = true → e = envAt w s k → a = atBlock s k →
    exec (.graft w) s = .next (answered graftCmd w s k
      { s := { a with vault := { a.vault with
          grafts := a.vault.grafts ++ [{ octets := addrRead e a e.b, cseq := e.cseq }] } }
        st := stPending, event := some 0x7001 })) ∧
  (∀ (run : GraftRun) s a g l, a = comeTo run.t s → a.vault.serving = none → a.vault.journal = none →
    a.vault.grafts = g :: l → run.upTo = .taken →
    exec (.graftProcess run) s = .next { a with vault := { a.vault with
      grafts := l, serving := some { msg := g, phase := .taken, keys := keysDigest a g.octets } } }) ∧
  (∀ (run : GraftRun) s a b v r, a = comeTo run.t s → a.vault.serving = some v → v.phase = .taken →
    (graftNeedsPress v.msg.octets = false ∨ pressIdle a = true) → run.bursts = [] → run.upTo = .checked →
    r = graftVerdict a v.msg.octets v.keys → b = pressServes v.msg.octets v.keys a →
    exec (.graftProcess run) s = .next
      (if r.1 = 0 then setServing { v with phase := .checked, ops := r.2.2 } b
       else graftEnds v.msg r.1 r.2.1 (match graftPlace r.1 with
         | some n => bump 17 0 n 48 1 { b with vault := { b.vault with serving := none } }
         | none => { b with vault := { b.vault with serving := none } }))) ∧
  (∀ (run : GraftRun) s a v, a = comeTo run.t s → a.vault.serving = some v → v.phase = .checked →
    run.bursts = [] → run.torn = false → run.upTo = .counted →
    exec (.graftProcess run) s = .next (setServing { v with phase := .counted }
      (writeCells (mf v.msg.octets 48 1) (mf v.msg.octets 40 8) 64 run.badWrites a))) ∧
  (∀ (run : GraftRun) s a v, a = comeTo run.t s → a.vault.serving = some v → v.phase = .counted →
    run.bursts = [] → run.upTo = .armed →
    exec (.graftProcess run) s = .next (setServing { v with phase := .armed } { a with vault := { a.vault with
      journal := some ⟨mf v.msg.octets 48 1, mf v.msg.octets 40 8, v.ops.map (fun o => (o.slot, getSlot a o.slot))⟩ } })) ∧
  (∀ (run : GraftRun) s a b v, a = comeTo run.t s → a.vault.serving = some v → v.phase = .armed →
    run.bursts = [] → run.upTo = .committed → v.msg.relay = none →
    b = bump 17 0 16 48 1 (extendReg 5 (sha384 (v.msg.octets.take (opsEnd v.msg.octets)))
      (v.ops.foldl (fun s o => applyOp o s) { a with vault := { a.vault with serving := none } })) →
    exec (.graftProcess run) s = .next (endPending v.msg.cseq 0 0x1F (mf v.msg.octets 40 8)
      (v.erases.foldl (fun s i => eraseNow i s) b))) ∧
  (∀ t s a b, a = comeTo t s → a.vault.drbgStopped = false → 65536 ≤ a.vault.drbgRequests →
    b = drbgSeed (a.vault.drbgKey, a.vault.drbgV) a →
    exec (.drbgReseed t) s = .next (bump 17 0 36 48 1
      { b with vault := { b.vault with drbgRequests := 0, drbgReseedAt := b.clk.root } })) ∧
  (∀ t raw s a, a = comeTo t s → a.vault.drbgStopped = false → a.power.held = false →
    (repetitionFails raw = true ∨ proportionFails raw = true) →
    exec (.healthTestFailure ⟨t, raw⟩) s = .next (bump 17 0 37 48 1 (raise 0x7005 0 0
      { a with vault := { a.vault with
          drbgStopped := true, drbgErased := false, drbgAttempts := 0, drbgFailedAt := a.clk.root } }))) ∧
  (∀ t s a, a = comeTo t s → a.vault.drbgStopped = true → a.vault.drbgErased = false → a.vault.drbgAttempts < 3 →
    a.vault.drbgFailedAt + 100000000 * a.vault.drbgAttempts ≤ a.clk.root →
    exec (.drbgReinstantiate t true) s = .next (drbgInstantiated a) ∧
    exec (.drbgReinstantiate t false) s = .next
      (if a.vault.drbgAttempts = 2 then raise 0x7006 0 0 { a with vault := { a.vault with drbgAttempts := 3 } }
       else { a with vault := { a.vault with drbgAttempts := a.vault.drbgAttempts + 1 } })) ∧
  (∀ t s a, a = comeTo t s → a.vault.drbgStopped = true → a.vault.drbgErased = true →
    exec (.drbgPostEraseInstantiate t true) s = .next (drbgInstantiated a)) ∧
  (∀ (run : RemaskRun) s a b, a = comeTo run.t s → a.vault.drbgStopped = false → a.power.held = false →
    a.vault.remaskRow = 0 → a.vault.remaskAt + 10000000000 ≤ a.clk.root → run.upTo = 256 →
    b = readRows run 0 256 (beginRemask a) →
    exec (.remaskPass run) s = .next (bump 17 0 35 48 1
      { b with vault := { b.vault with
          epoch := 1 - b.vault.epoch, remaskRow := 0, remaskAt := b.clk.root
          maskKeys := tabSet 0 [] (1 - b.vault.epoch) (tabGet 0 b.vault.maskKeys (1 - b.vault.epoch)) } })) ∧
  (∀ s i, slotFails i s = raise 0x7002 0 0 (bump 17 0 31 48 1 (eraseSlot i s)))

/-- R386, R387, R401: PK.LOAD fills an operand slot, zeros beyond what it loads; PK.READ copies one; PK.OP queues its
operation and answers ST_PENDING; PK.ABORT ends the running operation.
R388, R389, R398, R402: an operation starts when the Press is idle and no internal request waits: it is counted, and one on
the Key Vault takes its key, or ends with ST_KEY_ERASED where the slot has been erased, ST_ATTR where its attributes no longer
fit, ST_FAULT where the DRBG has stopped; at the edge of its completion its output is written and 0x7007 is raised; a mismatch
of the redundant path is counted and raised as 0x7009, and no output is written.
It rests on choices of the model: log entries 2, 53, 56, 57, 128. -/
def Obligations.PressOperations : Prop :=
  (∀ w s k e a o, runs pkLoadCmd w s k = true → e = envAt w s k → a = atBlock s k → slotAt a e.a = some o →
    exec (.pkLoad w) s = .next (answered pkLoadCmd w s k
      { s := setOp e.a { o with state := .loaded, data := fit (64 * 2 ^ o.k) (addrRead e a e.b) } a })) ∧
  (∀ w s k e a o, runs pkReadCmd w s k = true → e = envAt w s k → a = atBlock s k → slotAt a e.a = some o →
    exec (.pkRead w) s = .next (answered pkReadCmd w s k { s := addrWrite e ((opData o).take e.b) a })) ∧
  (∀ w s k e a, runs pkOpCmd w s k = true → e = envAt w s k → a = atBlock s k →
    exec (.pkOp w) s = .next (answered pkOpCmd w s k
      { s := { a with press := { a.press with queue := a.press.queue ++
          [{ func := e.b % 256, vault := nb e.a 8, slot := e.a % 256, imm := e.imm % 2 ^ 60, cseq := e.cseq }] } }
        st := stPending, event := some 0x7007 })) ∧
  (∀ w s k a, runs pkAbortCmd w s k = true → a = atBlock s k → a.press.running = none →
    exec (.pkAbort w) s = .next (serveKeyx (answered pkAbortCmd w s k { s := a }))) ∧
  (∀ w s k a op r, runs pkAbortCmd w s k = true → a = atBlock s k → a.press.running = some op →
    op.result = some r → opDue a op = false →
    exec (.pkAbort w) s = .next (serveKeyx (answered pkAbortCmd w s k
      { s := stopOp op stAborted ((a.clk.root - op.since) / 8) a }))) ∧
  (∀ t n s a op l, a = comeTo t s → pressIdle a = true → internalWaits a = false → a.press.queue = op :: l →
    op.vault = false →
    exec (.pressOpStart ⟨t, n⟩) s = .next (bump 17 1 0 48 1 { a with press := { a.press with
      queue := l, running := some { op with since := a.clk.root } } })) ∧
  (∀ t s a b c op l, a = comeTo t s → pressIdle a = true → internalWaits a = false → a.press.queue = op :: l →
    op.vault = true → c = committedFor op.slot a →
    b = bump 17 1 0 48 1 { c with press := { c.press with
      queue := l, running := some { op with since := c.clk.root } } } →
    exec (.pressOpStart ⟨t, 0⟩) s = .next
      (if nf (getSlot c op.slot).attr 31 28 = 0 then endOp { op with since := c.clk.root } stKeyErased 0 b
       else if keyFits op.func (getSlot c op.slot).attr = false then
         endOp { op with since := c.clk.root } stAttr 0 b
       else if c.vault.drbgStopped = true then endOp { op with since := c.clk.root } stFault 0 b
       else { b with press := { b.press with
         running := some { op with since := c.clk.root, secret := (getSlot c op.slot).payload } } })) ∧
  (∀ t s a op n o out, a = comeTo t s → a.press.running = some op → op.result = some (0, out) →
    op.mismatch = false →
    op.since + 8 * opCycles a op 0 ≤ a.clk.root → fnOutput op.func = some n → slotAt a (nf op.imm 49 40) = some o →
    op.func ≠ 0xA2 →
    exec (.pressOpComplete t) s = .next (serveKeyx (endOp op 0 (opCycles a op 0)
      (setOp (nf op.imm 49 40) { o with state := .result, data := fit (64 * 2 ^ o.k) out } a)))) ∧
  (∀ t s a op st, a = comeTo t s → a.press.running = some op → op.result = some (st, []) → st ≠ 0 →
    op.mismatch = false →
    op.since + 8 * opCycles a op st ≤ a.clk.root → op.func ≠ 0xA2 →
    exec (.pressOpComplete t) s = .next (serveKeyx (endOp op st (opCycles a op st) a))) ∧
  (∀ t s a op r, a = comeTo t s → a.press.running = some op → op.result = some r → op.mismatch = true →
    op.since + 8 * opCycles a op r.1 ≤ a.clk.root →
    exec (.pressOpComplete t) s = .next
      (serveKeyx (stopOp op r.1 (opCycles a op r.1) (raise 0x7009 0 0 (bump 17 1 10 48 1 a)))))

/-- R384, R390, R392, R393: what SHAPE and the public functions of the Press compute. SHAPE removes the slots it meets and
makes a zeroed EMPTY one; a verify function answers ST_OK or ST_AUTH; a failed validation answers its status and no
output; a result on which the redundant path does not agree is a fault (R398).
R390, R392, R396 to R398: what the functions on a Key Vault key compute, after the request to the DRBG that blinds the key,
and that a result on which the redundant path does not agree is never given out. The functions are written from their
standards (log entry 55).
It rests on choices of the model: log entries 2, 54, 55. -/
def Obligations.PressAlgorithms : Prop :=
  (∀ t s a b op g n, a = comeTo t s → a.press.running = some op → op.func = 1 → op.result = none →
    g = nf op.imm 9 0 → n = nf op.imm 19 10 → b = shape g n a →
    exec (.pkShape t) s = .next { b with press := { b.press with
      running := some { op with result := some (0, []), work := shapeGranules a g n } } }) ∧
  (∀ (run : PressRun) s a op c q, a = comeTo run.t s → a.press.running = some op → op.result = none →
    op.vault = false → 1 ≤ c → c ≤ 3 → op.func = 0x30 + c → firstFail (validation a op) = 0 →
    q = upsetPoint c run.upset (ecdsaPoint c (pointOf c (srcData a op 0)) ((srcData a op 1).take (digF c))
      (srcNat a op 2 0 (curveF c)) (srcNat a op 2 (curveF c) (curveF c))) →
    exec (.ecdsaVerify run) s = .next { a with press := { a.press with running := some { op with
      result := some (if offCurve c q then (stFault, []) else verdict (abscissaIs (curveN c) (srcNat a op 2 0 (curveF c)) q))
      mismatch := offCurve c q, work := 0 } } }) ∧
  (∀ (run : PressRun) s a op c q, a = comeTo run.t s → a.press.running = some op → op.result = none →
    op.vault = false → 1 ≤ c → c ≤ 3 → op.func = 0x50 + c → firstFail (validation a op) = 0 →
    q = upsetPoint c run.upset (ecMul c (srcNat a op 1 0 (curveF c)) (pointOf c (srcData a op 0))) →
    exec (.ecMul run) s = .next { a with press := { a.press with running := some { op with
      result := some (if offCurve c q then (stFault, []) else (0, pointBytes c q))
      mismatch := offCurve c q, work := 0 } } }) ∧
  (∀ (run : PressRun) s a op c n z o, a = comeTo run.t s → a.press.running = some op → op.result = none →
    op.vault = false → 1 ≤ c → c ≤ 3 → op.func = 0x60 + c → n = modF c → firstFail (validation a op) = 0 →
    z = beBytes n (powMod (srcNat a op 2 0 n) (8 * n) (srcNat a op 0 0 n) (srcNat a op 1 0 n)) →
    o = upsetOctets run.upset z →
    exec (.modexp run) s = .next { a with press := { a.press with running := some { op with
      result := some (if o = z then (0, z) else (stFault, []))
      mismatch := decide (o ≠ z), work := 0 } } }) ∧
  (∀ (run : PressRun) s a op c n z o, a = comeTo run.t s → a.press.running = some op → op.result = none →
    op.vault = false → 2 ≤ c → c ≤ 3 → op.func = 0x70 + c → n = modF c → firstFail (validation a op) = 0 →
    z = beBytes n (powMod (srcNat a op 0 0 n) 32 (srcNat a op 2 0 n) (srcNat a op 0 n 4)) →
    o = upsetOctets run.upset z →
    exec (.rsaPkcs1 run) s = .next { a with press := { a.press with running := some { op with
      result := some (if o = z then verdict (decide (z = pkcs1Encoded n ((srcData a op 1).take 48))) else (stFault, []))
      mismatch := decide (o ≠ z), work := 0 } } }) ∧
  (∀ (run : PressRun) s a op c n z o, a = comeTo run.t s → a.press.running = some op → op.result = none →
    op.vault = false → 2 ≤ c → c ≤ 3 → op.func = 0x80 + c → n = modF c → firstFail (validation a op) = 0 →
    z = beBytes n (powMod (srcNat a op 0 0 n) 32 (srcNat a op 2 0 n) (srcNat a op 0 n 4)) →
    o = upsetOctets run.upset z →
    exec (.rsaPss run) s = .next { a with press := { a.press with running := some { op with
      result := some (if o = z then verdict (pssOk n ((srcData a op 1).take 48) z) else (stFault, []))
      mismatch := decide (o ≠ z), work := 0 } } }) ∧
  (∀ (run : PressRun) s a op v z o, a = comeTo run.t s → a.press.running = some op → op.result = none →
    op.vault = false → op.func = 0xA3 →
    v = dsaVerify ((srcData a op 0).take 2592) (srcCounted a op 1 2) (srcCounted a op 2 1) ((srcData a op 3).take 4627) →
    z = beBytes 1 (bn v) →
    o = upsetOctets run.upset z →
    exec (.dsaVerify run) s = .next { a with press := { a.press with running := some { op with
      result := some (if o = z then verdict v else (stFault, []))
      mismatch := decide (o ≠ z), work := 0 } } }) ∧
  (∀ up op a st, op.vault = false → op.func ≠ 0xA2 → firstFail (validation a op) = st → st ≠ 0 →
    perform up op a = { a with press := { a.press with running := some { op with
      result := some (st, []), mismatch := false, work := 0 } } }) ∧
  (∀ (run : PressRun) s a b op c q, a = comeTo run.t s → a.press.running = some op → op.result = none →
    b = (internalRandom 8 a).2 →
    op.vault = true → 1 ≤ c → c ≤ 3 → op.func = 0x10 + c →
    q = upsetPoint c run.upset (ecMul c (secretScalar c op.secret) (curveG c)) →
    exec (.ecPub run) s = .next { b with press := { b.press with running := some { op with
      result := some (if offCurve c q then (stFault, []) else (0, pointBytes c q))
      mismatch := offCurve c q, work := 0 } } }) ∧
  (∀ (run : PressRun) s a b op c d dg r z o, a = comeTo run.t s → a.press.running = some op → op.result = none →
    b = (internalRandom 48 a).2 → op.vault = true → 1 ≤ c → c ≤ 3 → op.func = 0x20 + c →
    d = secretScalar c op.secret → dg = (srcData a op 0).take (digF c) →
    r = ecdsaSig c d (signNonce c op dg (internalRandom 48 a).1) dg →
    z = beBytes (curveF c) r.2 →
    o = upsetOctets run.upset z →
    exec (.ecdsaSign run) s = .next { b with press := { b.press with running := some { op with
      result := some (if o = z then (0, beBytes (curveF c) r.1 ++ z) else (stFault, []))
      mismatch := decide (o ≠ z), work := 0 } } }) ∧
  (∀ (run : PressRun) s a b op c q, a = comeTo run.t s → a.press.running = some op → op.result = none →
    b = (internalRandom 8 a).2 →
    op.vault = true → 1 ≤ c → c ≤ 3 → op.func = 0x40 + c → firstFail (validation a op) = 0 →
    q = upsetPoint c run.upset (ecMul c (secretScalar c op.secret) (pointOf c (srcData a op 0))) →
    exec (.ecdhMac run) s = .next { b with press := { b.press with running := some { op with
      result := some (if offCurve c q then (stFault, []) else (0, pressMac (abscissa c q)
        ((srcData a op 0).take (2 * curveF c)) (srcCounted a op 1 2)))
      mismatch := offCurve c q, work := 0 } } }) ∧
  (∀ (run : PressRun) s a b op z o, a = comeTo run.t s → a.press.running = some op → op.result = none →
    b = (internalRandom 8 a).2 → op.vault = true → op.func = 0x91 →
    z = fit 1568 (kemPub op.secret) →
    o = upsetOctets run.upset z →
    exec (.kemPub run) s = .next { b with press := { b.press with running := some { op with
      result := some (if o = z then (0, z) else (stFault, []))
      mismatch := decide (o ≠ z), work := 0 } } }) ∧
  (∀ (run : PressRun) s a b op z o, a = comeTo run.t s → a.press.running = some op → op.result = none →
    b = (internalRandom 8 a).2 → op.vault = true → op.func = 0x93 →
    z = pressMac (fit 32 (kemDecaps op.secret ((srcData a op 0).take 1568)))
      ((srcData a op 0).take 1568) (srcCounted a op 1 2) →
    o = upsetOctets run.upset z →
    exec (.kemMac run) s = .next { b with press := { b.press with running := some { op with
      result := some (if o = z then (0, z) else (stFault, []))
      mismatch := decide (o ≠ z), work := 0 } } }) ∧
  (∀ (run : PressRun) s a b op z o, a = comeTo run.t s → a.press.running = some op → op.result = none →
    b = (internalRandom 8 a).2 → op.vault = true → op.func = 0xA1 →
    z = fit 2592 (dsaPub (op.secret.take 32)) →
    o = upsetOctets run.upset z →
    exec (.dsaPub run) s = .next { b with press := { b.press with running := some { op with
      result := some (if o = z then (0, z) else (stFault, []))
      mismatch := decide (o ≠ z), work := 0 } } }) ∧
  (∀ (run : PressRun) s a b op x z o m, a = comeTo run.t s → a.press.running = some op → op.result = none →
    b = (internalRandom 32 a).2 → op.vault = true → op.func = 0xA2 →
    x = dsaSign (op.secret.take 32) (srcCounted a op 0 2) (srcCounted a op 1 1) (internalRandom 32 a).1 →
    z = (match x with
      | some sig => (fit 4627 sig).drop 64
      | none => []) → o = upsetOctets run.upset z → m = decide (o ≠ z) →
    exec (.dsaSign run) s = .next { b with press := { b.press with running := some { op with
      result := some (match x with
        | some sig => if o = z then (0, sig.take 64 ++ z) else (stFault, [])
        | none => (stFault, []))
      mismatch := m
      work := match x with
        | some _ => min 814 (max 1 (dsaAttempts (op.secret.take 32) (srcCounted a op 0 2) (srcCounted a op 1 1)
            (internalRandom 32 a).1))
        | none => 814 } } })

/-- R424, R426, R446: MG.REGION creates a region with fresh keys whose birth is the tree clock, or removes one, after which the
rootstock creates its own regions where they are missing (R114); MG.RIGHTS
writes its rights word; MG.SCRUB starts a pass, or stops none where none runs.
R443, R444: MG.REKEY ROTATE frees the old alias, makes the key ID in use the alias and loads the new one; REBUILD of a
region that is not revoked marks it; both answer ST_PENDING and raise 0x800A when all pages have passed; a scrub pass
checks every line that is not fresh and its event counts those checked, corrected and poisoned (R446).
It rests on choices of the model: log entries 2, 60, 61, 109, 123. -/
def Obligations.Regions : Prop :=
  (∀ w s k e a b v, runs mgRegionCreateCmd w s k = true → e = envAt w s k →
    a = (mgKeySlot 254 e (atBlock s k)).elim (atBlock s k) (fun i => committedFor i (atBlock s k)) →
    v = beNat (readMem a e.imm 32) →
    b = loadKey (nf v 251 246) (if nb v 254 then some (nf v 245 238) else none)
      (freshPages (nf v 225 202) (nf v 201 178) (dropQuarantine (nf v 225 202) (nf v 201 178) a)) →
    exec (.mgRegionCreate w) s = .next (answered mgRegionCreateCmd w s k
      { s := { setRegion b e.a { ksrc := nb v 254, retain_ := nb v 253, patrol := nb v 252, keyid := nf v 251 246
                                 slot := nf v 245 238, kgen := nf v 237 226, base := nf v 225 202
                                 pages := nf v 201 178, rights := nf v 177 168, birth := b.mg.treeClock } with
          mg := { (setRegion b e.a { ksrc := nb v 254, retain_ := nb v 253, patrol := nb v 252, keyid := nf v 251 246
                                     slot := nf v 245 238, kgen := nf v 237 226, base := nf v 225 202
                                     pages := nf v 201 178, rights := nf v 177 168
                                     birth := b.mg.treeClock }).mg with treeClock := b.mg.treeClock + 1 } } })) ∧
  (∀ w s k e a, runs mgRegionRemoveCmd w s k = true → e = envAt w s k → a = atBlock s k → getRegion a e.a = none →
    exec (.mgRegionRemove w) s = .next (answered mgRegionRemoveCmd w s k { s := rootstockMemory a })) ∧
  (∀ w s k e a b g, runs mgRegionRemoveCmd w s k = true → e = envAt w s k → a = atBlock s k → getRegion a e.a = some g →
    b = dropKey g.keyid (g.alias_.elim (endRegionOps g stAborted a) (fun o => dropKey o (endRegionOps g stAborted a))) →
    a.cls.spillArea = false → b.cls.spillArea = false →
    exec (.mgRegionRemove w) s = .next (answered mgRegionRemoveCmd w s k
      { s := rootstockMemory (dropQuarantine g.base g.pages { b with
          mg := { b.mg with regions := tabDel b.mg.regions e.a } }) })) ∧
  (∀ w s k e a g, runs mgRightsCmd w s k = true → e = envAt w s k → a = atBlock s k → getRegion a e.a = some g →
    exec (.mgRights w) s = .next (answered mgRightsCmd w s k { s := setRegion a e.a { g with rights := e.imm } })) ∧
  (∀ w s k e a g, runs mgScrubStartCmd w s k = true → e = envAt w s k → a = atBlock s k → getRegion a e.a = some g →
    exec (.mgScrubStart w) s = .next (answered mgScrubStartCmd w s k
      { s := setRegion a e.a { g with scrubbing := some e.cseq }, st := stPending, event := some 0x800B })) ∧
  (∀ w s k e a, runs mgScrubStopCmd w s k = true → e = envAt w s k → a = atBlock s k →
    (∀ g, getRegion a e.a = some g → g.scrubbing = none) →
    exec (.mgScrubStop w) s = .next (answered mgScrubStopCmd w s k { s := a })) ∧
  (∀ w s k e a b g v, runs mgRotateCmd w s k = true → e = envAt w s k →
    a = (mgKeySlot 252 e (atBlock s k)).elim (atBlock s k) (fun i => committedFor i (atBlock s k)) →
    getRegion a e.a = some g → v = beNat (readMem a e.imm 32) → b = g.alias_.elim a (fun o => dropKey o a) →
    exec (.mgRekeyRotate w) s = .next (answered mgRotateCmd w s k
      { s := setRegion (loadKey (nf v 251 246) (if nb v 252 then some (nf v 245 238) else none) b) e.a { g with
          ksrc := nb v 252, slot := nf v 245 238, kgen := nf v 237 226, alias_ := some g.keyid, keyid := nf v 251 246
          rotating := true, rotCseq := some e.cseq }
        st := stPending, event := some 0x800A })) ∧
  (∀ w s k e a g, runs mgRebuildCmd w s k = true → e = envAt w s k →
    a = (mgKeySlot 252 e (atBlock s k)).elim (atBlock s k) (fun i => committedFor i (atBlock s k)) →
    getRegion a e.a = some g → g.revoked = false →
    exec (.mgRekeyRebuild w) s = .next (answered mgRebuildCmd w s k
      { s := setRegion a e.a { g with rebuilding := some e.cseq }, st := stPending, event := some 0x800A })) ∧
  (∀ t r l s a b g, a = comeTo t s → getRegion a r = some g → g.rotating = true →
    b = (pagesToMove a g).foldl (fun s p => repage r p g.keyid none l s) a →
    exec (.mgRotationComplete t ⟨r, l⟩) s = .next (g.rotCseq.elim id (fun q => complete 0x800A q stOk g.keyid 0)
      (bump 16 0 17 48 1 (setRegion (g.alias_.elim b (fun o => dropKey o b)) r
        { g with rotating := false, rotCseq := none })))) ∧
  (∀ t r s a g q, a = comeTo t s → getRegion a r = some g → g.rebuilding = some q →
    exec (.mgRebuildComplete t r) s = .next (complete 0x800A q stOk g.keyid 0 (setRegion
      ((a.mg.quarantine.filter (fun q => nodeMeets q.1 q.2 g.base g.pages)).foldl (fun s q => rebuildEntry q s) a) r
      { g with rebuilding := none }))) ∧
  (∀ t (pass : ScrubPass) s a b g q l mended bad, a = comeTo t s → getRegion a pass.region = some g →
    g.scrubbing = some q → l = liveLines a g →
    b = l.zipIdx.foldl (fun s x => scrubLine pass.region x.1 (pass.found.getD x.2 .none) s) a →
    mended = ((l.zipIdx).filter (fun x => !linePoisoned (getLine a x.1.1 x.1.2) && lineMended (pass.found.getD x.2 .none))).length →
    bad = (l.filter (fun x => linePoisoned (getLine b x.1 x.2))).length →
    exec (.mgScrubComplete t pass) s = .next (complete 0x800B q stOk 0
      (min l.length (2 ^ 32 - 1) * 2 ^ 32 + min mended 65535 * 2 ^ 16 + min bad 65535)
      (bump 16 (pass.region + 1) 4 48 1 (bump 16 0 21 48 l.length
        ((getRegion b pass.region).elim b (fun n => setRegion b pass.region { n with scrubbing := none }))))))

/-- R418, R419, R425, R429, R436, R446: training ends READY with the installed size, and the rootstock creates its regions (R114),
or UNAVAILABLE; an access that fails a
check is answered with its status and changes nothing but its counters and event; a line never written reads as zeros; a
whole line is written under the next minor; the memory-port copy; a patrol pass over a line.
It rests on choices of the model: log entries 2, 58, 59, 62, 123, 130. -/
def Obligations.MemoryAccesses : Prop :=
  (∀ t s a p n, a = comeTo t s → a.mg.ready = .training → n = installedPages a.mg.setting →
    exec (.mgTrainingComplete t true p) s = .next
      (rootstockMemory (raise 0x8001 0 (n * 4096) { a with mg := { a.mg with ready := .ready n } })) ∧
    exec (.mgTrainingComplete t false p) s = .next
      (raise 0x8002 0 p { a with mg := { a.mg with ready := .unavailable } })) ∧
  (∀ t m x s a, a = comeTo t s → mgNotReady a ≠ 0 →
    exec (.mgAccess t m x) s = .next (emit (.mgAnswer (mgNotReady a) []) a)) ∧
  (∀ t m x s a, a = comeTo t s → mgNotReady a = 0 → accessFail a m x.write x.addr ≠ 0 →
    exec (.mgAccess t m x) s = .next
      (emit (.mgAnswer (accessFail a m x.write x.addr) []) (refuseAccess x.addr a))) ∧
  (∀ t m x s a b r g, a = comeTo t s → mgNotReady a = 0 → accessFail a m x.write x.addr = 0 →
    regionOf a (pageOf x.addr) = some (r, g) → loadPath (pageOf x.addr) x.fault a = (true, b) → x.write = false →
    tabGet 0 (getBlock b (pageOf x.addr)).minors (lineIn x.addr) = 0 →
    exec (.mgAccess t m x) s = .next
      (emit (.mgAnswer 0 (List.replicate 64 0)) (bump 16 0 3 48 1 (bump 16 (r + 1) 0 48 1 (bump 16 0 1 48 1 b))))) ∧
  (∀ t m x s a b r g, a = comeTo t s → mgNotReady a = 0 → accessFail a m x.write x.addr = 0 →
    regionOf a (pageOf x.addr) = some (r, g) → loadPath (pageOf x.addr) x.fault a = (true, b) → x.write = true →
    x.mask = 2 ^ 64 - 1 →
    exec (.mgAccess t m x) s = .next (emit (.mgAnswer 0 [])
      (writeLine r (pageOf x.addr) (lineIn x.addr) g (fit 64 x.data) x.others (bump 16 (r + 1) 1 48 1 b)))) ∧
  (∀ t l o s a x v, a = comeTo t s → a.seq.active.isSome = true → activeNow a = some x → beNat (readMem a 0x6FFEF 1) = 1 →
    v = beNat (readMem a 0x6FFE0 32) → fieldFail (portDescChecks v) ≠ 0 →
    exec (.memoryPortCopy t ⟨l, o⟩) s = .next
      (storeMem a 0x6FFEF (beBytes 1 0 ++ beBytes 1 (fieldFail (portDescChecks v))))) ∧
  (∀ t l o s a b x v st, a = comeTo t s → a.seq.active.isSome = true → activeNow a = some x → beNat (readMem a 0x6FFEF 1) = 1 →
    v = beNat (readMem a 0x6FFE0 32) → fieldFail (portDescChecks v) = 0 →
    (List.range (nf v 159 144)).foldl (fun r i => portLine x v i (l.getD i .none) o r) (0, a) = (st, b) →
    exec (.memoryPortCopy t ⟨l, o⟩) s = .next (storeMem b 0x6FFEF (beBytes 1 0 ++ beBytes 1 st))) ∧
  (∀ t n f s a p, a = comeTo t s → a.mg.ready = .ready p → patrolled a n = true →
    exec (.patrolScrub t n f) s = .next (patrolLine n f a))

/-- R484 to R488, R482: LOG.WRITE raises a software event with the context's number in OBJ; LOG.FREEZE, LOG.THAW and LOG.CLEAR
record what is raised, then 0xB000, 0xB001 with MISSED, or 0xB002 with the count; on a book already frozen or not frozen
they do nothing. A read of the window latches the record at word 0 and advances after word 7.
It rests on choices of the model: log entries 2, 91. -/
def Obligations.BookInstructions : Prop :=
  (∀ w s k e a, runs logWriteCmd w s k = true → e = envAt w s k → a = atBlock s k →
    exec (.logWrite w) s = .next (answered logWriteCmd w s k
      { s := raiseEv { code := e.a, obj := if k % 2 = 1 then k / 2 else 16 + k / 2, data := e.imm, flags := 0x40 } a })) ∧
  (∀ w s k a b, runs logFreezeCmd w s k = true → a = atBlock s k → a.book.frozen = false →
    b = recordNew (nowEv 0xB000 0 (recordAll a)) (recordAll a) →
    exec (.logFreeze w) s = .next (answered logFreezeCmd w s k
      { s := { b with book := { b.book with frozen := true } } })) ∧
  (∀ w s k a, runs logFreezeCmd w s k = true → a = atBlock s k → a.book.frozen = true →
    exec (.logFreeze w) s = .next (answered logFreezeCmd w s k { s := a })) ∧
  (∀ w s k a b, runs logThawCmd w s k = true → a = atBlock s k → a.book.frozen = true → b = recordAll a →
    exec (.logThaw w) s = .next (answered logThawCmd w s k
      { s := recordNew (nowEv 0xB001 b.book.missed b) { b with book := { b.book with frozen := false, missed := 0 } } })) ∧
  (∀ w s k a, runs logThawCmd w s k = true → a = atBlock s k → a.book.frozen = false →
    exec (.logThaw w) s = .next (answered logThawCmd w s k { s := a })) ∧
  (∀ w s k a b, runs logClearCmd w s k = true → a = atBlock s k →
    b = recordMany (a.book.staged.filter (fun e => decide (e.at_ < a.clk.root))).length a →
    exec (.logClear w) s = .next (answered logClearCmd w s k
      { s := recordNew (nowEv 0xB002 b.book.count b)
          { b with book := { b.book with recs := [], count := 0, opens := [], cursor := 0 } } })) ∧
  (∀ t s a l, a = comeTo t s → a.power.powerGood = true → l = recordBytes a a.book.cursor →
    exec (.cbWindowRead t 0) s = .next
      (emit (.readData (mf l 0 4)) { a with book := { a.book with latch := l } })) ∧
  (∀ t s a, a = comeTo t s → a.power.powerGood = true → a.book.autoinc = true →
    a.book.cursorAt ≠ some (pclkEdge a) →
    exec (.cbWindowRead t 7) s = .next { (emit (.readData (mf a.book.latch 28 4)) a) with
      book := { a.book with cursor := (a.book.cursor + 1) % 2 ^ 31 } }) ∧
  (∀ t n s a, a = comeTo t s → a.power.powerGood = true → 1 ≤ n → n < 8 →
    (n = 7 → a.book.autoinc = false) →
    exec (.cbWindowRead t n) s = .next (emit (.readData (mf a.book.latch (4 * n) 4)) a))

/-- R318, R319, R478: EV.BIND writes the entry bound to its code and mask, else the lowest free one, and EV.UNBIND frees it;
the first event in the order of R478 leaves staging and is recorded, and the codeword that holds it may be found mended
or lost (R220); a handler starts at its entry with the record in w1 to
w4.
R343, R344, R321, R309: a WAIT.EV ends with ST_TIMEOUT and a WAIT.T with ST_OK at its time; a command without status
for 100 µs ends with ST_TIMEOUT; an operation that has ended raises its completion event; a transfer under the HOST flag
that is late ends its instruction with ST_TIMEOUT and counts.
It rests on choices of the model: log entries 2, 21, 25, 91. -/
def Obligations.HandlersAndWaits : Prop :=
  (∀ w s k e a i (b : Binding), runs evBindCmd w s k = true → e = envAt w s k → a = atBlock s k →
    b = ⟨e.a, e.b % 2 ^ 16, nf e.b 19 16, nf e.b 22 21, e.imm⟩ →
    boundEntry a e.a (e.b % 2 ^ 16) = some i →
    exec (.evBind w) s = .next (answered evBindCmd w s k
      { s := journalEntry { a with seq := { a.seq with
          boundBefore := (qclkEdge a, bindingsNow a), bindings := tabPut a.seq.bindings i b } } })) ∧
  (∀ w s k e a i (b : Binding), runs evBindCmd w s k = true → e = envAt w s k → a = atBlock s k →
    b = ⟨e.a, e.b % 2 ^ 16, nf e.b 19 16, nf e.b 22 21, e.imm⟩ →
    boundEntry a e.a (e.b % 2 ^ 16) = none → freeBinding a = some i →
    exec (.evBind w) s = .next (answered evBindCmd w s k
      { s := journalEntry { a with seq := { a.seq with
          boundBefore := (qclkEdge a, bindingsNow a), bindings := tabPut a.seq.bindings i b } } })) ∧
  (∀ w s k e a i, runs evUnbindCmd w s k = true → e = envAt w s k → a = atBlock s k →
    boundEntry a e.a (e.b % 2 ^ 16) = some i →
    exec (.evUnbind w) s = .next (answered evUnbindCmd w s k
      { s := journalEntry { a with seq := { a.seq with
          boundBefore := (qclkEdge a, bindingsNow a), bindings := tabDel a.seq.bindings i } } })) ∧
  (∀ t s a e, a = comeTo t s → firstEv (a.book.staged.filter (fun e => decide (e.at_ ≤ a.clk.root))) = some e →
    exec (.eventRecord ⟨t, 0⟩) s = .next (recordEv e { a with book := { a.book with staged := a.book.staged.erase e } })) ∧
  (∀ t n s a b e, a = comeTo t s → firstEv (a.book.staged.filter (fun e => decide (e.at_ ≤ a.clk.root))) = some e →
    0 < n → b = codewordRead (40960 + a.book.staged.idxOf e % 1024) 0 n a →
    exec (.eventRecord ⟨t, n⟩) s = .next
      (if 3 < n then b else recordEv e { b with book := { b.book with staged := b.book.staged.erase e } })) ∧
  (∀ t l s a b en g r rest, a = comeTo t s → l < 16 → executing a = true → (getCtx a (2 * l)).run = .idle →
    tabGet [] a.seq.activations l = (en, g, r) :: rest →
    b = { a with seq := { a.seq with activations := tabSet [] a.seq.activations l rest } } →
    exec (.handlerStart t l) s = .next (commit (setCtx b (2 * l)
      { writeRegs (getCtx b (2 * l)) (recRegs (beBytes 32 r)) with
        pc := en, run := .ready, mask := maskOf b g, lastPending := none, doneEv := none }))) ∧
  (∀ t k s a c m u, a = comeTo t s → executing a = true → (getCtx a k).run = .waitEv c m (some u) → u < a.clk.root →
    exec (.waitEvTimeout t k) s = .next (commit (finish k (some stTimeout) a))) ∧
  (∀ t k s a q u, a = comeTo t s → executing a = true → (getCtx a k).run = .waitSeq q (some u) → u < a.clk.root →
    exec (.waitEvTimeout t k) s = .next (commit (finish k (some stTimeout) a))) ∧
  (∀ t k s a u, a = comeTo t s → executing a = true → (getCtx a k).run = .waitQ u → u ≤ a.clk.root →
    exec (.waitTExpiry t k) s = .next (commit (finish k (some stOk) a))) ∧
  (∀ t k s a u, a = comeTo t s → executing a = true → (getCtx a k).run = .waitAbs u → u ≤ a.clk.tod →
    exec (.waitTExpiry t k) s = .next (commit (finish k (some stOk) a))) ∧
  (∀ t k s a x q c, a = comeTo t s → a.seq.active = some x → (getCtx a k).run = .waitStatus q c →
    (executing a = true ∨ a.seq.goOwed = true) → c + 1000000 < a.clk.root →
    exec (.commandTimeout t k) s = .next (tryGo (wakeSlots (commit (finish k (some stTimeout) a))))) ∧
  (∀ t q s a p st x d, a = comeTo t s → a.seq.pendOps.find? (fun p => p.cseq == q) = some p →
    p.ended = some (st, x, d) → p.event ≠ 0x7001 →
    exec (.commandCompletion t q) s = .next (complete p.event q st x d a)) ∧
  (∀ t q s a p st x d, a = comeTo t s → a.seq.pendOps.find? (fun p => p.cseq == q) = some p →
    p.ended = some (st, x, d) → p.event = 0x7001 →
    exec (.commandCompletion t q) s = .next
      (complete 0x7001 q st x d { a with vault := { a.vault with journal := none } }))

/-- R315, R316, R307: while a program runs the next descriptor is fetched; a program whose descriptor and copies are good starts with its buffer and window filled and its registers,
flags and SR clear; a copy that fails or is late ends it before its first instruction with 0x600A; at its time limit it ends
with ST_TIMEOUT.
It rests on choices of the model: log entries 2, 16, 20, 123, 127. -/
def Obligations.ProgramFlow : Prop :=
  (∀ t q d code data s a b p, a = comeTo t s → q < 16 → executing a = true → a.hostIf.linkUp = true →
    (getQueue a q).enabled = true → (getQueue a q).prog = none → (getQueue a q).fetched = none →
    forwardedQueue a q = false → (getQueue a q).producer ≠ (getQueue a q).consumer → fenceOpen a d = true →
    fieldFail (descChecks (beNat (fit 64 d))) = 0 → p = progOf a.clk.root (beNat (fit 64 d)) →
    b = setCtx (setQueue a q { getQueue a q with fetched := none }) (2 * q + 1)
      { getCtx (setQueue a q { getQueue a q with fetched := none }) (2 * q + 1) with switched := false, last := 0 } →
    exec (.programStart t q d (.bytes code) (.bytes data)) s = .next
      (startProgram q p code (if p.dlen = 0 then [] else data) b) ∧
    exec (.programStart t q d .error (.bytes data)) s = .next (copyFails q p stFault (bump 20 0 1 48 1 b)) ∧
    exec (.programStart t q d .late (.bytes data)) s = .next
      (commit (setCtx (setQueue b q { getQueue b q with prog := some p }) (2 * q + 1)
        { getCtx b (2 * q + 1) with run := .copying b.clk.root }))) ∧
  (∀ t q d code data s a p, a = comeTo t s → q < 16 → a.hostIf.linkUp = true → (getQueue a q).enabled = true →
    forwardedQueue a q = false → (getQueue a q).prog = some p → p.cut = none → p.relay = none →
    (getQueue a q).fetched = none → (getQueue a q).producer ≠ ((getQueue a q).consumer + 1) % 2 ^ 16 →
    exec (.programStart t q d code data) s = .next (setQueue a q { getQueue a q with fetched := some d })) ∧
  (∀ t q s a c p, a = comeTo t s → executing a = true → (getCtx a (2 * q + 1)).run = .copying c → c + 1000000 < a.clk.root →
    (getQueue a q).prog = some p →
    exec (.programCopyTimeout t q) s = .next (copyFails q p stTimeout (bump 20 0 2 48 1 a))) ∧
  (∀ t q s a p, a = comeTo t s → executing a = true → (getCtx a (2 * q + 1)).run = .ready →
    (getCtx a (2 * q + 1)).due = none → (getQueue a q).prog = some p → p.expiry < a.clk.root →
    exec (.programTimeLimit t q) s = .next (endProgram q stTimeout a)) ∧
  (∀ q p code data s, startProgram q p code data s =
    commit (setCtx (setQueue (storeMem (storeMem s (0x70000 + 0x800 * q) (fit (16 * p.len) code)) (0x78000 + 0x800 * q)
      (fit 2048 (fit (16 * p.dlen) data))) q { getQueue s q with prog := some p }) (2 * q + 1)
      { pc := 0x70000 + 0x800 * q, run := .ready }))

/-- R322, R329, R332: SYS.CKPT writes a base image; SYS.SWITCH GO is answered and the takeover follows once no command is
outstanding, behind a base image (R322) whose codewords are read; STAGE begins to stage an image; HOLDOFF stores its seconds.
R305, R306, R325, R330, R331: a fault of the active complex hands control to a standby, or leaves no complex active; an
instruction without end for 200 µs is such a fault; self-tests make a complex standby or failed, and a repaired one that was
active returns after the hold-off.
It rests on choices of the model: log entries 2, 22, 23, 24, 127. -/
def Obligations.Complexes : Prop :=
  (∀ w s k a, runs sysCkptCmd w s k = true → a = atBlock s k →
    exec (.sysCkpt w) s = .next (answered sysCkptCmd w s k { s := { a with seq := { a.seq with
      journal := 0, baseGen := a.seq.baseGen + 1, ckptValid := true, badCw := []
      image := { snapshot a.clk.root a.seq with entries := 0 }
      stoppedUntil := max a.clk.root a.seq.stoppedUntil + 8320 * 8 } } })) ∧
  (∀ w s k a b, runs sysSwitchGoCmd w s k = true → a = atBlock s k →
    b = tryGo (answered sysSwitchGoCmd w s k { s := { a with seq := { a.seq with goOwed := true } } }) →
    exec (.sysSwitchGo w) s = .next (if s.seq.going = none ∧ b.seq.going.isSome = true then readCkpt w.found b else b)) ∧
  (∀ w s k e a, runs sysSwitchStageCmd w s k = true → e = envAt w s k → a = atBlock s k →
    exec (.sysSwitchStage w) s = .next (answered sysSwitchStageCmd w s k
      { s := { a with seq := { a.seq with staging := some (e.imm, e.cseq), staged := none } }
        st := stPending, event := some 0x6005 })) ∧
  (∀ w s k e a, runs sysSwitchHoldoffCmd w s k = true → e = envAt w s k → a = atBlock s k →
    exec (.sysSwitchHoldoff w) s = .next (answered sysSwitchHoldoffCmd w s k
      { s := { a with seq := { a.seq with holdoff := e.imm } } })) ∧
  (∀ s x b, s.seq.goOwed = true → outstanding s = 0 → s.seq.active = some x → health s (1 - x) = .standby →
    b = baseImage s → tryGo s = { b with seq := { b.seq with
      going := some (edgeAt 8 (b.seq.stoppedUntil + 1), false), goOwed := false } }) ∧
  (∀ s, s.seq.goOwed = false → tryGo s = s) ∧
  (∀ t x l s a b, a = comeTo t s → x < 2 → health a x = .active ∨ health a x = .standby → a.seq.active = some x →
    b = readCkpt l a → b.seq.active = some x →
    exec (.complexFault t ⟨x, l⟩) s = .next (activeFault x b)) ∧
  (∀ t x l s a y b, a = comeTo t s → x < 2 → health a x = .active ∨ health a x = .standby → a.seq.active = some y → y ≠ x →
    b = noteFault x a →
    exec (.complexFault t ⟨x, l⟩) s = .next { b with seq := { b.seq with staged := none } }) ∧
  (∀ t k s a x q c, a = comeTo t s → a.seq.active = some x → (getCtx a k).run = .waitStatus q c →
    c + 2000000 < a.clk.root →
    exec (.instructionWatchdog t k) s = .next (activeFault x a)) ∧
  (∀ t s a b x, a = comeTo t s → a.seq.active = some x → health a (1 - x) = .untested →
    b = { a with seq := { a.seq with testedAt := a.clk.root } } →
    exec (.standbySelfTest t true) s = .next (setHealth (1 - x) .standby b) ∧
    exec (.standbySelfTest t false) s = .next (markFailed (1 - x) b)) ∧
  (∀ t s a b x, a = comeTo t s → a.seq.active = some x → health a (1 - x) = .standby →
    a.seq.testedAt + 10000000000 ≤ a.clk.root → b = { a with seq := { a.seq with testedAt := a.clk.root } } →
    exec (.standbySelfTest t true) s = .next (setHealth (1 - x) .standby b) ∧
    exec (.standbySelfTest t false) s = .next (standbyFault (1 - x) b)) ∧
  (∀ t s a b x, a = comeTo t s → a.seq.active = some x → health a (1 - x) = .repairing →
    a.seq.repairFrom + 20000000 ≤ a.clk.root → a.seq.repairBack = true →
    a.seq.holdoff ≠ 0 → x < 2 → b = setHealth (1 - x) .standby a →
    exec (.repairSelfTest t true) s = .next
      { b with seq := { b.seq with holdoffEnd := some (b.clk.root + b.seq.holdoff * 10000000000) } } ∧
    exec (.repairSelfTest t false) s = .next (markFailed (1 - x) a)) ∧
  (∀ t s a u, a = comeTo t s → readyToSwitch a = true → a.seq.holdoffEnd = some u → u ≤ a.clk.root →
    exec (.holdoffExpiry t) s = .next (planned true a)) ∧
  (∀ x s b c, c = abandonStaging (raiseComplex 0x6001 x s) →
    b = { c with seq := { c.seq with
      repairBack := decide (c.seq.active = some x), repairFrom := c.clk.root, going := none, goOwed := false, holdoffEnd := none
      faulted := if c.seq.faulted.contains x then c.seq.faulted else x :: c.seq.faulted
      returnedAt := tabDel c.seq.returnedAt x, faults := c.seq.faults + 1 } } →
    noteFault x s = (match tabFind s.seq.returnedAt x with
      | some u => if s.clk.root ≤ u + 6000000000000 then markFailed x b else setHealth x .repairing b
      | none => setHealth x .repairing b)) ∧
  (∀ x s b, b = noteFault x s →
    activeFault x s = if health b (1 - x) = .standby then takeControl false (1 - x) 300000 b else noActive b)

/-- R454, R469 to R472: CRUST.CFG stores a setting and starts its filter again; the operations of CRUST.ARM extend M4 and arm, disarm, go to test, start
an injection, clear the latches, or clear the log; where the mode is already the one asked for nothing else changes.
R450, R466, R472: an injection without alarm for 40 ms ends with ST_FAULT; the reservoir is charged 500 µs after a cold
start; a cold start leaves every Crust register at its reset value and no valid key cell.
It rests on choices of the model: log entries 2, 76, 77, 116. -/
def Obligations.CrustCommands : Prop :=
  (∀ w s k e a c, runs crustCfgCmd w s k = true → e = envAt w s k → a = atBlock s k →
    c = writeWord (1 + e.a) (writeWord (32 + e.a) (keepBefore a)) →
    exec (.crustCfg w) s = .next (answered crustCfgCmd w s k
      { s := { c with crust := { c.crust with
          settings := tabSet (crustReset e.a) c.crust.settings e.a e.imm
          filterFrom := tabPut c.crust.filterFrom e.a c.clk.root
          watches := (tabFind c.crust.watches e.a).elim c.crust.watches
            (fun w => tabPut c.crust.watches e.a { w with count := 0, since := c.clk.root }) } } })) ∧
  (∀ w s k e a b, runs crustArmCmd w s k = true → e = envAt w s k → a = atBlock s k → a.crust.mode = .disarmed →
    b = drawSeeds (measureArm 1 e a) →
    exec (.crustArm w) s = .next (answered crustArmCmd w s k { s := setCrustMode .armed 24 b })) ∧
  (∀ w s k e a, runs crustArmCmd w s k = true → e = envAt w s k → a = atBlock s k → a.crust.mode = .armed →
    exec (.crustArm w) s = .next (answered crustArmCmd w s k { s := measureArm 1 e a })) ∧
  (∀ w s k e a, runs crustDisarmCmd w s k = true → e = envAt w s k → a = atBlock s k → a.crust.mode ≠ .disarmed →
    exec (.crustDisarm w) s = .next (answered crustDisarmCmd w s k
      { s := setCrustMode .disarmed 25 (measureArm 2 e a) })) ∧
  (∀ w s k e a, runs crustTestCmd w s k = true → e = envAt w s k → a = atBlock s k → a.crust.mode = .disarmed →
    exec (.crustTest w) s = .next (answered crustTestCmd w s k { s := setCrustMode .test 26 (measureArm 3 e a) })) ∧
  (∀ w s k e a b, runs crustInjectCmd w s k = true → e = envAt w s k → a = atBlock s k → b = measureArm 4 e a →
    exec (.crustInject w) s = .next (answered crustInjectCmd w s k
      { s := { b with crust := { b.crust with injecting := some (nf e.imm 59 55, e.cseq, b.clk.root) } }
        st := stPending, event := some 0x9020 })) ∧
  (∀ w s k e a b, runs crustClearCmd w s k = true → e = envAt w s k → a = atBlock s k → b = writeWord 64 (writeWord 65 (measureArm 5 e a)) →
    exec (.crustClear w) s = .next (answered crustClearCmd w s k
      { s := recordCrust 28 (crustBits b) 0
          { b with crust := { b.crust with notify := false, quiesce := false, alarmOut := false } } })) ∧
  (∀ w s k e a b, runs crustLogclearCmd w s k = true → e = envAt w s k → a = atBlock s k → b = measureArm 6 e a →
    exec (.crustLogclear w) s = .next (answered crustLogclearCmd w s k
      { s := recordCrust 27 (crustBits b) 0 { b with crust := { b.crust with log := [], kept := 0, unraised := [] } } })) ∧
  (∀ t s a m q c, a = comeTo t s → a.crust.injecting = some (m, q, c) → c + 400000000 < a.clk.root →
    exec (.crustInjectTimeout t) s = .next (complete 0x9020 q stFault 0 0 (bump 18 0 29 48 1
      { a with crust := { a.crust with injecting := none, watches := tabDel a.crust.watches m } }))) ∧
  (∀ t s a, a = comeTo t s → a.crust.charged = false → a.crust.chargeAt ≤ a.clk.root →
    exec (.reservoirCharged t) s = .next { a with crust := { a.crust with charged := true } }) ∧
  (∀ t s a, a = comeTo t s → a.power.powerGood = false →
    exec (.crustColdStart t) s = .next { a with
      crust := { clockFrom := a.clk.root, chargeAt := a.clk.root + 5000000, log := [⟨0, 30, 0, 0, 0, 0⟩]
                 seq := 1, kept := 1, cause := 2 }
      vault := { a.vault with
        slots := [], journal := none, areaLost := true, maskKeys := [], scramble := 0, remaskRow := 0, serving := none } })

/-- R452, R455 to R461, R464: one sample of a monitor: where it shows the condition its count goes on from the sample of the
period before, and at FILT samples in a row of a live monitor the alarm is answered at the level that the mode allows, and
recorded; a sample of VBAT leaves its reading; what shows the condition is said for each kind of monitor. A stored word that has turned over within 3 bits of a
codeword is corrected, counted and logged as source 29.
It rests on choices of the model: log entries 2, 76, 77, 116. -/
def Obligations.CrustSamples : Prop :=
  (∀ t x s a c m p n since b, a = comeTo t s → a.crust.before.1 ≠ pclkEdge a → m = sightMonitor x → m < 21 →
    injected a m = false → (settledSight x a) = (x, a) → c = { a with crust := { a.crust with
      vbat := match x with | .rail 18 mv _ _ => mv | _ => a.crust.vbat } } → p = periodOf c m c.clk.root →
    (∀ w, tabFind c.crust.watches m = some w → w.period ≠ p) → since = tabGet 0 c.crust.filterFrom m →
    n = (if shows c m c.clk.root since x then nextCount c m p x (tabFind c.crust.watches m) else 0) →
    b = { c with crust := { c.crust with
      watches := tabPut c.crust.watches m { sight := x, at_ := c.clk.root, period := p, count := n, since := since } } } →
    exec (.crustAlarm t [x]) s = .next
      (raiseAlarms (if n = filterCount b m && monitorLive b m then [⟨m, sightDetail b n x⟩] else []) b)) ∧
  (∀ t s a, a = comeTo t s → exec (.crustAlarm t []) s = .next a) ∧
  (∀ x a u, u = executed a x.monitor (crustLevel a x.monitor) →
    raiseAlarms [x] a = injectionPasses [x] (recordAlarm u x (respond u a))) ∧
  (∀ s n root since h, shows s n root since (.case n h) = decide (h ≠ nb (crustSetting s n) 59)) ∧
  (∀ s n root since a b, shows s (4 + n) root since (.loop n a b) = decide ((a, b) ≠ driven s n root)) ∧
  (∀ s m root since mv outside past, injected s m = false →
    shows s m root since (.rail m mv outside past) =
      ((decide (mv < 5 * nf (crustSetting s m) 59 50 ∨ 5 * nf (crustSetting s m) 49 40 < mv) &&
        decide (1000 * crustFilt m (crustSetting s m) ≤ min outside (root - since))) || fastTrips m mv past)) ∧
  (∀ s root since die c, s.crust.onVbat = false → shows s 19 root since (.temp die c) =
    (die.take 4).any (fun x => decide (x < crustLow 19 (crustSetting s 19) ∨ crustHigh 19 (crustSetting s 19) < x))) ∧
  (∀ s root since die c, s.crust.onVbat = true → shows s 19 root since (.temp die c) =
    decide (c < crustLow 19 (crustSetting s 19) ∨ crustHigh 19 (crustSetting s 19) < c)) ∧
  (∀ s n phase root since, shows s 20 root since (.clock n phase) = decide (n < 200000 ∨ 300000 < n ∨ phase < 300)) ∧
  (∀ id mask s w i, w = storedWord s id ^^^ mask % 2 ^ 16 → (wordCodes id).getD i 0 ≠ w → s.power.powerGood = true →
    (wordCodes id).findIdx? (fun c => decide (distance c w ≤ 3)) = some i →
    turnOver id mask s = recordCrust 29 (crustBits (bump 18 0 22 48 1 s)) 0 (correctWord id i (bump 18 0 22 48 1 s)))

/-- R462, R465: monitor 21 is live and responds at ERASE_ALL in every state, whatever the settings and the mode. For every other
monitor a level above NOTIFY is carried out as NOTIFY in DISARMED, with CAPPED in the record's SOURCE, and every level is
carried out as LOG in TEST. -/
def Obligations.CrustLevels : Prop :=
  (∀ s l, monitorLive s 21 = true ∧ crustLevel s 21 = 4 ∧ executed s 21 l = 4 ∧ nb (alarmSource s 21) 5 = false) ∧
  (∀ s m, m < 21 → s.crust.mode = .disarmed → 1 < crustLevel s m →
    executed s m (crustLevel s m) = 1 ∧ nb (alarmSource s m) 5 = true) ∧
  (∀ s m, m < 21 → s.crust.mode = .disarmed → crustLevel s m ≤ 1 →
    executed s m (crustLevel s m) = crustLevel s m ∧ nb (alarmSource s m) 5 = false) ∧
  (∀ s m l, m < 21 → s.crust.mode = .test → executed s m l = 0 ∧ nb (alarmSource s m) 5 = false)

/-- R474: the first 8 records after a cold start or LOGCLEAR stay, the other 56 circulate: a new record joins a log that has
room, and takes the place of the oldest of the 56 in one that has none. A confirmation with the SOURCE and LEVELS of the newest
record adds one to its REPEAT, up to 65 535, and writes no record. -/
def Obligations.CrustLogCirculates : Prop :=
  (∀ x y d s r, s.crust.log.getLast? = some r → x % 32 < 22 → r.source = x → r.levels = y →
    (logCrust x y d s).crust = { s.crust with
      log := s.crust.log.dropLast ++ [{ r with repeat_ := min (r.repeat_ + 1) 65535 }] }) ∧
  (∀ x y d s, (∀ r, s.crust.log.getLast? = some r → ¬(x % 32 < 22 ∧ r.source = x ∧ r.levels = y)) →
    s.crust.log.length < 64 → s.crust.kept = min 8 s.crust.log.length →
    (logCrust x y d s).crust.log = s.crust.log ++ [⟨crustTime s, x, y, 0, d, s.crust.seq⟩] ∧
    (logCrust x y d s).crust.kept = min 8 (s.crust.log.length + 1)) ∧
  (∀ x y d s, (∀ r, s.crust.log.getLast? = some r → ¬(x % 32 < 22 ∧ r.source = x ∧ r.levels = y)) →
    s.crust.log.length = 64 → s.crust.kept = 8 →
    (logCrust x y d s).crust.log =
      s.crust.log.take 8 ++ s.crust.log.drop 9 ++ [⟨crustTime s, x, y, 0, d, s.crust.seq⟩] ∧
    (logCrust x y d s).crust.kept = 8)

/-- R55, R56, R83 to R86, R116, R227, R228: a host frame on a port that is up is checked by the MAC and takes one decision: the
lowest matching rule, else the entry of its VLAN, else the port's miss action; a frame that the MAC finds bad counts at its
fault, and one found bad only at its end goes on, to be dropped or stomped there, and counts in no classification counter;
VID 4 095 is dropped. A MAC control frame takes effect from its last octet. The lookup reads the tables as they stood before
the writes of the same edge. That the header window acts on what the end of the frame shows is the model's choice
(log entry 44).
R83, R97, R98, R103, R106, R107: a line frame without a SecTAG is decided as a host frame; one whose tag is bad counts as
such; one whose key has an on-die entry meets it, which its channel takes four CCLK later (R172, R179); one whose set has spill entries takes the spill path, where a full path drops
it; any other one is an unknown SCI, counted and handled by the port's policy.
It rests on choices of the model: log entries 2, 44, 45, 114. -/
def Obligations.FramesArrive : Prop :=
  (∀ t p l x s a b, a = settle (comeTo t s) → p / 32 = 1 → b = countSeen p x.mark x.seen a → receives b p = true →
    exec (.hostFrameReceive t p l x) s = .next (clearFrame p l x.mark b)) ∧
  (∀ t p l x s a b, a = settle (comeTo t s) → p / 32 = 1 → b = countSeen p x.mark x.seen a → receives b p = false →
    exec (.hostFrameReceive t p l x) s = .next b) ∧
  (∀ s p, receives s p = (decide ((getPort s p).state = .up) && !rxLooped s p)) ∧
  (∀ p l m s n b, macFault s p l m = some n → b = countFault p n s → (lateFault n = false ∨ etherType l = 0x8808) →
    clearFrame p l m s = if n = 36 then s else bump 1 p n 48 1 s) ∧
  (∀ p l m s n b, macFault s p l m = some n → b = countFault p n s → lateFault n = true → etherType l ≠ 0x8808 →
    nb (getPort b p).stamp 63 = false →
    clearFrame p l m s = decideClear { port := p, octets := l, ends := b.clk.root + octTime b p (l.length - 1)
                                       stamp := ingressStamp b p, stomp := true } b) ∧
  (∀ p l m s b, macFault s p l m = none → etherType l ≠ 0x8808 → nb (getPort s p).stamp 63 = false →
    b = bump 1 p 2 64 l.length (bump 1 p 0 48 1 s) →
    clearFrame p l m s = decideClear { port := p, octets := l, ends := b.clk.root + octTime b p (l.length - 1)
                                       stamp := ingressStamp b p } b) ∧
  (∀ p l m s, macFault s p l m = none → etherType l = 0x8808 →
    clearFrame p l m s = setPort s p { getPort s p with
      ctl := (getPort s p).ctl ++ [(s.clk.root + octTime s p (l.length - 1), l)] }) ∧
  (∀ x s, isTagged x.octets = true → frameVid x.octets = 4095 →
    decideClear x s = if x.stomp then s else bump 3 x.port (if x.port / 32 = 0 then 12 else 4) 48 1 s) ∧
  (∀ x s i v, ¬(isTagged x.octets = true ∧ frameVid x.octets = 4095) →
    firstRule (lookupView s) x.port x.octets = some (i, v) →
    decideClear x s = followDecision x (ruleDecision v) 2 i (if x.stomp then s else bump 4 i 0 48 1 s)) ∧
  (∀ x s v, ¬(isTagged x.octets = true ∧ frameVid x.octets = 4095) → firstRule (lookupView s) x.port x.octets = none →
    v = tabGet 0 (lookupView s).cls.map (x.port * 4096 + frameVid x.octets) → nb v 63 = true →
    decideClear x s = followDecision x (mapDecision v) 3 0 s) ∧
  (∀ x s b, ¬(isTagged x.octets = true ∧ frameVid x.octets = 4095) → firstRule (lookupView s) x.port x.octets = none →
    nb (tabGet 0 (lookupView s).cls.map (x.port * 4096 + frameVid x.octets)) 63 = false →
    b = (if x.stomp then s else bump 3 x.port (if x.port / 32 = 0 then 14 else 0) 48 1 s) →
    decideClear x s =
      if nf (tabGet 0 (lookupView s).cls.map (x.port * 4096 + 4095)) 63 62 = 1 then puntFrame x 1 0 0 b else b) ∧
  (∀ t p l x s a c b, a = settle (comeTo t s) → p / 32 = 0 → c = countSeen p x.mark x.seen a → receives c p = true →
    b = rxInterrupt p l.length c → etherType l ≠ 0x88E5 → exec (.lineFrameReceive t p l x) s = .next (clearFrame p l x.mark b)) ∧
  (∀ t p l x s a d b c, a = settle (comeTo t s) → p / 32 = 0 → d = countSeen p x.mark x.seen a →
    receives d p = true → b = rxInterrupt p l.length d → etherType l = 0x88E5 → macFault b p l x.mark = none → badTag l = true →
    c = bump 1 p 2 64 l.length (bump 1 p 0 48 1 b) →
    exec (.lineFrameReceive t p l x) s = .next (bump 3 p 0 48 1 c)) ∧
  (∀ t p l x s a d b n, a = settle (comeTo t s) → p / 32 = 0 → d = countSeen p x.mark x.seen a →
    receives d p = true → b = rxInterrupt p l.length d → etherType l = 0x88E5 → macFault b p l x.mark = some n → lateFault n = false →
    exec (.lineFrameReceive t p l x) s = .next (countFault p n b)) ∧
  (∀ t p l x s a d b c, a = settle (comeTo t s) → p / 32 = 0 → d = countSeen p x.mark x.seen a →
    receives d p = true → b = rxInterrupt p l.length d → etherType l = 0x88E5 → macFault b p l x.mark = none → badTag l = false →
    c = bump 1 p 2 64 l.length (bump 1 p 0 48 1 b) →
    exec (.lineFrameReceive t p l x) s = .next (lookupPeer { octets := l, port := p, channel := 0, sci := frameSci c p l
                                                             since := c.clk.root, ref := c.clk.root
                                                             stamp := ingressStamp c p, mark := .clean } c)) ∧
  (∀ k s v set i x, s.cls.flush = none → v = lookupView s → set = peerSet s k.port k.sci →
    s.cls.spillPath.any (fun f => f.port == k.port && f.sci == k.sci) = false →
    findWay v 4 set k.port k.sci = some i → peerAt v set i = some x → lookupPeer k s = meetPeer toCycle4 x k s) ∧
  (∀ k s v set, s.cls.flush = none → v = lookupView s → set = peerSet s k.port k.sci →
    s.cls.spillPath.any (fun f => f.port == k.port && f.sci == k.sci) = false →
    findWay v 4 set k.port k.sci = none → spillCount v set ≠ 0 →
    lookupPeer k s = if s.cls.spillPath.length < 256 then
        bump 3 k.port 7 48 1 { s with cls := { s.cls with spillPath := s.cls.spillPath ++ [k] } }
      else bump 3 k.port 8 48 1 s) ∧
  (∀ k s v set, s.cls.flush = none → v = lookupView s → set = peerSet s k.port k.sci →
    s.cls.spillPath.any (fun f => f.port == k.port && f.sci == k.sci) = false →
    findWay v 4 set k.port k.sci = none → spillCount v set = 0 → lookupPeer k s = unknownSci false k s) ∧
  (∀ f x k s, x.bound = true → meetPeer f x k s = f x.channel k s) ∧
  (∀ f x k s, x.bound = false → meetPeer f x k s = unknownSci true k s) ∧
  (∀ c k s, toCycle4 c k s = { s with cipher := { s.cipher with waiting := s.cipher.waiting ++
    [{ k with channel := c, since := cclkEdge s + 12, header := some (getChan s c).header }] } }) ∧
  (∀ new k s b pol, k.mark = .clean → b = bump 3 k.port 1 48 1 s →
    pol = nf (tabGet 0 (lookupView b).cls.map (k.port * 4096 + 4095)) 61 60 →
    unknownSci new k s =
      if pol = 1 then puntFrame (parkedArrival b k) 4 0 0 b
      else if pol = 2 then (if new = true then bump 3 k.port 2 48 1 b else learn k b)
      else b)

/-- R41, R103, R136, R137, R158: a frame leaves the spill path at its read, in time at 10 µs, or is dropped and counted beyond
it; a fill that completes makes its channel resident and the frames that wait go on, a bad one makes it COLD_FAILED; beyond
50 µs they are dropped with 0x3005.
R156, R157, R175, R176, R212, R213, R228: the oldest frame of a decrypt lane whose check is due is checked and leaves the
lane; what a good and what a bad check do to the association; the judgement of a frame by state, suite and packet number.
It rests on choices of the model: log entries 2, 33, 39, 122, 125. -/
def Obligations.FramesChecked : Prop :=
  (∀ t i s a b k v set j x, a = settle (comeTo t s) → a.cls.flush = none → firstOfKey a i = true →
    a.cls.spillPath[i]? = some k → a.clk.root ≤ k.since + 100000 →
    b = { a with cls := { a.cls with spillPath := a.cls.spillPath.eraseIdx i } } →
    v = lookupView b → set = peerSet b k.port k.sci → findWay v 16 set k.port k.sci = some j → peerAt v set j = some x →
    exec (.spillReadComplete t i) s = .next (meetPeer rxChannel x k b)) ∧
  (∀ t i s a k, a = comeTo t s → a.cls.spillPath[i]? = some k → k.since + 100000 < a.clk.root →
    exec (.spillTimeout t i) s = .next
      (bump 3 k.port 8 48 1 { a with cls := { a.cls with spillPath := a.cls.spillPath.eraseIdx i } })) ∧
  (∀ t c r s a b i l st, a = settle (comeTo t s) → lineOf a c .filling = some i → tabFind a.assoc.lines i = some l →
    a.clk.root ≤ l.since + 500000 → fillAnswer c r a = (st, b) →
    exec (.fillComplete t c r) s = .next
      (if st = 0 then issueFills (drainMiss c (rxChannel c) (makeResident c i b))
      else if st = stPoisoned ∨ st = stIntegrity then
        freeLine i (drainMiss c (fun _ s => countCh c 10 1 s) (setCold c st b))
      else b)) ∧
  (∀ c s, fillAnswer c .poisoned s = (stPoisoned, s) ∧ fillAnswer c .integrity s = (stIntegrity, s) ∧
    (lineOf s c .writeBack = none → fillAnswer c .ok s = entryRead c 8 s)) ∧
  (∀ t c r s a, a = settle (comeTo t s) → lineOf a c .filling = none → (getChan a c).resident = true →
    a.assoc.missBuf.any (fun k => k.channel == c) = true →
    exec (.fillComplete t c r) s = .next (issueFills (drainMiss c (rxChannel c) a))) ∧
  (∀ t c s a b i l, a = settle (comeTo t s) → lineOf a c .filling = some i → tabFind a.assoc.lines i = some l →
    l.since + 500000 < a.clk.root →
    b = raise 0x3005 c 0 (freeLine i (drainMiss c (fun _ s => countCh c 11 1 s) (dropWaiting c a))) →
    (getChan b c).pinning = none →
    exec (.fillTimeout t c) s = .next b) ∧
  (∀ t p s a f, a = settle (comeTo t s) → dueCheck a (getRx a p) a.clk.root = some f →
    exec (.icvCheck t p) s = .next (icvCheck f (setRx a p (rxLeave f.num (rxOnward a (getRx a p)))))) ∧
  (∀ s f, checkDue s f = max (f.ends - octTime s f.port 4 + 15) (f.ends + 3)) ∧
  (∀ f s b, (openFrame f).2 = false → f.lost = false → f.flow = false →
    b = releaseSlot f.channel f.slot (rxVerdict f false (openFrame f).1.length s) →
    icvCheck f s = freeFrame f.account f.cells f.chain b) ∧
  (∀ f s b, (openFrame f).2 = true → f.mark = .clean → f.lost = false → f.flow = false →
    b = releaseSlot f.channel f.slot (rxVerdict f true (openFrame f).1.length s) →
    icvCheck f s = deliverRx f (f.octets.take 12 ++ (openFrame f).1) b) ∧
  (∀ f s b, (openFrame f).2 = true → f.mark = .clean → f.lost = false → f.flow = true →
    b = releaseSlot f.channel f.slot (rxVerdict f true (openFrame f).1.length s) →
    icvCheck f s = settleWire (32 + f.port) (releaseTail (32 + f.port) f.num false b)) ∧
  (∀ f s b c, (openFrame f).2 = false → f.lost = false → f.flow = true →
    b = releaseSlot f.channel f.slot (rxVerdict f false (openFrame f).1.length s) →
    c = (if tailWaits b (32 + f.port) f.num = true then countCh f.channel 15 1 b else b) →
    icvCheck f s = settleWire (32 + f.port) (releaseTail (32 + f.port) f.num true c)) ∧
  (∀ f n s, sameLoad s f = true →
    rxVerdict f false n s = countCh f.channel 1 1 (putChan f.channel (setSub (getChan s f.channel) f.an
      (failedSub f.pn (getSub (getChan s f.channel) f.an))) s)) ∧
  (∀ f n s, sameLoad s f = false → rxVerdict f false n s = countCh f.channel 1 1 s) ∧
  (∀ h u l, u.state = .empty ∨ u.state = .retired ∨ u.state = .exhausted → judge h u l = .drop 3) ∧
  (∀ h u l, u.state = .active ∨ u.state = .loaded ∨ u.state = .draining → tciEnc l ≠ hConf h → judge h u l = .drop 1) ∧
  (∀ h u l, u.state = .active ∨ u.state = .loaded ∨ u.state = .draining → tciEnc l = hConf h → hXpn h = false →
    judge h u l = if tagPn l = 0 ∨ (hRprot h = true ∧ (tagPn l < lowestPn h u ∨ u.lastSeen = true ∨
        (tagPn l = lastPn h ∧ u.inFlight.contains (lastPn h) = true ∧ hRwin h = 0))) then .drop 2
      else .accept (tagPn l))

/-- R54, R171, R181, R182, R232, R236, R241, R281: one decision of a port's scheduler each CCLK, and a port that does not
transmit loses its queued frames; the next frame of the lane starts on the wire with its stamp (to be
stomped where a codeword of it is lost, R220), or is discarded where its port
does not transmit; a pause that is still wanted is repeated, of one class under PFC and of all under PAUSE; the age scan of
every millisecond.
It rests on choices of the model: log entries 2, 46, 47, 97, 111. -/
def Obligations.FramesLeave : Prop :=
  (∀ t p s a, a = settle (comeTo t s) → p < 64 → (getPort a p).decisionAt = none →
    exec (.egressSelect t p) s = .next (if portSends a p then decision p a else flushPort p a)) ∧
  (∀ t p s a d, a = settle (comeTo t s) → p < 64 → (getPort a p).decisionAt = some d → d / 3 < a.clk.root / 3 →
    exec (.egressSelect t p) s = .next (if portSends a p then decision p a else flushPort p a)) ∧
  (∀ t p s a d, a = settle (comeTo t s) → (getPort a p).decisionAt = some d → a.clk.root / 3 ≤ d / 3 →
    exec (.egressSelect t p) s = .next a) ∧
  (∀ t x s a f, a = settle (comeTo t s) → nextOut a x.port = some f → portSends a x.port = true →
    f.due = none → mayStart a x.port f = true → wireFree a x.port f = true → (f.commit.isSome = true ∨ firstStart a x.port f ≤ a.clk.root) →
    exec (.frameTransmit t x) s = .next (startFrame x.port f x.read a)) ∧
  (∀ t x s a f, a = settle (comeTo t s) → nextOut a x.port = some f → portSends a x.port = false →
    exec (.frameTransmit t x) s = .next (discardFrame x.port f a)) ∧
  (∀ p f r s b g bad, f.commit = none →
    readCells f.frame.chain r (setTx s p (mapLane (cutFrame s p) (getTx s p))) = (bad, b) →
    g = (if bad then { f with frame := { f.frame with stomp := true } } else f) →
    startFrame p f r s = probeSent g.frame (stampNow b) (setTxFrame p { g with
      wire := some (b.clk.root, b.clk.root + octTime b p (wireLen g - g.sent)), commit := some (commitFrame b p g) } b)) ∧
  (∀ t p c s a, a = settle (comeTo t s) → psPgen (getPort a p).setting = true → c < 6 → nb (getPort a p).xoff c = true →
    psFc (getPort a p).setting = 2 → xonOf a p < classCharge a p c →
    tabGet 0 (getPort a p).xoffAt c + halfPause a p ≤ a.clk.root →
    exec (.pauseRefresh t p c) s = .next (sendPause p (2 ^ c) 65535 (setPort a p { getPort a p with
      xoffAt := tabSet 0 (getPort a p).xoffAt c a.clk.root }))) ∧
  (∀ t p c s a, a = settle (comeTo t s) → psPgen (getPort a p).setting = true → c < 6 → nb (getPort a p).xoff 6 = true →
    psFc (getPort a p).setting ≠ 2 → allBelowXon a p = false →
    tabGet 0 (getPort a p).xoffAt 6 + halfPause a p ≤ a.clk.root →
    exec (.pauseRefresh t p c) s = .next (sendPause p 0xFF 65535 (setPort a p { getPort a p with
      xoffAt := tabSet 0 (getPort a p).xoffAt 6 a.clk.root }))) ∧
  (∀ t s a b, a = settle (comeTo t s) → a.cask.ageAt + 10000000 ≤ a.clk.root →
    b = { a with cask := { a.cask with ageAt := a.clk.root } } →
    exec (.ageCheck t) s = .next ((a.cask.queues.map (·.1)).foldl (fun s k => ageQueue (k / 8) (k % 8) s) b))

/-- R163, R185, R187, R188, R218 to R222: a refill of a proofing slot; a slice that fails is counted and replaced by a spare (the
numbers of blocks issued again and of frames delayed are free values of the model); a rotation step; a slice test; one codeword
of the scrubber, on the cell that the part's layout has at its place: up to 3 octets are corrected, more are counted with the
cell's first retest, and a cell that fails its retest is retired.
It rests on choices of the model: log entries 2, 42, 43, 119, 126. -/
def Obligations.CipherAndScrub : Prop :=
  (∀ t x g s a b r q, a = settle (comeTo t s) → tabGet [] (getArray a x).refills g = r :: q →
    b = setArray a x { getArray a x with refills := tabSet [] (getArray a x).refills g q } →
    exec (.proofRefill t x g) s = .next
      (checkPin r.channel (bump 8 x (if r.cls7 then 8 else 9) 48 1 (fillSlot r.channel r.idx b)))) ∧
  (∀ t x pos gh s a b c bad n m, a = settle (comeTo t s) → sliceIn (getArray a x) (.position pos) = some bad →
    sparesLeft (getArray a x) = true →
    b = bump 8 x 4 48 1 (bump 8 x (if gh then 1 else 0) 48 1 (setArray a x (placeSpare (getArray a x) pos bad))) →
    n = Config.measured b.drawn % 17 → m = Config.measured (b.drawn + 1) % (n + 1) →
    c = raiseEv { code := 0x3010, obj := x, aux := bad }
      (bump 8 x 3 48 m (bump 8 x 2 48 n { b with drawn := b.drawn + 2 })) →
    exec (.sliceFault t x pos gh) s = .next
      (groupSlows x (pos / 4) (if sparesLeft (getArray c x) then c else raise 0x3012 x 0 c))) ∧
  (∀ t x s a, a = comeTo t s → (nextPlaced (getArray a x)).isSome = true →
    (getArray a x).testSince + 10000000 ≤ a.clk.root →
    exec (.rotationStep t x) s = .next (bump 8 x 5 48 1 (setArray a x (rotate a.clk.root (getArray a x))))) ∧
  (∀ t x s a v, a = comeTo t s → sliceIn (getArray a x) .testSeat = some v → (getArray a x).seatPassed = false →
    exec (.sliceTestComplete t x true) s = .next
      (bump 8 x 6 48 1 (setArray a x { getArray a x with seatPassed := true })) ∧
    exec (.sliceTestComplete t x false) s = .next (checkSpares x (raise 0x3011 x 0
      (bump 8 x 4 48 1 (bump 8 x 7 48 1 (setArray a x (setRole v .failed (getArray a x)))))))) ∧
  (∀ t cell cw r s a, a = settle (comeTo t s) → cell < 524288 → cw < 4 → a.cask.scrubNext ≤ cell * 4 + cw →
    exec (.caskScrub t cell cw r) s =
      .next (scrubbed (cell * 4 + cw) (scrubCell (Config.cellPlace cell % 524288) cw r a))) ∧
  (∀ t cell cw r s a, a = settle (comeTo t s) → cell < 524288 → cw < 4 → cell * 4 + cw < a.cask.scrubNext →
    exec (.caskScrub t cell cw r) s = .next (scrubbed (cell * 4 + cw)
      (scrubCell (Config.cellPlace cell % 524288) cw r (closeRec 0x4001 0 (bump 10 0 9 48 1 a))))) ∧
  (∀ x cw r s, r.errors = 0 → r.again = false → tabHas s.cask.retest x = false → scrubCell x cw r s = s) ∧
  (∀ x cw r s, 0 < r.errors → r.errors ≤ 3 → r.again = false → tabHas s.cask.retest x = false →
    scrubCell x cw r s = bump 10 0 6 48 1 s) ∧
  (∀ x cw r s, 3 < r.errors → r.again = false → tabHas s.cask.retest x = false → scrubCell x cw r s =
    badCodeword x cw s) ∧
  (∀ x cw r s, 3 < r.errors → tabHas s.cask.retest x = true → scrubCell x cw r s = retireCell x s)

/-- R517 to R519: a doorbell of an enabled queue or ring sets its producer index where the entries fit, else 0xB003 is raised
and nothing changes but the counter; EN = 1 starts a queue or ring with both indices 0, or sets CFGERR; EN = 0 ends the
running program with ST_ABORTED at its next instruction boundary, discards the descriptor fetched behind it (R316), and there the queue becomes disabled (that the disable itself
waits for the boundary is the model's choice).
R220, R289, R337, R522, R523: a punted frame that fits the posted buffer is written with its entry and its ingress stamp
is pushed, one that the read of its cells finds lost is dropped, a longer one is dropped and the entry stays; a punt that waits
longer than 1 ms is dropped; an inject entry that fails its checks is written back with its status, one that passes has its
frame queued; a late transfer ends its instruction, or its entry, with ST_TIMEOUT.
It rests on choices of the model: log entries 2, 20, 81, 82, 86. -/
def Obligations.HostQueues : Prop :=
  (∀ t q v s a n, a = comeTo t s → q < 16 → a.power.powerGood = true → n = getQueue a q → n.enabled = true →
    forwardedQueue a q = false →
    exec (.qdoorWrite t q v) s = .next
      (if (v % 65536 + 65536 - n.consumer) % 65536 ≤ 2 ^ n.size then setQueue a q { n with producer := v % 65536 }
       else raise 0xB003 q 0 (bump 20 0 4 48 1 a))) ∧
  (∀ t q v s a n, a = comeTo t s → q < 16 → a.power.powerGood = true → n = getQueue a q → n.enabled = false →
    exec (.qdoorWrite t q v) s = .next (bump 20 0 5 48 1 a)) ∧
  (∀ t q v s a n, a = comeTo t s → q < 16 → a.power.powerGood = true → n = getQueue a q → n.enabled = false →
    nb v 31 = true →
    exec (.queueEnable t q v) s = .next
      (if v % 16 < 4 ∨ 12 < v % 16 ∨ n.qd = 0 ∨ n.qc = 0 then setQueue a q { n with size := v % 16, cfgErr := true }
       else setQueue a q { n with size := v % 16, cfgErr := false, enabled := true, producer := 0, consumer := 0 })) ∧
  (∀ t q v s a b n, a = comeTo t s → q < 16 → a.power.powerGood = true → n = getQueue a q → n.enabled = true →
    nb v 31 = false → b = bump 20 0 5 48 (if v % 16 = n.size then 0 else 1) a → n.prog = none →
    exec (.queueDisable t q v) s = .next (setQueue b q { n with enabled := false, fetched := none })) ∧
  (∀ t q v s a b n p, a = comeTo t s → q < 16 → a.power.powerGood = true → n = getQueue a q → n.enabled = true →
    nb v 31 = false → b = bump 20 0 5 48 (if v % 16 = n.size then 0 else 1) a → n.prog = some p →
    atBoundary (getCtx a (queueCtx q)).run = true → executing b = true → (getCtx a (queueCtx q)).due = none →
    exec (.queueDisable t q v) s = .next
      (endProgram q stAborted (setQueue b q { n with fetched := none, prog := some { p with cut := some true } }))) ∧
  (∀ t q v s a b n p, a = comeTo t s → q < 16 → a.power.powerGood = true → n = getQueue a q → n.enabled = true →
    nb v 31 = false → b = bump 20 0 5 48 (if v % 16 = n.size then 0 else 1) a → n.prog = some p →
    (atBoundary (getCtx a (queueCtx q)).run = false ∨ executing b = false ∨ (getCtx a (queueCtx q)).due ≠ none) →
    isCopying (getCtx a (queueCtx q)).run = false →
    exec (.queueDisable t q v) s =
      .next (setQueue b q { n with fetched := none, prog := some { p with cut := some true } })) ∧
  (∀ t r v s a n, a = comeTo t s → r < 4 → a.power.powerGood = true → n = getRing a r → n.enabled = true →
    exec (.rdoorWrite t r v) s = .next
      (if (v % 65536 + 65536 - n.consumer) % 65536 ≤ 2 ^ n.size then setRing a r { n with producer := v % 65536 }
       else raise 0xB003 (16 + r) 0 (bump 20 0 4 48 1 a))) ∧
  (∀ t r v s a n, a = comeTo t s → r < 4 → a.power.powerGood = true → n = getRing a r → n.enabled = false →
    nb v 31 = true →
    exec (.ringEnable t r v) s = .next
      (if v % 16 < 4 ∨ 14 < v % 16 ∨ n.base = 0 then setRing a r { n with size := v % 16, cfgErr := true }
       else setRing (newHead r a) r
         { n with size := v % 16, cfgErr := false, enabled := true, producer := 0, consumer := 0 })) ∧
  (∀ t r v s a n, a = settle (comeTo t s) → 2 ≤ r → r < 4 → a.power.powerGood = true → n = getRing a r → n.enabled = true →
    nb v 31 = false →
    exec (.ringDisable t r v) s = .next
      (newHead r (setRing (bump 20 0 5 48 (if v % 16 = n.size then 0 else 1) a) r { n with enabled := false }))) ∧
  (∀ r s, 2 ≤ r →
    newHead r s = { s with cask := { s.cask with injectRefused := tabDel s.cask.injectRefused (r - 2) } }) ∧
  (∀ r s, r < 2 → newHead r s = s) ∧
  (∀ t n x s a b c f l v, a = settle (comeTo t s) → n < 2 → a.hostIf.linkUp = true → (getRing a n).enabled = true →
    (getRing a n).producer ≠ (getRing a n).consumer → tabGet [] a.cask.punts n = f :: l → v = beNat (fit 32 x.entry) →
    puntStatus v = 0 → f.octets.length ≤ nf v 191 178 → readCells f.chain x.read a = (false, b) →
    c = emit (.hostWrite (nf v 255 192) f.octets) (pushIngress f.inPort f.octets f.rxq f.stamp (puntGone n f l b)) →
    exec (.puntDeliver t n x) s = .next (bump 20 0 (7 + n) 48 1
      (writeBack n (puntEntry v (ringPhase (getRing c n)) f) (some (19 + n)) c))) ∧
  (∀ t n x s a b f l v, a = settle (comeTo t s) → n < 2 → a.hostIf.linkUp = true → (getRing a n).enabled = true →
    (getRing a n).producer ≠ (getRing a n).consumer → tabGet [] a.cask.punts n = f :: l → v = beNat (fit 32 x.entry) →
    puntStatus v = 0 → f.octets.length ≤ nf v 191 178 → readCells f.chain x.read a = (true, b) →
    exec (.puntDeliver t n x) s = .next (countHurt (puntGone n f l b))) ∧
  (∀ t n x s a f l v, a = settle (comeTo t s) → n < 2 → a.hostIf.linkUp = true → (getRing a n).enabled = true →
    (getRing a n).producer ≠ (getRing a n).consumer → tabGet [] a.cask.punts n = f :: l → v = beNat (fit 32 x.entry) →
    puntStatus v = 0 → nf v 191 178 < f.octets.length →
    exec (.puntDeliver t n x) s = .next (bump 20 0 (11 + n) 48 1 (puntGone n f l a))) ∧
  (∀ t n s a f l, a = settle (comeTo t s) → n < 2 → tabGet [] a.cask.punts n = f :: l →
    f.since + 10000000 < a.clk.root →
    exec (.puntWaitExpiry t n) s = .next (bump 5 0 2 48 1 (bump 20 0 (9 + n) 48 1 (puntGone n f l a)))) ∧
  (∀ t n x y s a v, a = settle (comeTo t s) → n < 2 → a.hostIf.linkUp = true → (getRing a (2 + n)).enabled = true →
    (getRing a (2 + n)).producer ≠ (getRing a (2 + n)).consumer → tabFind a.hostIf.injectRead n = none →
    v = beNat (fit 32 x) → injectStatus n v a ≠ 0 →
    exec (.injectTake t n x y) s = .next (injectBack n v (injectStatus n v a) a)) ∧
  (∀ t n x s a v l, a = settle (comeTo t s) → n < 2 → a.hostIf.linkUp = true → (getRing a (2 + n)).enabled = true →
    (getRing a (2 + n)).producer ≠ (getRing a (2 + n)).consumer → tabFind a.hostIf.injectRead n = none →
    v = beNat (fit 32 x) → injectStatus n v a = 0 → injectFits n v a = true →
    exec (.injectTake t n x (.bytes l)) s = .next (injectBack n v stOk (injectFrame n v l a))) ∧
  (∀ t k s a c, a = comeTo t s → k < 32 → executing a = true → (getCtx a k).run = .waitHost c → c + 1000000 < a.clk.root →
    exec (.hostTransferTimeout t k) s = .next (commit (finish k (some stTimeout) (bump 20 0 2 48 1 a)))) ∧
  (∀ t n s a c l, a = comeTo t s → tabFind a.hostIf.injectRead n = some (c, l) → c + 1000000 < a.clk.root →
    exec (.hostTransferTimeout t (32 + n)) s = .next (injectBack n (beNat l) stTimeout (bump 20 0 2 48 1 a)))

/-- R9, R520, R516, R515, R511, R512, R513: causes are cleared by writing one, but for a cause that occurs at the same edge, and
signal their vectors when enabled; the time
latch holds the network time of the next TCLK edge; the Crust window; a plain register; a function reset raises 0xB004; a
link change is counted and raises 0xB004.
R521: a read through the Memory Guard aperture answers four octets, all ones where it fails; a write changes four octets;
a failure is counted, its status kept if it is the first one, and sets cause 24; a read of the status clears it, but for a
refusal at the same edge, which comes after it.
It rests on choices of the model: log entries 2, 84, 85, 86. -/
def Obligations.HostWindows : Prop :=
  (∀ t v s a, a = comeTo t s → a.power.powerGood = true →
    exec (.intCauseWrite t v) s = .next ((List.range 32).foldl (fun s k => if nb v k then clearCause k s else s) a)) ∧
  (∀ k s, nb s.hostIf.intCause k = false → clearCause k s = s) ∧
  (∀ k s, nb s.hostIf.intCause k = true → (∀ x, tabFind s.hostIf.causeAt k = some x → x.1 ≠ pclkEdge s) →
    clearCause k s = { s with hostIf := { s.hostIf with intCause := s.hostIf.intCause - 2 ^ k } }) ∧
  (∀ k s old, nb s.hostIf.intCause k = true → tabFind s.hostIf.causeAt k = some (pclkEdge s, old) →
    clearCause k s = if old = true ∧ nb s.hostIf.intEnable k = true then signalVector k s else s) ∧
  (∀ t v s a, a = comeTo t s → a.power.powerGood = true → a.hostIf.intCause = 0 →
    exec (.intEnableWrite t v) s = .next { a with hostIf := { a.hostIf with intEnable := v % 2 ^ 32 } }) ∧
  (∀ t v s a b, a = comeTo t s → a.power.powerGood = true → nb v 0 = true →
    b = advance ((a.clk.root + 10) / 10 * 10) a →
    exec (.todLatch t v) s = .next { b with hostIf := { b.hostIf with
      todCount := (b.hostIf.todCount + 1) % 2 ^ 32, todLatch := b.clk.tod } }) ∧
  (∀ t s a, a = comeTo t s → a.power.powerGood = true →
    exec (.crustWindowRead t 0) s = .next (emit (.readData (mf (crustShown a) 0 4))
      { a with hostIf := { a.hostIf with crustLatch := crustShown a } })) ∧
  (∀ t n s a, a = comeTo t s → a.power.powerGood = true → n = 1 ∨ n = 2 →
    exec (.crustWindowRead t n) s = .next (emit (.readData (mf a.hostIf.crustLatch (4 * n) 4)) a)) ∧
  (∀ t v s a, a = comeTo t s → a.power.powerGood = true →
    exec (.registerWrite t 0 0x4000C 4 v) s = .next { a with hostIf := { a.hostIf with cbIrq := v % 2 ^ 32 } }) ∧
  (∀ t v s a, a = comeTo t s → a.power.powerGood = true →
    exec (.registerWrite t 0 0x20008 2 v) s = .next (bump 20 0 6 48 1 a)) ∧
  (∀ t s a b, a = comeTo t s → a.power.powerGood = true → b = bump 20 0 19 48 1 (disableAll a) →
    exec (.pcieFunctionReset t) s = .next (raise 0xB004 0 0 { b with hostIf := { b.hostIf with
      intCause := 0, intEnable := 0, pinEn := false, mgBase := 0, msixTable := [], msixPend := 0 } })) ∧
  (∀ s, regWord s 0 0 = identWord) ∧
  (∀ s q, q < 16 → regWord s 0 (0x10000 + 64 * q + 0x14) = 0) ∧
  (∀ s r, r < 4 → regWord s 2 (32 * r + 0x0C) = 0) ∧
  (∀ s, regWord s 0 0x20000 = s.hostIf.intCause ∧ regWord s 0 0x20004 = s.hostIf.intEnable) ∧
  (∀ s x o, o % 4 = 0 → regRead s x o 4 = (regWord s x (o + 4) * 2 ^ 32 + regWord s x o) % 2 ^ 32) ∧
  (∀ t s a, a = comeTo t s → a.power.powerGood = true → a.hostIf.linkUp = false →
    exec (.pcieLinkChange t true) s = .next (raise 0xB004 0 1
      (bump 20 0 0 48 1 { a with hostIf := { a.hostIf with linkUp := true } }))) ∧
  (∀ t s a, a = comeTo t s → a.power.powerGood = true → a.hostIf.linkUp = true →
    exec (.pcieLinkChange t false) s = .next (linkLost (raise 0xB004 0 0
      (bump 20 0 0 48 1 { a with hostIf := { a.hostIf with linkUp := false } })))) ∧
  (∀ t o f s a b st l x, a = comeTo t s → o < 65536 → o % 4 = 0 → a.power.powerGood = true → x = a.hostIf.mgBase + o →
    mgAccess .pcieDma ⟨false, x - x % 64, 0, [], f, []⟩ a = ((st, l), b) →
    exec (.mgwinRead t o f) s = .next (if st = 0 then emit (.readData (mf l (x % 64) 4)) b
      else emit (.readData 0xFFFFFFFF) (apertureFails st b))) ∧
  (∀ t o v f g s a b st l x, a = comeTo t s → o < 65536 → o % 4 = 0 → a.power.powerGood = true →
    x = a.hostIf.mgBase + o →
    mgAccess .pcieDma ⟨true, x - x % 64, 15 * 2 ^ (x % 64), List.replicate (x % 64) 0 ++ beBytes 4 v, f, g⟩ a = ((st, l), b) →
    exec (.mgwinWrite t o v ⟨f, g⟩) s = .next (if st = 0 then b else apertureFails st b)) ∧
  (∀ st s b, b = bump 20 0 17 48 1 s → apertureFails st s = setCause 24 { b with hostIf := { b.hostIf with
    mgNew := some (refusalNote st b), mgStat := if b.hostIf.mgStat = 0 then st else b.hostIf.mgStat } }) ∧
  (∀ t s a, a = comeTo t s → a.power.powerGood = true → (∀ x, a.hostIf.mgNew = some x → x.1 ≠ pclkEdge a) →
    exec (.mgwinStatRead t) s = .next { a with
      hostIf := { a.hostIf with mgStat := 0, mgNew := none }, out := .readData a.hostIf.mgStat :: a.out }) ∧
  (∀ t s a st old, a = comeTo t s → a.power.powerGood = true → a.hostIf.mgNew = some (pclkEdge a, st, old) →
    exec (.mgwinStatRead t) s = .next { a with
      hostIf := { a.hostIf with mgStat := st, mgNew := none }, out := .readData old :: a.out })

/-- R358, R408, R409, R514, R332, R350, R414: the Boot ROM recovers the vault, counts the boot, gives an empty vault a new mask
area, and starts image A, else image B, else recovery; a failed self-test or DRBG stops it with its code; recovery reads; a
staging ends with the status of its image; SYS.VINTAGE asks for a statement, which starts when the Press is free, holds what
stood at that edge, the changes of the edge included, and which a stopped DRBG, a lost link or a short buffer ends. That the mask area is drawn after the DRBG is instantiated is the
model's choice.
It rests on choices of the model: log entries 2, 55, 70, 71, 72, 73, 74, 128. -/
def Obligations.BootAndVintage : Prop :=
  (∀ t h x y s a b c d, a = comeTo t s → a.power.booting = true → a.power.powerGood = true → a.power.held = false →
    a.boot.code = 0 →
    b = { bootVault a with boot := { (bootVault a).boot with
      bootCount := ((bootVault a).boot.bootCount + 1) % 2 ^ 32
      cells := tabSet 0 (bootVault a).boot.cells 2 ((tabGet 0 (bootVault a).boot.cells 2 + 1) % 64) } } →
    c = drbgInstantiated b → d = { b with vault := { b.vault with drbgStopped := true, drbgAttempts := 3 } } →
    exec (.bootRom t false true h x y) s = .next (enterRecovery 1 d) ∧
    exec (.bootRom t true false h x y) s = .next (enterRecovery 2 d) ∧
    exec (.bootRom t true true h x y) s = .next
      (bootImages h x y (deriveIdentity (fit 32 Config.uds) (if c.vault.vaultEmpty then newMaskArea c else c)))) ∧
  (∀ t m s a b c n l st, a = comeTo t s → a.boot.reading = some n → l = fit a.hostIf.recLen m →
    st = imageStatus a a.hostIf.recLen l → c = imageServed a.hostIf.recLen l a →
    b = { c with boot := { c.boot with rstatus := 0, reading := none }, drawn := c.drawn + 1 } →
    exec (.recoveryReadComplete t (.bytes m)) s = .next
      (if st ≠ 0 then recoveryFails st c else startImage l (Config.measured c.drawn % 2 ^ 64) false true b)) ∧
  (∀ t s a n, a = comeTo t s → a.boot.reading = some n →
    exec (.recoveryReadComplete t .error) s = .next (recoveryFails stFault (bump 20 0 1 48 1 a))) ∧
  (∀ t s a n, a = comeTo t s → a.boot.reading = some n → n + 1000000000 < a.clk.root →
    exec (.recoveryReadTimeout t) s = .next (recoveryFails stTimeout (bump 20 0 2 48 1 a))) ∧
  (∀ t v s a, a = comeTo t s → nb v 31 = true → a.boot.rwait = true →
    exec (.recCtlGo t v) s = .next
      (if a.hostIf.recAddr % 4096 ≠ 0 then recoveryFails stAlign a
       else if a.hostIf.recLen < 8192 ∨ 204800 < a.hostIf.recLen then recoveryFails stRange a
       else { a with boot := { a.boot with rwait := false, reading := some a.clk.root } })) ∧
  (∀ t m s a o q st, a = comeTo t s → a.seq.staging = some (o, q) → st = imageStatus a (Config.flashSize - o) m →
    exec (.stageComplete t m) s = .next (complete 0x6005 q st 0 0 (imageServed (Config.flashSize - o) m
      { a with seq := { a.seq with staging := none, staged := if st = 0 then some (o, m) else none } }))) ∧
  (∀ n m s, imageServed n m s =
    if firstFail (imageFields s n m) = 0 then internalUse verifyCycles s else s) ∧
  (∀ w s k e a v, runs sysVintageCmd w s k = true → e = envAt w s k → a = atBlock s k →
    v = { nonce := [1, 2, 3, 4].flatMap (fun i => beBytes 8 (readReg (getCtx a k) i).toNat), len := e.b, addr := e.imm
          cseq := e.cseq } →
    exec (.sysVintage w) s = .next (answered sysVintageCmd w s k
      { s := startVintage { a with press := { a.press with vintages := a.press.vintages ++ [v] } }
        st := stPending, event := some 0x600B })) ∧
  (∀ s v l, s.press.vintages = v :: l → startVintage s = if pressIdle s then { s with press := { s.press with
      vintages := { v with began := some (s.clk.root, s.clk.tod) } :: l } } else s) ∧
  (∀ t s v l e x, s.press.vintages = v :: l → v.began = some (e, x) → v.snap = none →
    settleSnap t s = if e < t then { s with press := { s.press with
      vintages := { v with snap := some (vintageBody v.nonce x s) } :: l } } else s) ∧
  (∀ (r : PressRun) s a v l m b, a = comeTo r.t s → a.press.vintages = v :: l → v.snap = some m →
    a.vault.drbgStopped = true ∨ a.hostIf.linkUp = false → b = { a with press := { a.press with vintages := l } } →
    exec (.vintageComplete r) s = .next (serveKeyx (clearing (complete 0x600B v.cseq stFault 0 0 b)))) ∧
  (∀ (r : PressRun) s a b v l m, a = comeTo r.t s → a.press.vintages = v :: l → v.snap = some m →
    a.vault.drbgStopped = false → a.hostIf.linkUp = true → b = { a with press := { a.press with vintages := l } } →
    exec (.vintageComplete r) s = .next (serveKeyx (clearing
      (if v.len < m.length + 4723 then complete 0x600B v.cseq stLength 0 0 b else vintageWrite v m r.upset b))))

/-- R528, R529, R533 to R537, R541: nPOR holds the main domain in reset, with the Crust, the slots with counters and journal
and the Boot ROM's MRAM records kept; power-good starts the part with record 0xC001 alone, or keeps it in reset without a
reference; nRESET keeps the Cellar Book; a brown-out is an nPOR with its cause kept; rail warnings. That root cycles go on
across a reset is the model's choice (log entry 87).
R21 to R25, R32, R538 to R540: the loss of the selected reference is counted with the change to the other one, 0xC003, or
begins holdover with 0xC004; a reference without a fault for 100 ms is good again, and selected only in holdover; pull-in ends
the lanes' holdover; the root PLL changes over with 0xC005, counted, and one that does not relock in 10 ms is failed with
0xC006.
It rests on choices of the model: log entries 2, 87, 88, 89. -/
def Obligations.PowerAndClocks : Prop :=
  (∀ t s a b, a = comeTo t s → exec (.npor t) s = .next b →
    b.power.powerGood = false ∧ b.power.held = true ∧ b.power.faultN = true ∧ b.vault.slots = a.vault.slots ∧
    b.vault.epoch = a.vault.epoch ∧ b.vault.journal = a.vault.journal ∧ b.boot.minSvn = a.boot.minSvn ∧
    b.vault.mram = a.vault.mram ∧ b.vault.maskKeys = a.vault.maskKeys ∧ b.vault.scramble = a.vault.scramble ∧
    b.boot.anchor = a.boot.anchor ∧ b.boot.bootCount = a.boot.bootCount ∧
    b.crust = { a.crust with injecting := none } ∧ b.book = {} ∧ b.cnt = [] ∧ b.lanes = [] ∧ b.ports = [] ∧
    b.cls = {} ∧ b.assoc = {} ∧ b.cipher = {} ∧ b.cask = {} ∧ b.timeFn = {} ∧ b.seq = {} ∧ b.press = {} ∧ b.mg = {} ∧
    b.hostIf = {} ∧ b.trellis = {} ∧ b.clk.tod = 0) ∧
  (∀ t s, exec (.npor t) s = .next (resetCommon (comeTo t s))) ∧
  (∀ t r s a, a = comeTo t s → a.power.powerGood = false →
    exec (.powerGood t false false r) s = .next { a with
      crust := { a.crust with onVbat := false }, power := { a.power with owesC004 := true, faultN := true } }) ∧
  (∀ t y r s a, a = comeTo t s → a.power.powerGood = false →
    exec (.powerGood t true y r) s = .next
      (startAt 0 true y r { a with crust := { a.crust with onVbat := false } })) ∧
  (∀ t s a b, a = comeTo t s → a.power.powerGood = true → b = resetMain a →
    b.book.recs = a.book.recs ∧ b.book.count = a.book.count ∧ b.book.frozen = a.book.frozen ∧
    exec (.nreset t) s = .next (raiseKept (causeTaken (raise 0xC002 0 b.crust.cause b)))) ∧
  (∀ t r s a, a = comeTo t s → r < 6 → a.power.powerGood = false →
    exec (.brownOut t r) s = .next { a with crust := { a.crust with onVbat := true } }) ∧
  (∀ t r s a b, a = comeTo t s → r < 6 → a.power.powerGood = true → a.power.warnings = [] →
    b = resetCommon { a with crust := { a.crust with cause := a.crust.cause ||| 1 } } →
    exec (.brownOut t r) s = .next { b with crust := { b.crust with onVbat := true } }) ∧
  (∀ t r s a, a = comeTo t s → a.power.powerGood = true → r < 6 → a.power.warnings.contains r = false →
    exec (.railWarning t r) s = .next
      (raise 0xC008 r 0 { a with power := { a.power with warnings := a.power.warnings ++ [r] } })) ∧
  (∀ t r s a, a = comeTo t s → a.power.powerGood = true → a.power.warnings.contains r = true →
    exec (.railWarningClear t r) s = .next (closeRec 0xC008 r
      { a with power := { a.power with warnings := a.power.warnings.filter (fun x => x != r) } })) ∧
  (∀ t s a, a = comeTo t s → a.power.powerGood = true → a.power.refAGood = true → a.power.selected = some 0 →
    exec (.referenceLoss t 0) s = .next
      (if a.power.refBGood then raise 0xC003 1 0 { a with power := { a.power with
         refAGood := false, refAFault := a.clk.root, selected := some 1, refFaults := a.power.refFaults + 1 } }
       else raise 0xC004 0 0 { a with power := { a.power with
         refAGood := false, refAFault := a.clk.root, selected := none, lanesOnRoot := true } })) ∧
  (∀ t s a, a = comeTo t s → a.power.powerGood = true → a.power.refBGood = true → a.power.selected = some 0 →
    exec (.referenceLoss t 1) s = .next { a with power := { a.power with
      refBGood := false, refBFault := a.clk.root } }) ∧
  (∀ t s a, a = comeTo t s → a.power.powerGood = true → a.power.refBGood = false →
    a.power.refBFault + 1000000000 ≤ a.clk.root →
    exec (.referenceGood t 1) s = .next
      (if a.power.selected = none then
        raise 0xC003 1 0 { a with power := { a.power with
          refBGood := true, selected := some 1, refFaults := a.power.refFaults + 1 } }
       else { a with power := { a.power with refBGood := true } })) ∧
  (∀ t s a, a = comeTo t s → a.power.refBGood = false → a.clk.root < a.power.refBFault + 1000000000 →
    exec (.referenceGood t 1) s = .next a) ∧
  (∀ t s a i, a = comeTo t s → a.power.powerGood = true → a.power.lanesOnRoot = true → a.power.selected = some i →
    exec (.pullInComplete t) s = .next { a with power := { a.power with lanesOnRoot := false } }) ∧
  (∀ t s a, a = comeTo t s → a.power.powerGood = true → a.power.onVco = false →
    exec (.rootPllLockLoss t) s = .next (raise 0xC005 0 0
      (if a.power.spare = .ready then
        { a with power := { a.power with
          pll := 1 - a.power.pll, spare := .relocking a.clk.root, pllFaults := a.power.pllFaults + 1 } }
       else { a with power := { a.power with onVco := true } }))) ∧
  (∀ t s a u, a = comeTo t s → a.power.powerGood = true → a.power.spare = .relocking u →
    a.clk.root ≤ u + 100000000 →
    exec (.rootPllRelock t true) s = .next { a with power := { a.power with spare := .ready } }) ∧
  (∀ t s a u, a = comeTo t s → a.power.powerGood = true → a.power.spare = .relocking u →
    u + 100000000 < a.clk.root →
    exec (.rootPllRelock t false) s = .next (raise 0xC006 0 0 { a with power := { a.power with spare := .failed } }))

/-- R493, R500: TR.SEND sends its octets as a service frame, or finds the management partition full; TR.RECV takes the first
waiting frame with its length and source (with none waiting the source is a free value of the model); TR.ROLE takes the
setting and the role and runs the election.
R490, R496: the bring-up of a link: lock, HELLO, mode, session; a step that takes 10 ms ends it, and after 100 ms it
begins again with 0xA007.
It rests on choices of the model: log entries 2, 78, 79, 123. -/
def Obligations.TrellisLinks : Prop :=
  (∀ w s k e a x, runs trSendCmd w s k = true → e = envAt w s k → a = atBlock s k → mgmtFull e.b a = false →
    x = trSendFrame 0x10 (if nb e.a 5 then 0x3F else e.a % 32) (addrRead e a e.b) a →
    exec (.trSend w) s = .next (answered trSendCmd w s k { s := bump 19 0 18 48 1 x })) ∧
  (∀ w s k e a, runs trSendCmd w s k = true → e = envAt w s k → a = atBlock s k → mgmtFull e.b a = true →
    exec (.trSend w) s = .next (answered trSendCmd w s k { s := bump 10 0 10 48 1 a, st := stNoRoom })) ∧
  (∀ w s k e a b x l rest, runs trRecvCmd w s k = true → e = envAt w s k → a = atBlock s k →
    a.trellis.rxq = (x, l) :: rest → w.x = 0 → b = { a with trellis := { a.trellis with rxq := rest } } →
    exec (.trRecv w) s = .next (answered trRecvCmd w s k
      { s := storeMem b e.imm l, regs := [(1, BitVec.ofNat 64 l.length), (2, BitVec.ofNat 64 x)] })) ∧
  (∀ w s k a, runs trRecvCmd w s k = true → a = atBlock s k → a.trellis.rxq = [] →
    exec (.trRecv w) s = .next (answered trRecvCmd w s k
      { s := { a with drawn := a.drawn + 1 }
        regs := [(1, 0), (2, BitVec.ofNat 64 (Config.measured a.drawn))] })) ∧
  (∀ w s k e a b, runs trRoleCmd w s k = true → e = envAt w s k → a = atBlock s k →
    b = takeSetting (beNat (readMem a 0x60040 64)) a →
    exec (.trRole w) s = .next (answered trRoleCmd w s k
      { s := elect { b with trellis := { b.trellis with role := e.b } } })) ∧
  (∀ t p s a, a = comeTo t s → p < 2 → (getTPort a p).step = .lock →
    exec (.trellisLinkLock t p) s = .next
      (setTPort a p { getTPort a p with step := .hello, since := a.clk.root })) ∧
  (∀ t p s a, a = comeTo t s → p < 2 → (getTPort a p).step = .hello → (getTPort a p).lastTx + 1000000 ≤ a.clk.root →
    exec (.helloSend t p) s = .next (trSent p (.hello p (ownHello p a)) a)) ∧
  (∀ t p h s a b, a = comeTo t s → p < 2 → (getTPort a p).step = .hello → (h.east = decide (p = 0)) →
    h.version ≠ 0 → b = bump 19 0 (8 * p + 4) 48 1 a →
    exec (.helloReceive t p h) s = .next (setTPort b p { getTPort b p with
      step := .mode, since := b.clk.root, heldFrom := b.clk.root, peer := some h, mode := bestMode b h
      lastRx := b.clk.root })) ∧
  (∀ t p h s a, a = comeTo t s → p < 2 → (getTPort a p).step = .hello → (h.east = decide (p = 1)) →
    exec (.helloReceive t p h) s = .next (trCheckFails p a)) ∧
  (∀ t s a b, a = comeTo t s → a.trellis.portW.step = .mode → a.trellis.portW.heldFrom + 10000000 ≤ a.clk.root →
    b = setTPort a 0 { a.trellis.portW with step := .session, since := a.clk.root } →
    exec (.linkModeHeld t 0 true) s = .next
      (raise 0xA005 (nodeField b) (Config.linkModeData a.trellis.portW.mode) b)) ∧
  (∀ t s a b, a = comeTo t s → a.trellis.portE.step = .mode → a.trellis.portE.heldFrom + 10000000 ≤ a.clk.root →
    b = setTPort a 1 { a.trellis.portE with step := .session, since := a.clk.root } →
    exec (.linkModeHeld t 1 true) s = .next
      (sendOffer 1 (raise 0xA005 (nodeField b) (Config.linkModeData a.trellis.portE.mode) b))) ∧
  (∀ t p s a h, a = comeTo t s → p < 2 → (getTPort a p).step = .mode → (getTPort a p).peer = some h →
    exec (.linkModeHeld t p false) s = .next (setTPort a p { getTPort a p with
      mode := nextMode a h (getTPort a p).mode, heldFrom := a.clk.root })) ∧
  (∀ t p s a, a = comeTo t s → p < 2 → (getTPort a p).step = .session → (getTPort a p).since + 100000000 < a.clk.root →
    exec (.trellisStepTimeout t p) s = .next (sessionFails p a)) ∧
  (∀ t p s a, a = comeTo t s → p < 2 → (getTPort a p).step = .waiting → (getTPort a p).since + 1000000000 ≤ a.clk.root →
    exec (.trellisStepTimeout t p) s = .next (trFault (setStep p .lock a)))

/-- R498, R499: a message waits while the Press runs an operation (the model's choice), a mismatch of the Press ends the
exchange; at port W an offer is answered with fresh shares; a confirmation whose checks all pass brings the session
up, any other one ends the exchange; frames validate above the last LSEQ of their keys only, under the new
keys or, until the first frame under those, the old ones; a failed check counts, and the eighth in a row takes the link down;
keys are offered again at LSEQ 2^48 or after 24 h.
It rests on choices of the model: log entries 2, 55, 78, 79, 128. -/
def Obligations.TrellisSecurity : Prop :=
  (∀ (r : PressRun) p m s a b, a = comeTo r.t s → p < 2 → (getTPort a p).step = .session →
    b = bump 19 0 (8 * p + 4) 48 1 a → pressAtWork b = true →
    exec (.keyxReceive r p m) s = .next
      (setTPort b p { getTPort b p with waits := (getTPort b p).waits ++ [(m, r.upset)] })) ∧
  (∀ (r : PressRun) p m s a b, a = comeTo r.t s → p < 2 → (getTPort a p).step = .session →
    b = bump 19 0 (8 * p + 4) 48 1 a → pressAtWork b = false → (getTPort b 0).waits = [] → (getTPort b 1).waits = [] →
    exec (.keyxReceive r p m) s = .next (keyxTaken p (m, r.upset) b)) ∧
  (∀ p m u s, p < 2 → (getTPort s p).step = .session → u.any (· != 0) = true →
    keyxTaken p (m, u) s = exchangeFails p (pressMismatch s)) ∧
  (∀ i x y u s, (getTPort s 0).step = .session → u.any (· != 0) = false →
    keyxTaken 0 (.offer i x y, u) s = answerOffer 0 (.offer i x y) x s) ∧
  (∀ p x y z u s, p < 2 → (getTPort s p).step = .session → u.any (· != 0) = false →
    (getTPort s p).offer.isSome = true → (getTPort s p).answer.isSome = true →
    keyxTaken p (.confirm x y z, u) s =
      (if confirmGood p (getTPort s p) s x y z then sessionUp p s else exchangeFails p (trCheckFails p s))) ∧
  (∀ t p l s a, a = comeTo t s → p < 2 → (getTPort a p).step = .up → trOpen (getTPort a p) l = none →
    exec (.trellisFrameReceive t p l) s = .next (trRejected p a)) ∧
  (∀ p s b, p < 2 → b = trCheckFails p (setTPort s p { getTPort s p with fails := (getTPort s p).fails + 1 }) →
    trRejected p s = if 8 ≤ (getTPort b p).fails then linkDown p b else b) ∧
  (∀ t p l s a f, a = comeTo t s → p < 2 → (getTPort a p).step = .up → trOpen (getTPort a p) l = some f →
    exec (.trellisFrameReceive t p l) s = .next (trTaken p f (trValidated p f a))) ∧
  (∀ q l f, trOpen q l = some f → f.lseq = mf l 8 8 ∧ l.length = 40 + mf l 16 2 ∧
    (f.phase = q.phase → q.seqRx < f.lseq) ∧
    (f.phase ≠ q.phase → ∃ k n, q.oldRx = some (k, n) ∧ n < f.lseq)) ∧
  (∀ t s a, a = comeTo t s → a.trellis.portE.step = .up → a.trellis.portE.keyedAt + 864000000000000 ≤ a.clk.root →
    exec (.linkRekey t 1) s = .next (sendOffer 1 a)) ∧
  (∀ t p s a, a = comeTo t s → p < 2 → (getTPort a p).step = .up →
    exec (.keepaliveSend t p) s = .next (trEmit p 3 0x3F (nodeField a) 32 false [] a))

/-- R501 to R503, R506: the first service that need not wait is delivered; fragments that stay incomplete for 1 ms are
dropped and counted; TSYNC goes out every SYNCP times 125 µs and is taken by a worker; the link delay is half the round trip
less the time at the far end; eight records go to the manager in one service.
R41, R497, R507, R508: a link that loses its lock, or hears nothing valid for more than 10 µs, goes down: it clears its keys, counts, raises 0xA001 and wraps the ring; a node not heard for more than 1 ms
is removed with 0xA004 and the election runs; a TOPO is taken while its link is up.
It rests on choices of the model: log entries 2, 78, 79, 80. -/
def Obligations.TrellisTraffic : Prop :=
  (∀ t s a f, a = comeTo t s → a.trellis.taken.find? (fun f => !svcWaits a f.2) = some f →
    exec (.serviceReceive t) s = .next (svcDeliver f.1 f.2
      { a with trellis := { a.trellis with taken := a.trellis.taken.erase f } })) ∧
  (∀ t x y s a f, a = comeTo t s → a.trellis.frags.find? (fun f => f.src == x && f.relay == y) = some f →
    f.since + 10000000 < a.clk.root →
    exec (.graftFragmentTimeout t x y) s = .next (bump 19 0 24 48 f.parts.length { a with trellis := { a.trellis with
      frags := a.trellis.frags.filter (fun f => !(f.src == x && f.relay == y)) } })) ∧
  (∀ t p l s a, a = comeTo t s → p < 2 → (getTPort a p).step = .up → mf l 3 1 = 0x30 →
    exec (.tsyncReceive t p l) s = .next (trArrives p l a)) ∧
  (∀ t s a b, a = comeTo t s → a.trellis.isManager = true → nb a.trellis.setting 511 = true → trAnyUp a = true →
    a.trellis.tsyncAt + 125 * 10000 * nf a.trellis.setting 445 438 ≤ a.clk.root →
    b = trSendFrame 0x30 0x3F (tsyncPayload (todForm (stampNow a)) 0 a.clk.incr a.trellis.tsyncSeq 0) a →
    exec (.tsyncSend t) s = .next { b with trellis := { b.trellis with
      tsyncSeq := (a.trellis.tsyncSeq + 1) % 2 ^ 32, tsyncAt := b.clk.root } }) ∧
  (∀ t p x1 x2 x3 x4 s a b, a = comeTo t s → p < 2 → (getTPort a p).step = .up → b = trSent p (.dreq p) a →
    exec (.delayRequest t p x1 x2 x3 x4) s = .next
      (setTPort b p { getTPort b p with delay := ((x4 - x1) - (x3 - x2)) / 2 })) ∧
  (∀ t s a l, a = comeTo t s → a.trellis.evBatch = l → l ≠ [] → a.trellis.isManager = false → trAnyUp a = true →
    a.book.frozen = false →
    exec (.eventBatchSend t) s = .next (sendService 0 5 0 ((l.take 8).flatMap id)
      { a with trellis := { a.trellis with evBatch := l.drop 8, evSince := a.clk.root } })) ∧
  (∀ t x s a b c, a = comeTo t s → x.port < 2 → (getTPort a x.port).step = .up →
    (x.locked = false ∨ (getTPort a x.port).lastRx + 100000 < a.clk.root) →
    c = setStep x.port .lock (bump 19 0 (8 * x.port + 6) 48 1 (sessionFails x.port a)) →
    b = raise 0xA001 (nodeField c) 0 c →
    exec (.trellisLinkDown t x) s = .next (if b.trellis.wrapped then b
      else bump 19 0 25 48 1 { b with trellis := { b.trellis with wrapped := true } })) ∧
  (∀ t x s a, a = comeTo t s → x.locked = true → a.clk.root ≤ (getTPort a x.port).lastRx + 100000 →
    exec (.trellisLinkDown t x) s = .next a) ∧
  (∀ p s, p < 2 → (getTPort (sessionFails p s) p).keyTx = 0 ∧ (getTPort (sessionFails p s) p).keyRx = 0 ∧
    (getTPort (sessionFails p s) p).step = .waiting) ∧
  (∀ t n s a, a = comeTo t s → a.trellis.members.any (fun m => m.node == n) = true →
    tabGet 0 a.trellis.lastHeard n + 10000000 < a.clk.root →
    exec (.nodeLost t n) s = .next (elect (raise 0xA004 n 0 { a with trellis := { a.trellis with
      members := a.trellis.members.filter (fun m => m.node != n) } }))) ∧
  (∀ t p x s a, a = comeTo t s → p < 2 → (getTPort a p).step = .up →
    exec (.topoReceive t p x) s = .next (topoTaken p x a))

/-- R37, R308, R310, R311, R321, R335: every instruction of lanes, ports, classification, associations, counters, scheduling and time that its context runs, whose checks pass and whose command is new to its block completes: its block applies it, and its context goes on with the answer. -/
def Obligations.CommandsComplete : Prop :=
  (∀ w s k, runs laneCfgCmd w s k = true → exec (.laneCfg w) s = .next (done laneCfgCmd w s k)) ∧
  (∀ w s k, runs laneTestCmd w s k = true → exec (.laneTest w) s = .next (done laneTestCmd w s k)) ∧
  (∀ w s k, runs laneCalAdaptCmd w s k = true → exec (.laneCalAdapt w) s = .next (done laneCalAdaptCmd w s k)) ∧
  (∀ w s k, runs laneCalMarginCmd w s k = true → exec (.laneCalMargin w) s = .next (done laneCalMarginCmd w s k)) ∧
  (∀ w s k, runs laneCalFullCmd w s k = true → exec (.laneCalFull w) s = .next (done laneCalFullCmd w s k)) ∧
  (∀ w s k, runs portCfgCmd w s k = true → exec (.portCfg w) s = .next (done portCfgCmd w s k)) ∧
  (∀ w s k, runs portStateCmd w s k = true → exec (.portState w) s = .next (done portStateCmd w s k)) ∧
  (∀ w s k, runs clsMapCmd w s k = true → exec (.clsMap w) s = .next (done clsMapCmd w s k)) ∧
  (∀ w s k, runs clsRuleCmd w s k = true → exec (.clsRule w) s = .next (done clsRuleCmd w s k)) ∧
  (∀ w s k, runs peerAddCmd w s k = true → exec (.peerAdd w) s = .next (done peerAddCmd w s k)) ∧
  (∀ w s k, runs peerDelCmd w s k = true → exec (.peerDel w) s = .next (done peerDelCmd w s k)) ∧
  (∀ w s k, runs peerSearchCmd w s k = true → exec (.peerSearch w) s = .next (done peerSearchCmd w s k)) ∧
  (∀ w s k, runs peerNextCmd w s k = true → exec (.peerNext w) s = .next (done peerNextCmd w s k)) ∧
  (∀ w s k, runs peerFlushCmd w s k = true → exec (.peerFlush w) s = .next (done peerFlushCmd w s k)) ∧
  (∀ w s k, runs chSetCmd w s k = true → exec (.chSet w) s = .next (done chSetCmd w s k)) ∧
  (∀ w s k, runs saLoadCmd w s k = true → exec (.saLoad w) s = .next (done saLoadCmd w s k)) ∧
  (∀ w s k, runs saArmCmd w s k = true → exec (.saArm w) s = .next (done saArmCmd w s k)) ∧
  (∀ w s k, runs saRollCmd w s k = true → exec (.saRoll w) s = .next (done saRollCmd w s k)) ∧
  (∀ w s k, runs saRetireCmd w s k = true → exec (.saRetire w) s = .next (done saRetireCmd w s k)) ∧
  (∀ w s k, runs chPinCmd w s k = true → exec (.chPin w) s = .next (done chPinCmd w s k)) ∧
  (∀ w s k, runs chUnpinCmd w s k = true → exec (.chUnpin w) s = .next (done chUnpinCmd w s k)) ∧
  (∀ w s k, runs chReadCmd w s k = true → exec (.chRead w) s = .next (done chReadCmd w s k)) ∧
  (∀ w s k, runs cntReadCmd w s k = true → exec (.cntRead w) s = .next (done cntReadCmd w s k)) ∧
  (∀ w s k, runs cntClearCmd w s k = true → exec (.cntClear w) s = .next (done cntClearCmd w s k)) ∧
  (∀ w s k, runs classMapCmd w s k = true → exec (.classMap w) s = .next (done classMapCmd w s k)) ∧
  (∀ w s k, runs shapeSetCmd w s k = true → exec (.shapeSet w) s = .next (done shapeSetCmd w s k)) ∧
  (∀ w s k, runs policeSetCmd w s k = true → exec (.policeSet w) s = .next (done policeSetCmd w s k)) ∧
  (∀ w s k, runs gateLoadCmd w s k = true → exec (.gateLoad w) s = .next (done gateLoadCmd w s k)) ∧
  (∀ w s k, runs gateSwapCmd w s k = true → exec (.gateSwap w) s = .next (done gateSwapCmd w s k)) ∧
  (∀ w s k, runs gateSwapCancelCmd w s k = true → exec (.gateSwapCancel w) s = .next (done gateSwapCancelCmd w s k)) ∧
  (∀ w s k, runs preemptSetCmd w s k = true → exec (.preemptSet w) s = .next (done preemptSetCmd w s k)) ∧
  (∀ w s k, runs timeSetCmd w s k = true → exec (.timeSet w) s = .next (done timeSetCmd w s k)) ∧
  (∀ w s k, runs timeSetAtPpsCmd w s k = true → exec (.timeSetAtPps w) s = .next (done timeSetAtPpsCmd w s k)) ∧
  (∀ w s k, runs timeAdjCmd w s k = true → exec (.timeAdj w) s = .next (done timeAdjCmd w s k)) ∧
  (∀ w s k, runs timeIncrCmd w s k = true → exec (.timeIncr w) s = .next (done timeIncrCmd w s k)) ∧
  (∀ w s k, runs trigArmCmd w s k = true → exec (.trigArm w) s = .next (done trigArmCmd w s k)) ∧
  (∀ w s k, runs captCfgCmd w s k = true → exec (.captCfg w) s = .next (done captCfgCmd w s k)) ∧
  (∀ w s k, runs probeSendCmd w s k = true → exec (.probeSend w) s = .next (done probeSendCmd w s k)) ∧
  (∀ w s k, runs probeResponderCmd w s k = true → exec (.probeResponderWrite w) s = .next (done probeResponderCmd w s k)) ∧
  (∀ w s k, runs tsPopCmd w s k = true → exec (.tsPop w) s = .next (done tsPopCmd w s k))

/-- R37, R308, R310, R311, R321, R335: the same for every instruction of the Key Vault, the Press and the Memory Guard. -/
def Obligations.VaultCommandsComplete : Prop :=
  (∀ w s k, runs graftCmd w s k = true → exec (.graft w) s = .next (done graftCmd w s k)) ∧
  (∀ w s k, runs slotEraseCmd w s k = true → exec (.slotErase w) s = .next (done slotEraseCmd w s k)) ∧
  (∀ w s k, runs slotInfoCmd w s k = true → exec (.slotInfo w) s = .next (done slotInfoCmd w s k)) ∧
  (∀ w s k, runs blkKeyCmd w s k = true → exec (.blkKey w) s = .next (done blkKeyCmd w s k)) ∧
  (∀ w s k, runs blkOpCmd w s k = true → exec (.blkOp w) s = .next (done blkOpCmd w s k)) ∧
  (∀ w s k, runs blkCmpCmd w s k = true → exec (.blkCmp w) s = .next (done blkCmpCmd w s k)) ∧
  (∀ w s k, runs unwrapCmd w s k = true → exec (.unwrap w) s = .next (done unwrapCmd w s k)) ∧
  (∀ w s k, runs drbgGetCmd w s k = true → exec (.drbgGet w) s = .next (done drbgGetCmd w s k)) ∧
  (∀ w s k, runs pkLoadCmd w s k = true → exec (.pkLoad w) s = .next (done pkLoadCmd w s k)) ∧
  (∀ w s k, runs pkOpCmd w s k = true → exec (.pkOp w) s = .next (done pkOpCmd w s k)) ∧
  (∀ w s k, runs pkReadCmd w s k = true → exec (.pkRead w) s = .next (done pkReadCmd w s k)) ∧
  (∀ w s k, runs mgRegionCreateCmd w s k = true → exec (.mgRegionCreate w) s = .next (done mgRegionCreateCmd w s k)) ∧
  (∀ w s k, runs mgRegionRemoveCmd w s k = true → exec (.mgRegionRemove w) s = .next (done mgRegionRemoveCmd w s k)) ∧
  (∀ w s k, runs mgRotateCmd w s k = true → exec (.mgRekeyRotate w) s = .next (done mgRotateCmd w s k)) ∧
  (∀ w s k, runs mgRebuildCmd w s k = true → exec (.mgRekeyRebuild w) s = .next (done mgRebuildCmd w s k)) ∧
  (∀ w s k, runs mgScrubStartCmd w s k = true → exec (.mgScrubStart w) s = .next (done mgScrubStartCmd w s k)) ∧
  (∀ w s k, runs mgScrubStopCmd w s k = true → exec (.mgScrubStop w) s = .next (done mgScrubStopCmd w s k)) ∧
  (∀ w s k, runs mgRightsCmd w s k = true → exec (.mgRights w) s = .next (done mgRightsCmd w s k))

/-- R37, R308, R310, R311, R321, R335: the same for every instruction of the Cellar Book, the Trellis, the system and the Crust. -/
def Obligations.SystemCommandsComplete : Prop :=
  (∀ w s k, runs logWriteCmd w s k = true → exec (.logWrite w) s = .next (done logWriteCmd w s k)) ∧
  (∀ w s k, runs logFreezeCmd w s k = true → exec (.logFreeze w) s = .next (done logFreezeCmd w s k)) ∧
  (∀ w s k, runs logThawCmd w s k = true → exec (.logThaw w) s = .next (done logThawCmd w s k)) ∧
  (∀ w s k, runs logClearCmd w s k = true → exec (.logClear w) s = .next (done logClearCmd w s k)) ∧
  (∀ w s k, runs trSendCmd w s k = true → exec (.trSend w) s = .next (done trSendCmd w s k)) ∧
  (∀ w s k, runs trRecvCmd w s k = true → exec (.trRecv w) s = .next (done trRecvCmd w s k)) ∧
  (∀ w s k, runs trRoleCmd w s k = true → exec (.trRole w) s = .next (done trRoleCmd w s k)) ∧
  (∀ w s k, runs sysCkptCmd w s k = true → exec (.sysCkpt w) s = .next (done sysCkptCmd w s k)) ∧
  (∀ w s k, runs sysSwitchStageCmd w s k = true → exec (.sysSwitchStage w) s = .next (done sysSwitchStageCmd w s k)) ∧
  (∀ w s k, runs sysSwitchHoldoffCmd w s k = true → exec (.sysSwitchHoldoff w) s = .next (done sysSwitchHoldoffCmd w s k)) ∧
  (∀ w s k, runs sysVintageCmd w s k = true → exec (.sysVintage w) s = .next (done sysVintageCmd w s k)) ∧
  (∀ w s k, runs evBindCmd w s k = true → exec (.evBind w) s = .next (done evBindCmd w s k)) ∧
  (∀ w s k, runs evUnbindCmd w s k = true → exec (.evUnbind w) s = .next (done evUnbindCmd w s k)) ∧
  (∀ w s k, runs crustCfgCmd w s k = true → exec (.crustCfg w) s = .next (done crustCfgCmd w s k)) ∧
  (∀ w s k, runs crustArmCmd w s k = true → exec (.crustArm w) s = .next (done crustArmCmd w s k)) ∧
  (∀ w s k, runs crustDisarmCmd w s k = true → exec (.crustDisarm w) s = .next (done crustDisarmCmd w s k)) ∧
  (∀ w s k, runs crustTestCmd w s k = true → exec (.crustTest w) s = .next (done crustTestCmd w s k)) ∧
  (∀ w s k, runs crustInjectCmd w s k = true → exec (.crustInject w) s = .next (done crustInjectCmd w s k)) ∧
  (∀ w s k, runs crustClearCmd w s k = true → exec (.crustClear w) s = .next (done crustClearCmd w s k)) ∧
  (∀ w s k, runs crustLogclearCmd w s k = true → exec (.crustLogclear w) s = .next (done crustLogclearCmd w s k))

/-- R163, R348, R363, R378, R381, R391: every function of the Press, its start and end, a Graft message, a re-mask pass and the events of the DRBG complete with their own effect.
It rests on choices of the model: log entries 2, 54, 55, 57, 128. -/
def Obligations.PressEventsComplete : Prop :=
  (∀ t s a b op g n, a = comeTo t s → a.press.running = some op → op.func = 1 → op.result = none →
    g = nf op.imm 9 0 → n = nf op.imm 19 10 → b = shape g n a →
    exec (.pkShape t) s = .next { b with press := { b.press with
      running := some { op with result := some (0, []), work := shapeGranules a g n } } }) ∧
  (∀ (run : PressRun) s a b op c q, a = comeTo run.t s → a.press.running = some op → op.result = none →
    b = (internalRandom 8 a).2 →
    op.vault = true → 1 ≤ c → c ≤ 3 → op.func = 0x10 + c →
    q = upsetPoint c run.upset (ecMul c (secretScalar c op.secret) (curveG c)) →
    exec (.ecPub run) s = .next { b with press := { b.press with running := some { op with
      result := some (if offCurve c q then (stFault, []) else (0, pointBytes c q))
      mismatch := offCurve c q, work := 0 } } }) ∧
  (∀ (run : PressRun) s a b op c d dg r z o, a = comeTo run.t s → a.press.running = some op → op.result = none →
    b = (internalRandom 48 a).2 → op.vault = true → 1 ≤ c → c ≤ 3 → op.func = 0x20 + c →
    d = secretScalar c op.secret → dg = (srcData a op 0).take (digF c) →
    r = ecdsaSig c d (signNonce c op dg (internalRandom 48 a).1) dg →
    z = beBytes (curveF c) r.2 →
    o = upsetOctets run.upset z →
    exec (.ecdsaSign run) s = .next { b with press := { b.press with running := some { op with
      result := some (if o = z then (0, beBytes (curveF c) r.1 ++ z) else (stFault, []))
      mismatch := decide (o ≠ z), work := 0 } } }) ∧
  (∀ (run : PressRun) s a op c q, a = comeTo run.t s → a.press.running = some op → op.result = none →
    op.vault = false → 1 ≤ c → c ≤ 3 → op.func = 0x30 + c → firstFail (validation a op) = 0 →
    q = upsetPoint c run.upset (ecdsaPoint c (pointOf c (srcData a op 0)) ((srcData a op 1).take (digF c))
      (srcNat a op 2 0 (curveF c)) (srcNat a op 2 (curveF c) (curveF c))) →
    exec (.ecdsaVerify run) s = .next { a with press := { a.press with running := some { op with
      result := some (if offCurve c q then (stFault, []) else verdict (abscissaIs (curveN c) (srcNat a op 2 0 (curveF c)) q))
      mismatch := offCurve c q, work := 0 } } }) ∧
  (∀ (run : PressRun) s a b op c q, a = comeTo run.t s → a.press.running = some op → op.result = none →
    b = (internalRandom 8 a).2 →
    op.vault = true → 1 ≤ c → c ≤ 3 → op.func = 0x40 + c → firstFail (validation a op) = 0 →
    q = upsetPoint c run.upset (ecMul c (secretScalar c op.secret) (pointOf c (srcData a op 0))) →
    exec (.ecdhMac run) s = .next { b with press := { b.press with running := some { op with
      result := some (if offCurve c q then (stFault, []) else (0, pressMac (abscissa c q)
        ((srcData a op 0).take (2 * curveF c)) (srcCounted a op 1 2)))
      mismatch := offCurve c q, work := 0 } } }) ∧
  (∀ (run : PressRun) s a op c q, a = comeTo run.t s → a.press.running = some op → op.result = none →
    op.vault = false → 1 ≤ c → c ≤ 3 → op.func = 0x50 + c → firstFail (validation a op) = 0 →
    q = upsetPoint c run.upset (ecMul c (srcNat a op 1 0 (curveF c)) (pointOf c (srcData a op 0))) →
    exec (.ecMul run) s = .next { a with press := { a.press with running := some { op with
      result := some (if offCurve c q then (stFault, []) else (0, pointBytes c q))
      mismatch := offCurve c q, work := 0 } } }) ∧
  (∀ (run : PressRun) s a op c n z o, a = comeTo run.t s → a.press.running = some op → op.result = none →
    op.vault = false → 1 ≤ c → c ≤ 3 → op.func = 0x60 + c → n = modF c → firstFail (validation a op) = 0 →
    z = beBytes n (powMod (srcNat a op 2 0 n) (8 * n) (srcNat a op 0 0 n) (srcNat a op 1 0 n)) →
    o = upsetOctets run.upset z →
    exec (.modexp run) s = .next { a with press := { a.press with running := some { op with
      result := some (if o = z then (0, z) else (stFault, []))
      mismatch := decide (o ≠ z), work := 0 } } }) ∧
  (∀ (run : PressRun) s a op c n z o, a = comeTo run.t s → a.press.running = some op → op.result = none →
    op.vault = false → 2 ≤ c → c ≤ 3 → op.func = 0x70 + c → n = modF c → firstFail (validation a op) = 0 →
    z = beBytes n (powMod (srcNat a op 0 0 n) 32 (srcNat a op 2 0 n) (srcNat a op 0 n 4)) →
    o = upsetOctets run.upset z →
    exec (.rsaPkcs1 run) s = .next { a with press := { a.press with running := some { op with
      result := some (if o = z then verdict (decide (z = pkcs1Encoded n ((srcData a op 1).take 48))) else (stFault, []))
      mismatch := decide (o ≠ z), work := 0 } } }) ∧
  (∀ (run : PressRun) s a op c n z o, a = comeTo run.t s → a.press.running = some op → op.result = none →
    op.vault = false → 2 ≤ c → c ≤ 3 → op.func = 0x80 + c → n = modF c → firstFail (validation a op) = 0 →
    z = beBytes n (powMod (srcNat a op 0 0 n) 32 (srcNat a op 2 0 n) (srcNat a op 0 n 4)) →
    o = upsetOctets run.upset z →
    exec (.rsaPss run) s = .next { a with press := { a.press with running := some { op with
      result := some (if o = z then verdict (pssOk n ((srcData a op 1).take 48) z) else (stFault, []))
      mismatch := decide (o ≠ z), work := 0 } } }) ∧
  (∀ (run : PressRun) s a b op z o, a = comeTo run.t s → a.press.running = some op → op.result = none →
    b = (internalRandom 8 a).2 → op.vault = true → op.func = 0x91 →
    z = fit 1568 (kemPub op.secret) →
    o = upsetOctets run.upset z →
    exec (.kemPub run) s = .next { b with press := { b.press with running := some { op with
      result := some (if o = z then (0, z) else (stFault, []))
      mismatch := decide (o ≠ z), work := 0 } } }) ∧
  (∀ (run : PressRun) s a b op z o, a = comeTo run.t s → a.press.running = some op → op.result = none →
    b = (internalRandom 8 a).2 → op.vault = true → op.func = 0x93 →
    z = pressMac (fit 32 (kemDecaps op.secret ((srcData a op 0).take 1568)))
      ((srcData a op 0).take 1568) (srcCounted a op 1 2) →
    o = upsetOctets run.upset z →
    exec (.kemMac run) s = .next { b with press := { b.press with running := some { op with
      result := some (if o = z then (0, z) else (stFault, []))
      mismatch := decide (o ≠ z), work := 0 } } }) ∧
  (∀ (run : PressRun) s a b op z o, a = comeTo run.t s → a.press.running = some op → op.result = none →
    b = (internalRandom 8 a).2 → op.vault = true → op.func = 0xA1 →
    z = fit 2592 (dsaPub (op.secret.take 32)) →
    o = upsetOctets run.upset z →
    exec (.dsaPub run) s = .next { b with press := { b.press with running := some { op with
      result := some (if o = z then (0, z) else (stFault, []))
      mismatch := decide (o ≠ z), work := 0 } } }) ∧
  (∀ (run : PressRun) s a b op x z o m, a = comeTo run.t s → a.press.running = some op → op.result = none →
    b = (internalRandom 32 a).2 → op.vault = true → op.func = 0xA2 →
    x = dsaSign (op.secret.take 32) (srcCounted a op 0 2) (srcCounted a op 1 1) (internalRandom 32 a).1 →
    z = (match x with
      | some sig => (fit 4627 sig).drop 64
      | none => []) → o = upsetOctets run.upset z → m = decide (o ≠ z) →
    exec (.dsaSign run) s = .next { b with press := { b.press with running := some { op with
      result := some (match x with
        | some sig => if o = z then (0, sig.take 64 ++ z) else (stFault, [])
        | none => (stFault, []))
      mismatch := m
      work := match x with
        | some _ => min 814 (max 1 (dsaAttempts (op.secret.take 32) (srcCounted a op 0 2) (srcCounted a op 1 1)
            (internalRandom 32 a).1))
        | none => 814 } } }) ∧
  (∀ (run : PressRun) s a op v z o, a = comeTo run.t s → a.press.running = some op → op.result = none →
    op.vault = false → op.func = 0xA3 →
    v = dsaVerify ((srcData a op 0).take 2592) (srcCounted a op 1 2) (srcCounted a op 2 1) ((srcData a op 3).take 4627) →
    z = beBytes 1 (bn v) →
    o = upsetOctets run.upset z →
    exec (.dsaVerify run) s = .next { a with press := { a.press with running := some { op with
      result := some (if o = z then verdict v else (stFault, []))
      mismatch := decide (o ≠ z), work := 0 } } }) ∧
  (∀ t n s a op l, a = comeTo t s → pressIdle a = true → internalWaits a = false → a.press.queue = op :: l →
    op.vault = false →
    exec (.pressOpStart ⟨t, n⟩) s = .next (bump 17 1 0 48 1 { a with press := { a.press with
      queue := l, running := some { op with since := a.clk.root } } })) ∧
  (∀ t s a b c op l, a = comeTo t s → pressIdle a = true → internalWaits a = false → a.press.queue = op :: l →
    op.vault = true → c = committedFor op.slot a →
    b = bump 17 1 0 48 1 { c with press := { c.press with
      queue := l, running := some { op with since := c.clk.root } } } →
    exec (.pressOpStart ⟨t, 0⟩) s = .next
      (if nf (getSlot c op.slot).attr 31 28 = 0 then endOp { op with since := c.clk.root } stKeyErased 0 b
       else if keyFits op.func (getSlot c op.slot).attr = false then
         endOp { op with since := c.clk.root } stAttr 0 b
       else if c.vault.drbgStopped = true then endOp { op with since := c.clk.root } stFault 0 b
       else { b with press := { b.press with
         running := some { op with since := c.clk.root, secret := (getSlot c op.slot).payload } } })) ∧
  (∀ t s a op n o out, a = comeTo t s → a.press.running = some op → op.result = some (0, out) →
    op.mismatch = false →
    op.since + 8 * opCycles a op 0 ≤ a.clk.root → fnOutput op.func = some n → slotAt a (nf op.imm 49 40) = some o →
    op.func ≠ 0xA2 →
    exec (.pressOpComplete t) s = .next (serveKeyx (endOp op 0 (opCycles a op 0)
      (setOp (nf op.imm 49 40) { o with state := .result, data := fit (64 * 2 ^ o.k) out } a)))) ∧
  (∀ (run : GraftRun) s a b v, a = comeTo run.t s → a.vault.serving = some v → v.phase = .armed →
    run.bursts = [] → run.upTo = .committed → v.msg.relay = none →
    b = bump 17 0 16 48 1 (extendReg 5 (sha384 (v.msg.octets.take (opsEnd v.msg.octets)))
      (v.ops.foldl (fun s o => applyOp o s) { a with vault := { a.vault with serving := none } })) →
    exec (.graftProcess run) s = .next (endPending v.msg.cseq 0 0x1F (mf v.msg.octets 40 8)
      (v.erases.foldl (fun s i => eraseNow i s) b))) ∧
  (∀ (run : RemaskRun) s a b, a = comeTo run.t s → a.vault.drbgStopped = false → a.power.held = false →
    a.vault.remaskRow = 0 → a.vault.remaskAt + 10000000000 ≤ a.clk.root → run.upTo = 256 →
    b = readRows run 0 256 (beginRemask a) →
    exec (.remaskPass run) s = .next (bump 17 0 35 48 1
      { b with vault := { b.vault with
          epoch := 1 - b.vault.epoch, remaskRow := 0, remaskAt := b.clk.root
          maskKeys := tabSet 0 [] (1 - b.vault.epoch) (tabGet 0 b.vault.maskKeys (1 - b.vault.epoch)) } })) ∧
  (∀ t s a b, a = comeTo t s → a.vault.drbgStopped = false → 65536 ≤ a.vault.drbgRequests →
    b = drbgSeed (a.vault.drbgKey, a.vault.drbgV) a →
    exec (.drbgReseed t) s = .next (bump 17 0 36 48 1
      { b with vault := { b.vault with drbgRequests := 0, drbgReseedAt := b.clk.root } })) ∧
  (∀ t raw s a, a = comeTo t s → a.vault.drbgStopped = false → a.power.held = false →
    (repetitionFails raw = true ∨ proportionFails raw = true) →
    exec (.healthTestFailure ⟨t, raw⟩) s = .next (bump 17 0 37 48 1 (raise 0x7005 0 0
      { a with vault := { a.vault with
          drbgStopped := true, drbgErased := false, drbgAttempts := 0, drbgFailedAt := a.clk.root } }))) ∧
  (∀ t s a, a = comeTo t s → a.vault.drbgStopped = true → a.vault.drbgErased = false → a.vault.drbgAttempts < 3 →
    a.vault.drbgFailedAt + 100000000 * a.vault.drbgAttempts ≤ a.clk.root →
    exec (.drbgReinstantiate t true) s = .next (drbgInstantiated a) ∧
    exec (.drbgReinstantiate t false) s = .next
      (if a.vault.drbgAttempts = 2 then raise 0x7006 0 0 { a with vault := { a.vault with drbgAttempts := 3 } }
       else { a with vault := { a.vault with drbgAttempts := a.vault.drbgAttempts + 1 } })) ∧
  (∀ t s a, a = comeTo t s → a.vault.drbgStopped = true → a.vault.drbgErased = true →
    exec (.drbgPostEraseInstantiate t true) s = .next (drbgInstantiated a))

/-- R82, R95, R136, R163, R185, R212, R240, R522: every event of a frame, of the association cache, of a cipher slice, of the Cask and of a punt or inject ring completes with its own effect.
It rests on choices of the model: log entries 2, 44, 122. -/
def Obligations.FrameEventsComplete : Prop :=
  (∀ t p l x s a b, a = settle (comeTo t s) → p / 32 = 1 → b = countSeen p x.mark x.seen a → receives b p = true →
    exec (.hostFrameReceive t p l x) s = .next (clearFrame p l x.mark b)) ∧
  (∀ t p l x s a c b, a = settle (comeTo t s) → p / 32 = 0 → c = countSeen p x.mark x.seen a → receives c p = true →
    b = rxInterrupt p l.length c → etherType l ≠ 0x88E5 → exec (.lineFrameReceive t p l x) s = .next (clearFrame p l x.mark b)) ∧
  (∀ t i s a b k v set j x, a = settle (comeTo t s) → a.cls.flush = none → firstOfKey a i = true →
    a.cls.spillPath[i]? = some k → a.clk.root ≤ k.since + 100000 →
    b = { a with cls := { a.cls with spillPath := a.cls.spillPath.eraseIdx i } } →
    v = lookupView b → set = peerSet b k.port k.sci → findWay v 16 set k.port k.sci = some j → peerAt v set j = some x →
    exec (.spillReadComplete t i) s = .next (meetPeer rxChannel x k b)) ∧
  (∀ t i s a k, a = comeTo t s → a.cls.spillPath[i]? = some k → k.since + 100000 < a.clk.root →
    exec (.spillTimeout t i) s = .next
      (bump 3 k.port 8 48 1 { a with cls := { a.cls with spillPath := a.cls.spillPath.eraseIdx i } })) ∧
  (∀ t set way s a x, a = comeTo t s → a.cls.flush = none → peerAt a set way = some x → x.bound = false →
    x.expires < a.clk.root →
    exec (.pendingAgeExpiry t set way) s = .next
      (raise 0x2003 x.port 0 (bump 3 x.port 4 48 1 (freePeer set way a)))) ∧
  (∀ t s a f, a = comeTo t s → a.cls.flush = some f → f.since + 4096 * 12 ≤ a.clk.root →
    exec (.peerFlushComplete t) s = .next (complete 0x2006 f.cseq stOk 0 0
      { a with cls := { a.cls with peers := sweepSets f f.done 4096 a.cls.peers, flush := none } })) ∧
  (∀ t p s a, a = settle (comeTo t s) → p < 64 → (getPort a p).decisionAt = none →
    exec (.egressSelect t p) s = .next (if portSends a p then decision p a else flushPort p a)) ∧
  (∀ t x s a f, a = settle (comeTo t s) → nextOut a x.port = some f → portSends a x.port = true →
    f.due = none → mayStart a x.port f = true → wireFree a x.port f = true → (f.commit.isSome = true ∨ firstStart a x.port f ≤ a.clk.root) →
    exec (.frameTransmit t x) s = .next (startFrame x.port f x.read a)) ∧
  (∀ t p s a f, a = settle (comeTo t s) → dueCheck a (getRx a p) a.clk.root = some f →
    exec (.icvCheck t p) s = .next (icvCheck f (setRx a p (rxLeave f.num (rxOnward a (getRx a p)))))) ∧
  (∀ t c r s a b i l st, a = settle (comeTo t s) → lineOf a c .filling = some i → tabFind a.assoc.lines i = some l →
    a.clk.root ≤ l.since + 500000 → fillAnswer c r a = (st, b) →
    exec (.fillComplete t c r) s = .next
      (if st = 0 then issueFills (drainMiss c (rxChannel c) (makeResident c i b))
      else if st = stPoisoned ∨ st = stIntegrity then
        freeLine i (drainMiss c (fun _ s => countCh c 10 1 s) (setCold c st b))
      else b)) ∧
  (∀ t c s a b i l, a = settle (comeTo t s) → lineOf a c .filling = some i → tabFind a.assoc.lines i = some l →
    l.since + 500000 < a.clk.root →
    b = raise 0x3005 c 0 (freeLine i (drainMiss c (fun _ s => countCh c 11 1 s) (dropWaiting c a))) →
    (getChan b c).pinning = none →
    exec (.fillTimeout t c) s = .next b) ∧
  (∀ t s a b i, a = settle (comeTo t s) → freeLines a < 32 → turnClock (2 * 2048 + 1) a = (b, some i) →
    exec (.cacheEvict t) s = .next (evictLine i b)) ∧
  (∀ t c res s a b i st, a = settle (comeTo t s) → lineOf a c .writeBack = some i →
    backAnswer c ((tabFind a.assoc.lines i).map (·.back) |>.getD 0) res a = (st, b) →
    exec (.writeBackComplete t c res) s = .next (issueFills (clearLine i
      (if st = stOk then coldIfQuarantined c b else setCold c st b)))) ∧
  (∀ t x g s a b r q, a = settle (comeTo t s) → tabGet [] (getArray a x).refills g = r :: q →
    b = setArray a x { getArray a x with refills := tabSet [] (getArray a x).refills g q } →
    exec (.proofRefill t x g) s = .next
      (checkPin r.channel (bump 8 x (if r.cls7 then 8 else 9) 48 1 (fillSlot r.channel r.idx b)))) ∧
  (∀ t x pos gh s a b c bad n m, a = settle (comeTo t s) → sliceIn (getArray a x) (.position pos) = some bad →
    sparesLeft (getArray a x) = true →
    b = bump 8 x 4 48 1 (bump 8 x (if gh then 1 else 0) 48 1 (setArray a x (placeSpare (getArray a x) pos bad))) →
    n = Config.measured b.drawn % 17 → m = Config.measured (b.drawn + 1) % (n + 1) →
    c = raiseEv { code := 0x3010, obj := x, aux := bad }
      (bump 8 x 3 48 m (bump 8 x 2 48 n { b with drawn := b.drawn + 2 })) →
    exec (.sliceFault t x pos gh) s = .next
      (groupSlows x (pos / 4) (if sparesLeft (getArray c x) then c else raise 0x3012 x 0 c))) ∧
  (∀ t x s a, a = comeTo t s → (nextPlaced (getArray a x)).isSome = true →
    (getArray a x).testSince + 10000000 ≤ a.clk.root →
    exec (.rotationStep t x) s = .next (bump 8 x 5 48 1 (setArray a x (rotate a.clk.root (getArray a x))))) ∧
  (∀ t x s a v, a = comeTo t s → sliceIn (getArray a x) .testSeat = some v → (getArray a x).seatPassed = false →
    exec (.sliceTestComplete t x true) s = .next
      (bump 8 x 6 48 1 (setArray a x { getArray a x with seatPassed := true })) ∧
    exec (.sliceTestComplete t x false) s = .next (checkSpares x (raise 0x3011 x 0
      (bump 8 x 4 48 1 (bump 8 x 7 48 1 (setArray a x (setRole v .failed (getArray a x)))))))) ∧
  (∀ t c n s a u, a = settle (comeTo t s) → u = getSub (getChan a c) n → u.state = .draining → rollTime u ≤ a.clk.tod →
    exec (.retireTimeReached t c n) s = .next
      (raise 0x300D c 0 (putChan c (setSub (getChan a c) n (retireSub u)) a))) ∧
  (∀ t c s a n, a = settle (comeTo t s) → (getChan a c).pinned = true → armedAn (getChan a c) = some n →
    (getSub (getChan a c) n).rollMode = 2 → rollTime (getSub (getChan a c) n) ≤ a.clk.tod + 2000 * 2 ^ 32 →
    exec (.rollStraddleWindow t c) s = .next (syncSlots c a)) ∧
  (∀ t cell cw r s a, a = settle (comeTo t s) → cell < 524288 → cw < 4 → a.cask.scrubNext ≤ cell * 4 + cw →
    exec (.caskScrub t cell cw r) s =
      .next (scrubbed (cell * 4 + cw) (scrubCell (Config.cellPlace cell % 524288) cw r a))) ∧
  (∀ t s a b, a = settle (comeTo t s) → a.cask.ageAt + 10000000 ≤ a.clk.root →
    b = { a with cask := { a.cask with ageAt := a.clk.root } } →
    exec (.ageCheck t) s = .next ((a.cask.queues.map (·.1)).foldl (fun s k => ageQueue (k / 8) (k % 8) s) b)) ∧
  (∀ t n x s a b c f l v, a = settle (comeTo t s) → n < 2 → a.hostIf.linkUp = true → (getRing a n).enabled = true →
    (getRing a n).producer ≠ (getRing a n).consumer → tabGet [] a.cask.punts n = f :: l → v = beNat (fit 32 x.entry) →
    puntStatus v = 0 → f.octets.length ≤ nf v 191 178 → readCells f.chain x.read a = (false, b) →
    c = emit (.hostWrite (nf v 255 192) f.octets) (pushIngress f.inPort f.octets f.rxq f.stamp (puntGone n f l b)) →
    exec (.puntDeliver t n x) s = .next (bump 20 0 (7 + n) 48 1
      (writeBack n (puntEntry v (ringPhase (getRing c n)) f) (some (19 + n)) c))) ∧
  (∀ t n s a f l, a = settle (comeTo t s) → n < 2 → tabGet [] a.cask.punts n = f :: l →
    f.since + 10000000 < a.clk.root →
    exec (.puntWaitExpiry t n) s = .next (bump 5 0 2 48 1 (bump 20 0 (9 + n) 48 1 (puntGone n f l a)))) ∧
  (∀ t n x s a v l, a = settle (comeTo t s) → n < 2 → a.hostIf.linkUp = true → (getRing a (2 + n)).enabled = true →
    (getRing a (2 + n)).producer ≠ (getRing a (2 + n)).consumer → tabFind a.hostIf.injectRead n = none →
    v = beNat (fit 32 x) → injectStatus n v a = 0 → injectFits n v a = true →
    exec (.injectTake t n x (.bytes l)) s = .next (injectBack n v stOk (injectFrame n v l a))) ∧
  (∀ t k s a c, a = comeTo t s → k < 32 → executing a = true → (getCtx a k).run = .waitHost c → c + 1000000 < a.clk.root →
    exec (.hostTransferTimeout t k) s = .next (commit (finish k (some stTimeout) (bump 20 0 2 48 1 a)))) ∧
  (∀ w s k e a, runs sysReconcileCmd w s k = true → w.via = .answered → e = envAt w s k → a = trafficFirst (opChan e) (atBlock s k) → e.imm = 1 →
    exec (.sysReconcile w) s = .next (answered sysReconcileCmd w s k { s := reconcileOne e.b a }))

/-- R48, R57, R62, R68, R77, R259, R273, R293: every event of a lane, of a port, of pause, of gates, of time and of a pin completes with its own effect.
It rests on choices of the model: log entry 2. -/
def Obligations.PortEventsComplete : Prop :=
  (∀ t p l x s a b, a = settleControl p (comeTo t s) → p < 64 → etherType l = 0x8808 → b = countSeen p x.mark x.seen a →
    receives b p = true → macFault b p l x.mark = none → mf l 14 2 = 0x0001 → 18 ≤ l.length →
    exec (.pauseFrameReceive t p l x) s = .next (pauseAll p (mf l 16 2) b.clk.root (bump 1 p 46 48 1 b))) ∧
  (∀ t p c s a u, a = settleControl p (comeTo t s) → (getPause a p c).until_ = some u → u < a.clk.root →
    exec (.pauseTimeExpiry t p c) s = .next (setPause a p c { getPause a p c with until_ := none })) ∧
  (∀ t p c s a u, a = settleControl p (comeTo t s) → (getPause a p c).until_ = some u → a.clk.root < u → c < 6 →
    (getPause a p c).since + nf (getPort a p).setting 20 13 * 100000 ≤ a.clk.root →
    exec (.pauseLimitRelease t p c) s = .next (raiseEv { code := 0x1003, obj := p, aux := c }
      (bump 1 p (25 + c) 32 1 (setPause a p c { getPause a p c with until_ := none, ignoring := true })))) ∧
  (∀ t p c s a, a = settle (comeTo t s) → psPgen (getPort a p).setting = true → c < 6 → nb (getPort a p).xoff c = true →
    psFc (getPort a p).setting = 2 → xonOf a p < classCharge a p c →
    tabGet 0 (getPort a p).xoffAt c + halfPause a p ≤ a.clk.root →
    exec (.pauseRefresh t p c) s = .next (sendPause p (2 ^ c) 65535 (setPort a p { getPort a p with
      xoffAt := tabSet 0 (getPort a p).xoffAt c a.clk.root }))) ∧
  (∀ t p c s a u, a = comeTo t s → (shaperAt a p c a.clk.root).wheel = some u → u ≤ a.clk.root →
    exec (.calendarSlotReached t p c) s = .next (evalShaper p c a.clk.root (shaperTokens a p c a.clk.root) a)) ∧
  (∀ t p s a b n, a = comeTo t s → (getGates a p).oper.enable = true → n = cycleStart (getGates a p) a.clk.tod →
    b = (if n = (getGates a p).cycleSeen then a
         else bump 11 p 40 48 1 (setGates a p { getGates a p with cycleSeen := n })) →
    exec (.gateEntryChange t p) s = .next (preemptWire p (gateSync p b))) ∧
  (∀ t p s a c, a = comeTo t s → (getGates a p).change = some c → c ≤ a.clk.tod →
    exec (.gateSwapChange t p) s = .next (doSwap p c a)) ∧
  (∀ t s a, a = comeTo t s → exec (.temporaryIncrementEnd t) s = .next a) ∧
  (∀ t s a, a = comeTo t s → a.clk.wrapped = true →
    exec (.secondsWrap t) s = .next (stepUsers (todWrap - 1)
      (raise 0x5001 0 0 { a with clk := { a.clk with wrapped := false } }))) ∧
  (∀ t r n s a q v, a = comeTo t s → a.clk.ppsSet = some q → v = (getPin a 8).setting → selects v r = true →
    nf v 59 52 * 40 ≤ n → confirmAt (nf v 59 52) t ≤ q.expiry →
    exec (.ppsSetEdge t r n) s = .next (ppsEdge t a)) ∧
  (∀ t s a q, a = comeTo t s → a.clk.ppsSet = some q → q.expiry < a.clk.root →
    exec (.ppsSetTimeout t) s = .next (complete 0x5004 q.cseq stTimeout 0 0
      { a with clk := { a.clk with ppsSet := none } })) ∧
  (∀ t i r n s a b v, a = comeTo t s → i < 9 → v = (getPin a i).setting → nb v 63 = true → nf v 59 52 * 40 ≤ n →
    b = bump 14 0 (24 + i) 48 1 (comeTo (confirmAt (nf v 59 52) t) a) →
    exec (.captureEdge t i r n) s = .next (if selects v r then capture i (stampAgo a (a.clk.root - t)) r b else b)) ∧
  (∀ t o s a, a = comeTo t s → (getTrig a o).endAt = none → trigDone (getTrig a o) = false →
    pulseTime (getTrig a o) (getTrig a o).k ≤ exactNow a →
    exec (.triggerPulse t o) s = .next (beginPulse o (stepOf125 (pulseTime (getTrig a o) (getTrig a o).k)) a)) ∧
  (∀ t i s a p, a = comeTo t s → tabFind a.timeFn.probes i = some p → p.expiry < a.clk.root →
    exec (.probeTimeout t i) s = .next (endProbe i 1 (bump 14 0 72 48 1 a))) ∧
  (∀ t p s a, a = comeTo t s → (getPort a p).state = .up → (getPort a p).preempt = .verifying →
    (getPort a p).verifyAt + (nf (getPort a p).setting 7 1 + 1) * 10000000 < a.clk.root →
    exec (.verifyTimeout t p) s = .next
      (if (getPort a p).attempts < 3 then
        sendVerify p (setPort a p { getPort a p with attempts := (getPort a p).attempts + 1, verifyAt := a.clk.root })
      else raise 0x1004 p 0 (bump 1 p 37 16 1 (setPort a p { getPort a p with preempt := .failed })))) ∧
  (∀ t p s a, a = comeTo t s → (getPort a p).state = .up → (getPort a p).preempt = .verifying →
    exec (.verifyRespondReceive t p) s = .next (setPort a p { getPort a p with preempt := .verified })) ∧
  (∀ t p x s a n, a = comeTo t s → (getPort a p).state = .negotiating → (getPort a p).waitUntil = none →
    n = topAbility 8 ((getPort a p).advert &&& x.ability) → n ≠ 0 →
    exec (.anResolved t p x) s = .next (portTo p (if nb (getPort a p).setting 51 then .training else .aligning)
      (setPort a p { getPort a p with speedNow := n, partnerFec := x.rsFec }))) ∧
  (∀ t p s a, a = comeTo t s → (getPort a p).state = .training →
    exec (.trainingComplete t p) s = .next (portTo p .aligning (recordMargins p a))) ∧
  (∀ t p s a, a = comeTo t s → (getPort a p).state = .training →
    (getPort a p).since + (if portRate a p ≤ 2 then 5000000000 else 30000000000) < a.clk.root →
    exec (.trainingTimeout t p) s = .next
      (restartBringUp p (if nb (getPort a p).setting 52 then withdrawMode p a else a))) ∧
  (∀ t p s a b, a = comeTo t s → (getPort a p).state = .aligning → (getPort a p).since + 100000000 ≤ a.clk.root →
    b = portTo p .up (locksHeld p a) →
    exec (.alignmentHeld t p) s = .next (sendVerify p (setPort b p { getPort b p with
      advert := nf (getPort b p).setting 50 43, preempt := preemptAtUp (getPort b p).setting
      attempts := 1, verifyAt := b.clk.root }))) ∧
  (∀ t p s a, a = comeTo t s → (getPort a p).state = .aligning → (getPort a p).since + 1000000000 < a.clk.root →
    exec (.alignmentTimeout t p) s = .next (restartBringUp p a)) ∧
  (∀ t p s a u, a = comeTo t s → (getPort a p).state = .negotiating → (getPort a p).waitUntil = some u →
    u ≤ a.clk.root →
    exec (.negotiationRestartWait t p) s = .next (setPort a p { getPort a p with
      waitUntil := none, advert := nf (getPort a p).setting 50 43, since := a.clk.root })) ∧
  (∀ t x s a b, a = comeTo t s → x.lane < 68 → (x.cause = .signal ∨ x.cause = .cdrLock) →
    b = squelchOutputs x.lane (setLane a x.lane { getLane a x.lane with cdrLock := false, lockSince := a.clk.root }) →
    exec (.linkLoss t x) s = .next (match portOfLane b x.lane with
      | some p => if (getPort b p).state = .up then restartBringUp p b else b
      | none => b)) ∧
  (∀ t p lf rf s a, a = comeTo t s → (getPort a p).state = .up →
    exec (.faultSequenceChange t p lf rf) s = .next (setPort a p { getPort a p with lfault := lf, rfault := rf })) ∧
  (∀ t x s a y l, a = comeTo t s → y = tabGet {} a.synce x.output → y.source = some l → y.squelched = true →
    heldSince (getLane a l) x.since + 100000000 ≤ a.clk.root →
    exec (.synceUnsquelch t x) s = .next (setLane { a with synce := tabSet {} a.synce x.output { y with squelched := false } } l
      { getLane a l with cdrLock := true, lockSince := heldSince (getLane a l) x.since })) ∧
  (∀ t l before after s a, a = comeTo t s → before * 100 < 60 * (getLane a l).recorded →
    exec (.eyeMarginCheck t l before after) s = .next
      (if after * 100 < 40 * (getLane a l).recorded then raise 0x1007 l 0 (raise 0x1006 l 0 a)
       else raise 0x1006 l 0 a)) ∧
  (∀ t g s a x l, a = comeTo t s → (getCal a g).running = none → (getCal a g).waiting = x :: l →
    exec (.calibrationStart t g) s = .next
      (setCal a g { waiting := l, running := some x, since := a.clk.root })) ∧
  (∀ t g m s a l q, a = comeTo t s → (getCal a g).running = some (l, q) →
    exec (.calibrationComplete t g m) s = .next (laneLeaves l (complete 0x1008 q stOk 0 0
      (setLane (setCal a g { getCal a g with running := none }) l
        { getLane a l with calibrating := (getCal a g).waiting.any (fun p => p.1 == l), recorded := m })))) ∧
  (∀ t x s a b, a = comeTo t s → nf (getLane a x.lane).test 56 53 ≠ 0 → b = bitsSeen a x.lane x.received →
    (laneChecks a x.lane b).1.lock = true →
    exec (.checkerLock t x) s = .next (checkerTakes x.lane b (generatorOn x.lane x.received a))) ∧
  (∀ t l before window behind s a b, a = comeTo t s → nf (getLane a l).test 56 53 ≠ 0 →
    b = bitsSeen a l (before ++ window ++ behind) → (laneChecks a l b).2.losses ≠ 0 →
    exec (.checkerLossOfLock t l before window behind) s =
      .next (checkerTakes l b (generatorOn l (before ++ window ++ behind) a))) ∧
  (∀ t l s a, a = comeTo t s → nf (getLane a l).test 50 48 = 3 → injectionDue a l = true →
    exec (.rateInjection t l) s = .next (invertBits l 1
      (setLane a l { getLane a l with injDone := (getLane a l).injDone + 1 })))

/-- R306, R309, R314, R319, R329, R408, R455, R514, R528, R538: every event of programs and waits, complexes, boot, power and references, of the Crust and of the Memory Guard completes with its own effect.
It rests on choices of the model: log entries 2, 16, 24. -/
def Obligations.SystemEventsComplete : Prop :=
  (∀ w s k a b, runs sysSwitchGoCmd w s k = true → a = atBlock s k →
    b = tryGo (answered sysSwitchGoCmd w s k { s := { a with seq := { a.seq with goOwed := true } } }) →
    exec (.sysSwitchGo w) s = .next (if s.seq.going = none ∧ b.seq.going.isSome = true then readCkpt w.found b else b)) ∧
  (∀ t q d code data s a b p, a = comeTo t s → q < 16 → executing a = true → a.hostIf.linkUp = true →
    (getQueue a q).enabled = true → (getQueue a q).prog = none → (getQueue a q).fetched = none →
    forwardedQueue a q = false → (getQueue a q).producer ≠ (getQueue a q).consumer → fenceOpen a d = true →
    fieldFail (descChecks (beNat (fit 64 d))) = 0 → p = progOf a.clk.root (beNat (fit 64 d)) →
    b = setCtx (setQueue a q { getQueue a q with fetched := none }) (2 * q + 1)
      { getCtx (setQueue a q { getQueue a q with fetched := none }) (2 * q + 1) with switched := false, last := 0 } →
    exec (.programStart t q d (.bytes code) (.bytes data)) s = .next
      (startProgram q p code (if p.dlen = 0 then [] else data) b) ∧
    exec (.programStart t q d .error (.bytes data)) s = .next (copyFails q p stFault (bump 20 0 1 48 1 b)) ∧
    exec (.programStart t q d .late (.bytes data)) s = .next
      (commit (setCtx (setQueue b q { getQueue b q with prog := some p }) (2 * q + 1)
        { getCtx b (2 * q + 1) with run := .copying b.clk.root }))) ∧
  (∀ t q s a c p, a = comeTo t s → executing a = true → (getCtx a (2 * q + 1)).run = .copying c → c + 1000000 < a.clk.root →
    (getQueue a q).prog = some p →
    exec (.programCopyTimeout t q) s = .next (copyFails q p stTimeout (bump 20 0 2 48 1 a))) ∧
  (∀ t q s a p, a = comeTo t s → executing a = true → (getCtx a (2 * q + 1)).run = .ready →
    (getCtx a (2 * q + 1)).due = none → (getQueue a q).prog = some p → p.expiry < a.clk.root →
    exec (.programTimeLimit t q) s = .next (endProgram q stTimeout a)) ∧
  (∀ t k s a c m u, a = comeTo t s → executing a = true → (getCtx a k).run = .waitEv c m (some u) → u < a.clk.root →
    exec (.waitEvTimeout t k) s = .next (commit (finish k (some stTimeout) a))) ∧
  (∀ t k s a u, a = comeTo t s → executing a = true → (getCtx a k).run = .waitQ u → u ≤ a.clk.root →
    exec (.waitTExpiry t k) s = .next (commit (finish k (some stOk) a))) ∧
  (∀ t k s a x q c, a = comeTo t s → a.seq.active = some x → (getCtx a k).run = .waitStatus q c →
    (executing a = true ∨ a.seq.goOwed = true) → c + 1000000 < a.clk.root →
    exec (.commandTimeout t k) s = .next (tryGo (wakeSlots (commit (finish k (some stTimeout) a))))) ∧
  (∀ t q s a p st x d, a = comeTo t s → a.seq.pendOps.find? (fun p => p.cseq == q) = some p →
    p.ended = some (st, x, d) → p.event ≠ 0x7001 →
    exec (.commandCompletion t q) s = .next (complete p.event q st x d a)) ∧
  (∀ t k s a x q c, a = comeTo t s → a.seq.active = some x → (getCtx a k).run = .waitStatus q c →
    c + 2000000 < a.clk.root →
    exec (.instructionWatchdog t k) s = .next (activeFault x a)) ∧
  (∀ t x l s a b, a = comeTo t s → x < 2 → health a x = .active ∨ health a x = .standby → a.seq.active = some x →
    b = readCkpt l a → b.seq.active = some x →
    exec (.complexFault t ⟨x, l⟩) s = .next (activeFault x b)) ∧
  (∀ t s a b x, a = comeTo t s → a.seq.active = some x → health a (1 - x) = .untested →
    b = { a with seq := { a.seq with testedAt := a.clk.root } } →
    exec (.standbySelfTest t true) s = .next (setHealth (1 - x) .standby b) ∧
    exec (.standbySelfTest t false) s = .next (markFailed (1 - x) b)) ∧
  (∀ t s a b x, a = comeTo t s → a.seq.active = some x → health a (1 - x) = .repairing →
    a.seq.repairFrom + 20000000 ≤ a.clk.root → a.seq.repairBack = true →
    a.seq.holdoff ≠ 0 → x < 2 → b = setHealth (1 - x) .standby a →
    exec (.repairSelfTest t true) s = .next
      { b with seq := { b.seq with holdoffEnd := some (b.clk.root + b.seq.holdoff * 10000000000) } } ∧
    exec (.repairSelfTest t false) s = .next (markFailed (1 - x) a)) ∧
  (∀ t s a u, a = comeTo t s → readyToSwitch a = true → a.seq.holdoffEnd = some u → u ≤ a.clk.root →
    exec (.holdoffExpiry t) s = .next (planned true a)) ∧
  (∀ t m s a o q st, a = comeTo t s → a.seq.staging = some (o, q) → st = imageStatus a (Config.flashSize - o) m →
    exec (.stageComplete t m) s = .next (complete 0x6005 q st 0 0 (imageServed (Config.flashSize - o) m
      { a with seq := { a.seq with staging := none, staged := if st = 0 then some (o, m) else none } }))) ∧
  (∀ t s a e, a = comeTo t s → firstEv (a.book.staged.filter (fun e => decide (e.at_ ≤ a.clk.root))) = some e →
    exec (.eventRecord ⟨t, 0⟩) s = .next (recordEv e { a with book := { a.book with staged := a.book.staged.erase e } })) ∧
  (∀ t l s a b en g r rest, a = comeTo t s → l < 16 → executing a = true → (getCtx a (2 * l)).run = .idle →
    tabGet [] a.seq.activations l = (en, g, r) :: rest →
    b = { a with seq := { a.seq with activations := tabSet [] a.seq.activations l rest } } →
    exec (.handlerStart t l) s = .next (commit (setCtx b (2 * l)
      { writeRegs (getCtx b (2 * l)) (recRegs (beBytes 32 r)) with
        pc := en, run := .ready, mask := maskOf b g, lastPending := none, doneEv := none }))) ∧
  (∀ t h x y s a b c d, a = comeTo t s → a.power.booting = true → a.power.powerGood = true → a.power.held = false →
    a.boot.code = 0 →
    b = { bootVault a with boot := { (bootVault a).boot with
      bootCount := ((bootVault a).boot.bootCount + 1) % 2 ^ 32
      cells := tabSet 0 (bootVault a).boot.cells 2 ((tabGet 0 (bootVault a).boot.cells 2 + 1) % 64) } } →
    c = drbgInstantiated b → d = { b with vault := { b.vault with drbgStopped := true, drbgAttempts := 3 } } →
    exec (.bootRom t false true h x y) s = .next (enterRecovery 1 d) ∧
    exec (.bootRom t true false h x y) s = .next (enterRecovery 2 d) ∧
    exec (.bootRom t true true h x y) s = .next
      (bootImages h x y (deriveIdentity (fit 32 Config.uds) (if c.vault.vaultEmpty then newMaskArea c else c)))) ∧
  (∀ t m s a b c n l st, a = comeTo t s → a.boot.reading = some n → l = fit a.hostIf.recLen m →
    st = imageStatus a a.hostIf.recLen l → c = imageServed a.hostIf.recLen l a →
    b = { c with boot := { c.boot with rstatus := 0, reading := none }, drawn := c.drawn + 1 } →
    exec (.recoveryReadComplete t (.bytes m)) s = .next
      (if st ≠ 0 then recoveryFails st c else startImage l (Config.measured c.drawn % 2 ^ 64) false true b)) ∧
  (∀ t s a n, a = comeTo t s → a.boot.reading = some n → n + 1000000000 < a.clk.root →
    exec (.recoveryReadTimeout t) s = .next (recoveryFails stTimeout (bump 20 0 2 48 1 a))) ∧
  (∀ t v s a, a = comeTo t s → nb v 31 = true → a.boot.rwait = true →
    exec (.recCtlGo t v) s = .next
      (if a.hostIf.recAddr % 4096 ≠ 0 then recoveryFails stAlign a
       else if a.hostIf.recLen < 8192 ∨ 204800 < a.hostIf.recLen then recoveryFails stRange a
       else { a with boot := { a.boot with rwait := false, reading := some a.clk.root } })) ∧
  (∀ (r : PressRun) s a b v l m, a = comeTo r.t s → a.press.vintages = v :: l → v.snap = some m →
    a.vault.drbgStopped = false → a.hostIf.linkUp = true → b = { a with press := { a.press with vintages := l } } →
    exec (.vintageComplete r) s = .next (serveKeyx (clearing
      (if v.len < m.length + 4723 then complete 0x600B v.cseq stLength 0 0 b else vintageWrite v m r.upset b)))) ∧
  (∀ t y r s a, a = comeTo t s → a.power.powerGood = false →
    exec (.powerGood t true y r) s = .next
      (startAt 0 true y r { a with crust := { a.crust with onVbat := false } })) ∧
  (∀ t s, exec (.npor t) s = .next (resetCommon (comeTo t s))) ∧
  (∀ t s a b, a = comeTo t s → a.power.powerGood = true → b = resetMain a →
    b.book.recs = a.book.recs ∧ b.book.count = a.book.count ∧ b.book.frozen = a.book.frozen ∧
    exec (.nreset t) s = .next (raiseKept (causeTaken (raise 0xC002 0 b.crust.cause b)))) ∧
  (∀ t r s a, a = comeTo t s → a.power.powerGood = true → r < 6 → a.power.warnings.contains r = false →
    exec (.railWarning t r) s = .next
      (raise 0xC008 r 0 { a with power := { a.power with warnings := a.power.warnings ++ [r] } })) ∧
  (∀ t r s a, a = comeTo t s → a.power.powerGood = true → a.power.warnings.contains r = true →
    exec (.railWarningClear t r) s = .next (closeRec 0xC008 r
      { a with power := { a.power with warnings := a.power.warnings.filter (fun x => x != r) } })) ∧
  (∀ t r s a b, a = comeTo t s → r < 6 → a.power.powerGood = true → a.power.warnings = [] →
    b = resetCommon { a with crust := { a.crust with cause := a.crust.cause ||| 1 } } →
    exec (.brownOut t r) s = .next { b with crust := { b.crust with onVbat := true } }) ∧
  (∀ t s a, a = comeTo t s → a.power.powerGood = true → a.power.refAGood = true → a.power.selected = some 0 →
    exec (.referenceLoss t 0) s = .next
      (if a.power.refBGood then raise 0xC003 1 0 { a with power := { a.power with
         refAGood := false, refAFault := a.clk.root, selected := some 1, refFaults := a.power.refFaults + 1 } }
       else raise 0xC004 0 0 { a with power := { a.power with
         refAGood := false, refAFault := a.clk.root, selected := none, lanesOnRoot := true } })) ∧
  (∀ t s a, a = comeTo t s → a.power.powerGood = true → a.power.refBGood = false →
    a.power.refBFault + 1000000000 ≤ a.clk.root →
    exec (.referenceGood t 1) s = .next
      (if a.power.selected = none then
        raise 0xC003 1 0 { a with power := { a.power with
          refBGood := true, selected := some 1, refFaults := a.power.refFaults + 1 } }
       else { a with power := { a.power with refBGood := true } })) ∧
  (∀ t s a, a = comeTo t s → a.power.powerGood = true → a.power.onVco = false →
    exec (.rootPllLockLoss t) s = .next (raise 0xC005 0 0
      (if a.power.spare = .ready then
        { a with power := { a.power with
          pll := 1 - a.power.pll, spare := .relocking a.clk.root, pllFaults := a.power.pllFaults + 1 } }
       else { a with power := { a.power with onVco := true } }))) ∧
  (∀ t s a u, a = comeTo t s → a.power.powerGood = true → a.power.spare = .relocking u →
    a.clk.root ≤ u + 100000000 →
    exec (.rootPllRelock t true) s = .next { a with power := { a.power with spare := .ready } }) ∧
  (∀ t s a i, a = comeTo t s → a.power.powerGood = true → a.power.lanesOnRoot = true → a.power.selected = some i →
    exec (.pullInComplete t) s = .next { a with power := { a.power with lanesOnRoot := false } }) ∧
  (∀ t s a, a = comeTo t s → a.crust.charged = false → a.crust.chargeAt ≤ a.clk.root →
    exec (.reservoirCharged t) s = .next { a with crust := { a.crust with charged := true } }) ∧
  (∀ t x s a c m p n since b, a = comeTo t s → a.crust.before.1 ≠ pclkEdge a → m = sightMonitor x → m < 21 →
    injected a m = false → (settledSight x a) = (x, a) → c = { a with crust := { a.crust with
      vbat := match x with | .rail 18 mv _ _ => mv | _ => a.crust.vbat } } → p = periodOf c m c.clk.root →
    (∀ w, tabFind c.crust.watches m = some w → w.period ≠ p) → since = tabGet 0 c.crust.filterFrom m →
    n = (if shows c m c.clk.root since x then nextCount c m p x (tabFind c.crust.watches m) else 0) →
    b = { c with crust := { c.crust with
      watches := tabPut c.crust.watches m { sight := x, at_ := c.clk.root, period := p, count := n, since := since } } } →
    exec (.crustAlarm t [x]) s = .next
      (raiseAlarms (if n = filterCount b m && monitorLive b m then [⟨m, sightDetail b n x⟩] else []) b)) ∧
  (∀ t s a m q c, a = comeTo t s → a.crust.injecting = some (m, q, c) → c + 400000000 < a.clk.root →
    exec (.crustInjectTimeout t) s = .next (complete 0x9020 q stFault 0 0 (bump 18 0 29 48 1
      { a with crust := { a.crust with injecting := none, watches := tabDel a.crust.watches m } }))) ∧
  (∀ t s a, a = comeTo t s → a.power.powerGood = false →
    exec (.crustColdStart t) s = .next { a with
      crust := { clockFrom := a.clk.root, chargeAt := a.clk.root + 5000000, log := [⟨0, 30, 0, 0, 0, 0⟩]
                 seq := 1, kept := 1, cause := 2 }
      vault := { a.vault with
        slots := [], journal := none, areaLost := true, maskKeys := [], scramble := 0, remaskRow := 0, serving := none } }) ∧
  (∀ t s a p n, a = comeTo t s → a.mg.ready = .training → n = installedPages a.mg.setting →
    exec (.mgTrainingComplete t true p) s = .next
      (rootstockMemory (raise 0x8001 0 (n * 4096) { a with mg := { a.mg with ready := .ready n } })) ∧
    exec (.mgTrainingComplete t false p) s = .next
      (raise 0x8002 0 p { a with mg := { a.mg with ready := .unavailable } })) ∧
  (∀ t m x s a b r g, a = comeTo t s → mgNotReady a = 0 → accessFail a m x.write x.addr = 0 →
    regionOf a (pageOf x.addr) = some (r, g) → loadPath (pageOf x.addr) x.fault a = (true, b) → x.write = false →
    tabGet 0 (getBlock b (pageOf x.addr)).minors (lineIn x.addr) = 0 →
    exec (.mgAccess t m x) s = .next
      (emit (.mgAnswer 0 (List.replicate 64 0)) (bump 16 0 3 48 1 (bump 16 (r + 1) 0 48 1 (bump 16 0 1 48 1 b))))) ∧
  (∀ t m x s a b r g, a = comeTo t s → mgNotReady a = 0 → accessFail a m x.write x.addr = 0 →
    regionOf a (pageOf x.addr) = some (r, g) → loadPath (pageOf x.addr) x.fault a = (true, b) → x.write = true →
    x.mask = 2 ^ 64 - 1 →
    exec (.mgAccess t m x) s = .next (emit (.mgAnswer 0 [])
      (writeLine r (pageOf x.addr) (lineIn x.addr) g (fit 64 x.data) x.others (bump 16 (r + 1) 1 48 1 b)))) ∧
  (∀ t l o s a b x v st, a = comeTo t s → a.seq.active.isSome = true → activeNow a = some x → beNat (readMem a 0x6FFEF 1) = 1 →
    v = beNat (readMem a 0x6FFE0 32) → fieldFail (portDescChecks v) = 0 →
    (List.range (nf v 159 144)).foldl (fun r i => portLine x v i (l.getD i .none) o r) (0, a) = (st, b) →
    exec (.memoryPortCopy t ⟨l, o⟩) s = .next (storeMem b 0x6FFEF (beBytes 1 0 ++ beBytes 1 st))) ∧
  (∀ t r l s a b g, a = comeTo t s → getRegion a r = some g → g.rotating = true →
    b = (pagesToMove a g).foldl (fun s p => repage r p g.keyid none l s) a →
    exec (.mgRotationComplete t ⟨r, l⟩) s = .next (g.rotCseq.elim id (fun q => complete 0x800A q stOk g.keyid 0)
      (bump 16 0 17 48 1 (setRegion (g.alias_.elim b (fun o => dropKey o b)) r
        { g with rotating := false, rotCseq := none })))) ∧
  (∀ t r s a g q, a = comeTo t s → getRegion a r = some g → g.rebuilding = some q →
    exec (.mgRebuildComplete t r) s = .next (complete 0x800A q stOk g.keyid 0 (setRegion
      ((a.mg.quarantine.filter (fun q => nodeMeets q.1 q.2 g.base g.pages)).foldl (fun s q => rebuildEntry q s) a) r
      { g with rebuilding := none }))) ∧
  (∀ t (pass : ScrubPass) s a b g q l mended bad, a = comeTo t s → getRegion a pass.region = some g →
    g.scrubbing = some q → l = liveLines a g →
    b = l.zipIdx.foldl (fun s x => scrubLine pass.region x.1 (pass.found.getD x.2 .none) s) a →
    mended = ((l.zipIdx).filter (fun x => !linePoisoned (getLine a x.1.1 x.1.2) && lineMended (pass.found.getD x.2 .none))).length →
    bad = (l.filter (fun x => linePoisoned (getLine b x.1 x.2))).length →
    exec (.mgScrubComplete t pass) s = .next (complete 0x800B q stOk 0
      (min l.length (2 ^ 32 - 1) * 2 ^ 32 + min mended 65535 * 2 ^ 16 + min bad 65535)
      (bump 16 (pass.region + 1) 4 48 1 (bump 16 0 21 48 l.length
        ((getRegion b pass.region).elim b (fun n => setRegion b pass.region { n with scrubbing := none })))))) ∧
  (∀ t n f s a p, a = comeTo t s → a.mg.ready = .ready p → patrolled a n = true →
    exec (.patrolScrub t n f) s = .next (patrolLine n f a))

/-- R496, R499, R501, R507, R511, R517, R520: every event of the Trellis and every access to a register, queue, ring or window of the host interface completes with its own effect.
It rests on choices of the model: log entries 2, 78, 84. -/
def Obligations.LinkEventsComplete : Prop :=
  (∀ w s k a, runs pkAbortCmd w s k = true → a = atBlock s k → a.press.running = none →
    exec (.pkAbort w) s = .next (serveKeyx (answered pkAbortCmd w s k { s := a }))) ∧
  (∀ t p s a, a = comeTo t s → p < 2 → (getTPort a p).step = .lock →
    exec (.trellisLinkLock t p) s = .next
      (setTPort a p { getTPort a p with step := .hello, since := a.clk.root })) ∧
  (∀ t p h s a b, a = comeTo t s → p < 2 → (getTPort a p).step = .hello → (h.east = decide (p = 0)) →
    h.version ≠ 0 → b = bump 19 0 (8 * p + 4) 48 1 a →
    exec (.helloReceive t p h) s = .next (setTPort b p { getTPort b p with
      step := .mode, since := b.clk.root, heldFrom := b.clk.root, peer := some h, mode := bestMode b h
      lastRx := b.clk.root })) ∧
  (∀ t s a b, a = comeTo t s → a.trellis.portW.step = .mode → a.trellis.portW.heldFrom + 10000000 ≤ a.clk.root →
    b = setTPort a 0 { a.trellis.portW with step := .session, since := a.clk.root } →
    exec (.linkModeHeld t 0 true) s = .next
      (raise 0xA005 (nodeField b) (Config.linkModeData a.trellis.portW.mode) b)) ∧
  (∀ t s a b, a = comeTo t s → a.trellis.portE.step = .mode → a.trellis.portE.heldFrom + 10000000 ≤ a.clk.root →
    b = setTPort a 1 { a.trellis.portE with step := .session, since := a.clk.root } →
    exec (.linkModeHeld t 1 true) s = .next
      (sendOffer 1 (raise 0xA005 (nodeField b) (Config.linkModeData a.trellis.portE.mode) b))) ∧
  (∀ (r : PressRun) p m s a b, a = comeTo r.t s → p < 2 → (getTPort a p).step = .session →
    b = bump 19 0 (8 * p + 4) 48 1 a → pressAtWork b = false → (getTPort b 0).waits = [] → (getTPort b 1).waits = [] →
    exec (.keyxReceive r p m) s = .next (keyxTaken p (m, r.upset) b)) ∧
  (∀ t p s a, a = comeTo t s → p < 2 → (getTPort a p).step = .session → (getTPort a p).since + 100000000 < a.clk.root →
    exec (.trellisStepTimeout t p) s = .next (sessionFails p a)) ∧
  (∀ t p l s a f, a = comeTo t s → p < 2 → (getTPort a p).step = .up → trOpen (getTPort a p) l = some f →
    exec (.trellisFrameReceive t p l) s = .next (trTaken p f (trValidated p f a))) ∧
  (∀ t s a f, a = comeTo t s → a.trellis.taken.find? (fun f => !svcWaits a f.2) = some f →
    exec (.serviceReceive t) s = .next (svcDeliver f.1 f.2
      { a with trellis := { a.trellis with taken := a.trellis.taken.erase f } })) ∧
  (∀ t x y s a f, a = comeTo t s → a.trellis.frags.find? (fun f => f.src == x && f.relay == y) = some f →
    f.since + 10000000 < a.clk.root →
    exec (.graftFragmentTimeout t x y) s = .next (bump 19 0 24 48 f.parts.length { a with trellis := { a.trellis with
      frags := a.trellis.frags.filter (fun f => !(f.src == x && f.relay == y)) } })) ∧
  (∀ t p l s a, a = comeTo t s → p < 2 → (getTPort a p).step = .up → mf l 3 1 = 0x30 →
    exec (.tsyncReceive t p l) s = .next (trArrives p l a)) ∧
  (∀ t s a b, a = comeTo t s → a.trellis.isManager = true → nb a.trellis.setting 511 = true → trAnyUp a = true →
    a.trellis.tsyncAt + 125 * 10000 * nf a.trellis.setting 445 438 ≤ a.clk.root →
    b = trSendFrame 0x30 0x3F (tsyncPayload (todForm (stampNow a)) 0 a.clk.incr a.trellis.tsyncSeq 0) a →
    exec (.tsyncSend t) s = .next { b with trellis := { b.trellis with
      tsyncSeq := (a.trellis.tsyncSeq + 1) % 2 ^ 32, tsyncAt := b.clk.root } }) ∧
  (∀ t p x1 x2 x3 x4 s a b, a = comeTo t s → p < 2 → (getTPort a p).step = .up → b = trSent p (.dreq p) a →
    exec (.delayRequest t p x1 x2 x3 x4) s = .next
      (setTPort b p { getTPort b p with delay := ((x4 - x1) - (x3 - x2)) / 2 })) ∧
  (∀ t p x s a, a = comeTo t s → p < 2 → (getTPort a p).step = .up →
    exec (.topoReceive t p x) s = .next (topoTaken p x a)) ∧
  (∀ t p s a, a = comeTo t s → p < 2 → (getTPort a p).step = .up →
    exec (.keepaliveSend t p) s = .next (trEmit p 3 0x3F (nodeField a) 32 false [] a)) ∧
  (∀ t x s a b c, a = comeTo t s → x.port < 2 → (getTPort a x.port).step = .up →
    (x.locked = false ∨ (getTPort a x.port).lastRx + 100000 < a.clk.root) →
    c = setStep x.port .lock (bump 19 0 (8 * x.port + 6) 48 1 (sessionFails x.port a)) →
    b = raise 0xA001 (nodeField c) 0 c →
    exec (.trellisLinkDown t x) s = .next (if b.trellis.wrapped then b
      else bump 19 0 25 48 1 { b with trellis := { b.trellis with wrapped := true } })) ∧
  (∀ t n s a, a = comeTo t s → a.trellis.members.any (fun m => m.node == n) = true →
    tabGet 0 a.trellis.lastHeard n + 10000000 < a.clk.root →
    exec (.nodeLost t n) s = .next (elect (raise 0xA004 n 0 { a with trellis := { a.trellis with
      members := a.trellis.members.filter (fun m => m.node != n) } }))) ∧
  (∀ t s a, a = comeTo t s → a.trellis.portE.step = .up → a.trellis.portE.keyedAt + 864000000000000 ≤ a.clk.root →
    exec (.linkRekey t 1) s = .next (sendOffer 1 a)) ∧
  (∀ t s a l, a = comeTo t s → a.trellis.evBatch = l → l ≠ [] → a.trellis.isManager = false → trAnyUp a = true →
    a.book.frozen = false →
    exec (.eventBatchSend t) s = .next (sendService 0 5 0 ((l.take 8).flatMap id)
      { a with trellis := { a.trellis with evBatch := l.drop 8, evSince := a.clk.root } })) ∧
  (∀ t s a b, a = comeTo t s → a.power.powerGood = true → b = bump 20 0 19 48 1 (disableAll a) →
    exec (.pcieFunctionReset t) s = .next (raise 0xB004 0 0 { b with hostIf := { b.hostIf with
      intCause := 0, intEnable := 0, pinEn := false, mgBase := 0, msixTable := [], msixPend := 0 } })) ∧
  (∀ t s a, a = comeTo t s → a.power.powerGood = true → a.hostIf.linkUp = false →
    exec (.pcieLinkChange t true) s = .next (raise 0xB004 0 1
      (bump 20 0 0 48 1 { a with hostIf := { a.hostIf with linkUp := true } }))) ∧
  (∀ t q v s a n, a = comeTo t s → q < 16 → a.power.powerGood = true → n = getQueue a q → n.enabled = true →
    forwardedQueue a q = false →
    exec (.qdoorWrite t q v) s = .next
      (if (v % 65536 + 65536 - n.consumer) % 65536 ≤ 2 ^ n.size then setQueue a q { n with producer := v % 65536 }
       else raise 0xB003 q 0 (bump 20 0 4 48 1 a))) ∧
  (∀ t q v s a n, a = comeTo t s → q < 16 → a.power.powerGood = true → n = getQueue a q → n.enabled = false →
    nb v 31 = true →
    exec (.queueEnable t q v) s = .next
      (if v % 16 < 4 ∨ 12 < v % 16 ∨ n.qd = 0 ∨ n.qc = 0 then setQueue a q { n with size := v % 16, cfgErr := true }
       else setQueue a q { n with size := v % 16, cfgErr := false, enabled := true, producer := 0, consumer := 0 })) ∧
  (∀ t q v s a b n, a = comeTo t s → q < 16 → a.power.powerGood = true → n = getQueue a q → n.enabled = true →
    nb v 31 = false → b = bump 20 0 5 48 (if v % 16 = n.size then 0 else 1) a → n.prog = none →
    exec (.queueDisable t q v) s = .next (setQueue b q { n with enabled := false, fetched := none })) ∧
  (∀ t r v s a n, a = comeTo t s → r < 4 → a.power.powerGood = true → n = getRing a r → n.enabled = false →
    nb v 31 = true →
    exec (.ringEnable t r v) s = .next
      (if v % 16 < 4 ∨ 14 < v % 16 ∨ n.base = 0 then setRing a r { n with size := v % 16, cfgErr := true }
       else setRing (newHead r a) r
         { n with size := v % 16, cfgErr := false, enabled := true, producer := 0, consumer := 0 })) ∧
  (∀ t r v s a n, a = settle (comeTo t s) → 2 ≤ r → r < 4 → a.power.powerGood = true → n = getRing a r → n.enabled = true →
    nb v 31 = false →
    exec (.ringDisable t r v) s = .next
      (newHead r (setRing (bump 20 0 5 48 (if v % 16 = n.size then 0 else 1) a) r { n with enabled := false }))) ∧
  (∀ t r v s a n, a = comeTo t s → r < 4 → a.power.powerGood = true → n = getRing a r → n.enabled = true →
    exec (.rdoorWrite t r v) s = .next
      (if (v % 65536 + 65536 - n.consumer) % 65536 ≤ 2 ^ n.size then setRing a r { n with producer := v % 65536 }
       else raise 0xB003 (16 + r) 0 (bump 20 0 4 48 1 a))) ∧
  (∀ t v s a, a = comeTo t s → a.power.powerGood = true →
    exec (.intCauseWrite t v) s = .next ((List.range 32).foldl (fun s k => if nb v k then clearCause k s else s) a)) ∧
  (∀ t v s a, a = comeTo t s → a.power.powerGood = true → a.hostIf.intCause = 0 →
    exec (.intEnableWrite t v) s = .next { a with hostIf := { a.hostIf with intEnable := v % 2 ^ 32 } }) ∧
  (∀ t v s a b, a = comeTo t s → a.power.powerGood = true → nb v 0 = true →
    b = advance ((a.clk.root + 10) / 10 * 10) a →
    exec (.todLatch t v) s = .next { b with hostIf := { b.hostIf with
      todCount := (b.hostIf.todCount + 1) % 2 ^ 32, todLatch := b.clk.tod } }) ∧
  (∀ t s a, a = comeTo t s → a.power.powerGood = true → a.book.autoinc = true →
    a.book.cursorAt ≠ some (pclkEdge a) →
    exec (.cbWindowRead t 7) s = .next { (emit (.readData (mf a.book.latch 28 4)) a) with
      book := { a.book with cursor := (a.book.cursor + 1) % 2 ^ 31 } }) ∧
  (∀ t n s a, a = comeTo t s → a.power.powerGood = true → 1 ≤ n → n < 8 →
    (n = 7 → a.book.autoinc = false) →
    exec (.cbWindowRead t n) s = .next (emit (.readData (mf a.book.latch (4 * n) 4)) a)) ∧
  (∀ t s a, a = comeTo t s → a.power.powerGood = true →
    exec (.crustWindowRead t 0) s = .next (emit (.readData (mf (crustShown a) 0 4))
      { a with hostIf := { a.hostIf with crustLatch := crustShown a } })) ∧
  (∀ t o f s a b st l x, a = comeTo t s → o < 65536 → o % 4 = 0 → a.power.powerGood = true → x = a.hostIf.mgBase + o →
    mgAccess .pcieDma ⟨false, x - x % 64, 0, [], f, []⟩ a = ((st, l), b) →
    exec (.mgwinRead t o f) s = .next (if st = 0 then emit (.readData (mf l (x % 64) 4)) b
      else emit (.readData 0xFFFFFFFF) (apertureFails st b))) ∧
  (∀ t o v f g s a b st l x, a = comeTo t s → o < 65536 → o % 4 = 0 → a.power.powerGood = true →
    x = a.hostIf.mgBase + o →
    mgAccess .pcieDma ⟨true, x - x % 64, 15 * 2 ^ (x % 64), List.replicate (x % 64) 0 ++ beBytes 4 v, f, g⟩ a = ((st, l), b) →
    exec (.mgwinWrite t o v ⟨f, g⟩) s = .next (if st = 0 then b else apertureFails st b)) ∧
  (∀ t s a, a = comeTo t s → a.power.powerGood = true → (∀ x, a.hostIf.mgNew = some x → x.1 ≠ pclkEdge a) →
    exec (.mgwinStatRead t) s = .next { a with
      hostIf := { a.hostIf with mgStat := 0, mgNew := none }, out := .readData a.hostIf.mgStat :: a.out }) ∧
  (∀ t v s a, a = comeTo t s → a.power.powerGood = true →
    exec (.registerWrite t 0 0x4000C 4 v) s = .next { a with hostIf := { a.hostIf with cbIrq := v % 2 ^ 32 } }) ∧
  (∀ t p s a, a = comeTo t s → p < 2 → (getTPort a p).step = .hello → (getTPort a p).lastTx + 1000000 ≤ a.clk.root →
    exec (.helloSend t p) s = .next (trSent p (.hello p (ownHello p a)) a))

/-- A step takes the command at the front of the queue: it is that command's meaning on the state with the queue's rest.
The queue is the model's own (log entry 1). -/
def Obligations.StepRunsFront : Prop :=
  ∀ c l s, s.pending = c :: l → step s = exec c { s with pending := l }

/-- With no command waiting a step is one TCLK tick of ten root cycles: the clocks move, nothing else changes. That an idle
step is a tick is the model's choice (log entry 1). -/
def Obligations.IdleCountsTime : Prop :=
  ∀ s, s.pending = [] → step s = .next { s with clk := clkTo (s.clk.root + 10) s.clk }

/-- R12, R273, R305, R453, R461, R487, R532: what reset leaves. Network time and every counter are zero, the increment is one,
every port is DISABLED, no channel is present, no context runs and no complex is active, the Boot ROM is about to run, the
Cellar Book holds 0xC001 as record 0 alone, the Crust is DISARMED. That the reset state is the one after the first power-up,
and the cause in the record, are the model's choice (log entry 4). -/
def Obligations.ResetLeaves : Prop :=
  State.reset.clk.tod = 0 ∧ State.reset.clk.incr = 0x100000000 ∧ State.reset.clk.temp = none ∧
  (∀ p, (getPort State.reset p).state = .disabled ∧ (getPort State.reset p).setting = 0) ∧
  (∀ i j k, getCnt State.reset i j k = 0) ∧ (∀ c, present State.reset c = false) ∧
  (∀ k, (getCtx State.reset k).run = .idle) ∧ readyCtx State.reset = none ∧ State.reset.seq.active = none ∧
  State.reset.power.booting = true ∧ State.reset.power.faultN = true ∧ State.reset.boot.running = false ∧
  State.reset.book.count = 1 ∧ State.reset.book.recs.map (fun r => (r.1, r.2.ev.code)) = [(0, 0xC001)] ∧
  State.reset.book.staged = [] ∧ State.reset.crust.mode = .disarmed ∧ State.reset.mg.ready = .off ∧
  (∀ i j, tabGet 0 State.reset.cls.map (i * 4096 + j) = 0) ∧ (∀ a n, readMem State.reset a n = List.replicate n 0) ∧
  State.reset.pending = []

/-- The reset state is legal: its tables are canonical, and the Cellar Book, the Crust log and network time are in their
bounds. -/
def Obligations.ResetLegal : Prop :=
 Legal State.reset

/-- R235, R273, R305, R474, R480, R483: every step keeps the state legal. Local memory and the tables of lanes, ports,
shapers, gates, meters, counters, contexts and queues stay in canonical form; the active complex is A or B; staging holds at
most 1 024 events, at most 64 records are open, COUNT does not pass 0x7FFF_FFFF; the Crust log keeps at most 8 records and
circulates 56; network time stays below the wrap of SEC. -/
def Obligations.StepKeepsLegal : Prop :=
  ∀ s t, Legal s → step s = .next t → Legal t

/-- Every command answers a next state, whatever the state: none stops. It leaves the queue alone, root cycles never go
back (R19), a free value is never drawn twice, and nothing that has left the part is withdrawn. -/
def Obligations.EveryCommandAnswers : Prop :=
  ∀ c s, ∃ t, exec c s = .next t ∧ t.pending = s.pending ∧ s.clk.root ≤ t.clk.root ∧ s.drawn ≤ t.drawn ∧ s.out <:+ t.out

/-- R37, R336: an opcode that no table assigns ends with ST_RESERVED, and any other one names its command; the first failure decides, in the order ST_RESERVED, ST_ALIGN, ST_LENGTH, ST_RANGE for fields and in the order of the
chapter for a command's own checks; an instruction whose fields fail, or whose group is masked for its context (R313,
ST_ATTR), reports the status and nothing leaves for its block; a command whose own checks fail leaves its block
unchanged. -/
def Obligations.ChecksComeFirst : Prop :=
  (∀ l : List Check, (∀ p ∈ l, p.2 ∈ [stRange, stLength, stAlign, stReserved]) →
    (fieldFail l = stReserved ↔ (true, stReserved) ∈ l) ∧
    (fieldFail l = stAlign ↔ (true, stAlign) ∈ l ∧ (true, stReserved) ∉ l) ∧
    (fieldFail l = stLength ↔ (true, stLength) ∈ l ∧ (true, stAlign) ∉ l ∧ (true, stReserved) ∉ l) ∧
    (fieldFail l = stRange ↔ (true, stRange) ∈ l ∧ (true, stLength) ∉ l ∧ (true, stAlign) ∉ l ∧ (true, stReserved) ∉ l) ∧
    (fieldFail l = stOk ↔ ∀ p ∈ l, p.1 = false)) ∧
  (∀ (l m : List Check) (n : Nat), (∀ p ∈ l, p.1 = false) → firstFail (l ++ (true, n) :: m) = n) ∧
  (∀ c w s k st, readyCtx (toBoundary s) = some k → st = cmdFieldStatus c w (resolve (issued s) k w) (issued s) → st ≠ 0 →
    runCmd c w s = finish k (some st) (issued s)) ∧
  (∀ c w s k, readyCtx (toBoundary s) = some k → fieldFail (wordChecks c.xm w ++ c.fmt (resolve (issued s) k w) (issued s)) = 0 →
    nb (ctxMask (issued s) k) (groupOf c.op) = false → runCmd c w s = finish k (some stAttr) (issued s)) ∧
  (∀ c w s k st, readyCtx (toBoundary s) = some k → cmdFieldStatus c w (resolve (issued s) k w) (issued s) = 0 →
    outstanding (issued s) < 4 → w.via = .answered → c.host (envAt w s k) = false →
    c.host (resolve (issued s) k w) = false → w.burst = 0 →
    tabGet 0 (issued s).seq.applied (groupOf c.op) < (envAt w s k).cseq → st = firstFail (c.own (envAt w s k) (atBlock s k)) → st ≠ 0 →
    runCmd c w s = answered c w s k { s := atBlock s k, st := st }) ∧
  (∀ v s k i, readyCtx (toBoundary s) = some k → readWord v (resolve (begun s) k (wordOf v)) (begun s) = some i →
    runWord v s = exec i s) ∧
  (∀ v s k, readyCtx (toBoundary s) = some k → readWord v (resolve (begun s) k (wordOf v)) (begun s) = none →
    runWord v s = .next (finish k (some stReserved) (local_ 1 s)))

/-- R321, R311: a command under a CSEQ that the block keeps, with the same content, is not applied again and answers its kept
status; any other CSEQ that is not new is refused with ST_ABORTED and 0x6009; with four commands outstanding the next one
waits.
It rests on choices of the model: log entries 12, 13, 14, 124. -/
def Obligations.CommandsOnce : Prop :=
  (∀ c e s k, e.cseq ≤ tabGet 0 s.seq.applied (groupOf c.op) →
    (tabGet [] s.seq.kept (groupOf c.op)).find? (fun k => k.cseq == e.cseq) = some k → k.digest = digestOf c.op e →
    (deliver c e s).st = k.status ∧ ∃ n, (deliver c e s).s = { s with drawn := n }) ∧
  (∀ c e s k, e.cseq ≤ tabGet 0 s.seq.applied (groupOf c.op) →
    (tabGet [] s.seq.kept (groupOf c.op)).find? (fun k => k.cseq == e.cseq) = some k → k.digest ≠ digestOf c.op e →
    deliver c e s = { s := raise 0x6009 (e.cseq % 2 ^ 32) 0 s, st := stAborted }) ∧
  (∀ c e s, e.cseq ≤ tabGet 0 s.seq.applied (groupOf c.op) →
    (tabGet [] s.seq.kept (groupOf c.op)).find? (fun k => k.cseq == e.cseq) = none →
    deliver c e s = { s := raise 0x6009 (e.cseq % 2 ^ 32) 0 s, st := stAborted }) ∧
  (∀ c w s k, readyCtx (toBoundary s) = some k → cmdFieldStatus c w (resolve (issued s) k w) (issued s) = 0 →
    4 ≤ outstanding (issued s) → runCmd c w s = wait k .waitSlot (issued s))

/-- R308: a status goes to SR of its context; E is set from 0x10 on and cleared otherwise; Z and C never change by it. -/
def Obligations.StatusReported : Prop :=
  (∀ st c, (reportStatus st c).sr = st ∧ ((reportStatus st c).e = true ↔ 0x10 ≤ st) ∧ (reportStatus st c).z = c.z ∧
    (reportStatus st c).c = c.c) ∧
  (∀ k st s c, tabWf {} s.seq.ctxs = true → atLast s k = false → stopsOnErr s k = false →
    (∀ p, (getQueue s (ctxNum k)).prog = some p → p.cut = none) → c = getCtx s k →
    getCtx (finish k (some st) s) k = { reportStatus st c with pc := c.pc + 16, last := pcIndex k c, run := .ready } ∧
    ∀ j, j ≠ k → getCtx (finish k (some st) s) j = getCtx s j)

/-- R116, R129, R304, R382, R403: a counter saturates and never wraps, and counting leaves every other counter as it was. -/
def Obligations.CountersSaturate : Prop :=
  ∀ s a b c w n, tabWf 0 s.cnt = true →
    getCnt (bump a b c w n s) a b c = min (getCnt s a b c + n) (2 ^ w - 1) ∧
    (∀ x y z, y < 2 ^ 28 → z < 2 ^ 12 → b < 2 ^ 28 → c < 2 ^ 12 → (x, y, z) ≠ (a, b, c) →
      getCnt (bump a b c w n s) x y z = getCnt s x y z)

/-- R312: octets written to local memory read back, every other octet reads as before, the canonical form is kept. -/
def Obligations.MemoryReadsBack : Prop :=
  ∀ s a l, Memory.wf s.seq.mem = true →
    readMem (writeMem s a l) a l.length = l ∧ Memory.wf (writeMem s a l).seq.mem = true ∧
    ∀ x, x < a ∨ a + l.length ≤ x → readMem (writeMem s a l) x 1 = readMem s x 1

/-- R273 to R275: TCLK edges add up. Moving the clocks to a cycle and on to a later one is moving them there at once; the
edges of a temporary increment are counted down one by one, and the permanent increment applies to the rest; a carry out of
SEC wraps it and is remembered for its event. -/
def Obligations.TimeAddsUp : Prop :=
  (∀ m n c, c.tod < todWrap → ticks n (ticks m c) = ticks (m + n) c) ∧
  (∀ t u c, c.tod < todWrap → t ≤ u → clkTo u (clkTo t c) = clkTo u c) ∧
  (∀ c, c.temp = none → (ticks 1 c).tod = (c.tod + c.incr) % todWrap ∧
    ((ticks 1 c).wrapped = true ↔ c.wrapped = true ∨ todWrap ≤ c.tod + c.incr)) ∧
  (∀ c i, c.temp = some (i, 1) → (ticks 1 c).tod = (c.tod + i) % todWrap ∧ (ticks 1 c).temp = none) ∧
  (∀ c i n, c.temp = some (i, n + 2) → (ticks 1 c).tod = (c.tod + i) % todWrap ∧ (ticks 1 c).temp = some (i, n + 1))

/-- R483: when COUNT would pass 0x7FFF_FFFF the Cellar Book freezes itself: no record is written, the event is missed, and no
record 0xB000 is written. -/
def Obligations.BookFreezesAtTop : Prop :=
  ∀ e s, s.book.count = 0x7FFFFFFF →
    ∃ t, recordNew e s = dispatch e t ∧ t.book.frozen = true ∧ t.book.recs = s.book.recs ∧ t.book.count = s.book.count ∧
      t.book.staged = s.book.staged ∧ t.book.missed = min (s.book.missed + 1 + e.more) (2 ^ 32 - 1)
end

