-- ==== Sys2Proof/Laws/Command.lean ====
section
/-! SUPPORT. How a command instruction and a hardware event run: one lemma each, cited in place of unfolding. -/

namespace Sys2Proof.Machine

@[simp] theorem issue_hostIf (n : Nat) (s : State) : (issue n s).hostIf = s.hostIf := rfl
@[simp] theorem baseImage_hostIf (s : State) : (baseImage s).hostIf = s.hostIf := rfl
@[simp] theorem boundary_hostIf (s : State) : (boundary s).hostIf = s.hostIf := by
  unfold boundary; split <;> rfl

theorem takeCseq_applied (k : Nat) (s : State) : (takeCseq k s).2.seq.applied = s.seq.applied := by
  unfold takeCseq; split <;> rfl
theorem takeCseq_hostIf (k : Nat) (s : State) : (takeCseq k s).2.hostIf = s.hostIf := by
  unfold takeCseq; split <;> rfl
@[simp] theorem atBlock_applied (s : State) (k : Nat) : (atBlock s k).seq.applied = (issued s).seq.applied := by
  simp [atBlock, takeCseq_applied]
@[simp] theorem atBlock_hostIf (s : State) (k : Nat) : (atBlock s k).hostIf = (issued s).hostIf := by
  simp [atBlock, takeCseq_hostIf]

/-- A command instruction that runs: the block's effect, then its answer. -/
theorem runCmd_runs {c : Cmd} {w : IWord} {s : State} {k : Nat} (h : runs c w s k = true) :
    runCmd c w s = answered c w s k (c.eff (envAt w s k) (atBlock s k)) := by
  simp only [runs, Bool.and_eq_true, decide_eq_true_eq, Bool.or_eq_true, Bool.not_eq_true'] at h
  obtain ⟨⟨⟨⟨⟨⟨⟨hr, hf⟩, ho⟩, hv⟩, hh⟩, hc⟩, hw⟩, hb⟩ := h
  have hx : (resolve (issued s) k w).host = w.host := rfl
  have he : (envAt w s k).host = w.host := rfl
  have hk : (resolve (issued s) k w).k = k := rfl
  have hn : (envAt w s k).burst = 0 := hb
  have ha : applyCmd c (envAt w s k) (atBlock s k) = c.eff (envAt w s k) (atBlock s k) := by
    unfold applyCmd
    rw [if_neg]
    · simp [hn, sramRead, hw]
    · rcases hh with hh | hh <;> simp [hh, he]
  have hl : ¬(c.host (resolve (issued s) k w) = true ∧ (resolve (issued s) k w).host = HostXfer.late) := by
    rcases hh with hh | hh <;> simp [hh, hx]
  unfold runCmd
  rw [hr]
  show runCmdIn c w k (issued s) = _
  unfold runCmdIn
  simp only [hf, ne_eq, not_true_eq_false, if_false]
  rw [if_neg (by omega), if_neg (by
    intro hc
    simp only [Bool.and_eq_true, decide_eq_true_eq] at hc
    exact hl hc.1)]
  unfold launch
  simp only [hv, hk]
  show returnStatus (envAt w s k) (deliver c (envAt w s k) (atBlock s k)) = _
  unfold deliver
  rw [if_pos (by simpa using hc)]
  simp only [ha]
  rfl

theorem getCtx_issue (n : Nat) (s : State) (k : Nat) : getCtx (issue n s) k = getCtx s k := rfl
theorem getQueue_issue (n : Nat) (s : State) (q : Nat) : getQueue (issue n s) q = getQueue s q := rfl
theorem ctxMask_issue (n : Nat) (s : State) (k : Nat) : ctxMask (issue n s) k = ctxMask s k := rfl
theorem getCtx_local (n : Nat) (s : State) (k : Nat) : getCtx (local_ n s) k = getCtx (begun s) k := getCtx_issue _ _ _
theorem getQueue_local (n : Nat) (s : State) (q : Nat) : getQueue (local_ n s) q = getQueue (begun s) q :=
  getQueue_issue _ _ _
theorem ctxMask_local (n : Nat) (s : State) (k : Nat) : ctxMask (local_ n s) k = ctxMask (begun s) k := ctxMask_issue _ _ _

/-- A flow or data instruction whose checks pass takes its effect. -/
theorem runLoc_ok {c : Loc} {w : IWord} {s : State} {k : Nat} {e : Env} {g : Nat} (n : Nat)
    (h : mayRun g s k = true) (hg : groupOf c.op = g) (he : e = resolve (begun s) k w)
    (hn : c.cost e (begun s) = n) (hf : fieldFail (c.fmt w e (local_ n s)) = 0)
    (ho : firstFail (c.own e (local_ n s)) = 0) : runLoc c w s = c.eff e (local_ n s) := by
  subst he hg
  simp only [mayRun, Bool.and_eq_true, decide_eq_true_eq] at h
  have hb : boundary (toBoundary s) = begun s := rfl
  have hl : issue (c.cost (resolve (begun s) k w) (begun s)) (begun s) = local_ n s := by rw [hn]; rfl
  unfold runLoc
  simp only [h.1, hb, hl, hf, ho, ctxMask_local, h.2]
  simp

/-- A hardware event whose condition holds takes its effect. -/
theorem event_of {t : Nat} {g : State → Bool} {f : State → State} {s a : State} (ha : a = comeTo t s)
    (h : g a = true) : event t g f s = f a := by
  subst ha; unfold event; exact if_pos h

/-- A hardware event whose condition does not hold moves the clocks only. -/
theorem event_off {t : Nat} {g : State → Bool} {f : State → State} {s a : State} (ha : a = comeTo t s)
    (h : g a = false) : event t g f s = a := by
  subst ha; unfold event; exact if_neg (by simp [h])

end Sys2Proof.Machine
end

