-- ==== Sys2Proof/Laws/Tables.lean ====
section
/-! SUPPORT. Sparse tables and local memory: every write keeps the canonical form, and a read finds what was written. -/

namespace Sys2Proof.Machine

/-! ### The canonical form is kept -/

theorem tabSorted_mono {α : Type} {t : Tab α} {lo hi : Nat} (h : hi ≤ lo) (hs : tabSorted lo t = true) :
    tabSorted hi t = true := by
  cases t with
  | nil => rfl
  | cons x t =>
    simp only [tabSorted, Bool.and_eq_true, decide_eq_true_eq] at hs ⊢
    exact ⟨h.trans hs.1, hs.2⟩
theorem tabSorted_tabDel {α : Type} {t : Tab α} {lo k : Nat} (hs : tabSorted lo t = true) :
    tabSorted lo (tabDel t k) = true := by
  induction t generalizing lo with
  | nil => rfl
  | cons x t ih =>
    obtain ⟨j, a⟩ := x
    simp only [tabSorted, Bool.and_eq_true, decide_eq_true_eq] at hs
    unfold tabDel
    split
    · exact tabSorted_mono (by omega) hs.2
    · simp only [tabSorted, Bool.and_eq_true, decide_eq_true_eq]
      exact ⟨hs.1, ih hs.2⟩
theorem tabSorted_tabPut {α : Type} {t : Tab α} {lo k : Nat} {v : α} (hk : lo ≤ k) (hs : tabSorted lo t = true) :
    tabSorted lo (tabPut t k v) = true := by
  induction t generalizing lo with
  | nil => simpa [tabPut, tabSorted] using hk
  | cons x t ih =>
    obtain ⟨j, a⟩ := x
    simp only [tabSorted, Bool.and_eq_true, decide_eq_true_eq] at hs
    unfold tabPut
    split
    · simp only [tabSorted, Bool.and_eq_true, decide_eq_true_eq]; exact ⟨hk, by omega, hs.2⟩
    · split
      · rename_i h1 h2
        subst h2
        simp only [tabSorted, Bool.and_eq_true, decide_eq_true_eq]; exact ⟨hk, hs.2⟩
      · simp only [tabSorted, Bool.and_eq_true, decide_eq_true_eq]; exact ⟨hs.1, ih (by omega) hs.2⟩
theorem all_tabDel {α : Type} {t : Tab α} {k : Nat} {f : Nat × α → Bool} (h : t.all f = true) :
    (tabDel t k).all f = true := by
  induction t with
  | nil => rfl
  | cons x t ih =>
    obtain ⟨j, a⟩ := x
    simp only [List.all_cons, Bool.and_eq_true] at h
    unfold tabDel
    split
    · exact h.2
    · simp only [List.all_cons, Bool.and_eq_true]; exact ⟨h.1, ih h.2⟩
theorem all_tabPut {α : Type} {t : Tab α} {k : Nat} {v : α} {f : Nat × α → Bool} (hv : f (k, v) = true)
    (h : t.all f = true) : (tabPut t k v).all f = true := by
  induction t with
  | nil => simpa [tabPut] using hv
  | cons x t ih =>
    obtain ⟨j, a⟩ := x
    have h' := h
    simp only [List.all_cons, Bool.and_eq_true] at h
    unfold tabPut
    split
    · simp only [List.all_cons, Bool.and_eq_true]; exact ⟨hv, h⟩
    · split
      · simp only [List.all_cons, Bool.and_eq_true]; exact ⟨hv, h.2⟩
      · simp only [List.all_cons, Bool.and_eq_true]; exact ⟨h.1, ih h.2⟩
/-- Writing an entry keeps the canonical form. -/
theorem tabWf_tabSet {α : Type} [DecidableEq α] {d : α} {t : Tab α} {k : Nat} {v : α} (h : tabWf d t = true) :
    tabWf d (tabSet d t k v) = true := by
  simp only [tabWf, Bool.and_eq_true] at h ⊢
  unfold tabSet
  split
  · exact ⟨tabSorted_tabDel h.1, all_tabDel h.2⟩
  · rename_i hv
    exact ⟨tabSorted_tabPut (Nat.zero_le _) h.1, all_tabPut (by simpa using hv) h.2⟩
theorem tabSorted_filter {α : Type} {t : Tab α} {lo : Nat} {f : Nat × α → Bool} (hs : tabSorted lo t = true) :
    tabSorted lo (t.filter f) = true := by
  induction t generalizing lo with
  | nil => rfl
  | cons x t ih =>
    obtain ⟨j, a⟩ := x
    simp only [tabSorted, Bool.and_eq_true, decide_eq_true_eq] at hs
    rw [List.filter_cons]
    split
    · simp only [tabSorted, Bool.and_eq_true, decide_eq_true_eq]; exact ⟨hs.1, ih hs.2⟩
    · exact tabSorted_mono (by omega) (ih hs.2)
theorem tabWf_filter {α : Type} [DecidableEq α] {d : α} {t : Tab α} {f : Nat × α → Bool} (h : tabWf d t = true) :
    tabWf d (t.filter f) = true := by
  simp only [tabWf, Bool.and_eq_true, List.all_eq_true] at h ⊢
  exact ⟨tabSorted_filter h.1, fun x hx => h.2 x (List.mem_filter.mp hx).1⟩
/-- A write keeps the canonical form of local memory. -/
theorem memWrite_wf {m : Tab Byte} {a : Nat} {l : Bytes} (h : Memory.wf m = true) : Memory.wf (memWrite m a l) = true := by
  induction l generalizing m a with
  | nil => exact h
  | cons b l ih => exact ih (tabWf_tabSet h)

/-! ### Reading what was written -/

theorem tabFind_none {α : Type} {t : Tab α} {lo k : Nat} (hk : k < lo) (hs : tabSorted lo t = true) :
    tabFind t k = none := by
  induction t generalizing lo with
  | nil => rfl
  | cons x t ih =>
    obtain ⟨j, a⟩ := x
    simp only [tabSorted, Bool.and_eq_true, decide_eq_true_eq] at hs
    unfold tabFind
    rw [if_neg (by omega)]
    exact ih (by omega) hs.2
theorem tabFind_tabDel {α : Type} {t : Tab α} {lo k j : Nat} (hs : tabSorted lo t = true) :
    tabFind (tabDel t k) j = if j = k then none else tabFind t j := by
  induction t generalizing lo with
  | nil => simp [tabDel, tabFind]
  | cons x t ih =>
    obtain ⟨i, a⟩ := x
    simp only [tabSorted, Bool.and_eq_true, decide_eq_true_eq] at hs
    by_cases hik : i = k
    · rw [show tabDel ((i, a) :: t) k = t by simp [tabDel, hik]]
      subst hik
      by_cases hj : j = i
      · rw [if_pos hj]; exact tabFind_none (by omega) hs.2
      · rw [if_neg hj, tabFind, if_neg (Ne.symm hj)]
    · rw [show tabDel ((i, a) :: t) k = (i, a) :: tabDel t k by simp [tabDel, hik]]
      rw [tabFind, tabFind, ih hs.2]
      split
      · rename_i h; rw [if_neg (by omega)]
      · rfl
theorem tabFind_tabPut {α : Type} {t : Tab α} {k j : Nat} {v : α} {lo : Nat} (hs : tabSorted lo t = true) :
    tabFind (tabPut t k v) j = if j = k then some v else tabFind t j := by
  induction t generalizing lo with
  | nil => simp only [tabPut, tabFind, eq_comm]
  | cons x t ih =>
    obtain ⟨i, a⟩ := x
    simp only [tabSorted, Bool.and_eq_true, decide_eq_true_eq] at hs
    unfold tabPut
    split
    · rw [tabFind]; simp only [eq_comm]
    · split
      · rename_i h1 h2
        subst h2
        rw [tabFind, tabFind]
        by_cases hj : i = j
        · simp [hj]
        · rw [if_neg hj, if_neg (Ne.symm hj), if_neg hj]
      · rename_i h1 h2
        rw [tabFind, tabFind, ih hs.2]
        by_cases hj : i = j
        · subst hj; rw [if_pos rfl, if_neg h2, if_pos rfl]
        · rw [if_neg hj, if_neg hj]

/-- An entry reads as what was written last, every other one as before. -/
theorem tabGet_tabSet {α : Type} [DecidableEq α] {d : α} {t : Tab α} {k j : Nat} {v : α} (h : tabWf d t = true) :
    tabGet d (tabSet d t k v) j = if j = k then v else tabGet d t j := by
  simp only [tabWf, Bool.and_eq_true] at h
  unfold tabSet tabGet
  split
  · rename_i hv
    rw [tabFind_tabDel h.1]
    split <;> simp [hv]
  · rw [tabFind_tabPut h.1]
    split <;> simp

theorem tabDel_none {α : Type} {t : Tab α} {lo k : Nat} (hk : k < lo) (hs : tabSorted lo t = true) : tabDel t k = t := by
  induction t generalizing lo with
  | nil => rfl
  | cons x t ih =>
    obtain ⟨j, a⟩ := x
    simp only [tabSorted, Bool.and_eq_true, decide_eq_true_eq] at hs
    simp only [tabDel]
    rw [if_neg (by omega), ih (by omega) hs.2]

theorem tabPut_tabPut {α : Type} {t : Tab α} {k : Nat} {v w : α} : tabPut (tabPut t k v) k w = tabPut t k w := by
  induction t with
  | nil => simp [tabPut]
  | cons x t ih =>
    obtain ⟨j, a⟩ := x
    simp only [tabPut]
    split
    · simp [tabPut]
    · split
      · simp [tabPut]
      · rename_i h1 h2; simp [tabPut, h1, h2, ih]

theorem tabDel_tabPut {α : Type} {t : Tab α} {lo k : Nat} {v : α} (hs : tabSorted lo t = true) :
    tabDel (tabPut t k v) k = tabDel t k := by
  induction t generalizing lo with
  | nil => simp [tabPut, tabDel]
  | cons x t ih =>
    obtain ⟨j, a⟩ := x
    simp only [tabSorted, Bool.and_eq_true, decide_eq_true_eq] at hs
    simp only [tabPut]
    split
    · simp only [tabDel, if_true]; rw [if_neg (by omega), tabDel_none (lo := j + 1) (by omega) hs.2]
    · split
      · rename_i h; simp [tabDel, h]
      · rename_i h; simp [tabDel, h, ih hs.2]

theorem tabPut_tabDel {α : Type} {t : Tab α} {lo k : Nat} {v : α} (hs : tabSorted lo t = true) :
    tabPut (tabDel t k) k v = tabPut t k v := by
  induction t generalizing lo with
  | nil => rfl
  | cons x t ih =>
    obtain ⟨j, a⟩ := x
    simp only [tabSorted, Bool.and_eq_true, decide_eq_true_eq] at hs
    simp only [tabDel]
    split
    · rename_i h
      subst h
      cases t with
      | nil => simp [tabPut]
      | cons y t =>
        obtain ⟨i, b⟩ := y
        simp only [tabSorted, Bool.and_eq_true, decide_eq_true_eq] at hs
        simp only [tabPut]
        rw [if_pos (by omega), if_neg (by omega)]; simp
    · rename_i h
      simp only [tabPut]
      split
      · rename_i h2; rw [tabDel_none (lo := j + 1) (by omega) hs.2]
      · simp [ih hs.2]

theorem tabDel_tabDel {α : Type} {t : Tab α} {lo k : Nat} (hs : tabSorted lo t = true) :
    tabDel (tabDel t k) k = tabDel t k := by
  induction t generalizing lo with
  | nil => rfl
  | cons x t ih =>
    obtain ⟨j, a⟩ := x
    simp only [tabSorted, Bool.and_eq_true, decide_eq_true_eq] at hs
    simp only [tabDel]
    split
    · rename_i h; rw [tabDel_none (lo := j + 1) (by omega) hs.2]
    · rename_i h; simp [tabDel, h, ih hs.2]

/-- The later of two writes to one place is the one that counts. -/
theorem tabSet_tabSet {α : Type} [DecidableEq α] {d : α} {t : Tab α} {k : Nat} {v w : α} (h : tabWf d t = true) :
    tabSet d (tabSet d t k v) k w = tabSet d t k w := by
  simp only [tabWf, Bool.and_eq_true] at h
  unfold tabSet
  split <;> split
  · rw [tabDel_tabDel h.1]
  · rw [tabDel_tabPut h.1]
  · rw [tabPut_tabDel h.1]
  · rw [tabPut_tabPut]


theorem getLane_setLane {s : State} {i j : Nat} {v : Lane} (h : tabWf {} s.lanes = true) :
    getLane (setLane s i v) j = if j = i then v else getLane s j := tabGet_tabSet h
theorem getPort_setPort {s : State} {i j : Nat} {v : Port} (h : tabWf {} s.ports = true) :
    getPort (setPort s i v) j = if j = i then v else getPort s j := tabGet_tabSet h
theorem getGates_setGates {s : State} {i j : Nat} {v : Gates} (h : tabWf {} s.gates = true) :
    getGates (setGates s i v) j = if j = i then v else getGates s j := tabGet_tabSet h
theorem getMeter_setMeter {s : State} {i j : Nat} {v : Meter} (h : tabWf {} s.meters = true) :
    getMeter (setMeter s i v) j = if j = i then v else getMeter s j := tabGet_tabSet h
theorem getCtx_setCtx {s : State} {i j : Nat} {v : Ctx} (h : tabWf {} s.seq.ctxs = true) :
    getCtx (setCtx s i v) j = if j = i then v else getCtx s j := tabGet_tabSet h
/-- The later of two writes to one context is the one that counts. -/
theorem setCtx_setCtx {s : State} {i : Nat} {v w : Ctx} (h : tabWf {} s.seq.ctxs = true) :
    setCtx (setCtx s i v) i w = setCtx s i w := by
  simp only [setCtx, tabSet_tabSet h]
theorem getQueue_setQueue {s : State} {i j : Nat} {v : Queue} (h : tabWf {} s.seq.queues = true) :
    getQueue (setQueue s i v) j = if j = i then v else getQueue s j := tabGet_tabSet h
theorem getCnt_setCnt {s : State} {a b c a' b' c' v : Nat} (h : tabWf 0 s.cnt = true) :
    getCnt (setCnt s a b c v) a' b' c' = if cntKey a' b' c' = cntKey a b c then v else getCnt s a' b' c' :=
  tabGet_tabSet h
/-- A register of a context reads as written; w0 stays zero. -/
theorem readReg_writeReg {c : Ctx} {i j : Nat} {v : Word64} (h : tabWf 0 c.regs = true) :
    readReg (writeReg c i v) j = if j = i ∧ i ≠ 0 then v else readReg c j := by
  unfold readReg writeReg
  by_cases hi : i = 0
  · simp [hi]
  · simp only [hi, if_false]
    rw [tabGet_tabSet h]
    by_cases hj : j = 0
    · subst hj; simp [hi, Ne.symm hi]
    · simp [hj, hi]

/-- An octet of memory after a write: the octet written there, or the old one. -/
theorem tabGet_memWrite {m : Tab Byte} {a x : Nat} {l : Bytes} (h : Memory.wf m = true) :
    tabGet 0 (memWrite m a l) x = if a ≤ x ∧ x < a + l.length then l.getD (x - a) 0 else tabGet 0 m x := by
  induction l generalizing m a with
  | nil => simp only [memWrite, List.length_nil, Nat.add_zero]; rw [if_neg (by omega)]
  | cons b l ih =>
    rw [memWrite, ih (tabWf_tabSet h), List.length_cons]
    by_cases h1 : a + 1 ≤ x ∧ x < a + 1 + l.length
    · rw [if_pos h1, if_pos (by omega), show x - a = (x - (a + 1)) + 1 by omega, List.getD_cons_succ]
    · rw [if_neg h1, tabGet_tabSet h]
      by_cases h2 : x = a
      · subst h2; rw [if_pos rfl, if_pos (by omega), Nat.sub_self, List.getD_cons_zero]
      · rw [if_neg h2, if_neg (by omega)]

end Sys2Proof.Machine
end

