-- ==== Sys2Proof/Laws/Keeps.lean ====
section
/-! SUPPORT. What every operation keeps, as one relation between states, and how record updates keep it. -/

namespace Sys2Proof.Machine

/-- What is kept from `p` to `s`: the queue of commands; time, free values drawn and outputs only grow; a legal state
stays legal. -/
structure Keeps (p s : State) : Prop where
  pending : s.pending = p.pending
  root : p.clk.root ≤ s.clk.root
  drawn : p.drawn ≤ s.drawn
  out : p.out <:+ s.out
  legal : Legal p → Legal s

theorem Keeps.refl (s : State) : Keeps s s := ⟨rfl, Nat.le_refl _, Nat.le_refl _, List.suffix_refl _, id⟩
theorem Keeps.trans {p s t : State} (h : Keeps p s) (g : Keeps s t) : Keeps p t :=
  ⟨g.pending.trans h.pending, h.root.trans g.root, h.drawn.trans g.drawn, h.out.trans g.out, fun x => g.legal (h.legal x)⟩

/-- What a change of the clocks must give. -/
def ClkStep (a b : Clk) : Prop := a.root ≤ b.root ∧ (a.tod < todWrap → b.tod < todWrap)
/-- What a change of the control complexes must give. -/
def SeqStep (a b : Seq) : Prop := LegalSeq a → LegalSeq b
/-- What a change of the Cellar Book must give. -/
def BookStep (a b : Book) : Prop := LegalBook a → LegalBook b
/-- What a change of the Crust must give. -/
def CrustStep (a b : Crust) : Prop := LegalCrust a → LegalCrust b

theorem ClkStep.refl (a : Clk) : ClkStep a a := ⟨Nat.le_refl _, id⟩
theorem SeqStep.refl (a : Seq) : SeqStep a a := id
theorem BookStep.refl (a : Book) : BookStep a a := id
theorem CrustStep.refl (a : Crust) : CrustStep a a := id
theorem SeqStep.update (q : Seq) {x0 x1 x2 x7 x8 x9 x10 x11 x12 x13 x14 x16 x17 x18 x19 x20 x21 x22 x23 x26 x27 x28 x29 x30 x31 x32 x33} : SeqStep q
    ⟨x0, x1, x2, q.active, q.ctxs, q.queues, q.mem, x7, x8, x9, x10, x11, x12, x13, x14, q.image, x16, x17, x18, x19, x20, x21, x22, x23, q.took, q.returned, x26, x27, x28, x29, x30, x31, x32, x33⟩ := id
theorem BookStep.update (q : Book) {x0 x2 x3 x4 x5 x6 x7 x10} : BookStep q
    ⟨x0, q.count, x2, x3, x4, x5, x6, x7, q.opens, q.staged, x10⟩ := id
theorem CrustStep.update (q : Crust) {x0 x1 x2 x3 x4 x5 x6 x7 x8 x9 x10 x11 x12 x13 x14 x15 x16 x17 x18 x19 x21 x23 x24} : CrustStep q
    ⟨x0, x1, x2, x3, x4, x5, x6, x7, x8, x9, x10, x11, x12, x13, x14, x15, x16, x17, x18, x19, q.log, x21, q.kept, x23, x24⟩ := id
theorem ClkStep.update (c : Clk) {a b d e f} : ClkStep c ⟨c.root, c.tod, a, b, d, e, f⟩ := ⟨Nat.le_refl _, id⟩

/-- A record update keeps what its constrained fields keep. -/
theorem Keeps.update {p t : State} {clk lanes cals synce ports shapers gates meters cls assoc cipher cask timeFn seq vault
    press boot mg crust book trellis hostIf power cnt drawn out} (h : Keeps p t)
    (hr : ClkStep t.clk clk) (hs : SeqStep t.seq seq) (hb : BookStep t.book book) (hc : CrustStep t.crust crust)
    (ht : LegalTabs t.lanes t.cals t.synce t.ports t.shapers t.gates t.meters t.cnt →
      LegalTabs lanes cals synce ports shapers gates meters cnt)
    (hd : t.drawn ≤ drawn) (ho : t.out <:+ out) :
    Keeps p ⟨t.pending, clk, lanes, cals, synce, ports, shapers, gates, meters, cls, assoc, cipher, cask, timeFn, seq, vault,
      press, boot, mg, crust, book, trellis, hostIf, power, cnt, drawn, out⟩ :=
  ⟨h.pending, h.root.trans hr.1, h.drawn.trans hd, h.out.trans ho, fun x =>
    have y := h.legal x
    ⟨ht y.1, hs y.2.1, hb y.2.2.1, hc y.2.2.2.1, hr.2 y.2.2.2.2⟩⟩
/-- An update of fields that `Keeps` does not look at. -/
theorem Keeps.other_iff {p t : State} {cls assoc cipher cask timeFn vault press boot mg trellis hostIf power} :
    Keeps p ⟨t.pending, t.clk, t.lanes, t.cals, t.synce, t.ports, t.shapers, t.gates, t.meters, cls, assoc, cipher, cask,
      timeFn, t.seq, vault, press, boot, mg, t.crust, t.book, trellis, hostIf, power, t.cnt, t.drawn, t.out⟩ ↔ Keeps p t :=
  ⟨fun h => ⟨h.pending, h.root, h.drawn, h.out, h.legal⟩, fun h => ⟨h.pending, h.root, h.drawn, h.out, h.legal⟩⟩
theorem Keeps.withTabs {p t : State} {lanes cals synce ports shapers gates meters cnt} (h : Keeps p t)
    (ht : LegalTabs t.lanes t.cals t.synce t.ports t.shapers t.gates t.meters t.cnt →
      LegalTabs lanes cals synce ports shapers gates meters cnt) :
    Keeps p { t with lanes := lanes, cals := cals, synce := synce, ports := ports, shapers := shapers, gates := gates
                     meters := meters, cnt := cnt } :=
  h.update (.refl _) (.refl _) (.refl _) (.refl _) ht (Nat.le_refl _) (List.suffix_refl _)
theorem Keeps.withSeq {p t : State} {seq cls assoc cipher cask timeFn vault press boot mg trellis hostIf power} (h : Keeps p t)
    (hs : SeqStep t.seq seq) :
    Keeps p ⟨t.pending, t.clk, t.lanes, t.cals, t.synce, t.ports, t.shapers, t.gates, t.meters, cls, assoc, cipher, cask,
      timeFn, seq, vault, press, boot, mg, t.crust, t.book, trellis, hostIf, power, t.cnt, t.drawn, t.out⟩ :=
  h.update (.refl _) hs (.refl _) (.refl _) id (Nat.le_refl _) (List.suffix_refl _)
theorem Keeps.withBook {p t : State} {book cls assoc cipher cask timeFn vault press boot mg trellis hostIf power} (h : Keeps p t)
    (hs : BookStep t.book book) :
    Keeps p ⟨t.pending, t.clk, t.lanes, t.cals, t.synce, t.ports, t.shapers, t.gates, t.meters, cls, assoc, cipher, cask,
      timeFn, t.seq, vault, press, boot, mg, t.crust, book, trellis, hostIf, power, t.cnt, t.drawn, t.out⟩ :=
  h.update (.refl _) (.refl _) hs (.refl _) id (Nat.le_refl _) (List.suffix_refl _)
theorem Keeps.withCrust {p t : State} {crust cls assoc cipher cask timeFn vault press boot mg trellis hostIf power} (h : Keeps p t)
    (hs : CrustStep t.crust crust) :
    Keeps p ⟨t.pending, t.clk, t.lanes, t.cals, t.synce, t.ports, t.shapers, t.gates, t.meters, cls, assoc, cipher, cask,
      timeFn, t.seq, vault, press, boot, mg, crust, t.book, trellis, hostIf, power, t.cnt, t.drawn, t.out⟩ :=
  h.update (.refl _) (.refl _) (.refl _) hs id (Nat.le_refl _) (List.suffix_refl _)
theorem Keeps.withClk {p t : State} {clk cls assoc cipher cask timeFn vault press boot mg trellis hostIf power} (h : Keeps p t)
    (hs : ClkStep t.clk clk) :
    Keeps p ⟨t.pending, clk, t.lanes, t.cals, t.synce, t.ports, t.shapers, t.gates, t.meters, cls, assoc, cipher, cask,
      timeFn, t.seq, vault, press, boot, mg, t.crust, t.book, trellis, hostIf, power, t.cnt, t.drawn, t.out⟩ :=
  h.update hs (.refl _) (.refl _) (.refl _) id (Nat.le_refl _) (List.suffix_refl _)

theorem Keeps.ite {p a b : State} {c : Prop} [Decidable c] (ha : Keeps p a) (hb : Keeps p b) :
    Keeps p (if c then a else b) := by split <;> assumption

theorem Keeps.foldl {α : Type} {p s : State} {f : State → α → State} {l : List α} (h : Keeps p s)
    (hf : ∀ t x, Keeps p t → Keeps p (f t x)) : Keeps p (l.foldl f s) := by
  induction l generalizing s with
  | nil => exact h
  | cons x l ih => exact ih (hf _ _ h)

theorem Keeps.setSynce {p t : State} {i : Nat} {v : SyncE} (h : Keeps p t) :
    Keeps p { t with synce := tabSet {} t.synce i v } :=
  h.withTabs fun t => ⟨t.1, t.2.1, tabWf_tabSet t.2.2.1, t.2.2.2⟩

theorem clkTo_root (t : Nat) (c : Clk) : c.root ≤ (clkTo t c).root := by
  unfold clkTo; split
  · exact Nat.le_refl _
  · simp only; omega
theorem todWrap_pos : 0 < todWrap := by decide
theorem clkTo_tod (t : Nat) (c : Clk) (h : c.tod < todWrap) : (clkTo t c).tod < todWrap := by
  unfold clkTo; split
  · exact h
  · exact Nat.mod_lt _ todWrap_pos
theorem legalBook_of {b c : Book} (h1 : c.staged.length ≤ b.staged.length) (h2 : c.opens.length ≤ b.opens.length)
    (h3 : c.count = b.count) (h : LegalBook b) : LegalBook c :=
  ⟨h1.trans h.1, h2.trans h.2.1, h3 ▸ h.2.2⟩

theorem Keeps.set_clk {p t : State} {clk : Clk} (h : Keeps p t) (hr : ClkStep t.clk clk) : Keeps p { t with clk := clk } :=
  h.withClk hr
theorem Keeps.set_seq {p t : State} {q : Seq} (h : Keeps p t) (hs : SeqStep t.seq q) : Keeps p { t with seq := q } :=
  h.withSeq hs
theorem Keeps.set_book {p t : State} {b : Book} (h : Keeps p t) (hs : BookStep t.book b) : Keeps p { t with book := b } :=
  h.withBook hs
theorem Keeps.set_crust {p t : State} {c : Crust} (h : Keeps p t) (hs : CrustStep t.crust c) :
    Keeps p { t with crust := c } := h.withCrust hs

end Sys2Proof.Machine
end

