-- ==== Sys2Proof/Laws/KeepsCommand.lean ====
section
/-! SUPPORT. The named operations, contexts, takeovers, commands, sequencer instructions and hardware events keep `Keeps`. -/

namespace Sys2Proof.Machine

/-! Ops -/

theorem keeps_setLane {s0 : State} (s : State) (i : Nat) (v : Lane) (h : Keeps s0 s) : Keeps s0 (setLane s i v) := h.withTabs fun t => ⟨tabWf_tabSet t.1, t.2.1, t.2.2.1, t.2.2.2.1, t.2.2.2.2.1, t.2.2.2.2.2.1, t.2.2.2.2.2.2.1, t.2.2.2.2.2.2.2⟩
theorem keeps_setPort {s0 : State} (s : State) (i : Nat) (v : Port) (h : Keeps s0 s) : Keeps s0 (setPort s i v) := h.withTabs fun t => ⟨t.1, t.2.1, t.2.2.1, tabWf_tabSet t.2.2.2.1, t.2.2.2.2.1, t.2.2.2.2.2.1, t.2.2.2.2.2.2.1, t.2.2.2.2.2.2.2⟩
theorem keeps_setGates {s0 : State} (s : State) (i : Nat) (v : Gates) (h : Keeps s0 s) : Keeps s0 (setGates s i v) := h.withTabs fun t => ⟨t.1, t.2.1, t.2.2.1, t.2.2.2.1, t.2.2.2.2.1, tabWf_tabSet t.2.2.2.2.2.1, t.2.2.2.2.2.2.1, t.2.2.2.2.2.2.2⟩
theorem keeps_setShaper {s0 : State} (s : State) (p c : Nat) (v : Shaper) (h : Keeps s0 s) : Keeps s0 (setShaper s p c v) := h.withTabs fun t => ⟨t.1, t.2.1, t.2.2.1, t.2.2.2.1, tabWf_tabSet t.2.2.2.2.1, t.2.2.2.2.2.1, t.2.2.2.2.2.2.1, t.2.2.2.2.2.2.2⟩
theorem keeps_setMeter {s0 : State} (s : State) (i : Nat) (v : Meter) (h : Keeps s0 s) : Keeps s0 (setMeter s i v) := h.withTabs fun t => ⟨t.1, t.2.1, t.2.2.1, t.2.2.2.1, t.2.2.2.2.1, t.2.2.2.2.2.1, tabWf_tabSet t.2.2.2.2.2.2.1, t.2.2.2.2.2.2.2⟩
theorem keeps_setChan {s0 : State} (s : State) (c : Nat) (v : Chan) (hk : Keeps s0 s) : Keeps s0 (setChan s c v) := by
  unfold setChan; repeat' first | with_reducible assumption | simp only [Keeps.other_iff]
theorem keeps_setCtx {s0 : State} (s : State) (k : Nat) (v : Ctx) (h : Keeps s0 s) : Keeps s0 (setCtx s k v) :=
  h.withSeq fun q => ⟨q.1, q.2.1, tabWf_tabSet q.2.2.1, q.2.2.2.1, q.2.2.2.2⟩
theorem keeps_setQueue {s0 : State} (s : State) (k : Nat) (v : Queue) (h : Keeps s0 s) : Keeps s0 (setQueue s k v) :=
  h.withSeq fun q => ⟨q.1, q.2.1, q.2.2.1, tabWf_tabSet q.2.2.2.1, q.2.2.2.2⟩
theorem keeps_setSlot {s0 : State} (s : State) (i : Nat) (v : Slot) (hk : Keeps s0 s) : Keeps s0 (setSlot s i v) := by
  unfold setSlot; repeat' first | with_reducible assumption | simp only [Keeps.other_iff]
theorem keeps_setRing {s0 : State} (s : State) (r : Nat) (v : Ring) (hk : Keeps s0 s) : Keeps s0 (setRing s r v) := by
  unfold setRing; repeat' first | with_reducible assumption | simp only [Keeps.other_iff]
theorem keeps_setQ {s0 : State} (s : State) (p c : Nat) (v : List QFrame) (hk : Keeps s0 s) : Keeps s0 (setQ s p c v) := by
  unfold setQ; repeat' first | with_reducible assumption | simp only [Keeps.other_iff]
theorem keeps_setTx {s0 : State} (s : State) (p : Nat) (v : TxLane) (hk : Keeps s0 s) : Keeps s0 (setTx s p v) := by
  unfold setTx; repeat' first | with_reducible assumption | simp only [Keeps.other_iff]
theorem keeps_setRx {s0 : State} (s : State) (p : Nat) (v : RxLane) (hk : Keeps s0 s) : Keeps s0 (setRx s p v) := by
  unfold setRx; repeat' first | with_reducible assumption | simp only [Keeps.other_iff]
theorem keeps_setArray {s0 : State} (s : State) (a : Nat) (v : Array) (hk : Keeps s0 s) : Keeps s0 (setArray s a v) := by
  unfold setArray; repeat' first | with_reducible assumption | simp only [Keeps.other_iff]
theorem keeps_setRegion {s0 : State} (s : State) (r : Nat) (v : Region) (hk : Keeps s0 s) : Keeps s0 (setRegion s r v) := by
  unfold setRegion; repeat' first | with_reducible assumption | simp only [Keeps.other_iff]
theorem keeps_advance {s0 : State} (t : Nat) (s : State) (h : Keeps s0 s) : Keeps s0 (advance t s) :=
  h.withClk ⟨clkTo_root _ _, clkTo_tod _ _⟩
theorem keeps_setCnt {s0 : State} (s : State) (scope idx k v : Nat) (h : Keeps s0 s) : Keeps s0 (setCnt s scope idx k v) :=
  h.withTabs fun t => ⟨t.1, t.2.1, t.2.2.1, t.2.2.2.1, t.2.2.2.2.1, t.2.2.2.2.2.1, t.2.2.2.2.2.2.1, tabWf_tabSet t.2.2.2.2.2.2.2⟩
theorem keeps_bump {s0 : State} (scope idx k w n : Nat) (s : State) (hk : Keeps s0 s) : Keeps s0 (bump scope idx k w n s) := by
  unfold bump; repeat' first | with_reducible assumption | with_reducible apply keeps_setCnt
theorem keeps_bumpMax {s0 : State} (scope idx k v : Nat) (s : State) (hk : Keeps s0 s) : Keeps s0 (bumpMax scope idx k v s) := by
  unfold bumpMax; repeat' first | with_reducible assumption | with_reducible apply keeps_setCnt
theorem keeps_draw {s0 : State} (s : State) (h : Keeps s0 s) : Keeps s0 (draw s).2 :=
  h.update (.refl _) (.refl _) (.refl _) (.refl _) id (Nat.le_succ _) (List.suffix_refl _)
theorem keeps_drawOctets {s0 : State} (n : Nat) (s : State) (h : Keeps s0 s) : Keeps s0 (drawOctets n s).2 :=
  h.update (.refl _) (.refl _) (.refl _) (.refl _) id (Nat.le_succ _) (List.suffix_refl _)
theorem keeps_emit {s0 : State} (o : Output) (s : State) (h : Keeps s0 s) : Keeps s0 (emit o s) :=
  h.update (.refl _) (.refl _) (.refl _) (.refl _) id (Nat.le_refl _) (List.suffix_cons _ _)
theorem keeps_signalVector {s0 : State} (k : Nat) (s : State) (hk : Keeps s0 s) : Keeps s0 (signalVector k s) := by
  unfold signalVector; repeat' first | with_reducible assumption | with_reducible (first | apply keeps_bump | apply keeps_emit | apply Keeps.ite) | simp only [Keeps.other_iff] | split
theorem keeps_setCause {s0 : State} (k : Nat) (s : State) (hk : Keeps s0 s) : Keeps s0 (setCause k s) := by
  unfold setCause; repeat' first | with_reducible assumption | with_reducible (first | apply keeps_signalVector | apply Keeps.ite) | simp only [Keeps.other_iff] | split
theorem keeps_raiseEv {s0 : State} (e : Ev) (s : State) (h : Keeps s0 s) : Keeps s0 (raiseEv e s) := by
  unfold raiseEv; split
  · rename_i hl
    refine h.withBook (fun b => ⟨?_, b.2⟩)
    rw [List.length_append]; exact hl
  · exact keeps_bump _ _ _ _ _ _ (h.withBook (.update _))
theorem keeps_raise {s0 : State} (code obj data : Nat) (s : State) (hk : Keeps s0 s) : Keeps s0 (raise code obj data s) := by
  unfold raise; repeat' first | with_reducible assumption | with_reducible apply keeps_raiseEv
theorem keeps_raiseComplex {s0 : State} (code obj : Nat) (s : State) (hk : Keeps s0 s) : Keeps s0 (raiseComplex code obj s) := by
  unfold raiseComplex; repeat' first | with_reducible assumption | with_reducible (first | apply keeps_setCause | apply keeps_raise)
theorem keeps_raiseDone {s0 : State} (code cseq st aux data : Nat) (s : State) (hk : Keeps s0 s) : Keeps s0 (raiseDone code cseq st aux data s) := by
  unfold raiseDone; repeat' first | with_reducible assumption | with_reducible apply keeps_raiseEv
theorem keeps_closeRec {s0 : State} (code obj : Nat) (s : State) (h : Keeps s0 s) : Keeps s0 (closeRec code obj s) :=
  h.withBook (legalBook_of (Nat.le_of_eq (List.length_map _)) (List.length_filter_le _ _) rfl)

/-! TrellisLink -/

theorem keeps_setTPort {s0 : State} (s : State) (p : Nat) (v : TPort) (hk : Keeps s0 s) : Keeps s0 (setTPort s p v) := by
  unfold setTPort; repeat' first | with_reducible assumption | with_reducible apply Keeps.ite | simp only [Keeps.other_iff] | split
theorem keeps_bumpTr {s0 : State} (k n : Nat) (s : State) (hk : Keeps s0 s) : Keeps s0 (bumpTr k n s) := by
  unfold bumpTr; repeat' first | with_reducible assumption | with_reducible apply keeps_bump
theorem keeps_trEmit {s0 : State} (p typ dst src ttl : Nat) (wrapped : Bool) (payload : Bytes) (s : State) (hk : Keeps s0 s) : Keeps s0 (trEmit p typ dst src ttl wrapped payload s) := by
  unfold trEmit; repeat' first | with_reducible assumption | with_reducible (first | apply keeps_emit | apply keeps_bumpTr | apply keeps_setTPort | apply Keeps.ite) | simp only [Keeps.other_iff] | split
theorem keeps_trSendFrame {s0 : State} (typ dst : Nat) (payload : Bytes) (s : State) (hk : Keeps s0 s) : Keeps s0 (trSendFrame typ dst payload s) := by
  unfold trSendFrame; repeat' first | with_reducible assumption | with_reducible apply keeps_trEmit | simp only [Keeps.other_iff] | split
theorem keeps_sendService {s0 : State} (dst service relay : Nat) (content : Bytes) (s : State) (hk : Keeps s0 s) : Keeps s0 (sendService dst service relay content s) := by
  unfold sendService; repeat' first | with_reducible assumption | with_reducible (first | apply keeps_bumpTr | apply keeps_trSendFrame)
theorem keeps_answerService {s0 : State} (src relay service : Nat) (content : Bytes) (s : State) (hk : Keeps s0 s) : Keeps s0 (answerService src relay service content s) := by
  unfold answerService; repeat' first | with_reducible assumption | with_reducible (first | apply keeps_sendService | apply keeps_bumpTr) | simp only [Keeps.other_iff]

/-! Operands -/

theorem keeps_writeMem {s0 : State} (s : State) (a : Nat) (l : Bytes) (h : Keeps s0 s) : Keeps s0 (writeMem s a l) :=
  h.withSeq (fun q => ⟨memWrite_wf q.1, q.2⟩)
theorem keeps_journalEntry {s0 : State} (s : State) (hk : Keeps s0 s) : Keeps s0 (journalEntry s) := by
  unfold journalEntry; repeat' first | with_reducible assumption | with_reducible apply SeqStep.update | simp only [Keeps.other_iff] | with_reducible apply Keeps.withSeq
theorem keeps_storeMem {s0 : State} (s : State) (a : Nat) (l : Bytes) (hk : Keeps s0 s) : Keeps s0 (storeMem s a l) := by
  unfold storeMem; repeat' first | with_reducible assumption | with_reducible (first | apply keeps_writeMem | apply SeqStep.update) | simp only [Keeps.other_iff] | with_reducible apply Keeps.withSeq
theorem keeps_addrWrite {s0 : State} (e : Env) (l : Bytes) (s : State) (hk : Keeps s0 s) : Keeps s0 (addrWrite e l s) := by
  unfold addrWrite; repeat' first | with_reducible assumption | with_reducible (first | apply keeps_emit | apply keeps_storeMem | apply Keeps.ite) | split

/-! Context -/

theorem keeps_commit {s0 : State} (s : State) (h : Keeps s0 s) : Keeps s0 (commit s) :=
  h.withSeq (fun q => ⟨q.1, q.1, q.2.2.1, q.2.2.2.1, q.2.2.2.2⟩)
theorem keeps_baseImage {s0 : State} (s : State) (h : Keeps s0 s) : Keeps s0 (baseImage s) :=
  h.withSeq (fun q => ⟨q.1, q.1, q.2.2.1, q.2.2.2.1, q.2.2.2.2⟩)
theorem keeps_boundary {s0 : State} (s : State) (hk : Keeps s0 s) : Keeps s0 (boundary s) := by
  unfold boundary; repeat' first | with_reducible assumption | with_reducible (first | apply keeps_baseImage | apply Keeps.ite) | split
theorem keeps_issue {s0 : State} (n : Nat) (s : State) (hk : Keeps s0 s) : Keeps s0 (issue n s) := by
  unfold issue; repeat' first | with_reducible assumption | with_reducible apply keeps_advance
theorem keeps_endProgram {s0 : State} (q st : Nat) (s : State) (hk : Keeps s0 s) : Keeps s0 (endProgram q st s) := by
  unfold endProgram; repeat' first | with_reducible assumption | with_reducible (first | apply keeps_setCtx | apply keeps_setQueue | apply keeps_answerService | apply keeps_journalEntry | apply keeps_emit | apply keeps_setCause | apply keeps_bump | apply keeps_commit | apply Keeps.ite) | simp only [Keeps.other_iff] | split
theorem keeps_endHandler {s0 : State} (k : Nat) (s : State) (hk : Keeps s0 s) : Keeps s0 (endHandler k s) := by
  unfold endHandler; repeat' first | with_reducible assumption | with_reducible (first | apply keeps_commit | apply keeps_setCtx) | simp only [Keeps.other_iff]
theorem keeps_endContext {s0 : State} (k st : Nat) (s : State) (hk : Keeps s0 s) : Keeps s0 (endContext k st s) := by
  unfold endContext; repeat' first | with_reducible assumption | with_reducible (first | apply keeps_endProgram | apply keeps_endHandler | apply Keeps.ite) | split
theorem keeps_cutAtBoundary {s0 : State} (k : Nat) (s : State) (hk : Keeps s0 s) : Keeps s0 (cutAtBoundary k s) := by
  unfold cutAtBoundary; repeat' first | with_reducible assumption | with_reducible (first | apply keeps_endContext | apply Keeps.ite) | simp only [Keeps.other_iff] | split
theorem keeps_stepOver {s0 : State} (k : Nat) (st : Option Nat) (s : State) (hk : Keeps s0 s) : Keeps s0 (stepOver k st s) := by
  unfold stepOver; repeat' first | with_reducible assumption | with_reducible apply keeps_setCtx | simp only [Keeps.other_iff] | split
theorem keeps_finish {s0 : State} (k : Nat) (st : Option Nat) (s : State) (hk : Keeps s0 s) : Keeps s0 (finish k st s) := by
  unfold finish; repeat' first | with_reducible assumption | with_reducible (first | apply keeps_stepOver | apply keeps_endContext | apply keeps_cutAtBoundary) | simp only [Keeps.other_iff] | split
theorem keeps_wait {s0 : State} (k : Nat) (r : Run) (s : State) (hk : Keeps s0 s) : Keeps s0 (wait k r s) := by
  unfold wait; repeat' first | with_reducible assumption | with_reducible (first | apply keeps_journalEntry | apply keeps_setCtx | apply Keeps.ite) | simp only [Keeps.other_iff] | split
theorem keeps_complete {s0 : State} (code cseq st aux data : Nat) (s : State) (hk : Keeps s0 s) : Keeps s0 (complete code cseq st aux data s) := by
  unfold complete; repeat' first | with_reducible assumption | with_reducible (first | apply keeps_raiseEv | apply keeps_setCtx | apply keeps_commit | apply keeps_finish | apply Keeps.ite | apply SeqStep.update) | simp only [Keeps.other_iff] | split | with_reducible apply Keeps.withSeq
theorem keeps_endPending {s0 : State} (cseq st aux data : Nat) (s : State) (hk : Keeps s0 s) : Keeps s0 (endPending cseq st aux data s) := by
  unfold endPending; repeat' first | with_reducible assumption | with_reducible (first | apply Keeps.ite | apply SeqStep.update) | simp only [Keeps.other_iff] | split | with_reducible apply Keeps.withSeq
theorem keeps_endWaitOn {s0 : State} (k : Nat) (l : Bytes) (s : State) (hk : Keeps s0 s) : Keeps s0 (endWaitOn k l s) := by
  unfold endWaitOn; repeat' first | with_reducible assumption | with_reducible (first | apply keeps_commit | apply keeps_finish | apply keeps_setCtx)
theorem keeps_endUnstarted {s0 : State} (q : Nat) (p : Prog) (st : Nat) (s : State) (hk : Keeps s0 s) : Keeps s0 (endUnstarted q p st s) := by
  unfold endUnstarted; repeat' first | with_reducible assumption | with_reducible (first | apply keeps_endProgram | apply keeps_setQueue) | simp only [Keeps.other_iff]
theorem keeps_payDue {s0 : State} (k : Nat) (d : Due) (s : State) (hk : Keeps s0 s) : Keeps s0 (payDue k d s) := by
  unfold payDue; repeat' first | with_reducible assumption | with_reducible (first | apply keeps_commit | apply keeps_finish | apply keeps_endWaitOn | apply keeps_endProgram | apply keeps_endUnstarted) | simp only [Keeps.other_iff] | split
theorem keeps_settleCtx {s0 : State} (s : State) (k : Nat) (hk : Keeps s0 s) : Keeps s0 (settleCtx s k) := by
  unfold settleCtx; repeat' first | with_reducible assumption | with_reducible (first | apply keeps_payDue | apply keeps_setCtx | apply keeps_commit | apply keeps_finish | apply keeps_cutAtBoundary | apply Keeps.ite) | simp only [Keeps.other_iff] | split

/-! Rootstock -/

theorem keeps_extendReg {s0 : State} (i : Nat) (v : Bytes) (s : State) (hk : Keeps s0 s) : Keeps s0 (extendReg i v s) := by
  unfold extendReg; repeat' first | with_reducible assumption | simp only [Keeps.other_iff]
theorem keeps_turnRecord {s0 : State} (k : Nat) (s : State) (hk : Keeps s0 s) : Keeps s0 (turnRecord k s) := by
  unfold turnRecord; repeat' first | with_reducible assumption | simp only [Keeps.other_iff]
theorem keeps_commitImage {s0 : State} (m : Bytes) (s : State) (hk : Keeps s0 s) : Keeps s0 (commitImage m s) := by
  unfold commitImage; repeat' first | with_reducible assumption | with_reducible (first | apply keeps_turnRecord | apply keeps_extendReg | apply Keeps.ite) | simp only [Keeps.other_iff] | split
theorem keeps_loadArea {s0 : State} (lo hi : Nat) (l : Bytes) (s : State) (hk : Keeps s0 s) :
    Keeps s0 (loadArea lo hi l s) :=
  hk.set_seq fun q => ⟨memWrite_wf (tabWf_filter q.1), q.2⟩
theorem keeps_loadCode {s0 : State} (m : Bytes) (s : State) (hk : Keeps s0 s) : Keeps s0 (loadCode m s) := by
  unfold loadCode; repeat' first | with_reducible assumption | with_reducible apply keeps_loadArea
theorem keeps_startRootstock {s0 : State} (s : State) (hk : Keeps s0 s) : Keeps s0 (startRootstock s) := by
  unfold startRootstock; repeat' first | with_reducible assumption | with_reducible (first | apply keeps_loadArea | apply keeps_loadCode | apply keeps_setCtx)
theorem keeps_takeStaged {s0 : State} (m : Bytes) (offset : Nat) (planned : Bool) (s : State) (hk : Keeps s0 s) : Keeps s0 (takeStaged m offset planned s) := by
  unfold takeStaged; repeat' first | with_reducible assumption | with_reducible (first | apply keeps_commitImage | apply keeps_extendReg | apply Keeps.ite) | simp only [Keeps.other_iff] | split

/-! VaultStore -/

theorem keeps_putCell {s0 : State} (domain i w : Nat) (s : State) (hk : Keeps s0 s) : Keeps s0 (putCell domain i w s) := by
  unfold putCell; repeat' first | with_reducible assumption | simp only [Keeps.other_iff]
theorem keeps_entropyInput {s0 : State} (s : State) (h : Keeps s0 s) : Keeps s0 (entropyInput s).2 :=
  h.update (.refl _) (.refl _) (.refl _) (.refl _) id (Nat.le_succ _) (List.suffix_refl _)
theorem keeps_drbgSeed {s0 : State} (kv : Nat × Nat) (s : State) (hk : Keeps s0 s) : Keeps s0 (drbgSeed kv s) := by
  unfold drbgSeed; repeat' first | with_reducible assumption | with_reducible apply keeps_entropyInput | simp only [Keeps.other_iff]
theorem keeps_internalRandom {s0 : State} (n : Nat) (s : State) (hk : Keeps s0 s) : Keeps s0 (internalRandom n s).2 := by
  unfold internalRandom; repeat' first | with_reducible assumption | simp only [Keeps.other_iff] | dsimp only

/-! Vintage -/

theorem keeps_startVintage {s0 : State} (s : State) (hk : Keeps s0 s) : Keeps s0 (startVintage s) := by
  unfold startVintage; repeat' first | with_reducible assumption | with_reducible apply Keeps.ite | simp only [Keeps.other_iff] | split
theorem keeps_settleStart {s0 : State} (t : Nat) (s : State) (hk : Keeps s0 s) : Keeps s0 (settleStart t s) := by
  unfold settleStart; repeat' first | with_reducible assumption | with_reducible (first | apply keeps_startVintage | apply keeps_advance | apply Keeps.ite) | split
theorem keeps_settleSnap {s0 : State} (t : Nat) (s : State) (hk : Keeps s0 s) : Keeps s0 (settleSnap t s) := by
  unfold settleSnap; repeat' first | with_reducible assumption | with_reducible apply Keeps.ite | simp only [Keeps.other_iff] | split
theorem keeps_settlePress {s0 : State} (t : Nat) (s : State) (hk : Keeps s0 s) : Keeps s0 (settlePress t s) := by
  unfold settlePress; repeat' first | with_reducible assumption | with_reducible (first | apply keeps_settleSnap | apply keeps_settleStart)

/-! Takeover -/

theorem keeps_restoreCtxs {s0 : State} (s : State) (hk : Keeps s0 s) : Keeps s0 (restoreCtxs s) := by
  unfold restoreCtxs; repeat' first | with_reducible assumption | with_reducible (first | apply keeps_setCtx | apply Keeps.foldl) | intro _ _ _
theorem keeps_restoreQueues {s0 : State} (s : State) (hk : Keeps s0 s) : Keeps s0 (restoreQueues s) := by
  unfold restoreQueues; repeat' first | with_reducible assumption | with_reducible (first | apply keeps_setQueue | apply Keeps.foldl) | intro _ _ _
theorem keeps_imageBack {s0 : State} (i : Image) (gap : Nat) (s : State) (hk : Keeps s0 s) (hi : Legal s0 → Memory.wf i.mem = true) :
    Keeps s0 (imageBack i gap s) := by
  refine ⟨hk.pending, hk.root, hk.drawn, hk.out, fun x => ?_⟩
  have y := hk.legal x
  exact ⟨y.1, ⟨hi x, y.2.1.2⟩, y.2.2⟩
theorem legal_imageNow {s : State} (h : Legal s) : Memory.wf (imageNow s).mem = true := by
  unfold imageNow
  split
  · rename_i r hr
    unfold returnedNow at hr
    split at hr
    · split at hr
      · cases hr
        rename_i hu _
        exact h.2.1.2.2.2.2.2.2 _ hu
      · cases hr
    · cases hr
  · exact h.2.1.2.1
theorem keeps_restore {s0 : State} (most : Nat) (s : State) (hk : Keeps s0 s) : Keeps s0 (restore most s) :=
  have d := keeps_draw _ hk
  keeps_imageBack _ _ _ (keeps_restoreQueues _ (keeps_restoreCtxs _ d)) fun x => legal_imageNow (d.legal x)
theorem keeps_abortFetched {s0 : State} (q : Nat) (s : State) (hk : Keeps s0 s) : Keeps s0 (abortFetched q s) := by
  unfold abortFetched; repeat' first | with_reducible assumption | with_reducible (first | apply keeps_setQueue | apply keeps_endUnstarted | apply keeps_setCtx) | simp only [Keeps.other_iff] | split
theorem keeps_abortAll {s0 : State} (s : State) (hk : Keeps s0 s) : Keeps s0 (abortAll s) := by
  unfold abortAll; repeat' first | with_reducible assumption | with_reducible (first | apply keeps_abortFetched | apply keeps_endProgram | apply keeps_setCtx | apply Keeps.foldl) | simp only [Keeps.other_iff] | intro _ _ _
theorem keeps_coldTakeover {s0 : State} (s : State) (hk : Keeps s0 s) : Keeps s0 (coldTakeover s) := by
  have g := keeps_draw _ (keeps_abortAll _ (keeps_raise 0x6007 0 0 _ hk))
  unfold coldTakeover
  dsimp only
  generalize draw (abortAll (raise 0x6007 0 0 s)) = d at g ⊢
  refine keeps_baseImage _ (keeps_startRootstock _ (g.withSeq ?_))
  exact fun q => ⟨rfl, q.2.1, rfl, q.2.2.2⟩
theorem keeps_setHealth {s0 : State} (x : Nat) (h : Health) (s : State) (hk : Keeps s0 s) : Keeps s0 (setHealth x h s) := by
  unfold setHealth; repeat' first | with_reducible assumption | with_reducible (first | apply Keeps.ite | apply SeqStep.update) | simp only [Keeps.other_iff] | split | with_reducible apply Keeps.withSeq
theorem keeps_freshBase {s0 : State} (s : State) (hk : Keeps s0 s) : Keeps s0 (freshBase s) :=
  hk.withSeq fun q => ⟨q.1, q.1, q.2.2.1, q.2.2.2.1, q.2.2.2.2⟩
theorem keeps_restoreOrCold {s0 : State} (most : Nat) (s : State) (hk : Keeps s0 s) :
    Keeps s0 (restoreOrCold most s) := by
  unfold restoreOrCold
  split
  · have g := keeps_restore most _ hk
    dsimp only
    split
    · exact keeps_freshBase _ (keeps_loadCode _ _ g)
    · exact g
  · exact keeps_coldTakeover _ hk
theorem keeps_takeControl {s0 : State} (go : Bool) (x most : Nat) (s : State) (hx : x < 2) (hk : Keeps s0 s) :
    Keeps s0 (takeControl go x most s) := by
  unfold takeControl
  have g : ∀ v r, Keeps s0 { s with seq := { s.seq with
      active := some x, goOwed := false, going := none, holdoffEnd := none, took := (s.clk.root, s.seq.active), returnedAt := r }, vault := v } :=
    fun v r => hk.withSeq fun q =>
      ⟨q.1, q.2.1, q.2.2.1, q.2.2.2.1, fun y h => (by cases h; exact hx), q.2.2.2.2.1, q.2.2.2.2.2.2⟩
  refine keeps_raiseComplex _ _ _ ((keeps_restoreOrCold _ _ ?_).set_seq (.update _))
  dsimp only
  split
  · exact keeps_takeStaged _ _ _ _ (keeps_setHealth _ _ _ (g _ _))
  · exact keeps_setHealth _ _ _ (g _ _)
theorem keeps_goesOver {s0 : State} (auto : Bool) (s : State) (hk : Keeps s0 s) : Keeps s0 (goesOver auto s) := by
  unfold goesOver
  split
  · exact hk
  · dsimp only
    repeat' first | apply keeps_raise | apply keeps_takeControl | apply keeps_setHealth | exact hk | exact Nat.lt_succ_of_le (Nat.sub_le 1 _) | split
theorem keeps_settleGo {s0 : State} (t : Nat) (s : State) (hk : Keeps s0 s) : Keeps s0 (settleGo t s) := by
  unfold settleGo; repeat' first | with_reducible assumption | with_reducible (first | apply keeps_goesOver | apply keeps_advance | apply Keeps.ite) | simp only [Keeps.other_iff] | split
theorem keeps_settleDue {s0 : State} (t : Nat) (s : State) (hk : Keeps s0 s) : Keeps s0 (settleDue t s) := by
  unfold settleDue; repeat' first | with_reducible assumption | with_reducible (first | apply keeps_settleCtx | apply keeps_advance | apply Keeps.ite | apply Keeps.foldl) | intro _ _ _ | split
theorem keeps_settleSeq {s0 : State} (t : Nat) (s : State) (hk : Keeps s0 s) : Keeps s0 (settleSeq t s) := by
  unfold settleSeq; repeat' first | with_reducible assumption | with_reducible (first | apply keeps_settlePress | apply keeps_settleDue | apply keeps_settleGo)
theorem keeps_toBoundary {s0 : State} (s : State) (hk : Keeps s0 s) : Keeps s0 (toBoundary s) := by
  unfold toBoundary; repeat' first | with_reducible assumption | with_reducible apply keeps_settleSeq | simp only [Keeps.other_iff] | split
theorem keeps_comeTo {s0 : State} (t : Nat) (s : State) (hk : Keeps s0 s) : Keeps s0 (comeTo t s) := by
  unfold comeTo; repeat' first | with_reducible assumption | with_reducible (first | apply keeps_advance | apply keeps_settleSeq)
theorem keeps_event {s0 : State} {t : Nat} {guard : State → Bool} {eff : State → State} {s : State}
    (hf : ∀ t, Keeps s0 t → Keeps s0 (eff t)) (h : Keeps s0 s) : Keeps s0 (event t guard eff s) := by
  have g := keeps_comeTo t _ h
  unfold event
  dsimp only
  split
  · exact hf _ g
  · exact g

/-! Command -/

theorem keeps_sramRead {s0 : State} (n : Nat) (s : State) (hk : Keeps s0 s) : Keeps s0 (sramRead n s) := by
  unfold sramRead; repeat' first | with_reducible assumption | with_reducible apply Keeps.ite | simp only [Keeps.other_iff] | split
theorem keeps_applyCmd {s0 : State} (c : Cmd) (e : Env) (s : State)
    (hc : ∀ e t, Keeps s0 t → Keeps s0 (c.eff e t).s) (h : Keeps s0 s) : Keeps s0 (applyCmd c e s).s := by
  unfold applyCmd
  split
  · exact keeps_bump _ _ _ _ _ _ h
  · have g : Keeps s0 (if c.slotRow then s else sramRead e.burst s) := Keeps.ite h (keeps_sramRead _ _ h)
    dsimp only
    generalize (if c.slotRow then s else sramRead e.burst s) = u at g ⊢
    repeat' first | exact g | exact hc _ _ g | split
theorem keeps_keepCmd {s0 : State} (op : Nat) (e : Env) (st : Nat) (s : State) (hk : Keeps s0 s) : Keeps s0 (keepCmd op e st s) := by
  unfold keepCmd; repeat' first | with_reducible assumption | with_reducible apply SeqStep.update | simp only [Keeps.other_iff] | with_reducible apply Keeps.withSeq
theorem keeps_addPending {s0 : State} (e : Env) (r : Res) (h : Keeps s0 r.s) : Keeps s0 (addPending e r) := by
  unfold addPending
  split
  · split
    · exact h.withSeq (.update _)
    · exact h
  · exact h
theorem keeps_deliver {s0 : State} (c : Cmd) (e : Env) (s : State)
    (hc : ∀ e t, Keeps s0 t → Keeps s0 (c.eff e t).s) (h : Keeps s0 s) : Keeps s0 (deliver c e s).s := by
  unfold deliver
  split
  · exact keeps_keepCmd _ _ _ _ (keeps_addPending _ _ (keeps_applyCmd _ _ _ hc h))
  · split
    · split
      · exact h.update (.refl _) (.refl _) (.refl _) (.refl _) id (Nat.le_add_right _ _) (List.suffix_refl _)
      · exact keeps_raise _ _ _ _ h
    · exact keeps_raise _ _ _ _ h
theorem keeps_noteReturn {s0 : State} (k cseq : Nat) (s : State) (h : Keeps s0 s) : Keeps s0 (noteReturn k cseq s) := by
  refine h.withSeq fun q => ⟨q.1, q.2.1, q.2.2.1, q.2.2.2.1, q.2.2.2.2.1, q.2.2.2.2.2.1, ?_⟩
  intro r hr
  dsimp only at hr
  cases hr
  dsimp only
  split
  · rename_i u hu
    split
    · exact q.2.2.2.2.2.2 _ hu
    · exact q.2.1
  · exact q.2.1
theorem keeps_returnStatus {s0 : State} (e : Env) (r : Res) (h : Keeps s0 r.s) : Keeps s0 (returnStatus e r) :=
  keeps_commit _ (keeps_setCtx _ _ _ (keeps_stepOver _ _ _ (keeps_setCtx _ _ _ (keeps_noteReturn _ _ _ h))))
theorem keeps_takeCseq {s0 : State} (k : Nat) (s : State) (hk : Keeps s0 s) : Keeps s0 (takeCseq k s).2 := by
  unfold takeCseq; repeat' first | with_reducible assumption | with_reducible (first | apply keeps_setCtx | apply SeqStep.update) | simp only [Keeps.other_iff] | dsimp only | split | with_reducible apply Keeps.withSeq
theorem keeps_launch {s0 : State} (c : Cmd) (w : IWord) (e : Env) (s : State)
    (hc : ∀ e t, Keeps s0 t → Keeps s0 (c.eff e t).s) (h : Keeps s0 s) : Keeps s0 (launch c w e s) := by
  have g := keeps_takeCseq e.k s h
  unfold launch
  dsimp only
  split
  · exact keeps_returnStatus _ _ (keeps_deliver _ _ _ hc g)
  · exact keeps_wait _ _ _ g
  · exact keeps_wait _ _ _ (keeps_deliver _ _ _ hc g)
theorem keeps_runCmdIn {s0 : State} (c : Cmd) (w : IWord) (k : Nat) (s : State)
    (hc : ∀ e t, Keeps s0 t → Keeps s0 (c.eff e t).s) (h : Keeps s0 s) : Keeps s0 (runCmdIn c w k s) := by
  unfold runCmdIn
  dsimp only
  split
  · exact keeps_finish _ _ _ h
  · split
    · exact keeps_wait _ _ _ h
    · split
      · exact keeps_wait _ _ _ h
      · exact keeps_launch _ _ _ _ hc h
theorem keeps_runCmd {s0 : State} {c : Cmd} {w : IWord} {s : State}
    (hc : ∀ e t, Keeps s0 t → Keeps s0 (c.eff e t).s) (h : Keeps s0 s) : Keeps s0 (runCmd c w s) := by
  unfold runCmd
  split
  · exact h
  · exact keeps_runCmdIn _ _ _ _ hc (keeps_issue _ _ (keeps_boundary _ (keeps_toBoundary _ h)))
theorem keeps_runLoc {s0 : State} {c : Loc} {w : IWord} {s : State}
    (hc : ∀ e t, Keeps s0 t → Keeps s0 (c.eff e t)) (h : Keeps s0 s) : Keeps s0 (runLoc c w s) := by
  unfold runLoc
  split
  · exact h
  · have b := keeps_boundary _ (keeps_toBoundary _ h)
    generalize boundary (toBoundary s) = u at b ⊢
    have g := fun n => keeps_issue n _ b
    dsimp only
    split
    · exact keeps_finish _ _ _ (g _)
    · split
      · exact keeps_finish _ _ _ (g _)
      · split
        · exact keeps_finish _ _ _ (g _)
        · exact hc _ _ (g _)

end Sys2Proof.Machine
end

