-- ==== Sys2Proof/Laws/KeepsPorts.lean ====
section
/-! SUPPORT. What ports, classification, scheduling, channels and the lines of the Memory Guard do keeps `Keeps`. -/

namespace Sys2Proof.Machine

/-! Ports -/

theorem keeps_portTo {s0 : State} (p : Nat) (st : PortState) (s : State) (hk : Keeps s0 s) : Keeps s0 (portTo p st s) := by
  unfold portTo; repeat' first | with_reducible assumption | with_reducible (first | apply keeps_setPort | apply keeps_raise | apply Keeps.ite) | simp only [Keeps.other_iff] | split
theorem keeps_startBringUp {s0 : State} (p : Nat) (s : State) (hk : Keeps s0 s) : Keeps s0 (startBringUp p s) := by
  unfold startBringUp; repeat' first | with_reducible assumption | with_reducible (first | apply keeps_portTo | apply keeps_setPort | apply Keeps.ite) | simp only [Keeps.other_iff] | split
theorem keeps_restartBringUp {s0 : State} (p : Nat) (s : State) (hk : Keeps s0 s) : Keeps s0 (restartBringUp p s) := by
  unfold restartBringUp; repeat' first | with_reducible assumption | with_reducible (first | apply keeps_portTo | apply keeps_setPort | apply keeps_raise | apply Keeps.ite) | simp only [Keeps.other_iff] | split
theorem keeps_laneEnters {s0 : State} (l : Nat) (s : State) (hk : Keeps s0 s) : Keeps s0 (laneEnters l s) := by
  unfold laneEnters; repeat' first | with_reducible assumption | with_reducible (first | apply keeps_portTo | apply Keeps.ite) | simp only [Keeps.other_iff] | split
theorem keeps_laneLeaves {s0 : State} (l : Nat) (s : State) (hk : Keeps s0 s) : Keeps s0 (laneLeaves l s) := by
  unfold laneLeaves; repeat' first | with_reducible assumption | with_reducible (first | apply keeps_startBringUp | apply Keeps.ite) | simp only [Keeps.other_iff] | split
theorem keeps_disableOverlaps {s0 : State} (p v : Nat) (s : State) (hk : Keeps s0 s) : Keeps s0 (disableOverlaps p v s) := by
  unfold disableOverlaps; repeat' first | with_reducible assumption | with_reducible (first | apply keeps_portTo | apply Keeps.ite | apply Keeps.foldl) | intro _ _ _ | split
theorem keeps_portCfgEff {s0 : State} (p v : Nat) (s : State) (hk : Keeps s0 s) : Keeps s0 (portCfgEff p v s) := by
  unfold portCfgEff; repeat' first | with_reducible assumption | with_reducible (first | apply keeps_disableOverlaps | apply keeps_portTo | apply keeps_setPort | apply keeps_startBringUp | apply Keeps.ite) | simp only [Keeps.other_iff] | split
theorem keeps_portCfgCmd {s0 s : State} (e : Env) (hk : Keeps s0 s) : Keeps s0 (portCfgCmd.eff e s).s := by
  unfold portCfgCmd; repeat' first | with_reducible assumption | with_reducible apply keeps_portCfgEff | dsimp only
theorem keeps_execPortCfg (w : IWord) (s : State) {u : State} (h : execPortCfg w s = .next u) : Keeps s u := by
  cases h; exact keeps_runCmd (fun e t g => keeps_portCfgCmd e g) (Keeps.refl _)
theorem keeps_portStateCmd {s0 s : State} (e : Env) (hk : Keeps s0 s) : Keeps s0 (portStateCmd.eff e s).s := by
  unfold portStateCmd; repeat' first | with_reducible assumption | dsimp only
theorem keeps_execPortState (w : IWord) (s : State) {u : State} (h : execPortState w s = .next u) : Keeps s u := by
  cases h; exact keeps_runCmd (fun e t g => keeps_portStateCmd e g) (Keeps.refl _)
theorem keeps_execAnResolved (t p : Nat) (x : Partner) (s : State) {u : State} (h : execAnResolved t p x s = .next u) : Keeps s u := by
  unfold execAnResolved at h; injection h with h; subst h
  refine keeps_event (fun t g => ?_) (Keeps.refl _)
  repeat' first | with_reducible assumption | with_reducible (first | apply keeps_event | apply keeps_portTo | apply keeps_setPort | apply Keeps.ite) | simp only [Keeps.other_iff] | split
theorem keeps_recordMargins {s0 : State} (p : Nat) (s : State) (hk : Keeps s0 s) : Keeps s0 (recordMargins p s) := by
  unfold recordMargins; repeat' first | with_reducible assumption | with_reducible (first | apply keeps_draw | apply keeps_setLane | apply Keeps.foldl) | simp only [Keeps.other_iff] | intro _ _ _
theorem keeps_execTrainingComplete (t p : Nat) (s : State) {u : State} (h : execTrainingComplete t p s = .next u) : Keeps s u := by
  unfold execTrainingComplete at h; injection h with h; subst h
  refine keeps_event (fun t g => ?_) (Keeps.refl _)
  repeat' first | with_reducible assumption | with_reducible (first | apply keeps_event | apply keeps_portTo | apply keeps_recordMargins)
theorem keeps_withdrawMode {s0 : State} (p : Nat) (s : State) (hk : Keeps s0 s) : Keeps s0 (withdrawMode p s) := by
  unfold withdrawMode; repeat' first | with_reducible assumption | with_reducible (first | apply keeps_setPort | apply Keeps.ite) | simp only [Keeps.other_iff] | split
theorem keeps_execTrainingTimeout (t p : Nat) (s : State) {u : State} (h : execTrainingTimeout t p s = .next u) : Keeps s u := by
  unfold execTrainingTimeout at h; injection h with h; subst h
  refine keeps_event (fun t g => ?_) (Keeps.refl _)
  repeat' first | with_reducible assumption | with_reducible (first | apply keeps_event | apply keeps_restartBringUp | apply keeps_withdrawMode | apply Keeps.ite) | simp only [Keeps.other_iff] | split
theorem keeps_locksHeld {s0 : State} (p : Nat) (s : State) (hk : Keeps s0 s) : Keeps s0 (locksHeld p s) := by
  unfold locksHeld; repeat' first | with_reducible assumption | with_reducible (first | apply keeps_setLane | apply Keeps.ite | apply Keeps.foldl) | simp only [Keeps.other_iff] | intro _ _ _ | split
theorem keeps_sendVerify {s0 : State} (p : Nat) (s : State) (hk : Keeps s0 s) : Keeps s0 (sendVerify p s) := by
  unfold sendVerify; repeat' first | with_reducible assumption | with_reducible (first | apply keeps_emit | apply Keeps.ite) | split
theorem keeps_execAlignmentHeld (t p : Nat) (s : State) {u : State} (h : execAlignmentHeld t p s = .next u) : Keeps s u := by
  unfold execAlignmentHeld at h; injection h with h; subst h
  refine keeps_event (fun t g => ?_) (Keeps.refl _)
  repeat' first | with_reducible assumption | with_reducible (first | apply keeps_event | apply keeps_portTo | apply keeps_locksHeld | apply keeps_sendVerify | apply keeps_setPort) | simp only [Keeps.other_iff]
theorem keeps_execAlignmentTimeout (t p : Nat) (s : State) {u : State} (h : execAlignmentTimeout t p s = .next u) : Keeps s u := by
  unfold execAlignmentTimeout at h; injection h with h; subst h
  refine keeps_event (fun t g => ?_) (Keeps.refl _)
  repeat' first | with_reducible assumption | with_reducible (first | apply keeps_event | apply keeps_restartBringUp)
theorem keeps_execNegotiationRestartWait (t p : Nat) (s : State) {u : State} (h : execNegotiationRestartWait t p s = .next u) : Keeps s u := by
  unfold execNegotiationRestartWait at h; injection h with h; subst h
  refine keeps_event (fun t g => ?_) (Keeps.refl _)
  repeat' first | with_reducible assumption | with_reducible (first | apply keeps_event | apply keeps_setPort) | simp only [Keeps.other_iff] | split
theorem keeps_squelchOutputs {s0 : State} (l : Nat) (s : State) (hk : Keeps s0 s) : Keeps s0 (squelchOutputs l s) := by
  unfold squelchOutputs; repeat' first | with_reducible assumption | with_reducible (first | apply keeps_raise | apply Keeps.ite | apply Keeps.foldl) | simp only [Keeps.other_iff] | intro _ _ _ | split | with_reducible apply Keeps.setSynce
theorem keeps_execLinkLoss (t : Nat) (x : LaneLoss) (s : State) {u : State} (h : execLinkLoss t x s = .next u) : Keeps s u := by
  unfold execLinkLoss at h; injection h with h; subst h
  refine keeps_event (fun t g => ?_) (Keeps.refl _)
  repeat' first | with_reducible assumption | with_reducible (first | apply keeps_event | apply keeps_squelchOutputs | apply keeps_setLane | apply keeps_restartBringUp | apply Keeps.ite) | simp only [Keeps.other_iff] | split
theorem keeps_execFaultSequenceChange (t p : Nat) (lf rf : Bool) (s : State) {u : State} (h : execFaultSequenceChange t p lf rf s = .next u) : Keeps s u := by
  unfold execFaultSequenceChange at h; injection h with h; subst h
  refine keeps_event (fun t g => ?_) (Keeps.refl _)
  repeat' first | with_reducible assumption | with_reducible (first | apply keeps_event | apply keeps_setPort) | simp only [Keeps.other_iff]
theorem keeps_execVerifyTimeout (t p : Nat) (s : State) {u : State} (h : execVerifyTimeout t p s = .next u) : Keeps s u := by
  unfold execVerifyTimeout at h; injection h with h; subst h
  refine keeps_event (fun t g => ?_) (Keeps.refl _)
  repeat' first | with_reducible assumption | with_reducible (first | apply keeps_event | apply keeps_sendVerify | apply keeps_setPort | apply keeps_raise | apply keeps_bump | apply Keeps.ite) | simp only [Keeps.other_iff] | split
theorem keeps_execVerifyRespondReceive (t p : Nat) (s : State) {u : State} (h : execVerifyRespondReceive t p s = .next u) : Keeps s u := by
  unfold execVerifyRespondReceive at h; injection h with h; subst h
  refine keeps_event (fun t g => ?_) (Keeps.refl _)
  repeat' first | with_reducible assumption | with_reducible (first | apply keeps_event | apply keeps_setPort) | simp only [Keeps.other_iff]
theorem keeps_countSeen {s0 : State} (p : Nat) (m : RxMark) (v : RxSeen) (s : State) (hk : Keeps s0 s) : Keeps s0 (countSeen p m v s) := by
  unfold countSeen; repeat' first | with_reducible assumption | with_reducible (first | apply keeps_bump | apply Keeps.ite | apply Keeps.foldl) | intro _ _ _ | split
theorem keeps_countFault {s0 : State} (p k : Nat) (s : State) (hk : Keeps s0 s) : Keeps s0 (countFault p k s) := by
  unfold countFault; repeat' first | with_reducible assumption | with_reducible (first | apply keeps_bump | apply Keeps.ite) | split
theorem keeps_setPause {s0 : State} (s : State) (p c : Nat) (v : Pause) (hk : Keeps s0 s) : Keeps s0 (setPause s p c v) := by
  unfold setPause; repeat' first | with_reducible assumption | with_reducible apply keeps_setPort | simp only [Keeps.other_iff]
theorem keeps_endVisit {s0 : State} (p c : Nat) (s : State) (hk : Keeps s0 s) : Keeps s0 (endVisit p c s) := by
  unfold endVisit; repeat' first | with_reducible assumption | with_reducible (first | apply keeps_setPort | apply Keeps.ite) | simp only [Keeps.other_iff] | split
theorem keeps_pauseClass {s0 : State} (p c q from_ : Nat) (s : State) (hk : Keeps s0 s) : Keeps s0 (pauseClass p c q from_ s) := by
  unfold pauseClass; repeat' first | with_reducible assumption | with_reducible (first | apply keeps_setPause | apply keeps_endVisit | apply Keeps.ite) | simp only [Keeps.other_iff] | split
theorem keeps_pauseAll {s0 : State} (p q from_ : Nat) (s : State) (hk : Keeps s0 s) : Keeps s0 (pauseAll p q from_ s) := by
  unfold pauseAll; repeat' first | with_reducible assumption | with_reducible (first | apply keeps_bump | apply keeps_pauseClass | apply Keeps.ite | apply Keeps.foldl) | intro _ _ _ | split
theorem keeps_pausePfc {s0 : State} (p vec : Nat) (times : Bytes) (from_ : Nat) (s : State) (hk : Keeps s0 s) : Keeps s0 (pausePfc p vec times from_ s) := by
  unfold pausePfc; repeat' first | with_reducible assumption | with_reducible (first | apply keeps_bump | apply keeps_pauseClass | apply Keeps.ite | apply Keeps.foldl) | intro _ _ _ | split
theorem keeps_macControl {s0 : State} (p : Nat) (l : Bytes) (from_ : Nat) (s : State) (hk : Keeps s0 s) : Keeps s0 (macControl p l from_ s) := by
  unfold macControl; repeat' first | with_reducible assumption | with_reducible (first | apply keeps_bump | apply keeps_pauseAll | apply keeps_pausePfc | apply Keeps.ite) | split
theorem keeps_settleControl {s0 : State} (p : Nat) (s : State) (hk : Keeps s0 s) : Keeps s0 (settleControl p s) := by
  unfold settleControl; repeat' first | with_reducible assumption | with_reducible (first | apply keeps_macControl | apply keeps_setPort | apply Keeps.ite | apply Keeps.foldl) | simp only [Keeps.other_iff] | intro _ _ _ | split
theorem keeps_pauseEvent {s0 : State} {t p : Nat} {guard : State → Bool} {eff : State → State} {s : State}
    (hf : ∀ t, Keeps s0 t → Keeps s0 (eff t)) (h : Keeps s0 s) : Keeps s0 (pauseEvent t p guard eff s) := by
  have g := keeps_settleControl p _ (keeps_comeTo t _ h)
  unfold pauseEvent
  dsimp only
  split
  · exact hf _ g
  · exact g
theorem keeps_pauseFrame {s0 : State} (p : Nat) (l : Bytes) (m : RxMark) (s : State) (hk : Keeps s0 s) : Keeps s0 (pauseFrame p l m s) := by
  unfold pauseFrame; repeat' first | with_reducible assumption | with_reducible (first | apply keeps_countFault | apply keeps_macControl | apply Keeps.ite) | simp only [Keeps.other_iff] | split
theorem keeps_execPauseFrameReceive (t p : Nat) (l : Bytes) (rx : MacRx) (s : State) {u : State} (h : execPauseFrameReceive t p l rx s = .next u) : Keeps s u := by
  unfold execPauseFrameReceive at h; injection h with h; subst h
  refine keeps_pauseEvent (fun t g => ?_) (Keeps.refl _)
  repeat' first | with_reducible assumption | with_reducible (first | apply keeps_pauseEvent | apply keeps_pauseFrame | apply keeps_countSeen)
theorem keeps_execPauseTimeExpiry (t p c : Nat) (s : State) {u : State} (h : execPauseTimeExpiry t p c s = .next u) : Keeps s u := by
  unfold execPauseTimeExpiry at h; injection h with h; subst h
  refine keeps_pauseEvent (fun t g => ?_) (Keeps.refl _)
  repeat' first | with_reducible assumption | with_reducible (first | apply keeps_pauseEvent | apply keeps_setPause) | simp only [Keeps.other_iff] | split
theorem keeps_execPauseLimitRelease (t p c : Nat) (s : State) {u : State} (h : execPauseLimitRelease t p c s = .next u) : Keeps s u := by
  unfold execPauseLimitRelease at h; injection h with h; subst h
  refine keeps_pauseEvent (fun t g => ?_) (Keeps.refl _)
  repeat' first | with_reducible assumption | with_reducible (first | apply keeps_pauseEvent | apply keeps_raiseEv | apply keeps_bump | apply keeps_setPause) | simp only [Keeps.other_iff]

/-! Classify -/

theorem keeps_bumpCls {s0 : State} (p k n : Nat) (s : State) (hk : Keeps s0 s) : Keeps s0 (bumpCls p k n s) := by
  unfold bumpCls; repeat' first | with_reducible assumption | with_reducible apply keeps_bump
theorem keeps_syncFlush {s0 : State} (s : State) (hk : Keeps s0 s) : Keeps s0 (syncFlush s) := by
  unfold syncFlush; repeat' first | with_reducible assumption | with_reducible apply Keeps.ite | simp only [Keeps.other_iff] | split
theorem keeps_noteTables {s0 : State} (s : State) (hk : Keeps s0 s) : Keeps s0 (noteTables s) := by
  unfold noteTables; repeat' first | with_reducible assumption | with_reducible (first | apply keeps_syncFlush | apply Keeps.ite) | simp only [Keeps.other_iff] | split
theorem keeps_lookupView {s0 : State} (s : State) (hk : Keeps s0 s) : Keeps s0 (lookupView s) := by
  unfold lookupView; repeat' first | with_reducible assumption | with_reducible apply Keeps.ite | simp only [Keeps.other_iff] | split
theorem keeps_clsMapCmd {s0 s : State} (e : Env) (hk : Keeps s0 s) : Keeps s0 (clsMapCmd.eff e s).s := by
  unfold clsMapCmd; repeat' first | with_reducible assumption | with_reducible (first | apply keeps_noteTables | apply Keeps.ite) | simp only [Keeps.other_iff] | dsimp only | split
theorem keeps_execClsMap (w : IWord) (s : State) {u : State} (h : execClsMap w s = .next u) : Keeps s u := by
  cases h; exact keeps_runCmd (fun e t g => keeps_clsMapCmd e g) (Keeps.refl _)
theorem keeps_clsRuleCmd {s0 s : State} (e : Env) (hk : Keeps s0 s) : Keeps s0 (clsRuleCmd.eff e s).s := by
  unfold clsRuleCmd; repeat' first | with_reducible assumption | with_reducible (first | apply keeps_noteTables | apply Keeps.ite) | simp only [Keeps.other_iff] | dsimp only | split
theorem keeps_execClsRule (w : IWord) (s : State) {u : State} (h : execClsRule w s = .next u) : Keeps s u := by
  cases h; exact keeps_runCmd (fun e t g => keeps_clsRuleCmd e g) (Keeps.refl _)
theorem keeps_setPeer {s0 : State} (set way : Nat) (v : Peer) (s : State) (hk : Keeps s0 s) : Keeps s0 (setPeer set way v s) := by
  unfold setPeer; repeat' first | with_reducible assumption | simp only [Keeps.other_iff]
theorem keeps_freePeer {s0 : State} (set way : Nat) (s : State) (hk : Keeps s0 s) : Keeps s0 (freePeer set way s) := by
  unfold freePeer; repeat' first | with_reducible assumption | simp only [Keeps.other_iff]
theorem keeps_placePeer {s0 : State} (s : State) (set : Nat) (v : Peer) (pinned : Bool) {u : State} (hk : Keeps s0 s)
    (hu : placePeer s set v pinned = some u) : Keeps s0 u := by
  unfold placePeer at hu
  repeat' first | cases hu | split at hu | with_reducible assumption | with_reducible (first | apply keeps_setPeer | apply keeps_raise | apply keeps_bump)
  obtain ⟨w, _, hw⟩ := Option.map_eq_some_iff.mp hu
  exact hw ▸ keeps_setPeer _ _ _ _ hk
theorem keeps_peerAdd {s0 : State} (s : State) (port sci ch : Nat) {u : State} (hk : Keeps s0 s)
    (hu : peerAdd s port sci ch = some u) : Keeps s0 u := by
  unfold peerAdd at hu
  dsimp only at hu
  split at hu
  · split at hu
    · exact keeps_placePeer _ _ _ _ (keeps_freePeer _ _ _ hk) hu
    · cases hu; exact keeps_setPeer _ _ _ _ hk
  · exact keeps_placePeer _ _ _ _ hk hu
theorem keeps_countOp {s0 : State} (op : Nat) (s : State) (hk : Keeps s0 s) : Keeps s0 (countOp op s) := by
  unfold countOp; repeat' first | with_reducible assumption | simp only [Keeps.other_iff]
theorem keeps_peerDelCmd {s0 s : State} (e : Env) (hk : Keeps s0 s) : Keeps s0 (peerDelCmd.eff e s).s := by
  unfold peerDelCmd; repeat' first | with_reducible assumption | with_reducible (first | apply keeps_syncFlush | apply keeps_countOp | apply keeps_freePeer | apply keeps_noteTables | apply Keeps.ite) | simp only [Keeps.other_iff] | dsimp only | split
theorem keeps_execPeerDel (w : IWord) (s : State) {u : State} (h : execPeerDel w s = .next u) : Keeps s u := by
  cases h; exact keeps_runCmd (fun e t g => keeps_peerDelCmd e g) (Keeps.refl _)
theorem keeps_peerSearchCmd {s0 s : State} (e : Env) (hk : Keeps s0 s) : Keeps s0 (peerSearchCmd.eff e s).s := by
  unfold peerSearchCmd; repeat' first | with_reducible assumption | with_reducible (first | apply keeps_syncFlush | apply keeps_countOp | apply keeps_storeMem | apply Keeps.ite) | dsimp only | split
theorem keeps_execPeerSearch (w : IWord) (s : State) {u : State} (h : execPeerSearch w s = .next u) : Keeps s u := by
  cases h; exact keeps_runCmd (fun e t g => keeps_peerSearchCmd e g) (Keeps.refl _)
theorem keeps_peerNextCmd {s0 s : State} (e : Env) (hk : Keeps s0 s) : Keeps s0 (peerNextCmd.eff e s).s := by
  unfold peerNextCmd; repeat' first | with_reducible assumption | with_reducible (first | apply keeps_syncFlush | apply keeps_countOp | apply keeps_storeMem | apply keeps_draw | apply Keeps.ite) | simp only [Keeps.other_iff] | dsimp only | split
theorem keeps_execPeerNext (w : IWord) (s : State) {u : State} (h : execPeerNext w s = .next u) : Keeps s u := by
  cases h; exact keeps_runCmd (fun e t g => keeps_peerNextCmd e g) (Keeps.refl _)
theorem keeps_peerFlushCmd {s0 s : State} (e : Env) (hk : Keeps s0 s) : Keeps s0 (peerFlushCmd.eff e s).s := by
  unfold peerFlushCmd; repeat' first | with_reducible assumption | with_reducible (first | apply keeps_countOp | apply keeps_event) | simp only [Keeps.other_iff] | dsimp only | split
theorem keeps_execPeerFlush (w : IWord) (s : State) {u : State} (h : execPeerFlush w s = .next u) : Keeps s u := by
  cases h; exact keeps_runCmd (fun e t g => keeps_peerFlushCmd e g) (Keeps.refl _)
theorem keeps_execPeerFlushComplete (t : Nat) (s : State) {u : State} (h : execPeerFlushComplete t s = .next u) : Keeps s u := by
  unfold execPeerFlushComplete at h; injection h with h; subst h
  refine keeps_event (fun t g => ?_) (Keeps.refl _)
  repeat' first | with_reducible assumption | with_reducible (first | apply keeps_event | apply keeps_complete) | simp only [Keeps.other_iff] | split
theorem keeps_execPendingAgeExpiry (t set way : Nat) (s : State) {u : State} (h : execPendingAgeExpiry t set way s = .next u) : Keeps s u := by
  unfold execPendingAgeExpiry at h; injection h with h; subst h
  refine keeps_event (fun t g => ?_) (Keeps.refl _)
  repeat' first | with_reducible assumption | with_reducible (first | apply keeps_event | apply keeps_syncFlush | apply keeps_raise | apply keeps_bumpCls | apply keeps_freePeer) | simp only [Keeps.other_iff] | split

/-! Sched -/

theorem keeps_classMapCmd {s0 s : State} (e : Env) (hk : Keeps s0 s) : Keeps s0 (classMapCmd.eff e s).s := by
  unfold classMapCmd; repeat' first | with_reducible assumption | with_reducible apply keeps_setPort | simp only [Keeps.other_iff] | dsimp only
theorem keeps_execClassMap (w : IWord) (s : State) {u : State} (h : execClassMap w s = .next u) : Keeps s u := by
  cases h; exact keeps_runCmd (fun e t g => keeps_classMapCmd e g) (Keeps.refl _)
theorem keeps_policeSetEff {s0 : State} (m v : Nat) (s : State) (hk : Keeps s0 s) : Keeps s0 (policeSetEff m v s) := by
  unfold policeSetEff; repeat' first | with_reducible assumption | with_reducible (first | apply keeps_setMeter | apply Keeps.ite) | split
theorem keeps_policeSetCmd {s0 s : State} (e : Env) (hk : Keeps s0 s) : Keeps s0 (policeSetCmd.eff e s).s := by
  unfold policeSetCmd; repeat' first | with_reducible assumption | with_reducible (first | apply keeps_policeSetEff | apply Keeps.ite) | dsimp only | split
theorem keeps_execPoliceSet (w : IWord) (s : State) {u : State} (h : execPoliceSet w s = .next u) : Keeps s u := by
  cases h; exact keeps_runCmd (fun e t g => keeps_policeSetCmd e g) (Keeps.refl _)
theorem keeps_bumpMeter {s0 : State} (m k n : Nat) (s : State) (hk : Keeps s0 s) : Keeps s0 (bumpMeter m k n s) := by
  unfold bumpMeter; repeat' first | with_reducible assumption | with_reducible apply keeps_bump
theorem keeps_meterFrame {s0 : State} (m cls : Nat) (dei : Bool) (len ends t : Nat) (s : State) (hk : Keeps s0 s) : Keeps s0 (meterFrame m cls dei len ends t s).1 := by
  unfold meterFrame; repeat' first | with_reducible assumption | with_reducible (first | apply keeps_raise | apply keeps_bumpMeter | apply keeps_setMeter | apply Keeps.ite) | simp only [Keeps.other_iff] | dsimp only | split
theorem keeps_shapeSetCmd {s0 s : State} (e : Env) (hk : Keeps s0 s) : Keeps s0 (shapeSetCmd.eff e s).s := by
  unfold shapeSetCmd; repeat' first | with_reducible assumption | with_reducible (first | apply keeps_setShaper | apply Keeps.ite) | dsimp only | split
theorem keeps_execShapeSet (w : IWord) (s : State) {u : State} (h : execShapeSet w s = .next u) : Keeps s u := by
  cases h; exact keeps_runCmd (fun e t g => keeps_shapeSetCmd e g) (Keeps.refl _)
theorem keeps_evalShaper {s0 : State} (p c t : Nat) (tok : Int) (s : State) (hk : Keeps s0 s) : Keeps s0 (evalShaper p c t tok s) := by
  unfold evalShaper; repeat' first | with_reducible assumption | with_reducible (first | apply keeps_setShaper | apply keeps_endVisit | apply Keeps.ite) | split
theorem keeps_shaperDebit {s0 : State} (p c len ends t : Nat) (s : State) (hk : Keeps s0 s) : Keeps s0 (shaperDebit p c len ends t s) := by
  unfold shaperDebit; repeat' first | with_reducible assumption | with_reducible (first | apply keeps_evalShaper | apply keeps_setShaper | apply Keeps.ite) | simp only [Keeps.other_iff] | split
theorem keeps_execCalendarSlotReached (t p c : Nat) (s : State) {u : State} (h : execCalendarSlotReached t p c s = .next u) : Keeps s u := by
  unfold execCalendarSlotReached at h; injection h with h; subst h
  refine keeps_event (fun t g => ?_) (Keeps.refl _)
  repeat' first | with_reducible assumption | with_reducible (first | apply keeps_event | apply keeps_evalShaper) | simp only [Keeps.other_iff] | split
theorem keeps_gateLoadCmd {s0 s : State} (e : Env) (hk : Keeps s0 s) : Keeps s0 (gateLoadCmd.eff e s).s := by
  unfold gateLoadCmd; repeat' first | with_reducible assumption | with_reducible (first | apply keeps_setGates | apply Keeps.ite) | simp only [Keeps.other_iff] | dsimp only | split
theorem keeps_execGateLoad (w : IWord) (s : State) {u : State} (h : execGateLoad w s = .next u) : Keeps s u := by
  cases h; exact keeps_runCmd (fun e t g => keeps_gateLoadCmd e g) (Keeps.refl _)
theorem keeps_preemptWire {s0 : State} (p : Nat) (s : State) (hk : Keeps s0 s) : Keeps s0 (preemptWire p s) := by
  unfold preemptWire; repeat' first | with_reducible assumption | with_reducible (first | apply keeps_bump | apply keeps_setTx | apply Keeps.ite) | simp only [Keeps.other_iff] | split
theorem keeps_gateVisit {s0 : State} (p : Nat) (s : State) (hk : Keeps s0 s) : Keeps s0 (gateVisit p s) := by
  unfold gateVisit; repeat' first | with_reducible assumption | with_reducible (first | apply keeps_endVisit | apply Keeps.ite) | split
theorem keeps_gateSync {s0 : State} (p : Nat) (s : State) (hk : Keeps s0 s) : Keeps s0 (gateSync p s) := by
  unfold gateSync; repeat' first | with_reducible assumption | with_reducible (first | apply keeps_gateVisit | apply keeps_setGates) | simp only [Keeps.other_iff]
theorem keeps_execGateEntryChange (t p : Nat) (s : State) {u : State} (h : execGateEntryChange t p s = .next u) : Keeps s u := by
  unfold execGateEntryChange at h; injection h with h; subst h
  refine keeps_event (fun t g => ?_) (Keeps.refl _)
  repeat' first | with_reducible assumption | with_reducible (first | apply keeps_event | apply keeps_bump | apply keeps_setGates | apply keeps_preemptWire | apply keeps_gateSync | apply Keeps.ite) | simp only [Keeps.other_iff] | split
theorem keeps_gateSwapCmd {s0 s : State} (e : Env) (hk : Keeps s0 s) : Keeps s0 (gateSwapCmd.eff e s).s := by
  unfold gateSwapCmd; repeat' first | with_reducible assumption | with_reducible apply keeps_setGates | simp only [Keeps.other_iff] | dsimp only
theorem keeps_execGateSwap (w : IWord) (s : State) {u : State} (h : execGateSwap w s = .next u) : Keeps s u := by
  cases h; exact keeps_runCmd (fun e t g => keeps_gateSwapCmd e g) (Keeps.refl _)
theorem keeps_gateSwapCancelCmd {s0 s : State} (e : Env) (hk : Keeps s0 s) : Keeps s0 (gateSwapCancelCmd.eff e s).s := by
  unfold gateSwapCancelCmd; repeat' first | with_reducible assumption | with_reducible (first | apply keeps_setGates | apply Keeps.ite) | simp only [Keeps.other_iff] | dsimp only | split
theorem keeps_execGateSwapCancel (w : IWord) (s : State) {u : State} (h : execGateSwapCancel w s = .next u) : Keeps s u := by
  cases h; exact keeps_runCmd (fun e t g => keeps_gateSwapCancelCmd e g) (Keeps.refl _)
theorem keeps_doSwap {s0 : State} (p t : Nat) (s : State) (hk : Keeps s0 s) : Keeps s0 (doSwap p t s) := by
  unfold doSwap; repeat' first | with_reducible assumption | with_reducible (first | apply keeps_bump | apply keeps_setGates | apply keeps_raise | apply keeps_preemptWire | apply keeps_gateSync | apply Keeps.ite) | simp only [Keeps.other_iff] | split
theorem keeps_execGateSwapChange (t p : Nat) (s : State) {u : State} (h : execGateSwapChange t p s = .next u) : Keeps s u := by
  unfold execGateSwapChange at h; injection h with h; subst h
  refine keeps_event (fun t g => ?_) (Keeps.refl _)
  repeat' first | with_reducible assumption | with_reducible (first | apply keeps_event | apply keeps_doSwap) | simp only [Keeps.other_iff] | split
theorem keeps_gateStep {s0 : State} (p : Nat) (s : State) (hk : Keeps s0 s) : Keeps s0 (gateStep p s) := by
  unfold gateStep; repeat' first | with_reducible assumption | with_reducible (first | apply keeps_setGates | apply keeps_doSwap | apply keeps_preemptWire | apply keeps_gateSync | apply Keeps.ite) | simp only [Keeps.other_iff] | split
theorem keeps_preemptSetCmd {s0 s : State} (e : Env) (hk : Keeps s0 s) : Keeps s0 (preemptSetCmd.eff e s).s := by
  unfold preemptSetCmd; repeat' first | with_reducible assumption | with_reducible (first | apply keeps_preemptWire | apply keeps_gateVisit | apply keeps_setPort) | simp only [Keeps.other_iff] | dsimp only
theorem keeps_execPreemptSet (w : IWord) (s : State) {u : State} (h : execPreemptSet w s = .next u) : Keeps s u := by
  cases h; exact keeps_runCmd (fun e t g => keeps_preemptSetCmd e g) (Keeps.refl _)

/-! Channels -/

theorem keeps_updChan {s0 : State} (c : Nat) (h : Chan) (s : State) (hk : Keeps s0 s) : Keeps s0 (updChan c h s) := by
  unfold updChan; repeat' first | with_reducible assumption | with_reducible (first | apply keeps_setChan | apply keeps_raise | apply Keeps.ite | apply SeqStep.update) | simp only [Keeps.other_iff] | split | with_reducible apply Keeps.withSeq
theorem keeps_foldDelta {s0 : State} (c k : Nat) (s : State) (hk : Keeps s0 s) : Keeps s0 (foldDelta c k s) := by
  unfold foldDelta; repeat' first | with_reducible assumption | with_reducible apply keeps_bump | simp only [Keeps.other_iff]
theorem keeps_foldDeltas {s0 : State} (c : Nat) (s : State) (hk : Keeps s0 s) : Keeps s0 (foldDeltas c s) := by
  unfold foldDeltas; repeat' first | with_reducible assumption | with_reducible (first | apply keeps_foldDelta | apply Keeps.foldl) | intro _ _ _
theorem keeps_postCount {s0 : State} (side c k n : Nat) (s : State) (hk : Keeps s0 s) : Keeps s0 (postCount side c k n s) := by
  unfold postCount; repeat' first | with_reducible assumption | with_reducible (first | apply keeps_draw | apply keeps_bump | apply keeps_raise | apply Keeps.ite) | simp only [Keeps.other_iff] | split
theorem keeps_countCh {s0 : State} (c k n : Nat) (s : State) (hk : Keeps s0 s) : Keeps s0 (countCh c k n s) := by
  unfold countCh; repeat' first | with_reducible assumption | with_reducible (first | apply keeps_foldDelta | apply keeps_postCount | apply Keeps.ite) | simp only [Keeps.other_iff] | split
theorem keeps_dropAbsent {s0 : State} (side : Nat) (s : State) (hk : Keeps s0 s) : Keeps s0 (dropAbsent side s) := by
  unfold dropAbsent; repeat' first | with_reducible assumption | with_reducible (first | apply keeps_raise | apply keeps_bump)
theorem keeps_setPSlot {s0 : State} (c i : Nat) (v : PSlot) (s : State) (hk : Keeps s0 s) : Keeps s0 (setPSlot c i v s) := by
  unfold setPSlot; repeat' first | with_reducible assumption | simp only [Keeps.other_iff]
theorem keeps_delPSlot {s0 : State} (c i : Nat) (s : State) (hk : Keeps s0 s) : Keeps s0 (delPSlot c i s) := by
  unfold delPSlot; repeat' first | with_reducible assumption | simp only [Keeps.other_iff]
theorem keeps_queueRefill {s0 : State} (c i : Nat) (s : State) (hk : Keeps s0 s) : Keeps s0 (queueRefill c i s) := by
  unfold queueRefill; repeat' first | with_reducible assumption | with_reducible (first | apply keeps_setArray | apply Keeps.ite) | simp only [Keeps.other_iff] | split
theorem keeps_dropRefill {s0 : State} (c i : Nat) (s : State) (hk : Keeps s0 s) : Keeps s0 (dropRefill c i s) := by
  unfold dropRefill; repeat' first | with_reducible assumption | with_reducible (first | apply keeps_setArray | apply Keeps.foldl) | simp only [Keeps.other_iff] | intro _ _ _
theorem keeps_bumpArray {s0 : State} (a k n : Nat) (s : State) (hk : Keeps s0 s) : Keeps s0 (bumpArray a k n s) := by
  unfold bumpArray; repeat' first | with_reducible assumption | with_reducible apply keeps_bump
theorem keeps_discardSlot {s0 : State} (c i : Nat) (p : PSlot) (s : State) (hk : Keeps s0 s) : Keeps s0 (discardSlot c i p s) := by
  unfold discardSlot; repeat' first | with_reducible assumption | with_reducible (first | apply keeps_dropRefill | apply keeps_delPSlot | apply keeps_bumpArray | apply Keeps.ite) | split
theorem keeps_placeTarget {s0 : State} (c : Nat) (g : Nat × Nat) (s : State) (hk : Keeps s0 s) : Keeps s0 (placeTarget c g s) := by
  unfold placeTarget; repeat' first | with_reducible assumption | with_reducible (first | apply keeps_queueRefill | apply keeps_setPSlot | apply Keeps.ite) | simp only [Keeps.other_iff] | split
theorem keeps_syncSlots {s0 : State} (c : Nat) (s : State) (hk : Keeps s0 s) : Keeps s0 (syncSlots c s) := by
  unfold syncSlots; repeat' first | with_reducible assumption | with_reducible (first | apply keeps_discardSlot | apply keeps_placeTarget | apply Keeps.ite | apply Keeps.foldl) | simp only [Keeps.other_iff] | intro _ _ _ | split
theorem keeps_setPinned {s0 : State} (c : Nat) (s : State) (hk : Keeps s0 s) : Keeps s0 (setPinned c s) := by
  unfold setPinned; repeat' first | with_reducible assumption | with_reducible (first | apply keeps_closeRec | apply keeps_updChan) | simp only [Keeps.other_iff]
theorem keeps_checkPin {s0 : State} (c : Nat) (s : State) (hk : Keeps s0 s) : Keeps s0 (checkPin c s) := by
  unfold checkPin; repeat' first | with_reducible assumption | with_reducible (first | apply keeps_complete | apply keeps_setPinned | apply Keeps.ite) | simp only [Keeps.other_iff] | split
theorem keeps_putChan {s0 : State} (c : Nat) (h : Chan) (s : State) (hk : Keeps s0 s) : Keeps s0 (putChan c h s) := by
  unfold putChan; repeat' first | with_reducible assumption | with_reducible (first | apply keeps_checkPin | apply keeps_syncSlots | apply keeps_updChan)
theorem keeps_setCold {s0 : State} (c st : Nat) (s : State) (hk : Keeps s0 s) : Keeps s0 (setCold c st s) := by
  unfold setCold; repeat' first | with_reducible assumption | with_reducible (first | apply keeps_raise | apply keeps_syncSlots | apply keeps_updChan | apply keeps_complete | apply Keeps.ite) | simp only [Keeps.other_iff] | split
theorem keeps_takeKeystream {s0 : State} (c an pn cls : Nat) (s : State) (hk : Keeps s0 s) : Keeps s0 (takeKeystream c an pn cls s).2.2 := by
  unfold takeKeystream; repeat' first | with_reducible assumption | with_reducible (first | apply keeps_setPSlot | apply keeps_countCh | apply keeps_raise | apply Keeps.ite) | simp only [Keeps.other_iff] | dsimp only | split
theorem keeps_releaseSlot {s0 : State} (c : Nat) (slot : Option Nat) (s : State) (hk : Keeps s0 s) : Keeps s0 (releaseSlot c slot s) := by
  unfold releaseSlot; repeat' first | with_reducible assumption | with_reducible (first | apply keeps_syncSlots | apply keeps_delPSlot) | simp only [Keeps.other_iff] | split
theorem keeps_modLine {s0 : State} (c : Nat) (g : CacheLine → CacheLine) (s : State) (hk : Keeps s0 s) : Keeps s0 (modLine c g s) := by
  unfold modLine; repeat' first | with_reducible assumption | with_reducible apply Keeps.ite | simp only [Keeps.other_iff] | split
theorem keeps_touchLine {s0 : State} (c : Nat) (s : State) (hk : Keeps s0 s) : Keeps s0 (touchLine c s) := by
  unfold touchLine; repeat' first | with_reducible assumption | with_reducible apply keeps_modLine | simp only [Keeps.other_iff]
theorem keeps_lookLine {s0 : State} (c : Nat) (s : State) (hk : Keeps s0 s) : Keeps s0 (lookLine c s) := by
  unfold lookLine; repeat' first | with_reducible assumption | with_reducible apply keeps_modLine | simp only [Keeps.other_iff]
theorem keeps_refreshSide {s0 : State} (c : Nat) (s : State) (hk : Keeps s0 s) : Keeps s0 (refreshSide c s) := by
  unfold refreshSide; repeat' first | with_reducible assumption | with_reducible apply keeps_modLine | simp only [Keeps.other_iff]

/-! Lines -/

theorem keeps_bumpMg {s0 : State} (k n : Nat) (s : State) (hk : Keeps s0 s) : Keeps s0 (bumpMg k n s) := by
  unfold bumpMg; repeat' first | with_reducible assumption | with_reducible apply keeps_bump
theorem keeps_bumpRegion {s0 : State} (r k : Nat) (s : State) (hk : Keeps s0 s) : Keeps s0 (bumpRegion r k s) := by
  unfold bumpRegion; repeat' first | with_reducible assumption | with_reducible apply keeps_bump
theorem keeps_mgBegin {s0 : State} (s : State) (hk : Keeps s0 s) : Keeps s0 (mgBegin s) := by
  unfold mgBegin; repeat' first | with_reducible assumption | with_reducible (first | apply keeps_raise | apply Keeps.ite) | simp only [Keeps.other_iff] | split
theorem keeps_loadKey {s0 : State} (kid : Nat) (source : Option Nat) (s : State) (hk : Keeps s0 s) : Keeps s0 (loadKey kid source s) := by
  unfold loadKey; repeat' first | with_reducible assumption | with_reducible (first | apply keeps_internalRandom | apply Keeps.ite) | simp only [Keeps.other_iff] | split
theorem keeps_dropKey {s0 : State} (kid : Nat) (s : State) (hk : Keeps s0 s) : Keeps s0 (dropKey kid s) := by
  unfold dropKey; repeat' first | with_reducible assumption | simp only [Keeps.other_iff]
theorem keeps_setBlock {s0 : State} (p : Nat) (b : CBlock) (s : State) (hk : Keeps s0 s) : Keeps s0 (setBlock p b s) := by
  unfold setBlock; repeat' first | with_reducible assumption | simp only [Keeps.other_iff]
theorem keeps_coldPages {s0 : State} (f : Nat → Bool) (s : State) (hk : Keeps s0 s) : Keeps s0 (coldPages f s) := by
  unfold coldPages; repeat' first | with_reducible assumption | with_reducible (first | apply keeps_setCold | apply Keeps.ite | apply Keeps.foldl) | intro _ _ _ | split
theorem keeps_quarantineNode {s0 : State} (level idx : Nat) (s : State) (hk : Keeps s0 s) : Keeps s0 (quarantineNode level idx s) := by
  unfold quarantineNode; repeat' first | with_reducible assumption | with_reducible (first | apply keeps_bumpMg | apply keeps_coldPages | apply keeps_raiseEv | apply Keeps.ite) | simp only [Keeps.other_iff] | split
theorem keeps_modNode {s0 : State} (level idx : Nat) (f : MgNode → MgNode) (s : State) (hk : Keeps s0 s) : Keeps s0 (modNode level idx f s) := by
  unfold modNode; repeat' first | with_reducible assumption | with_reducible apply Keeps.ite | simp only [Keeps.other_iff] | split
theorem keeps_markDirty {s0 : State} (level idx : Nat) (s : State) (hk : Keeps s0 s) : Keeps s0 (markDirty level idx s) := by
  unfold markDirty; repeat' first | with_reducible assumption | with_reducible apply keeps_modNode | simp only [Keeps.other_iff]
theorem keeps_writeBackNode {s0 : State} (level idx : Nat) (s : State) (hk : Keeps s0 s) : Keeps s0 (writeBackNode level idx s) := by
  unfold writeBackNode; repeat' first | with_reducible assumption | with_reducible (first | apply keeps_bumpMg | apply keeps_markDirty) | simp only [Keeps.other_iff]
theorem keeps_nodeRoom {s0 : State} (level idx : Nat) (s : State) (hk : Keeps s0 s) : Keeps s0 (nodeRoom level idx s) := by
  unfold nodeRoom; repeat' first | with_reducible assumption | with_reducible (first | apply keeps_writeBackNode | apply Keeps.ite) | simp only [Keeps.other_iff] | split
theorem keeps_cacheNode {s0 : State} (level idx : Nat) (dirty : Bool) (s : State) (hk : Keeps s0 s) : Keeps s0 (cacheNode level idx dirty s) := by
  unfold cacheNode; repeat' first | with_reducible assumption | with_reducible apply keeps_nodeRoom | simp only [Keeps.other_iff]
theorem keeps_touchNode {s0 : State} (level idx : Nat) (s : State) (hk : Keeps s0 s) : Keeps s0 (touchNode level idx s) := by
  unfold touchNode; repeat' first | with_reducible assumption | simp only [Keeps.other_iff]
theorem keeps_loadNode {s0 : State} (level idx : Nat) (fault : DramFault) (s : State) (hk : Keeps s0 s) : Keeps s0 (loadNode level idx fault s).2 := by
  unfold loadNode; repeat' first | with_reducible assumption | with_reducible (first | apply keeps_cacheNode | apply keeps_quarantineNode | apply keeps_bumpMg | apply Keeps.ite) | dsimp only | split
theorem keeps_loadLevels {s0 : State} (p : Nat) (fault : DramFault) (n : Nat) (s : State) (hk : Keeps s0 s) :
    Keeps s0 (loadLevels p fault n s).2 := by
  induction n generalizing s with
  | zero => exact hk
  | succ n ih =>
    unfold loadLevels
    have g := keeps_loadNode n (p / 8 ^ n) fault _ (keeps_bumpMg 14 1 s hk)
    dsimp only
    split
    · exact ih _ g
    · exact g
theorem keeps_loadPath {s0 : State} (p : Nat) (fault : DramFault) (s : State) (hk : Keeps s0 s) : Keeps s0 (loadPath p fault s).2 := by
  unfold loadPath; repeat' first | with_reducible assumption | with_reducible (first | apply keeps_quarantineNode | apply keeps_bumpMg | apply keeps_touchNode | apply keeps_loadLevels | apply Keeps.ite) | dsimp only | split
theorem keeps_putLine {s0 : State} (p i : Nat) (l : DLine) (s : State) (hk : Keeps s0 s) : Keeps s0 (putLine p i l s) := by
  unfold putLine; repeat' first | with_reducible assumption | simp only [Keeps.other_iff]
theorem keeps_poisonLine {s0 : State} (p i : Nat) (s : State) (hk : Keeps s0 s) : Keeps s0 (poisonLine p i s) := by
  unfold poisonLine; repeat' first | with_reducible assumption | with_reducible apply keeps_putLine | simp only [Keeps.other_iff]
theorem keeps_readStored {s0 : State} (r p i : Nat) (fault : DramFault) (s : State) (hk : Keeps s0 s) : Keeps s0 (readStored r p i fault s).2 := by
  unfold readStored; repeat' first | with_reducible assumption | with_reducible (first | apply keeps_bumpRegion | apply keeps_bumpMg | apply keeps_raise | apply keeps_poisonLine | apply Keeps.ite) | simp only [Keeps.other_iff] | dsimp only | split
theorem keeps_nextMajor {s0 : State} (kid : Nat) (s : State) (hk : Keeps s0 s) : Keeps s0 (nextMajor kid s).2 := by
  unfold nextMajor; repeat' first | with_reducible assumption | simp only [Keeps.other_iff] | dsimp only
theorem keeps_repage {s0 : State} (r p kid : Nat) (written : Option Nat) (faults : List (Nat × DramFault)) (s : State) (hk : Keeps s0 s) : Keeps s0 (repage r p kid written faults s) := by
  unfold repage; repeat' first | with_reducible assumption | with_reducible (first | apply keeps_nextMajor | apply keeps_readStored | apply keeps_putLine | apply keeps_poisonLine | apply keeps_markDirty | apply keeps_setBlock | apply Keeps.ite | apply Keeps.foldl) | intro _ _ _ | split
theorem keeps_beginRotation {s0 : State} (r : Nat) (g : Region) (kid : Nat) (source : Option Nat) (cseq : Option Nat) (s : State) (hk : Keeps s0 s) : Keeps s0 (beginRotation r g kid source cseq s) := by
  unfold beginRotation; repeat' first | with_reducible assumption | with_reducible (first | apply keeps_dropKey | apply keeps_setRegion | apply keeps_loadKey) | simp only [Keeps.other_iff] | split
theorem keeps_spendClock {s0 : State} (r p : Nat) (g : Region) (written : Option Nat) (faults : List (Nat × DramFault)) (s : State) (hk : Keeps s0 s) : Keeps s0 (spendClock r p g written faults s) := by
  unfold spendClock; repeat' first | with_reducible assumption | with_reducible (first | apply keeps_raise | apply keeps_beginRotation | apply keeps_repage | apply Keeps.ite) | simp only [Keeps.other_iff] | split
theorem keeps_readyPage {s0 : State} (r p i : Nat) (g : Region) (faults : List (Nat × DramFault)) (s : State) (hk : Keeps s0 s) : Keeps s0 (readyPage r p i g faults s) := by
  unfold readyPage; repeat' first | with_reducible assumption | with_reducible (first | apply keeps_spendClock | apply keeps_nextMajor | apply keeps_setBlock | apply keeps_bumpMg | apply keeps_repage | apply Keeps.ite) | split
theorem keeps_writeLine {s0 : State} (r p i : Nat) (g : Region) (data : Bytes) (faults : List (Nat × DramFault)) (s : State) (hk : Keeps s0 s) : Keeps s0 (writeLine r p i g data faults s) := by
  unfold writeLine; repeat' first | with_reducible assumption | with_reducible (first | apply keeps_readyPage | apply keeps_bumpMg | apply keeps_markDirty | apply keeps_setBlock | apply keeps_putLine | apply Keeps.ite) | simp only [Keeps.other_iff] | split
theorem keeps_refuseAccess {s0 : State} (a : Nat) (s : State) (hk : Keeps s0 s) : Keeps s0 (refuseAccess a s) := by
  unfold refuseAccess; repeat' first | with_reducible assumption | with_reducible (first | apply keeps_raise | apply keeps_bumpRegion | apply keeps_bumpMg) | simp only [Keeps.other_iff] | split
theorem keeps_readLine {s0 : State} (r p i : Nat) (fault : DramFault) (s : State) (hk : Keeps s0 s) : Keeps s0 (readLine r p i fault s).2 := by
  unfold readLine; repeat' first | with_reducible assumption | with_reducible (first | apply keeps_bumpRegion | apply keeps_bumpMg | apply keeps_readStored | apply Keeps.ite) | dsimp only | split
theorem keeps_partialOld {s0 : State} (r p i : Nat) (fault : DramFault) (s : State) (hk : Keeps s0 s) : Keeps s0 (partialOld r p i fault s).2 := by
  unfold partialOld; repeat' first | with_reducible assumption | with_reducible (first | apply keeps_bumpMg | apply keeps_raise | apply keeps_poisonLine | apply keeps_raiseEv | apply Keeps.ite) | simp only [Keeps.other_iff] | dsimp only | split
theorem keeps_writeAccess {s0 : State} (r p i : Nat) (g : Region) (a : MgAccess) (s : State) (hk : Keeps s0 s) : Keeps s0 (writeAccess r p i g a s).2 := by
  unfold writeAccess; repeat' first | with_reducible assumption | with_reducible (first | apply keeps_bumpRegion | apply keeps_writeLine | apply keeps_partialOld | apply keeps_bumpMg | apply Keeps.ite) | dsimp only | split
theorem keeps_mgAccess {s0 : State} (m : MgMaster) (a : MgAccess) (s : State) (hk : Keeps s0 s) : Keeps s0 (mgAccess m a s).2 := by
  unfold mgAccess; repeat' first | with_reducible assumption | with_reducible (first | apply keeps_refuseAccess | apply keeps_loadPath | apply keeps_writeAccess | apply keeps_readLine | apply Keeps.ite) | simp only [Keeps.other_iff] | dsimp only | split

/-! Assoc -/

theorem keeps_setLines {s0 : State} (l : Tab CacheLine) (s : State) (hk : Keeps s0 s) : Keeps s0 (setLines l s) := by
  unfold setLines; repeat' first | with_reducible assumption | simp only [Keeps.other_iff]
theorem keeps_requestFill {s0 : State} (c : Nat) (s : State) (hk : Keeps s0 s) : Keeps s0 (requestFill c s) := by
  unfold requestFill; repeat' first | with_reducible assumption | with_reducible (first | apply keeps_setLines | apply Keeps.ite) | simp only [Keeps.other_iff] | split
theorem keeps_issueFill {s0 : State} (s : State) (hk : Keeps s0 s) : Keeps s0 (issueFill s) := by
  unfold issueFill; repeat' first | with_reducible assumption | with_reducible (first | apply keeps_setLines | apply Keeps.ite) | simp only [Keeps.other_iff] | split
theorem keeps_issueFills {s0 : State} (s : State) (hk : Keeps s0 s) : Keeps s0 (issueFills s) := by
  unfold issueFills; repeat' first | with_reducible assumption | with_reducible (first | apply keeps_issueFill | apply keeps_requestFill | apply Keeps.foldl) | intro _ _ _
theorem keeps_clearLine {s0 : State} (i : Nat) (s : State) (hk : Keeps s0 s) : Keeps s0 (clearLine i s) := by
  unfold clearLine; repeat' first | with_reducible assumption | with_reducible apply keeps_setLines
theorem keeps_freeLine {s0 : State} (i : Nat) (s : State) (hk : Keeps s0 s) : Keeps s0 (freeLine i s) := by
  unfold freeLine; repeat' first | with_reducible assumption | with_reducible (first | apply keeps_issueFills | apply keeps_clearLine)
theorem keeps_turnClock {s0 : State} (n : Nat) (s : State) (hk : Keeps s0 s) : Keeps s0 (turnClock n s).1 := by
  induction n generalizing s with
  | zero => exact hk
  | succ n ih =>
    have g : Keeps s0 { s with assoc := { s.assoc with hand := (s.assoc.hand + 1) % cacheLines } } :=
      Keeps.other_iff.mpr hk
    unfold turnClock
    dsimp only
    repeat' first | exact ih _ g | exact g | exact ih _ (keeps_setLines _ _ g) | split
theorem keeps_engineAccess {s0 : State} (write : Bool) (a : Nat) (data : Bytes) (s : State) (hk : Keeps s0 s) : Keeps s0 (engineAccess write a data s).2 := by
  unfold engineAccess; repeat' first | with_reducible assumption | with_reducible apply keeps_mgAccess | dsimp only
theorem keeps_entryRead {s0 : State} (c n : Nat) (s : State) (hk : Keeps s0 s) : Keeps s0 (entryRead c n s).2 := by
  induction n generalizing s with
  | zero => exact hk
  | succ n ih =>
    have g := keeps_engineAccess false (entryLine c (7 - n)) [] _ hk
    unfold entryRead
    dsimp only
    split
    · exact ih _ g
    · exact g
theorem keeps_entryWrite {s0 : State} (c mask : Nat) (l : Bytes) (n : Nat) (s : State) (hk : Keeps s0 s) :
    Keeps s0 (entryWrite c mask l n s).2 := by
  induction n generalizing s with
  | zero => exact hk
  | succ n ih =>
    have g := keeps_engineAccess true (entryLine c (7 - n)) ((l.drop (64 * (7 - n))).take 64) _ hk
    unfold entryWrite
    dsimp only
    split
    · split
      · exact ih _ g
      · exact g
    · exact ih _ hk
theorem keeps_fillAnswer {s0 : State} (c : Nat) (res : MemRes) (s : State) (hk : Keeps s0 s) :
    Keeps s0 (fillAnswer c res s).2 := by
  unfold fillAnswer
  cases res <;> dsimp only
  · split
    · exact hk
    · exact keeps_entryRead _ _ _ hk
  all_goals exact hk
theorem keeps_backAnswer {s0 : State} (c mask : Nat) (res : MemRes) (s : State) (hk : Keeps s0 s) :
    Keeps s0 (backAnswer c mask res s).2 := by
  unfold backAnswer
  cases res
  · exact keeps_entryWrite _ _ _ _ _ hk
  all_goals exact hk
theorem keeps_coldIfQuarantined {s0 : State} (c : Nat) (s : State) (hk : Keeps s0 s) : Keeps s0 (coldIfQuarantined c s) := by
  unfold coldIfQuarantined; repeat' first | with_reducible assumption | with_reducible (first | apply keeps_setCold | apply Keeps.ite) | split
theorem keeps_leaveLine {s0 : State} (i : Nat) (s : State) (hk : Keeps s0 s) : Keeps s0 (leaveLine i s) := by
  unfold leaveLine; repeat' first | with_reducible assumption | with_reducible (first | apply keeps_foldDeltas | apply keeps_putChan | apply keeps_clearLine | apply keeps_coldIfQuarantined | apply keeps_setChan | apply keeps_setLines | apply Keeps.ite) | simp only [Keeps.other_iff] | split
theorem keeps_evictLine {s0 : State} (i : Nat) (s : State) (hk : Keeps s0 s) : Keeps s0 (evictLine i s) := by
  unfold evictLine; repeat' first | with_reducible assumption | with_reducible (first | apply keeps_leaveLine | apply keeps_issueFills | apply Keeps.ite) | split
theorem keeps_backEnds {s0 : State} (i c : Nat) (res : MemRes) (s : State) (hk : Keeps s0 s) : Keeps s0 (backEnds i c res s) := by
  unfold backEnds; repeat' first | with_reducible assumption | with_reducible (first | apply keeps_backAnswer | apply keeps_clearLine | apply keeps_coldIfQuarantined | apply keeps_setCold | apply Keeps.ite) | split
theorem keeps_backDone {s0 : State} (i c : Nat) (res : MemRes) (s : State) (hk : Keeps s0 s) : Keeps s0 (backDone i c res s) := by
  unfold backDone; repeat' first | with_reducible assumption | with_reducible (first | apply keeps_issueFills | apply keeps_backEnds)
theorem keeps_makeResident {s0 : State} (c i : Nat) (s : State) (hk : Keeps s0 s) : Keeps s0 (makeResident c i s) := by
  unfold makeResident; repeat' first | with_reducible assumption | with_reducible (first | apply keeps_refreshSide | apply keeps_putChan | apply keeps_setLines) | simp only [Keeps.other_iff]
theorem keeps_lineFor {s0 : State} (c : Nat) (s : State) (hk : Keeps s0 s) : Keeps s0 (lineFor c s).2 := by
  unfold lineFor; repeat' first | with_reducible assumption | with_reducible (first | apply keeps_turnClock | apply keeps_leaveLine) | simp only [Keeps.other_iff] | dsimp only | split
theorem keeps_awaitBack {s0 : State} (i : Nat) (back : MemRes) (s : State) (hk : Keeps s0 s) : Keeps s0 (awaitBack i back s) := by
  unfold awaitBack; repeat' first | with_reducible assumption | with_reducible (first | apply keeps_backEnds | apply Keeps.ite) | simp only [Keeps.other_iff] | split
theorem keeps_fillNow {s0 : State} (c : Nat) (fill back : MemRes) (s : State) (hk : Keeps s0 s) : Keeps s0 (fillNow c fill back s).2 := by
  unfold fillNow; repeat' first | with_reducible assumption | with_reducible (first | apply keeps_fillAnswer | apply keeps_setCold | apply keeps_lineFor | apply keeps_awaitBack | apply keeps_makeResident | apply Keeps.ite) | simp only [Keeps.other_iff] | dsimp only | split
theorem keeps_onResident {s0 : State} (c : Nat) (e : Env) (f : State → Res) (s : State) (hk : Keeps s0 s)
    (hf : ∀ t, Keeps s0 t → Keeps s0 (f t).s) : Keeps s0 (onResident c e f s).s := by
  have g := keeps_fillNow c e.fill e.back s hk
  unfold onResident
  dsimp only
  split
  · exact hf _ g
  · exact g
theorem keeps_zeroStats {s0 : State} (c : Nat) (s : State) (hk : Keeps s0 s) : Keeps s0 (zeroStats c s) := by
  unfold zeroStats; repeat' first | with_reducible assumption | with_reducible (first | apply keeps_closeRec | apply keeps_setCnt | apply Keeps.foldl) | simp only [Keeps.other_iff] | intro _ _ _
theorem keeps_dropLine {s0 : State} (c : Nat) (s : State) (hk : Keeps s0 s) : Keeps s0 (dropLine c s) := by
  unfold dropLine; repeat' first | with_reducible assumption | with_reducible (first | apply keeps_evictLine | apply keeps_setChan) | simp only [Keeps.other_iff] | split
theorem keeps_removeChan {s0 : State} (c : Nat) (s : State) (hk : Keeps s0 s) : Keeps s0 (removeChan c s) := by
  unfold removeChan; repeat' first | with_reducible assumption | with_reducible (first | apply keeps_putChan | apply keeps_dropLine | apply keeps_setLines | apply keeps_issueFills | apply keeps_dropAbsent | apply Keeps.foldl) | simp only [Keeps.other_iff] | intro _ _ _
theorem keeps_writeFresh {s0 : State} (c : Nat) (s : State) (hk : Keeps s0 s) : Keeps s0 (writeFresh c s) := by
  unfold writeFresh
  split
  · exact Keeps.foldl (keeps_entryWrite _ _ _ _ _ hk) fun t x g => keeps_engineAccess _ _ _ _ g
  · exact hk
theorem keeps_freshChan {s0 : State} (c v : Nat) (s : State) (hk : Keeps s0 s) : Keeps s0 (freshChan c v s) := by
  unfold freshChan; repeat' first | with_reducible assumption | with_reducible (first | apply keeps_dropLine | apply keeps_zeroStats | apply keeps_putChan | apply keeps_writeFresh | apply keeps_setChan | apply Keeps.foldl) | simp only [Keeps.other_iff] | intro _ _ _
theorem keeps_setHeader {s0 : State} (c v : Nat) (s : State) (hk : Keeps s0 s) : Keeps s0 (setHeader c v s) := by
  unfold setHeader; repeat' first | with_reducible assumption | with_reducible (first | apply keeps_putChan | apply Keeps.ite) | simp only [Keeps.other_iff] | split
theorem keeps_chSetEff {s0 : State} (c v : Nat) (e : Env) (s : State) (hk : Keeps s0 s) : Keeps s0 (chSetEff c v e s).s := by
  unfold chSetEff; repeat' first | with_reducible assumption | with_reducible (first | apply keeps_removeChan | apply keeps_freshChan | apply keeps_onResident | apply keeps_setHeader | apply Keeps.ite) | dsimp only | intro _ _ | split
theorem keeps_movePeers {s0 : State} (c : Nat) (s : State) {u : State} (hk : Keeps s0 s) (hu : movePeers c s = some u) :
    Keeps s0 u := by
  unfold movePeers at hu
  generalize spillPeers s c = l at hu
  induction l generalizing s with
  | nil => cases hu; exact hk
  | cons x l ih =>
    rw [List.foldl_cons] at hu
    cases hp : placePeer (freePeer (x.1 / 16) (x.1 % 16) s) (x.1 / 16) x.2 true with
    | some t =>
      simp only [hp] at hu
      exact ih _ (keeps_placePeer _ _ _ _ (keeps_freePeer _ _ _ hk) hp) hu
    | none =>
      simp only [hp] at hu
      exfalso
      clear ih hp
      induction l with
      | nil => cases hu
      | cons y l ih => exact ih hu
theorem keeps_chPinEff {s0 : State} (c cseq : Nat) (s : State) (hk : Keeps s0 s) : Keeps s0 (chPinEff c cseq s).s := by
  unfold chPinEff
  split
  · exact hk
  · rename_i u hu
    have g := keeps_requestFill c _ (keeps_movePeers _ _ (keeps_noteTables _ hk) hu)
    have g2 := keeps_syncSlots c _ (keeps_setChan _ c { getChan (requestFill c u) c with pinning := some cseq } g)
    dsimp only
    split
    · exact keeps_setPinned _ _ g2
    · exact g2
theorem keeps_discardAll {s0 : State} (c : Nat) (s : State) (hk : Keeps s0 s) : Keeps s0 (discardAll c s) := by
  unfold discardAll; repeat' first | with_reducible assumption | with_reducible (first | apply keeps_syncSlots | apply keeps_discardSlot | apply Keeps.ite | apply Keeps.foldl) | simp only [Keeps.other_iff] | intro _ _ _ | split
theorem keeps_reconcileOne {s0 : State} (c : Nat) (s : State) (hk : Keeps s0 s) : Keeps s0 (reconcileOne c s) := by
  unfold reconcileOne; repeat' first | with_reducible assumption | with_reducible (first | apply keeps_advance | apply keeps_raise | apply keeps_storeMem | apply Keeps.ite) | split

end Sys2Proof.Machine
end

