-- ==== Sys2Proof/Laws/KeepsFrames.lean ====
section
/-! SUPPORT. What the flow group, the path of a frame, the counters and the time functions do keeps `Keeps`. -/

namespace Sys2Proof.Machine

/-! Flow -/

theorem keeps_jumpTo {s0 : State} (k target : Nat) (s : State) (hk : Keeps s0 s) : Keeps s0 (jumpTo k target s) := by
  unfold jumpTo; repeat' first | with_reducible assumption | with_reducible apply keeps_setCtx | simp only [Keeps.other_iff]
theorem keeps_execNop (w : IWord) (s : State) {u : State} (h : execNop w s = .next u) : Keeps s u := by
  cases h; refine keeps_runLoc (fun e t hk => ?_) (Keeps.refl _)
  dsimp only; repeat' first | with_reducible assumption | with_reducible (first | apply keeps_runLoc | apply keeps_finish)
theorem keeps_execHalt (w : IWord) (s : State) {u : State} (h : execHalt w s = .next u) : Keeps s u := by
  cases h; refine keeps_runLoc (fun e t hk => ?_) (Keeps.refl _)
  dsimp only; repeat' first | with_reducible assumption | with_reducible (first | apply keeps_runLoc | apply keeps_endContext | apply keeps_setCtx) | simp only [Keeps.other_iff]
theorem keeps_execJmp (w : IWord) (s : State) {u : State} (h : execJmp w s = .next u) : Keeps s u := by
  cases h; refine keeps_runLoc (fun e t hk => ?_) (Keeps.refl _)
  dsimp only; repeat' first | with_reducible assumption | with_reducible (first | apply keeps_runLoc | apply keeps_jumpTo)
theorem keeps_execBrCc (w : IWord) (s : State) {u : State} (h : execBrCc w s = .next u) : Keeps s u := by
  cases h; refine keeps_runLoc (fun e t hk => ?_) (Keeps.refl _)
  dsimp only; repeat' first | with_reducible assumption | with_reducible (first | apply keeps_runLoc | apply keeps_jumpTo | apply keeps_finish | apply Keeps.ite) | split
theorem keeps_execCall (w : IWord) (s : State) {u : State} (h : execCall w s = .next u) : Keeps s u := by
  cases h; refine keeps_runLoc (fun e t hk => ?_) (Keeps.refl _)
  dsimp only; repeat' first | with_reducible assumption | with_reducible (first | apply keeps_runLoc | apply keeps_jumpTo | apply keeps_setCtx)
theorem keeps_execRet (w : IWord) (s : State) {u : State} (h : execRet w s = .next u) : Keeps s u := by
  cases h; refine keeps_runLoc (fun e t hk => ?_) (Keeps.refl _)
  dsimp only; repeat' first | with_reducible assumption | with_reducible (first | apply keeps_runLoc | apply keeps_jumpTo)
theorem keeps_execWaitEv (w : IWord) (s : State) {u : State} (h : execWaitEv w s = .next u) : Keeps s u := by
  cases h; refine keeps_runLoc (fun e t hk => ?_) (Keeps.refl _)
  dsimp only; repeat' first | with_reducible assumption | with_reducible (first | apply keeps_runLoc | apply keeps_commit | apply keeps_wait | apply keeps_endWaitOn | apply Keeps.ite) | simp only [Keeps.other_iff] | split
theorem keeps_execWaitT (w : IWord) (s : State) {u : State} (h : execWaitT w s = .next u) : Keeps s u := by
  cases h; refine keeps_runLoc (fun e t hk => ?_) (Keeps.refl _)
  dsimp only; repeat' first | with_reducible assumption | with_reducible (first | apply keeps_runLoc | apply keeps_commit | apply keeps_wait | apply keeps_finish | apply Keeps.ite) | split
theorem keeps_execFence (w : IWord) (s : State) {u : State} (h : execFence w s = .next u) : Keeps s u := by
  cases h; refine keeps_runLoc (fun e t hk => ?_) (Keeps.refl _)
  dsimp only; repeat' first | with_reducible assumption | with_reducible (first | apply keeps_runLoc | apply keeps_commit | apply keeps_finish | apply keeps_wait | apply Keeps.ite) | split
theorem keeps_execYield (w : IWord) (s : State) {u : State} (h : execYield w s = .next u) : Keeps s u := by
  cases h; refine keeps_runLoc (fun e t hk => ?_) (Keeps.refl _)
  dsimp only; repeat' first | with_reducible assumption | with_reducible (first | apply keeps_runLoc | apply keeps_commit | apply keeps_finish)

/-! Rekey -/

theorem keeps_retireDraining {s0 : State} (c an : Nat) (s : State) (hk : Keeps s0 s) : Keeps s0 (retireDraining c an s) := by
  unfold retireDraining; repeat' first | with_reducible assumption | with_reducible (first | apply keeps_raise | apply keeps_putChan)
theorem keeps_activateRx {s0 : State} (c an : Nat) (s : State) (hk : Keeps s0 s) : Keeps s0 (activateRx c an s) := by
  unfold activateRx; repeat' first | with_reducible assumption | with_reducible (first | apply keeps_closeRec | apply keeps_countCh | apply keeps_putChan | apply keeps_raise | apply Keeps.ite) | simp only [Keeps.other_iff] | split
theorem keeps_saLoadEff {s0 : State} (c an v : Nat) (s : State) (hk : Keeps s0 s) : Keeps s0 (saLoadEff c an v s) := by
  unfold saLoadEff; repeat' first | with_reducible assumption | with_reducible (first | apply keeps_refreshSide | apply keeps_putChan)
theorem keeps_saArmEff {s0 : State} (c an v : Nat) (s : State) (hk : Keeps s0 s) : Keeps s0 (saArmEff c an v s) := by
  unfold saArmEff; repeat' first | with_reducible assumption | with_reducible apply keeps_putChan | simp only [Keeps.other_iff]
theorem keeps_saRollEff {s0 : State} (c an : Nat) (s : State) (hk : Keeps s0 s) : Keeps s0 (saRollEff c an s) := by
  unfold saRollEff; repeat' first | with_reducible assumption | with_reducible (first | apply keeps_activateRx | apply keeps_draw | apply keeps_putChan | apply Keeps.ite) | simp only [Keeps.other_iff] | split
theorem keeps_saRetireEff {s0 : State} (c an d : Nat) (wipe : Bool) (s : State) (hk : Keeps s0 s) : Keeps s0 (saRetireEff c an d wipe s) := by
  unfold saRetireEff; repeat' first | with_reducible assumption | with_reducible (first | apply keeps_putChan | apply keeps_raise | apply Keeps.ite) | simp only [Keeps.other_iff] | split

/-! Cipher -/

theorem keeps_fillSlot {s0 : State} (c i : Nat) (s : State) (hk : Keeps s0 s) : Keeps s0 (fillSlot c i s) := by
  unfold fillSlot; repeat' first | with_reducible assumption | with_reducible apply keeps_setPSlot | simp only [Keeps.other_iff] | split
theorem keeps_checkSpares {s0 : State} (k : Nat) (s : State) (hk : Keeps s0 s) : Keeps s0 (checkSpares k s) := by
  unfold checkSpares; repeat' first | with_reducible assumption | with_reducible (first | apply keeps_raise | apply Keeps.ite) | split
theorem keeps_execRotationStep (t k : Nat) (s : State) {u : State} (h : execRotationStep t k s = .next u) : Keeps s u := by
  unfold execRotationStep at h; injection h with h; subst h
  refine keeps_event (fun t g => ?_) (Keeps.refl _)
  repeat' first | with_reducible assumption | with_reducible (first | apply keeps_event | apply keeps_bumpArray | apply keeps_setArray)
theorem keeps_execSliceTestComplete (t k : Nat) (pass : Bool) (s : State) {u : State} (h : execSliceTestComplete t k pass s = .next u) : Keeps s u := by
  unfold execSliceTestComplete at h; injection h with h; subst h
  refine keeps_event (fun t g => ?_) (Keeps.refl _)
  repeat' first | with_reducible assumption | with_reducible (first | apply keeps_event | apply keeps_bumpArray | apply keeps_setArray | apply keeps_checkSpares | apply keeps_raise | apply Keeps.ite) | simp only [Keeps.other_iff] | split

/-! Cask -/

theorem keeps_setClassCharge {s0 : State} (p c n : Nat) (s : State) (hk : Keeps s0 s) : Keeps s0 (setClassCharge p c n s) := by
  unfold setClassCharge; repeat' first | with_reducible assumption | simp only [Keeps.other_iff]
theorem keeps_setFree {s0 : State} (n : Nat) (s : State) (hk : Keeps s0 s) : Keeps s0 (setFree n s) := by
  unfold setFree; repeat' first | with_reducible assumption | with_reducible apply keeps_bumpMax | simp only [Keeps.other_iff]
theorem keeps_sendPause {s0 : State} (p vector quanta : Nat) (s : State) (hk : Keeps s0 s) : Keeps s0 (sendPause p vector quanta s) := by
  unfold sendPause; repeat' first | with_reducible assumption | with_reducible (first | apply keeps_setPort | apply Keeps.ite) | simp only [Keeps.other_iff] | split
theorem keeps_pauseLeft {s0 : State} (p : Nat) (x : PauseTx) (s : State) (hk : Keeps s0 s) : Keeps s0 (pauseLeft p x s) := by
  unfold pauseLeft; repeat' first | with_reducible assumption | with_reducible (first | apply keeps_bump | apply keeps_emit | apply Keeps.ite | apply Keeps.foldl) | intro _ _ _ | split
theorem keeps_pausesOut {s0 : State} (n p b : Nat) (s : State) (hk : Keeps s0 s) : Keeps s0 (pausesOut n p b s) := by
  induction n generalizing b s with
  | zero => exact hk
  | succ n ih =>
    unfold pausesOut
    repeat' first | with_reducible assumption | with_reducible (first | apply ih | apply keeps_pauseLeft | apply keeps_setPort) | split | dsimp only
theorem keeps_endRequest {s0 : State} (p c vector : Nat) (s : State) (hk : Keeps s0 s) : Keeps s0 (endRequest p c vector s) := by
  unfold endRequest; repeat' first | with_reducible assumption | with_reducible (first | apply keeps_setCnt | apply keeps_setPort | apply keeps_sendPause) | simp only [Keeps.other_iff] | split
theorem keeps_xoffCheck {s0 : State} (p c : Nat) (s : State) (hk : Keeps s0 s) : Keeps s0 (xoffCheck p c s) := by
  unfold xoffCheck; repeat' first | with_reducible assumption | with_reducible (first | apply keeps_setPort | apply keeps_sendPause | apply keeps_bump | apply Keeps.ite) | simp only [Keeps.other_iff] | split
theorem keeps_xonCheck {s0 : State} (p c : Nat) (s : State) (hk : Keeps s0 s) : Keeps s0 (xonCheck p c s) := by
  unfold xonCheck; repeat' first | with_reducible assumption | with_reducible (first | apply keeps_setPort | apply keeps_endRequest | apply Keeps.ite) | simp only [Keeps.other_iff] | split
theorem keeps_setCharge {s0 : State} (a : Account) (n : Nat) (s : State) (hk : Keeps s0 s) : Keeps s0 (setCharge a n s) := by
  unfold setCharge; repeat' first | with_reducible assumption | with_reducible apply keeps_setClassCharge | simp only [Keeps.other_iff] | split
theorem keeps_charge {s0 : State} (a : Account) (n : Nat) (s : State) (hk : Keeps s0 s) : Keeps s0 (charge a n s) := by
  unfold charge; repeat' first | with_reducible assumption | with_reducible (first | apply keeps_setCharge | apply keeps_setFree | apply keeps_xoffCheck | apply keeps_bumpMax | apply Keeps.ite) | simp only [Keeps.other_iff] | split
theorem keeps_release {s0 : State} (a : Account) (n : Nat) (s : State) (hk : Keeps s0 s) : Keeps s0 (release a n s) := by
  unfold release; repeat' first | with_reducible assumption | with_reducible (first | apply keeps_setCharge | apply keeps_setFree | apply keeps_xonCheck | apply Keeps.ite) | simp only [Keeps.other_iff] | split
theorem keeps_admissionDrop {s0 : State} (a : Account) (s : State) (hk : Keeps s0 s) : Keeps s0 (admissionDrop a s) := by
  unfold admissionDrop; repeat' first | with_reducible assumption | with_reducible (first | apply keeps_raiseEv | apply keeps_bump | apply keeps_raise) | simp only [Keeps.other_iff] | split
theorem keeps_takeCells {s0 : State} (a : Account) (n : Nat) (s : State) (hk : Keeps s0 s) : Keeps s0 (takeCells a n s).2 := by
  unfold takeCells; repeat' first | with_reducible assumption | simp only [Keeps.other_iff] | dsimp only
theorem keeps_freeChain {s0 : State} (l : List Nat) (s : State) (hk : Keeps s0 s) : Keeps s0 (freeChain l s) := by
  unfold freeChain; repeat' first | with_reducible assumption | simp only [Keeps.other_iff]
theorem keeps_freeFrame {s0 : State} (a : Account) (n : Nat) (chain : List Nat) (s : State) (hk : Keeps s0 s) : Keeps s0 (freeFrame a n chain s) := by
  unfold freeFrame; repeat' first | with_reducible assumption | with_reducible (first | apply keeps_release | apply keeps_freeChain)
theorem keeps_settleCharges {s0 : State} (s : State) (hk : Keeps s0 s) : Keeps s0 (settleCharges s) := by
  unfold settleCharges; repeat' first | with_reducible assumption | with_reducible (first | apply keeps_freeFrame | apply keeps_release | apply Keeps.foldl) | simp only [Keeps.other_iff] | intro _ _ _
theorem keeps_enterCask {s0 : State} (a : Account) (prov cells ends : Nat) (s : State) (hk : Keeps s0 s) : Keeps s0 (enterCask a prov cells ends s).2 := by
  unfold enterCask; repeat' first | with_reducible assumption | with_reducible (first | apply keeps_takeCells | apply keeps_charge | apply keeps_settleCharges | apply keeps_admissionDrop | apply Keeps.ite) | simp only [Keeps.other_iff] | dsimp only | split
theorem keeps_doom {s0 : State} (ends : Nat) (a : Account) (cells : Nat) (chain : List Nat) (s : State) (hk : Keeps s0 s) : Keeps s0 (doom ends a cells chain s) := by
  unfold doom; repeat' first | with_reducible assumption | with_reducible apply keeps_settleCharges | simp only [Keeps.other_iff]
theorem keeps_putQueue {s0 : State} (p c : Nat) (l : List QFrame) (s : State) (hk : Keeps s0 s) : Keeps s0 (putQueue p c l s) := by
  unfold putQueue; repeat' first | with_reducible assumption | with_reducible (first | apply keeps_setQ | apply keeps_endVisit | apply keeps_setPause | apply keeps_setPort | apply Keeps.ite) | simp only [Keeps.other_iff] | split
theorem keeps_enqueue {s0 : State} (f : QFrame) (s : State) (hk : Keeps s0 s) : Keeps s0 (enqueue f s) := by
  unfold enqueue; repeat' first | with_reducible assumption | with_reducible apply keeps_setQ
theorem keeps_storeQueued {s0 : State} (f : QFrame) (s : State) (hk : Keeps s0 s) : Keeps s0 (storeQueued f s) := by
  unfold storeQueued; repeat' first | with_reducible assumption | with_reducible (first | apply keeps_enqueue | apply Keeps.ite) | simp only [Keeps.other_iff] | split
theorem keeps_settleArriving {s0 : State} (s : State) (hk : Keeps s0 s) : Keeps s0 (settleArriving s) := by
  unfold settleArriving; repeat' first | with_reducible assumption | with_reducible (first | apply keeps_enqueue | apply Keeps.foldl) | simp only [Keeps.other_iff] | intro _ _ _
theorem keeps_pushStamp {s0 : State} (q v : Nat) (s : State) (hk : Keeps s0 s) : Keeps s0 (pushStamp q v s) := by
  unfold pushStamp; repeat' first | with_reducible assumption | with_reducible (first | apply keeps_bump | apply keeps_raise | apply Keeps.ite) | simp only [Keeps.other_iff] | split
theorem keeps_endProbe {s0 : State} (id status : Nat) (s : State) (hk : Keeps s0 s) : Keeps s0 (endProbe id status s) := by
  unfold endProbe; repeat' first | with_reducible assumption | with_reducible apply keeps_pushStamp | simp only [Keeps.other_iff] | split
theorem keeps_dropQueued {s0 : State} (f : QFrame) (s : State) (hk : Keeps s0 s) : Keeps s0 (dropQueued f s) := by
  unfold dropQueued; repeat' first | with_reducible assumption | with_reducible (first | apply keeps_freeFrame | apply keeps_endProbe) | simp only [Keeps.other_iff] | split
theorem keeps_ageDrop {s0 : State} (p c : Nat) (f : QFrame) (s : State) (hk : Keeps s0 s) : Keeps s0 (ageDrop p c f s) := by
  unfold ageDrop; repeat' first | with_reducible assumption | with_reducible (first | apply keeps_raiseEv | apply keeps_bump | apply keeps_dropQueued)
theorem keeps_ageQueue {s0 : State} (p c : Nat) (s : State) (hk : Keeps s0 s) : Keeps s0 (ageQueue p c s) := by
  unfold ageQueue; repeat' first | with_reducible assumption | with_reducible (first | apply keeps_ageDrop | apply keeps_putQueue | apply Keeps.ite | apply Keeps.foldl) | intro _ _ _ | split
theorem keeps_countHurt {s0 : State} (s : State) (hk : Keeps s0 s) : Keeps s0 (countHurt s) := by
  unfold countHurt; repeat' first | with_reducible assumption | simp only [Keeps.other_iff]
theorem keeps_spoilCopy {s0 : State} (copy w : Nat) (s : State) (hk : Keeps s0 s) : Keeps s0 (spoilCopy copy w s) := by
  unfold spoilCopy; repeat' first | with_reducible assumption | with_reducible (first | apply Keeps.ite | apply SeqStep.update) | simp only [Keeps.other_iff] | split | with_reducible apply Keeps.withSeq
theorem keeps_loseStaged {s0 : State} (i : Nat) (s : State) (hk : Keeps s0 s) : Keeps s0 (loseStaged i s) := by
  unfold loseStaged
  split
  · exact keeps_bump _ _ _ _ _ _ (hk.withBook (legalBook_of (List.length_eraseIdx_le _ _) (Nat.le_refl _) rfl))
  · exact hk
theorem keeps_hurtHolder {s0 : State} (h : Holder) (s : State) (hk : Keeps s0 s) : Keeps s0 (hurtHolder h s) := by
  unfold hurtHolder; repeat' first | with_reducible assumption | with_reducible (first | apply keeps_countHurt | apply keeps_dropQueued | apply keeps_putQueue | apply keeps_setTx | apply keeps_freeFrame | apply keeps_setRx | apply keeps_spoilCopy | apply keeps_loseStaged) | simp only [Keeps.other_iff] | split
theorem keeps_retireCell {s0 : State} (x : Nat) (s : State) (hk : Keeps s0 s) : Keeps s0 (retireCell x s) := by
  unfold retireCell; repeat' first | with_reducible assumption | with_reducible (first | apply keeps_setFree | apply keeps_raise | apply keeps_bump | apply Keeps.ite) | simp only [Keeps.other_iff] | split
theorem keeps_beginRetest {s0 : State} (x : Nat) (s : State) (hk : Keeps s0 s) : Keeps s0 (beginRetest x s) := by
  unfold beginRetest; repeat' first | with_reducible assumption | with_reducible apply Keeps.ite | simp only [Keeps.other_iff] | split
theorem keeps_badCodeword {s0 : State} (x cw : Nat) (s : State) (hk : Keeps s0 s) : Keeps s0 (badCodeword x cw s) := by
  unfold badCodeword; repeat' first | with_reducible assumption | with_reducible (first | apply keeps_beginRetest | apply keeps_hurtHolder | apply keeps_raise | apply keeps_bump)
theorem keeps_readCells {s0 : State} (chain : List Nat) (r : CellRead) (s : State) (hk : Keeps s0 s) : Keeps s0 (readCells chain r s).2 := by
  unfold readCells; repeat' first | with_reducible assumption | with_reducible (first | apply keeps_beginRetest | apply keeps_raise | apply keeps_bump | apply Keeps.ite | apply Keeps.foldl) | dsimp only | intro _ _ _ | split
theorem keeps_endPass {s0 : State} (s : State) (hk : Keeps s0 s) : Keeps s0 (endPass s) := by
  unfold endPass; repeat' first | with_reducible assumption | with_reducible (first | apply keeps_closeRec | apply keeps_bump)
theorem keeps_scrubbed {s0 : State} (n : Nat) (s : State) (hk : Keeps s0 s) : Keeps s0 (scrubbed n s) := by
  unfold scrubbed; repeat' first | with_reducible assumption | with_reducible (first | apply keeps_endPass | apply Keeps.ite) | simp only [Keeps.other_iff] | split
theorem keeps_retestPassed {s0 : State} (x cw : Nat) (s : State) (hk : Keeps s0 s) : Keeps s0 (retestPassed x cw s) := by
  unfold retestPassed; repeat' first | with_reducible assumption | with_reducible (first | apply keeps_freeChain | apply Keeps.ite) | simp only [Keeps.other_iff] | split
theorem keeps_scrubCell {s0 : State} (x cw : Nat) (res : ScrubRes) (s : State) (hk : Keeps s0 s) : Keeps s0 (scrubCell x cw res s) := by
  unfold scrubCell; repeat' first | with_reducible assumption | with_reducible (first | apply keeps_retireCell | apply keeps_badCodeword | apply keeps_bump | apply keeps_retestPassed | apply Keeps.ite) | split

/-! Stamps -/

theorem keeps_recognise {s0 : State} (p : Nat) (l : Bytes) (s : State) (hk : Keeps s0 s) : Keeps s0 (recognise p l s).2 := by
  unfold recognise; repeat' first | with_reducible assumption | with_reducible (first | apply keeps_bump | apply Keeps.ite) | dsimp only | split
theorem keeps_countInserted {s0 : State} (p : Nat) (l : List Inserted) (s : State) (hk : Keeps s0 s) : Keeps s0 (countInserted p l s) := by
  unfold countInserted; repeat' first | with_reducible assumption | with_reducible (first | apply keeps_bump | apply Keeps.foldl) | simp only [Keeps.other_iff] | intro _ _ _ | split
theorem keeps_pushEgress {s0 : State} (p : Nat) (f : QFrame) (stamp : Nat) (txq : Bool) (s : State) (hk : Keeps s0 s) : Keeps s0 (pushEgress p f stamp txq s) := by
  unfold pushEgress; repeat' first | with_reducible assumption | with_reducible (first | apply keeps_pushStamp | apply Keeps.ite) | simp only [Keeps.other_iff] | split
theorem keeps_pushIngress {s0 : State} (p : Nat) (l : Bytes) (rxq : Bool) (stamp : Nat) (s : State) (hk : Keeps s0 s) : Keeps s0 (pushIngress p l rxq stamp s) := by
  unfold pushIngress; repeat' first | with_reducible assumption | with_reducible (first | apply keeps_pushStamp | apply Keeps.ite) | split
theorem keeps_sendOwn {s0 : State} (c cls : Nat) (meter : Option Nat) (l : Bytes) (origin : Origin) (s : State) (hk : Keeps s0 s) : Keeps s0 (sendOwn c cls meter l origin s).2 := by
  unfold sendOwn; repeat' first | with_reducible assumption | with_reducible (first | apply keeps_meterFrame | apply keeps_takeCells | apply keeps_charge | apply keeps_enqueue) | simp only [Keeps.other_iff] | dsimp only | split
theorem keeps_answerProbe {s0 : State} (e : Responder) (l : Bytes) (stamp : Nat) (s : State) (hk : Keeps s0 s) : Keeps s0 (answerProbe e l stamp s) := by
  unfold answerProbe; repeat' first | with_reducible assumption | with_reducible (first | apply keeps_dropAbsent | apply keeps_bump | apply keeps_sendOwn | apply Keeps.ite) | split
theorem keeps_takeResponse {s0 : State} (c : Nat) (l : Bytes) (stamp : Nat) (s : State) (hk : Keeps s0 s) : Keeps s0 (takeResponse c l stamp s) := by
  unfold takeResponse; repeat' first | with_reducible assumption | with_reducible (first | apply keeps_bump | apply keeps_pushStamp | apply Keeps.ite) | simp only [Keeps.other_iff] | split

/-! Wire -/

theorem keeps_countSent {s0 : State} (f : TxFrame) (s : State) (hk : Keeps s0 s) : Keeps s0 (countSent f s) := by
  unfold countSent; repeat' first | with_reducible assumption | with_reducible (first | apply keeps_countCh | apply Keeps.ite) | simp only [Keeps.other_iff] | split
theorem keeps_countWire {s0 : State} (p : Nat) (f : TxFrame) (m : Commit) (s : State) (hk : Keeps s0 s) : Keeps s0 (countWire p f m s) := by
  unfold countWire; repeat' first | with_reducible assumption | with_reducible (first | apply keeps_countInserted | apply keeps_bump | apply keeps_countSent | apply keeps_pushEgress | apply keeps_pushIngress | apply Keeps.ite) | split
theorem keeps_endWire {s0 : State} (p : Nat) (f : TxFrame) (m : Commit) (s : State) (hk : Keeps s0 s) : Keeps s0 (endWire p f m s) := by
  unfold endWire; repeat' first | with_reducible assumption | with_reducible (first | apply keeps_emit | apply keeps_freeFrame | apply keeps_countWire | apply keeps_releaseSlot | apply keeps_setPause | apply Keeps.ite) | simp only [Keeps.other_iff] | split
theorem keeps_resume {s0 : State} (p from_ : Nat) (s : State) (hk : Keeps s0 s) : Keeps s0 (resume p from_ s) := by
  unfold resume; repeat' first | with_reducible assumption | with_reducible apply keeps_setTx | simp only [Keeps.other_iff] | split
theorem keeps_toMac {s0 : State} (p : Nat) (f : TxFrame) (s : State) (hk : Keeps s0 s) : Keeps s0 (toMac p f s) := by
  unfold toMac; repeat' first | with_reducible assumption | with_reducible apply keeps_setTx | simp only [Keeps.other_iff]
theorem keeps_setTxFrame {s0 : State} (p : Nat) (f : TxFrame) (s : State) (hk : Keeps s0 s) : Keeps s0 (setTxFrame p f s) := by
  unfold setTxFrame; repeat' first | with_reducible assumption | with_reducible (first | apply keeps_setTx | apply Keeps.ite) | split
theorem keeps_settleSlots {s0 : State} (p : Nat) (s : State) (hk : Keeps s0 s) : Keeps s0 (settleSlots p s) := by
  unfold settleSlots; repeat' first | with_reducible assumption | with_reducible (first | apply keeps_releaseSlot | apply keeps_setTxFrame | apply Keeps.ite | apply Keeps.foldl) | simp only [Keeps.other_iff] | intro _ _ _ | split
theorem keeps_handOff {s0 : State} (p : Nat) (s : State) (hk : Keeps s0 s) : Keeps s0 (handOff p s) := by
  unfold handOff; repeat' first | with_reducible assumption | with_reducible (first | apply keeps_resume | apply keeps_toMac | apply Keeps.ite) | simp only [Keeps.other_iff] | split
theorem keeps_settlePauses {s0 : State} (p b : Nat) (s : State) (hk : Keeps s0 s) : Keeps s0 (settlePauses p b s) :=
  Keeps.ite hk (keeps_pausesOut _ _ _ _ hk)
theorem Keeps.setRoot {s0 s r : State} (e : Nat) (hk : Keeps s0 s)
    (g : Keeps { s with clk := { s.clk with root := e } } r) :
    Keeps s0 { r with clk := { r.clk with root := s.clk.root } } :=
  ⟨g.pending.trans hk.pending, hk.root, hk.drawn.trans g.drawn, hk.out.trans g.out, fun x => g.legal (hk.legal x)⟩
theorem keeps_settleWire {s0 : State} (p : Nat) (s : State) (hk : Keeps s0 s) : Keeps s0 (settleWire p s) := by
  unfold settleWire; repeat' first | with_reducible assumption | with_reducible (first | apply keeps_settleSlots | apply keeps_handOff | apply keeps_setTx | apply keeps_commit | apply keeps_settlePauses | apply keeps_resume | apply keeps_endWire | apply Keeps.foldl) | simp only [Keeps.other_iff] | intro _ _ _ | split
theorem keeps_readUpTo {s0 : State} (p k : Nat) (f : TxFrame) (s : State) (hk : Keeps s0 s) : Keeps s0 (readUpTo p k f s) := by
  unfold readUpTo; repeat' first | with_reducible assumption | with_reducible (first | apply keeps_freeFrame | apply keeps_setTxFrame | apply Keeps.ite) | simp only [Keeps.other_iff] | split
theorem keeps_settleCells {s0 : State} (p : Nat) (s : State) (hk : Keeps s0 s) : Keeps s0 (settleCells p s) := by
  unfold settleCells; repeat' first | with_reducible assumption | with_reducible (first | apply keeps_readUpTo | apply Keeps.foldl) | simp only [Keeps.other_iff] | intro _ _ _ | split
theorem keeps_atRoot {s0 : State} (e : Nat) (f : State → State) (s : State) (hf : ∀ a t, Keeps a t → Keeps a (f t))
    (hk : Keeps s0 s) : Keeps s0 (atRoot e f s) :=
  Keeps.setRoot e hk (hf _ _ (Keeps.refl _))

/-! Receive -/

theorem keeps_puntFrame {s0 : State} (a : Arrival) (reason rule cls : Nat) (s : State) (hk : Keeps s0 s) : Keeps s0 (puntFrame a reason rule cls s) := by
  unfold puntFrame; repeat' first | with_reducible assumption | with_reducible (first | apply keeps_enterCask | apply keeps_doom | apply keeps_bump | apply keeps_freeFrame | apply Keeps.ite) | simp only [Keeps.other_iff] | split
theorem keeps_storeFrame {s0 : State} (a : Arrival) (outp cls : Nat) (ch : Option Nat) (s : State) (hk : Keeps s0 s) : Keeps s0 (storeFrame a outp cls ch s) := by
  unfold storeFrame; repeat' first | with_reducible assumption | with_reducible (first | apply keeps_enterCask | apply keeps_doom | apply keeps_storeQueued | apply Keeps.ite) | simp only [Keeps.other_iff] | split
theorem keeps_countCls {s0 : State} (a : Arrival) (k : Nat) (s : State) (hk : Keeps s0 s) : Keeps s0 (countCls a k s) := by
  unfold countCls; repeat' first | with_reducible assumption | with_reducible (first | apply keeps_bumpCls | apply Keeps.ite) | split
theorem keeps_applyMeter {s0 : State} (d : Decision) (cls : Nat) (a : Arrival) (s : State) (hk : Keeps s0 s) : Keeps s0 (applyMeter d cls a s).1 := by
  unfold applyMeter; repeat' first | with_reducible assumption | with_reducible (first | apply keeps_meterFrame | apply Keeps.ite) | dsimp only | split
theorem keeps_protectFrame {s0 : State} (a : Arrival) (c cls : Nat) (d : Decision) (s : State) (hk : Keeps s0 s) : Keeps s0 (protectFrame a c cls d s) := by
  unfold protectFrame; repeat' first | with_reducible assumption | with_reducible (first | apply keeps_dropAbsent | apply keeps_countCh | apply keeps_applyMeter | apply keeps_requestFill | apply keeps_lookLine | apply keeps_storeFrame | apply Keeps.ite) | simp only [Keeps.other_iff] | split
theorem keeps_bypassFrame {s0 : State} (a : Arrival) (cls : Nat) (d : Decision) (s : State) (hk : Keeps s0 s) : Keeps s0 (bypassFrame a cls d s) := by
  unfold bypassFrame; repeat' first | with_reducible assumption | with_reducible (first | apply keeps_countCls | apply keeps_applyMeter | apply keeps_storeFrame | apply Keeps.ite) | simp only [Keeps.other_iff] | split
theorem keeps_followDecision {s0 : State} (a : Arrival) (d : Decision) (reason rule : Nat) (s : State) (hk : Keeps s0 s) : Keeps s0 (followDecision a d reason rule s) := by
  unfold followDecision; repeat' first | with_reducible assumption | with_reducible (first | apply keeps_protectFrame | apply keeps_bypassFrame | apply keeps_applyMeter | apply keeps_puntFrame | apply keeps_countCls | apply Keeps.ite) | simp only [Keeps.other_iff] | split
theorem keeps_decideClear {s0 : State} (a : Arrival) (s : State) (hk : Keeps s0 s) : Keeps s0 (decideClear a s) := by
  unfold decideClear; repeat' first | with_reducible assumption | with_reducible (first | apply keeps_lookupView | apply keeps_countCls | apply keeps_followDecision | apply keeps_bump | apply keeps_puntFrame | apply Keeps.ite) | simp only [Keeps.other_iff] | split
theorem keeps_countGood {s0 : State} (p : Nat) (l : Bytes) (s : State) (hk : Keeps s0 s) : Keeps s0 (countGood p l s) := by
  unfold countGood; repeat' first | with_reducible assumption | with_reducible apply keeps_bump
theorem keeps_arrivalOf {s0 : State} (p : Nat) (l : Bytes) (stomp : Bool) (s : State) (hk : Keeps s0 s) : Keeps s0 (arrivalOf p l stomp s).2 := by
  unfold arrivalOf; repeat' first | with_reducible assumption | with_reducible apply keeps_recognise | dsimp only
theorem keeps_clearFrame {s0 : State} (p : Nat) (l : Bytes) (m : RxMark) (s : State) (hk : Keeps s0 s) : Keeps s0 (clearFrame p l m s) := by
  unfold clearFrame; repeat' first | with_reducible assumption | with_reducible (first | apply keeps_countFault | apply keeps_arrivalOf | apply keeps_decideClear | apply keeps_setPort | apply keeps_countGood | apply Keeps.ite) | simp only [Keeps.other_iff] | split
theorem keeps_rxMeter {s0 : State} (f : RxFrame) (s : State) (hk : Keeps s0 s) : Keeps s0 (rxMeter f s).1 := by
  unfold rxMeter; repeat' first | with_reducible assumption | with_reducible (first | apply keeps_meterFrame | apply Keeps.ite) | dsimp only | split
theorem keeps_rxToCask {s0 : State} (f : RxFrame) (l : Bytes) (s : State) (hk : Keeps s0 s) : Keeps s0 (rxToCask f l s).2 := by
  unfold rxToCask; repeat' first | with_reducible assumption | with_reducible (first | apply keeps_bumpCls | apply keeps_rxMeter | apply keeps_enterCask | apply keeps_enqueue | apply Keeps.ite) | simp only [Keeps.other_iff] | dsimp only | split
theorem keeps_saveActive {s0 : State} (p len by_ : Nat) (g : RxFrame) (s : State) (hk : Keeps s0 s) : Keeps s0 (saveActive p len by_ g s) := by
  unfold saveActive; repeat' first | with_reducible assumption | with_reducible apply keeps_setRx | simp only [Keeps.other_iff]
theorem keeps_rxInterrupt {s0 : State} (p len : Nat) (s : State) (hk : Keeps s0 s) : Keeps s0 (rxInterrupt p len s) := by
  unfold rxInterrupt; repeat' first | with_reducible assumption | with_reducible (first | apply keeps_setRx | apply keeps_saveActive | apply Keeps.ite) | simp only [Keeps.other_iff] | split
theorem keeps_countSaved {s0 : State} (f : RxFrame) (s : State) (hk : Keeps s0 s) : Keeps s0 (countSaved f s) := by
  unfold countSaved; repeat' first | with_reducible assumption | with_reducible (first | apply keeps_countCh | apply Keeps.ite) | simp only [Keeps.other_iff] | split
theorem keeps_rxEnter {s0 : State} (f : RxFrame) (s : State) (hk : Keeps s0 s) : Keeps s0 (rxEnter f s) := by
  unfold rxEnter; repeat' first | with_reducible assumption | with_reducible (first | apply keeps_setRx | apply keeps_saveActive | apply keeps_countSaved | apply Keeps.ite) | simp only [Keeps.other_iff] | split
theorem keeps_checkRxOverrun {s0 : State} (n : Nat) (f : RxFrame) (s : State) (hk : Keeps s0 s) : Keeps s0 (checkRxOverrun n f s).2 := by
  unfold checkRxOverrun; repeat' first | with_reducible assumption | with_reducible (first | apply keeps_bumpArray | apply Keeps.ite) | simp only [Keeps.other_iff] | dsimp only | split
theorem keeps_acceptRx {s0 : State} (c : Nat) (k : Parked) (s : State) (hk : Keeps s0 s) : Keeps s0 (acceptRx c k s) := by
  unfold acceptRx; repeat' first | with_reducible assumption | with_reducible (first | apply keeps_touchLine | apply keeps_lookLine | apply keeps_countCh | apply keeps_takeKeystream | apply keeps_putChan | apply keeps_recognise | apply keeps_checkRxOverrun | apply keeps_rxToCask | apply keeps_rxEnter) | simp only [Keeps.other_iff] | split
theorem keeps_rxChannel {s0 : State} (c : Nat) (k : Parked) (s : State) (hk : Keeps s0 s) : Keeps s0 (rxChannel c k s) := by
  unfold rxChannel; repeat' first | with_reducible assumption | with_reducible (first | apply keeps_dropAbsent | apply keeps_countCh | apply keeps_acceptRx | apply keeps_requestFill | apply keeps_raise | apply Keeps.ite) | simp only [Keeps.other_iff] | split
theorem keeps_learnFails {s0 : State} (k : Parked) (place code : Nat) (s : State) (hk : Keeps s0 s) : Keeps s0 (learnFails k place code s) := by
  unfold learnFails; repeat' first | with_reducible assumption | with_reducible (first | apply keeps_raise | apply keeps_bumpCls | apply keeps_lookupView | apply keeps_puntFrame | apply Keeps.ite) | split
theorem keeps_learn {s0 : State} (k : Parked) (s : State) (hk : Keeps s0 s) : Keeps s0 (learn k s) := by
  unfold learn; repeat' first | with_reducible assumption | with_reducible (first | apply keeps_lookupView | apply keeps_learnFails | apply keeps_puntFrame | apply keeps_bumpCls | apply keeps_setPeer | apply Keeps.ite) | simp only [Keeps.other_iff] | split
theorem keeps_unknownSci {s0 : State} (pending : Bool) (k : Parked) (s : State) (hk : Keeps s0 s) : Keeps s0 (unknownSci pending k s) := by
  unfold unknownSci; repeat' first | with_reducible assumption | with_reducible (first | apply keeps_bumpCls | apply keeps_lookupView | apply keeps_puntFrame | apply keeps_learn | apply Keeps.ite) | split
theorem keeps_toCycle4 {s0 : State} (c : Nat) (k : Parked) (s : State) (hk : Keeps s0 s) : Keeps s0 (toCycle4 c k s) := by
  unfold toCycle4; repeat' first | with_reducible assumption | simp only [Keeps.other_iff]
theorem keeps_meetPeer {s0 : State} (f : Nat → Parked → State → State) (p : Peer) (k : Parked) (s : State)
    (hf : ∀ c k t, Keeps s0 t → Keeps s0 (f c k t)) (hk : Keeps s0 s) : Keeps s0 (meetPeer f p k s) := by
  unfold meetPeer
  split
  · exact hf _ _ _ hk
  · exact keeps_unknownSci _ _ _ hk
theorem keeps_enterSpill {s0 : State} (k : Parked) (s : State) (hk : Keeps s0 s) : Keeps s0 (enterSpill k s) := by
  unfold enterSpill; repeat' first | with_reducible assumption | with_reducible (first | apply keeps_bumpCls | apply Keeps.ite) | simp only [Keeps.other_iff] | split
theorem keeps_lookupPeer {s0 : State} (k : Parked) (s : State) (hk : Keeps s0 s) : Keeps s0 (lookupPeer k s) := by
  unfold lookupPeer; repeat' first | with_reducible assumption | with_reducible (first | apply keeps_syncFlush | apply keeps_lookupView | apply keeps_enterSpill | apply keeps_meetPeer | apply keeps_toCycle4 | apply keeps_unknownSci | apply Keeps.ite) | simp only [Keeps.other_iff] | split
theorem keeps_macsecFrame {s0 : State} (p : Nat) (l : Bytes) (m : RxMark) (s : State) (hk : Keeps s0 s) : Keeps s0 (macsecFrame p l m s) := by
  unfold macsecFrame; repeat' first | with_reducible assumption | with_reducible (first | apply keeps_countFault | apply keeps_countGood | apply keeps_bumpCls | apply keeps_lookupPeer | apply Keeps.ite) | simp only [Keeps.other_iff] | split
theorem keeps_lineFrame {s0 : State} (p : Nat) (l : Bytes) (m : RxMark) (s : State) (hk : Keeps s0 s) : Keeps s0 (lineFrame p l m s) := by
  unfold lineFrame; repeat' first | with_reducible assumption | with_reducible (first | apply keeps_macsecFrame | apply keeps_clearFrame | apply Keeps.ite) | split
theorem keeps_rxVerdict {s0 : State} (f : RxFrame) (ok : Bool) (n : Nat) (s : State) (hk : Keeps s0 s) : Keeps s0 (rxVerdict f ok n s) := by
  unfold rxVerdict; repeat' first | with_reducible assumption | with_reducible (first | apply keeps_putChan | apply keeps_countCh | apply keeps_raise | apply keeps_activateRx | apply Keeps.ite) | split
theorem keeps_deliverRx {s0 : State} (f : RxFrame) (l : Bytes) (s : State) (hk : Keeps s0 s) : Keeps s0 (deliverRx f l s) := by
  unfold deliverRx; repeat' first | with_reducible assumption | with_reducible (first | apply keeps_freeFrame | apply keeps_answerProbe | apply keeps_takeResponse | apply keeps_enqueue | apply Keeps.ite) | simp only [Keeps.other_iff] | split
theorem keeps_releaseTail {s0 : State} (p n : Nat) (bad : Bool) (s : State) (hk : Keeps s0 s) : Keeps s0 (releaseTail p n bad s) := by
  unfold releaseTail; repeat' first | with_reducible assumption | with_reducible (first | apply keeps_setQ | apply keeps_setTx | apply Keeps.ite | apply Keeps.foldl) | intro _ _ _ | split
theorem keeps_icvCheck {s0 : State} (f : RxFrame) (s : State) (hk : Keeps s0 s) : Keeps s0 (icvCheck f s) := by
  unfold icvCheck; repeat' first | with_reducible assumption | with_reducible (first | apply keeps_releaseSlot | apply keeps_rxVerdict | apply keeps_countCh | apply keeps_settleWire | apply keeps_releaseTail | apply keeps_deliverRx | apply keeps_freeFrame | apply Keeps.ite) | split
theorem keeps_checkRx {s0 : State} (p : Nat) (f : RxFrame) (s : State) (hk : Keeps s0 s) : Keeps s0 (checkRx p f s) := by
  unfold checkRx; repeat' first | with_reducible assumption | with_reducible (first | apply keeps_icvCheck | apply keeps_setRx)
theorem keeps_drainMiss {s0 : State} (c : Nat) (f : Parked → State → State) (s : State) (hk : Keeps s0 s)
    (hf : ∀ k t, Keeps s0 t → Keeps s0 (f k t)) : Keeps s0 (drainMiss c f s) :=
  Keeps.foldl (Keeps.other_iff.mpr hk) fun t x g => hf x t g
theorem keeps_dropWaiting {s0 : State} (c : Nat) (s : State) (hk : Keeps s0 s) : Keeps s0 (dropWaiting c s) := by
  unfold dropWaiting; repeat' first | with_reducible assumption | with_reducible (first | apply keeps_countCh | apply keeps_dropQueued | apply keeps_putQueue | apply Keeps.ite | apply Keeps.foldl) | simp only [Keeps.other_iff] | intro _ _ _ | split

/-! Transmit -/

theorem keeps_flushPort {s0 : State} (p : Nat) (s : State) (hk : Keeps s0 s) : Keeps s0 (flushPort p s) := by
  unfold flushPort; repeat' first | with_reducible assumption | with_reducible (first | apply keeps_bump | apply keeps_dropQueued | apply keeps_putQueue | apply Keeps.ite | apply Keeps.foldl) | intro _ _ _ | split
theorem keeps_purgeHeads {s0 : State} (p c : Nat) (s : State) (hk : Keeps s0 s) : Keeps s0 (purgeHeads p c s) := by
  unfold purgeHeads; repeat' first | with_reducible assumption | with_reducible (first | apply keeps_countCh | apply keeps_dropQueued | apply keeps_dropAbsent | apply keeps_putQueue | apply Keeps.ite | apply Keeps.foldl) | simp only [Keeps.other_iff] | intro _ _ _ | split
theorem keeps_lookAtHead {s0 : State} (p c : Nat) (s : State) (hk : Keeps s0 s) : Keeps s0 (lookAtHead p c s) := by
  unfold lookAtHead; repeat' first | with_reducible assumption | with_reducible (first | apply keeps_requestFill | apply keeps_lookLine | apply keeps_bump | apply keeps_setQ | apply Keeps.ite) | simp only [Keeps.other_iff] | split
theorem keeps_roundRobin {s0 : State} (n p : Nat) (s : State) (hk : Keeps s0 s) : Keeps s0 (roundRobin n p s).2 := by
  induction n generalizing s with
  | zero => exact hk
  | succ n ih =>
    unfold roundRobin
    dsimp only
    repeat' first | with_reducible assumption | with_reducible (first | apply ih | apply keeps_setPort) | split
theorem keeps_checkVisit {s0 : State} (p : Nat) (s : State) (hk : Keeps s0 s) : Keeps s0 (checkVisit p s) := by
  unfold checkVisit; repeat' first | with_reducible assumption | with_reducible (first | apply keeps_endVisit | apply Keeps.ite) | split
theorem keeps_choose {s0 : State} (p : Nat) (s : State) (hk : Keeps s0 s) : Keeps s0 (choose p s).2 := by
  unfold choose; repeat' first | with_reducible assumption | with_reducible (first | apply keeps_checkVisit | apply keeps_roundRobin | apply Keeps.ite) | simp only [Keeps.other_iff] | dsimp only | split
theorem keeps_suspend {s0 : State} (p : Nat) (f g : TxFrame) (s : State) (hk : Keeps s0 s) : Keeps s0 (suspend p f g s) := by
  unfold suspend; repeat' first | with_reducible assumption | with_reducible (first | apply keeps_countCh | apply keeps_setTx | apply Keeps.ite) | simp only [Keeps.other_iff] | split
theorem keeps_takeLane {s0 : State} (p : Nat) (f : TxFrame) (s : State) (hk : Keeps s0 s) : Keeps s0 (takeLane p f s) := by
  unfold takeLane; repeat' first | with_reducible assumption | with_reducible (first | apply keeps_suspend | apply keeps_toMac | apply keeps_setTx | apply Keeps.ite) | simp only [Keeps.other_iff] | split
theorem keeps_monitorLatency {s0 : State} (f : QFrame) (egress : Nat) (s : State) (hk : Keeps s0 s) : Keeps s0 (monitorLatency f egress s) := by
  unfold monitorLatency; repeat' first | with_reducible assumption | with_reducible (first | apply keeps_bumpMax | apply keeps_raise | apply keeps_bump | apply Keeps.ite) | split
theorem keeps_checkOverrun {s0 : State} (p n : Nat) (f : TxFrame) (s : State) (hk : Keeps s0 s) : Keeps s0 (checkOverrun p n f s).2 := by
  unfold checkOverrun; repeat' first | with_reducible assumption | with_reducible (first | apply keeps_bumpArray | apply Keeps.ite) | dsimp only | split
theorem keeps_enterLane {s0 : State} (p : Nat) (f : TxFrame) (s : State) (hk : Keeps s0 s) : Keeps s0 (enterLane p f s) := by
  unfold enterLane; repeat' first | with_reducible assumption | with_reducible (first | apply keeps_takeLane | apply keeps_monitorLatency) | simp only [Keeps.other_iff] | split
theorem keeps_assignEvents {s0 : State} (c : Nat) (a : Assigned) (s : State) (hk : Keeps s0 s) : Keeps s0 (assignEvents c a s) := by
  unfold assignEvents; repeat' first | with_reducible assumption | with_reducible (first | apply keeps_closeRec | apply keeps_raiseEv | apply keeps_countCh | apply Keeps.ite) | simp only [Keeps.other_iff] | split
theorem keeps_laneLost {s0 : State} (p : Nat) (f : TxFrame) (s : State) (hk : Keeps s0 s) : Keeps s0 (laneLost p f s) := by
  unfold laneLost; repeat' first | with_reducible assumption | with_reducible (first | apply keeps_resume | apply keeps_dropQueued | apply keeps_setTx)
theorem keeps_assignFrame {s0 : State} (p c now : Nat) (f : TxFrame) (s : State) (hk : Keeps s0 s) : Keeps s0 (assignFrame p c now f s) := by
  unfold assignFrame; repeat' first | with_reducible assumption | with_reducible (first | apply keeps_touchLine | apply keeps_countCh | apply keeps_laneLost | apply keeps_raise | apply keeps_putChan | apply keeps_takeKeystream | apply keeps_assignEvents | apply keeps_checkOverrun | apply keeps_monitorLatency | apply keeps_setTxFrame | apply Keeps.ite) | simp only [Keeps.other_iff] | split
theorem keeps_assignAt {s0 : State} (p g : Nat) (s : State) (hk : Keeps s0 s) : Keeps s0 (assignAt p g s) := by
  unfold assignAt; repeat' first | with_reducible assumption | with_reducible apply keeps_assignFrame | simp only [Keeps.other_iff] | split
theorem keeps_grant {s0 : State} (p c : Nat) (s : State) (hk : Keeps s0 s) : Keeps s0 (grant p c s) := by
  unfold grant; repeat' first | with_reducible assumption | with_reducible (first | apply keeps_setPort | apply keeps_shaperDebit | apply keeps_putQueue | apply keeps_enterLane | apply Keeps.ite) | simp only [Keeps.other_iff] | split
theorem keeps_grantChoice {s0 : State} (p : Nat) (r : Option Nat × State) (hk : Keeps s0 r.2) : Keeps s0 (grantChoice p r) := by
  unfold grantChoice
  split
  · exact hk
  · split
    · exact keeps_grant _ _ _ (keeps_setPort _ _ _ hk)
    · exact hk
theorem keeps_decision {s0 : State} (p : Nat) (s : State) (hk : Keeps s0 s) : Keeps s0 (decision p s) := by
  unfold decision; repeat' first | with_reducible assumption | with_reducible (first | apply keeps_grantChoice | apply keeps_choose | apply keeps_lookAtHead | apply keeps_purgeHeads | apply Keeps.foldl) | intro _ _ _
theorem keeps_probeSent {s0 : State} (f : QFrame) (stamp : Nat) (s : State) (hk : Keeps s0 s) : Keeps s0 (probeSent f stamp s) := by
  unfold probeSent; repeat' first | with_reducible assumption | with_reducible apply keeps_bump | simp only [Keeps.other_iff] | split
theorem keeps_startFrame {s0 : State} (p : Nat) (f : TxFrame) (read : CellRead) (s : State) (hk : Keeps s0 s) : Keeps s0 (startFrame p f read s) := by
  unfold startFrame; repeat' first | with_reducible assumption | with_reducible (first | apply keeps_setTx | apply keeps_readCells | apply keeps_commit | apply keeps_setTxFrame | apply keeps_probeSent | apply Keeps.ite) | simp only [Keeps.other_iff] | split
theorem keeps_discardFrame {s0 : State} (p : Nat) (f : TxFrame) (s : State) (hk : Keeps s0 s) : Keeps s0 (discardFrame p f s) := by
  unfold discardFrame; repeat' first | with_reducible assumption | with_reducible (first | apply keeps_laneLost | apply keeps_bump | apply keeps_releaseSlot) | simp only [Keeps.other_iff] | split

/-! Traffic -/

theorem keeps_settleTx {s0 : State} (e p : Nat) (s : State) (hk : Keeps s0 s) : Keeps s0 (settleTx e p s) := by
  unfold settleTx; repeat' first | with_reducible assumption | with_reducible (first | apply keeps_atRoot | apply keeps_assignAt | apply Keeps.ite | apply Keeps.foldl) | intro _ _ _ | split
theorem keeps_settleRx {s0 : State} (e : Nat) (s : State) (hk : Keeps s0 s) : Keeps s0 (settleRx e s) := by
  unfold settleRx; repeat' first | with_reducible assumption | with_reducible (first | apply keeps_atRoot | apply keeps_rxChannel | apply Keeps.foldl) | simp only [Keeps.other_iff] | intro _ _ _
theorem keeps_settleLanes {s0 : State} (e : Nat) (s : State) (hk : Keeps s0 s) : Keeps s0 (settleLanes e s) := by
  unfold settleLanes; repeat' first | with_reducible assumption | with_reducible (first | apply keeps_settleRx | apply keeps_settleTx | apply Keeps.foldl) | intro _ _ _
theorem keeps_settle {s0 : State} (s : State) (hk : Keeps s0 s) : Keeps s0 (settle s) := by
  unfold settle; repeat' first | with_reducible assumption | with_reducible (first | apply keeps_settleLanes | apply keeps_settleArriving | apply keeps_settleCharges | apply keeps_settleCells | apply keeps_settleWire | apply keeps_settleControl | apply Keeps.foldl) | intro _ _ _
theorem keeps_settleBefore {s0 : State} (s : State) (hk : Keeps s0 s) : Keeps s0 (settleBefore s) := by
  have g := keeps_settle _ (Keeps.refl { s with clk := { s.clk with root := min s.clk.root (cclkEdge s - 3) } })
  unfold settleBefore
  generalize settle _ = r at g ⊢
  exact ⟨g.pending.trans hk.pending, hk.root, hk.drawn.trans g.drawn, hk.out.trans g.out,
    fun x => have y := hk.legal x
      have z := g.legal y
      ⟨z.1, z.2.1, z.2.2.1, z.2.2.2.1, y.2.2.2.2⟩⟩
theorem keeps_frameEvent {s0 : State} {t : Nat} {guard : State → Bool} {eff : State → State} {s : State}
    (hf : ∀ t, Keeps s0 t → Keeps s0 (eff t)) (h : Keeps s0 s) : Keeps s0 (frameEvent t guard eff s) := by
  have g := keeps_settle _ (keeps_comeTo t _ h)
  unfold frameEvent
  dsimp only
  split
  · exact hf _ g
  · exact g
theorem keeps_execHostFrameReceive (t p : Nat) (l : Bytes) (rx : MacRx) (s : State) {u : State} (h : execHostFrameReceive t p l rx s = .next u) : Keeps s u := by
  unfold execHostFrameReceive at h; injection h with h; subst h
  refine keeps_frameEvent (fun t g => ?_) (Keeps.refl _)
  repeat' first | with_reducible assumption | with_reducible (first | apply keeps_frameEvent | apply keeps_countSeen | apply keeps_clearFrame | apply Keeps.ite) | split
theorem keeps_execLineFrameReceive (t p : Nat) (l : Bytes) (rx : MacRx) (s : State) {u : State} (h : execLineFrameReceive t p l rx s = .next u) : Keeps s u := by
  unfold execLineFrameReceive at h; injection h with h; subst h
  refine keeps_frameEvent (fun t g => ?_) (Keeps.refl _)
  repeat' first | with_reducible assumption | with_reducible (first | apply keeps_frameEvent | apply keeps_countSeen | apply keeps_lineFrame | apply keeps_rxInterrupt | apply Keeps.ite) | split
theorem keeps_execSpillReadComplete (t i : Nat) (s : State) {u : State} (h : execSpillReadComplete t i s = .next u) : Keeps s u := by
  unfold execSpillReadComplete at h; injection h with h; subst h
  refine keeps_frameEvent (fun t g => ?_) (Keeps.refl _)
  repeat' first | with_reducible assumption | with_reducible (first | apply keeps_frameEvent | apply keeps_syncFlush | apply keeps_lookupView | apply keeps_meetPeer | apply keeps_rxChannel | apply keeps_unknownSci) | simp only [Keeps.other_iff] | split
theorem keeps_execSpillTimeout (t i : Nat) (s : State) {u : State} (h : execSpillTimeout t i s = .next u) : Keeps s u := by
  unfold execSpillTimeout at h; injection h with h; subst h
  refine keeps_event (fun t g => ?_) (Keeps.refl _)
  repeat' first | with_reducible assumption | with_reducible (first | apply keeps_event | apply keeps_bumpCls) | simp only [Keeps.other_iff] | split
theorem keeps_execIcvCheck (t p : Nat) (s : State) {u : State} (h : execIcvCheck t p s = .next u) : Keeps s u := by
  unfold execIcvCheck at h; injection h with h; subst h
  refine keeps_frameEvent (fun t g => ?_) (Keeps.refl _)
  repeat' first | with_reducible assumption | with_reducible (first | apply keeps_frameEvent | apply keeps_checkRx) | simp only [Keeps.other_iff] | split
theorem keeps_execFillComplete (t c : Nat) (res : MemRes) (s : State) {u : State} (h : execFillComplete t c res s = .next u) : Keeps s u := by
  unfold execFillComplete at h; injection h with h; subst h
  refine keeps_frameEvent (fun t g => ?_) (Keeps.refl _)
  repeat' first | with_reducible assumption | with_reducible (first | apply keeps_frameEvent | apply keeps_fillAnswer | apply keeps_issueFills | apply keeps_drainMiss | apply keeps_rxChannel | apply keeps_makeResident | apply keeps_freeLine | apply keeps_countCh | apply keeps_setCold | apply Keeps.ite) | simp only [Keeps.other_iff] | intro _ _ _ | split
theorem keeps_execFillTimeout (t c : Nat) (s : State) {u : State} (h : execFillTimeout t c s = .next u) : Keeps s u := by
  unfold execFillTimeout at h; injection h with h; subst h
  refine keeps_frameEvent (fun t g => ?_) (Keeps.refl _)
  repeat' first | with_reducible assumption | with_reducible (first | apply keeps_frameEvent | apply keeps_freeLine | apply keeps_drainMiss | apply keeps_countCh | apply keeps_dropWaiting | apply keeps_raise | apply keeps_complete | apply keeps_setChan) | simp only [Keeps.other_iff] | intro _ _ _ | split
theorem keeps_execCacheEvict (t : Nat) (s : State) {u : State} (h : execCacheEvict t s = .next u) : Keeps s u := by
  unfold execCacheEvict at h; injection h with h; subst h
  refine keeps_frameEvent (fun t g => ?_) (Keeps.refl _)
  repeat' first | with_reducible assumption | with_reducible (first | apply keeps_frameEvent | apply keeps_turnClock | apply keeps_evictLine) | simp only [Keeps.other_iff] | split
theorem keeps_execWriteBackComplete (t c : Nat) (res : MemRes) (s : State) {u : State} (h : execWriteBackComplete t c res s = .next u) : Keeps s u := by
  unfold execWriteBackComplete at h; injection h with h; subst h
  refine keeps_frameEvent (fun t g => ?_) (Keeps.refl _)
  repeat' first | with_reducible assumption | with_reducible (first | apply keeps_frameEvent | apply keeps_backDone) | simp only [Keeps.other_iff] | split
theorem keeps_execProofRefill (t a g : Nat) (s : State) {u : State} (h : execProofRefill t a g s = .next u) : Keeps s u := by
  unfold execProofRefill at h; injection h with h; subst h
  refine keeps_frameEvent (fun t g => ?_) (Keeps.refl _)
  repeat' first | with_reducible assumption | with_reducible (first | apply keeps_frameEvent | apply keeps_setArray | apply keeps_checkPin | apply keeps_bumpArray | apply keeps_fillSlot | apply Keeps.ite) | simp only [Keeps.other_iff] | split
theorem keeps_execRetireTimeReached (t c an : Nat) (s : State) {u : State} (h : execRetireTimeReached t c an s = .next u) : Keeps s u := by
  unfold execRetireTimeReached at h; injection h with h; subst h
  refine keeps_frameEvent (fun t g => ?_) (Keeps.refl _)
  repeat' first | with_reducible assumption | with_reducible (first | apply keeps_frameEvent | apply keeps_retireDraining)
theorem keeps_execRollStraddleWindow (t c : Nat) (s : State) {u : State} (h : execRollStraddleWindow t c s = .next u) : Keeps s u := by
  unfold execRollStraddleWindow at h; injection h with h; subst h
  refine keeps_frameEvent (fun t g => ?_) (Keeps.refl _)
  repeat' first | with_reducible assumption | with_reducible (first | apply keeps_frameEvent | apply keeps_syncSlots) | simp only [Keeps.other_iff] | split
theorem keeps_slowTx {s0 : State} (p : Nat) (s : State) (hk : Keeps s0 s) : Keeps s0 (slowTx p s) := by
  unfold slowTx; repeat' first | with_reducible assumption | with_reducible (first | apply keeps_checkOverrun | apply keeps_setTxFrame | apply Keeps.ite) | simp only [Keeps.other_iff] | split
theorem keeps_slowRx {s0 : State} (p : Nat) (s : State) (hk : Keeps s0 s) : Keeps s0 (slowRx p s) := by
  unfold slowRx; repeat' first | with_reducible assumption | with_reducible (first | apply keeps_bumpArray | apply keeps_setRx | apply Keeps.ite) | simp only [Keeps.other_iff] | split
theorem keeps_groupSlows {s0 : State} (k g : Nat) (s : State) (hk : Keeps s0 s) : Keeps s0 (groupSlows k g s) := by
  unfold groupSlows; repeat' first | with_reducible assumption | with_reducible (first | apply keeps_slowTx | apply keeps_slowRx | apply Keeps.ite | apply Keeps.foldl) | intro _ _ _ | split
theorem keeps_execSliceFault (t k pos : Nat) (gh : Bool) (s : State) {u : State} (h : execSliceFault t k pos gh s = .next u) : Keeps s u := by
  unfold execSliceFault at h; injection h with h; subst h
  refine keeps_frameEvent (fun t g => ?_) (Keeps.refl _)
  repeat' first | with_reducible assumption | with_reducible (first | apply keeps_frameEvent | apply keeps_bumpArray | apply keeps_setArray | apply keeps_draw | apply keeps_raiseEv | apply keeps_checkSpares | apply keeps_groupSlows | apply Keeps.ite) | simp only [Keeps.other_iff] | split
theorem keeps_execEgressSelect (t p : Nat) (s : State) {u : State} (h : execEgressSelect t p s = .next u) : Keeps s u := by
  unfold execEgressSelect at h; injection h with h; subst h
  refine keeps_frameEvent (fun t g => ?_) (Keeps.refl _)
  repeat' first | with_reducible assumption | with_reducible (first | apply keeps_frameEvent | apply keeps_decision | apply keeps_flushPort | apply Keeps.ite) | simp only [Keeps.other_iff] | split
theorem keeps_execFrameTransmit (t : Nat) (x : EgressPort) (s : State) {u : State} (h : execFrameTransmit t x s = .next u) : Keeps s u := by
  unfold execFrameTransmit at h; injection h with h; subst h
  refine keeps_frameEvent (fun t g => ?_) (Keeps.refl _)
  repeat' first | with_reducible assumption | with_reducible (first | apply keeps_frameEvent | apply keeps_startFrame | apply keeps_discardFrame | apply Keeps.ite) | simp only [Keeps.other_iff] | split
theorem keeps_execPauseRefresh (t p c : Nat) (s : State) {u : State} (h : execPauseRefresh t p c s = .next u) : Keeps s u := by
  unfold execPauseRefresh at h; injection h with h; subst h
  refine keeps_frameEvent (fun t g => ?_) (Keeps.refl _)
  repeat' first | with_reducible assumption | with_reducible (first | apply keeps_frameEvent | apply keeps_sendPause | apply keeps_setPort | apply Keeps.ite) | simp only [Keeps.other_iff] | split
theorem keeps_execAgeCheck (t : Nat) (s : State) {u : State} (h : execAgeCheck t s = .next u) : Keeps s u := by
  unfold execAgeCheck at h; injection h with h; subst h
  refine keeps_frameEvent (fun t g => ?_) (Keeps.refl _)
  repeat' first | with_reducible assumption | with_reducible (first | apply keeps_frameEvent | apply keeps_ageQueue | apply Keeps.foldl) | simp only [Keeps.other_iff] | intro _ _ _
theorem keeps_execCaskScrub (t cell cw : Nat) (res : ScrubRes) (s : State) {u : State} (h : execCaskScrub t cell cw res s = .next u) : Keeps s u := by
  unfold execCaskScrub at h; injection h with h; subst h
  refine keeps_frameEvent (fun t g => ?_) (Keeps.refl _)
  repeat' first | with_reducible assumption | with_reducible (first | apply keeps_frameEvent | apply keeps_endPass | apply keeps_scrubbed | apply keeps_scrubCell | apply Keeps.ite) | split

/-! Counters -/

theorem keeps_clearPlace {s0 : State} (scope idx k : Nat) (s : State) (hk : Keeps s0 s) : Keeps s0 (clearPlace scope idx k s) := by
  unfold clearPlace; repeat' first | with_reducible assumption | with_reducible (first | apply keeps_setCnt | apply Keeps.ite) | simp only [Keeps.other_iff] | split
theorem keeps_clearCloses {s0 : State} (scope idx : Nat) (s : State) (hk : Keeps s0 s) : Keeps s0 (clearCloses scope idx s) := by
  unfold clearCloses; repeat' first | with_reducible assumption | with_reducible apply keeps_closeRec | simp only [Keeps.other_iff] | split
theorem keeps_clearBlock {s0 : State} (scope idx : Nat) (s : State) (hk : Keeps s0 s) : Keeps s0 (clearBlock scope idx s) := by
  unfold clearBlock; repeat' first | with_reducible assumption | with_reducible (first | apply keeps_clearCloses | apply keeps_clearPlace | apply Keeps.foldl) | intro _ _ _
theorem keeps_cntReadCmd {s0 s : State} (e : Env) (hk : Keeps s0 s) : Keeps s0 (cntReadCmd.eff e s).s := by
  unfold cntReadCmd; repeat' first | with_reducible assumption | with_reducible (first | apply keeps_settleBefore | apply keeps_foldDeltas | apply keeps_storeMem | apply keeps_clearBlock | apply Keeps.ite) | dsimp only | split
theorem keeps_execCntRead (w : IWord) (s : State) {u : State} (h : execCntRead w s = .next u) : Keeps s u := by
  cases h; exact keeps_runCmd (fun e t g => keeps_cntReadCmd e g) (Keeps.refl _)
theorem keeps_cntClearCmd {s0 s : State} (e : Env) (hk : Keeps s0 s) : Keeps s0 (cntClearCmd.eff e s).s := by
  unfold cntClearCmd; repeat' first | with_reducible assumption | with_reducible (first | apply keeps_clearBlock | apply keeps_settleBefore) | dsimp only
theorem keeps_execCntClear (w : IWord) (s : State) {u : State} (h : execCntClear w s = .next u) : Keeps s u := by
  cases h; exact keeps_runCmd (fun e t g => keeps_cntClearCmd e g) (Keeps.refl _)

/-! Time -/

theorem keeps_atTick {s0 : State} (s : State) (hk : Keeps s0 s) : Keeps s0 (atTick s) := by
  unfold atTick; repeat' first | with_reducible assumption | with_reducible apply keeps_advance
theorem keeps_timeIncrCmd {s0 s : State} (e : Env) (hk : Keeps s0 s) : Keeps s0 (timeIncrCmd.eff e s).s := by
  unfold timeIncrCmd; repeat' first | with_reducible assumption | with_reducible (first | apply keeps_atTick | apply Keeps.ite | apply ClkStep.update) | simp only [Keeps.other_iff] | dsimp only | split | with_reducible apply Keeps.withClk
theorem keeps_execTimeIncr (w : IWord) (s : State) {u : State} (h : execTimeIncr w s = .next u) : Keeps s u := by
  cases h; exact keeps_runCmd (fun e t g => keeps_timeIncrCmd e g) (Keeps.refl _)
theorem keeps_execTemporaryIncrementEnd (t : Nat) (s : State) {u : State} (h : execTemporaryIncrementEnd t s = .next u) : Keeps s u := by
  unfold execTemporaryIncrementEnd at h; injection h with h; subst h
  refine keeps_event (fun t g => ?_) (Keeps.refl _)
  repeat' first | with_reducible assumption | with_reducible apply keeps_event
theorem keeps_setTrig {s0 : State} (s : State) (o : Nat) (v : Trigger) (hk : Keeps s0 s) : Keeps s0 (setTrig s o v) := by
  unfold setTrig; repeat' first | with_reducible assumption | simp only [Keeps.other_iff]
theorem keeps_driveLevel {s0 : State} (o : Nat) (v : Bool) (time : Nat) (s : State) (hk : Keeps s0 s) : Keeps s0 (driveLevel o v time s) := by
  unfold driveLevel; repeat' first | with_reducible assumption | with_reducible (first | apply keeps_emit | apply keeps_setTrig | apply Keeps.ite) | simp only [Keeps.other_iff] | split
theorem keeps_missPulses {s0 : State} (o place n : Nat) (s : State) (hk : Keeps s0 s) : Keeps s0 (missPulses o place n s) := by
  unfold missPulses; repeat' first | with_reducible assumption | with_reducible (first | apply keeps_raiseEv | apply keeps_bump)
theorem keeps_trigComplete {s0 : State} (o : Nat) (s : State) (hk : Keeps s0 s) : Keeps s0 (trigComplete o s) := by
  unfold trigComplete; repeat' first | with_reducible assumption | with_reducible apply keeps_raise
theorem keeps_beginPulse {s0 : State} (o time : Nat) (s : State) (hk : Keeps s0 s) : Keeps s0 (beginPulse o time s) := by
  unfold beginPulse; repeat' first | with_reducible assumption | with_reducible (first | apply keeps_missPulses | apply keeps_setTrig | apply keeps_trigComplete | apply keeps_bump | apply keeps_driveLevel | apply Keeps.ite) | simp only [Keeps.other_iff] | split
theorem keeps_endPulse {s0 : State} (o : Nat) (s : State) (hk : Keeps s0 s) : Keeps s0 (endPulse o s) := by
  unfold endPulse; repeat' first | with_reducible assumption | with_reducible (first | apply keeps_driveLevel | apply keeps_setTrig | apply keeps_trigComplete | apply Keeps.ite) | simp only [Keeps.other_iff] | split
theorem keeps_driveDue {s0 : State} (o : Nat) (s : State) (hk : Keeps s0 s) : Keeps s0 (driveDue o s) := by
  unfold driveDue; repeat' first | with_reducible assumption | with_reducible (first | apply keeps_endPulse | apply keeps_beginPulse | apply Keeps.ite) | split
theorem keeps_execTriggerPulse (t o : Nat) (s : State) {u : State} (h : execTriggerPulse t o s = .next u) : Keeps s u := by
  unfold execTriggerPulse at h; injection h with h; subst h
  refine keeps_event (fun t g => ?_) (Keeps.refl _)
  repeat' first | with_reducible assumption | with_reducible (first | apply keeps_event | apply keeps_driveDue)
theorem keeps_trigStep {s0 : State} (before o : Nat) (s : State) (hk : Keeps s0 s) : Keeps s0 (trigStep before o s) := by
  unfold trigStep; repeat' first | with_reducible assumption | with_reducible (first | apply keeps_missPulses | apply keeps_setTrig | apply keeps_trigComplete | apply keeps_beginPulse | apply Keeps.ite) | simp only [Keeps.other_iff] | split
theorem keeps_stepUsers {s0 : State} (before : Nat) (s : State) (hk : Keeps s0 s) : Keeps s0 (stepUsers before s) := by
  unfold stepUsers; repeat' first | with_reducible assumption | with_reducible (first | apply keeps_gateStep | apply keeps_trigStep | apply Keeps.foldl) | intro _ _ _
theorem keeps_stepTime {s0 : State} (new : Nat) (s : State) (hk : Keeps s0 s) : Keeps s0 (stepTime new s) :=
  keeps_stepUsers _ _ (keeps_raise _ _ _ _ (keeps_bump _ _ _ _ _ _
    (hk.set_clk ⟨Nat.le_refl _, fun _ => Nat.mod_lt _ todWrap_pos⟩)))
theorem keeps_timeSetCmd {s0 s : State} (e : Env) (hk : Keeps s0 s) : Keeps s0 (timeSetCmd.eff e s).s := by
  unfold timeSetCmd; repeat' first | with_reducible assumption | with_reducible (first | apply keeps_stepTime | apply keeps_atTick) | dsimp only
theorem keeps_execTimeSet (w : IWord) (s : State) {u : State} (h : execTimeSet w s = .next u) : Keeps s u := by
  cases h; exact keeps_runCmd (fun e t g => keeps_timeSetCmd e g) (Keeps.refl _)
theorem keeps_setPin {s0 : State} (s : State) (i : Nat) (v : Pin) (hk : Keeps s0 s) : Keeps s0 (setPin s i v) := by
  unfold setPin; repeat' first | with_reducible assumption | simp only [Keeps.other_iff]
theorem keeps_timeSetAtPpsCmd {s0 s : State} (e : Env) (hk : Keeps s0 s) : Keeps s0 (timeSetAtPpsCmd.eff e s).s := by
  unfold timeSetAtPpsCmd; repeat' first | with_reducible assumption | with_reducible (first | apply keeps_event | apply ClkStep.update) | simp only [Keeps.other_iff] | dsimp only | with_reducible apply Keeps.withClk
theorem keeps_execTimeSetAtPps (w : IWord) (s : State) {u : State} (h : execTimeSetAtPps w s = .next u) : Keeps s u := by
  cases h; exact keeps_runCmd (fun e t g => keeps_timeSetAtPpsCmd e g) (Keeps.refl _)
theorem keeps_timeAdjCmd {s0 s : State} (e : Env) (hk : Keeps s0 s) : Keeps s0 (timeAdjCmd.eff e s).s := by
  unfold timeAdjCmd; repeat' first | with_reducible assumption | with_reducible (first | apply keeps_atTick | apply keeps_stepTime) | dsimp only
theorem keeps_execTimeAdj (w : IWord) (s : State) {u : State} (h : execTimeAdj w s = .next u) : Keeps s u := by
  cases h; exact keeps_runCmd (fun e t g => keeps_timeAdjCmd e g) (Keeps.refl _)
theorem keeps_execSecondsWrap (t : Nat) (s : State) {u : State} (h : execSecondsWrap t s = .next u) : Keeps s u := by
  unfold execSecondsWrap at h; injection h with h; subst h
  refine keeps_event (fun t g => ?_) (Keeps.refl _)
  repeat' first | with_reducible assumption | with_reducible (first | apply keeps_event | apply keeps_stepUsers | apply keeps_raise | apply ClkStep.update) | simp only [Keeps.other_iff] | with_reducible apply Keeps.withClk
theorem keeps_ppsEdge {s0 : State} (t : Nat) (s : State) (hk : Keeps s0 s) : Keeps s0 (ppsEdge t s) := by
  unfold ppsEdge; repeat' first | with_reducible assumption | with_reducible (first | apply keeps_atTick | apply keeps_comeTo | apply keeps_complete | apply keeps_stepTime | apply ClkStep.update) | simp only [Keeps.other_iff] | split | with_reducible apply Keeps.withClk
theorem keeps_execPpsSetEdge (t : Nat) (rising : Bool) (width : Nat) (s : State) {u : State} (h : execPpsSetEdge t rising width s = .next u) : Keeps s u := by
  unfold execPpsSetEdge at h; injection h with h; subst h
  refine keeps_event (fun t g => ?_) (Keeps.refl _)
  repeat' first | with_reducible assumption | with_reducible (first | apply keeps_event | apply keeps_ppsEdge) | simp only [Keeps.other_iff] | split
theorem keeps_execPpsSetTimeout (t : Nat) (s : State) {u : State} (h : execPpsSetTimeout t s = .next u) : Keeps s u := by
  unfold execPpsSetTimeout at h; injection h with h; subst h
  refine keeps_event (fun t g => ?_) (Keeps.refl _)
  repeat' first | with_reducible assumption | with_reducible (first | apply keeps_event | apply keeps_complete | apply ClkStep.update) | simp only [Keeps.other_iff] | split | with_reducible apply Keeps.withClk
theorem keeps_capture {s0 : State} (i time : Nat) (rising : Bool) (s : State) (hk : Keeps s0 s) : Keeps s0 (capture i time rising s) := by
  unfold capture; repeat' first | with_reducible assumption | with_reducible (first | apply keeps_setPin | apply keeps_pushStamp | apply keeps_raise | apply Keeps.ite) | simp only [Keeps.other_iff] | split
theorem keeps_execCaptureEdge (t i : Nat) (rising : Bool) (width : Nat) (s : State) {u : State} (h : execCaptureEdge t i rising width s = .next u) : Keeps s u := by
  unfold execCaptureEdge at h; injection h with h; subst h
  refine keeps_event (fun t g => ?_) (Keeps.refl _)
  repeat' first | with_reducible assumption | with_reducible (first | apply keeps_event | apply keeps_bump | apply keeps_advance | apply keeps_settleSeq | apply keeps_capture | apply Keeps.ite) | split
theorem keeps_captCfgCmd {s0 s : State} (e : Env) (hk : Keeps s0 s) : Keeps s0 (captCfgCmd.eff e s).s := by
  unfold captCfgCmd; repeat' first | with_reducible assumption | with_reducible (first | apply keeps_setPort | apply keeps_setPin | apply Keeps.ite) | simp only [Keeps.other_iff] | dsimp only | split
theorem keeps_execCaptCfg (w : IWord) (s : State) {u : State} (h : execCaptCfg w s = .next u) : Keeps s u := by
  cases h; exact keeps_runCmd (fun e t g => keeps_captCfgCmd e g) (Keeps.refl _)
theorem keeps_armTrig {s0 : State} (o v now : Nat) (s : State) (hk : Keeps s0 s) : Keeps s0 (armTrig o v now s) := by
  unfold armTrig; repeat' first | with_reducible assumption | with_reducible (first | apply keeps_driveDue | apply keeps_setTrig | apply keeps_driveLevel | apply keeps_trigComplete | apply Keeps.ite) | simp only [Keeps.other_iff] | split
theorem keeps_trigArmCmd {s0 s : State} (e : Env) (hk : Keeps s0 s) : Keeps s0 (trigArmCmd.eff e s).s := by
  unfold trigArmCmd; repeat' first | with_reducible assumption | with_reducible (first | apply keeps_armTrig | apply keeps_atTick | apply Keeps.ite) | dsimp only | split
theorem keeps_execTrigArm (w : IWord) (s : State) {u : State} (h : execTrigArm w s = .next u) : Keeps s u := by
  cases h; exact keeps_runCmd (fun e t g => keeps_trigArmCmd e g) (Keeps.refl _)
theorem keeps_tsPopCmd {s0 s : State} (e : Env) (hk : Keeps s0 s) : Keeps s0 (tsPopCmd.eff e s).s := by
  unfold tsPopCmd; repeat' first | with_reducible assumption | with_reducible (first | apply keeps_storeMem | apply keeps_closeRec | apply Keeps.ite) | simp only [Keeps.other_iff] | dsimp only | split
theorem keeps_execTsPop (w : IWord) (s : State) {u : State} (h : execTsPop w s = .next u) : Keeps s u := by
  cases h; exact keeps_runCmd (fun e t g => keeps_tsPopCmd e g) (Keeps.refl _)
theorem keeps_probeSendCmd {s0 s : State} (e : Env) (hk : Keeps s0 s) : Keeps s0 (probeSendCmd.eff e s).s := by
  unfold probeSendCmd; repeat' first | with_reducible assumption | with_reducible (first | apply keeps_bump | apply keeps_sendOwn | apply keeps_endProbe | apply Keeps.ite) | simp only [Keeps.other_iff] | dsimp only | split
theorem keeps_execProbeSend (w : IWord) (s : State) {u : State} (h : execProbeSend w s = .next u) : Keeps s u := by
  cases h; exact keeps_runCmd (fun e t g => keeps_probeSendCmd e g) (Keeps.refl _)
theorem keeps_probeResponderCmd {s0 s : State} (e : Env) (hk : Keeps s0 s) : Keeps s0 (probeResponderCmd.eff e s).s := by
  unfold probeResponderCmd; repeat' first | with_reducible assumption | with_reducible apply Keeps.ite | simp only [Keeps.other_iff] | dsimp only | split
theorem keeps_execProbeResponderWrite (w : IWord) (s : State) {u : State} (h : execProbeResponderWrite w s = .next u) : Keeps s u := by
  cases h; exact keeps_runCmd (fun e t g => keeps_probeResponderCmd e g) (Keeps.refl _)
theorem keeps_execProbeTimeout (t id : Nat) (s : State) {u : State} (h : execProbeTimeout t id s = .next u) : Keeps s u := by
  unfold execProbeTimeout at h; injection h with h; subst h
  refine keeps_event (fun t g => ?_) (Keeps.refl _)
  repeat' first | with_reducible assumption | with_reducible (first | apply keeps_event | apply keeps_endProbe | apply keeps_bump) | simp only [Keeps.other_iff] | split

end Sys2Proof.Machine
end

