-- ==== Sys2Proof/Laws/KeepsPrograms.lean ====
section
/-! SUPPORT. What programs, complexes, the Cellar Book, the Press, the Memory Guard and the Key Vault do keeps `Keeps`. -/

namespace Sys2Proof.Machine

/-! Programs -/

theorem keeps_startProgram {s0 : State} (q : Nat) (p : Prog) (code data : Bytes) (s : State) (hk : Keeps s0 s) : Keeps s0 (startProgram q p code data s) := by
  unfold startProgram; repeat' first | with_reducible assumption | with_reducible (first | apply keeps_storeMem | apply keeps_setQueue | apply keeps_commit | apply keeps_setCtx) | simp only [Keeps.other_iff]
theorem keeps_copyEvent {s0 : State} (q st : Nat) (s : State) (hk : Keeps s0 s) : Keeps s0 (copyEvent q st s) := by
  unfold copyEvent; repeat' first | with_reducible assumption | with_reducible apply keeps_raiseEv
theorem keeps_copyFails {s0 : State} (q : Nat) (p : Prog) (st : Nat) (s : State) (hk : Keeps s0 s) : Keeps s0 (copyFails q p st s) := by
  unfold copyFails; repeat' first | with_reducible assumption | with_reducible (first | apply keeps_endUnstarted | apply keeps_copyEvent)
theorem keeps_startNext {s0 : State} (q : Nat) (desc : Bytes) (prog data : HostXfer) (s : State) (hk : Keeps s0 s) : Keeps s0 (startNext q desc prog data s) := by
  unfold startNext; repeat' first | with_reducible assumption | with_reducible (first | apply keeps_setCtx | apply keeps_endUnstarted | apply keeps_copyFails | apply keeps_bump | apply keeps_startProgram | apply keeps_commit | apply keeps_setQueue | apply Keeps.ite) | simp only [Keeps.other_iff] | split
theorem keeps_takeDescriptor {s0 : State} (q : Nat) (desc : Bytes) (prog data : HostXfer) (s : State) (hk : Keeps s0 s) : Keeps s0 (takeDescriptor q desc prog data s) := by
  unfold takeDescriptor; repeat' first | with_reducible assumption | with_reducible (first | apply keeps_setQueue | apply keeps_startNext | apply Keeps.ite) | simp only [Keeps.other_iff] | split
theorem keeps_execProgramStart (t q : Nat) (desc : Bytes) (prog data : HostXfer) (s : State) {u : State} (h : execProgramStart t q desc prog data s = .next u) : Keeps s u := by
  unfold execProgramStart at h; injection h with h; subst h
  refine keeps_event (fun t g => ?_) (Keeps.refl _)
  repeat' first | with_reducible assumption | with_reducible (first | apply keeps_event | apply keeps_takeDescriptor)
theorem keeps_execProgramCopyTimeout (t q : Nat) (s : State) {u : State} (h : execProgramCopyTimeout t q s = .next u) : Keeps s u := by
  unfold execProgramCopyTimeout at h; injection h with h; subst h
  refine keeps_event (fun t g => ?_) (Keeps.refl _)
  repeat' first | with_reducible assumption | with_reducible (first | apply keeps_event | apply keeps_copyFails | apply keeps_bump) | simp only [Keeps.other_iff] | split
theorem keeps_execProgramTimeLimit (t q : Nat) (s : State) {u : State} (h : execProgramTimeLimit t q s = .next u) : Keeps s u := by
  unfold execProgramTimeLimit at h; injection h with h; subst h
  refine keeps_event (fun t g => ?_) (Keeps.refl _)
  repeat' first | with_reducible assumption | with_reducible (first | apply keeps_event | apply keeps_endProgram) | simp only [Keeps.other_iff] | split
theorem keeps_execWaitEvTimeout (t k : Nat) (s : State) {u : State} (h : execWaitEvTimeout t k s = .next u) : Keeps s u := by
  unfold execWaitEvTimeout at h; injection h with h; subst h
  refine keeps_event (fun t g => ?_) (Keeps.refl _)
  repeat' first | with_reducible assumption | with_reducible (first | apply keeps_event | apply keeps_commit | apply keeps_finish) | simp only [Keeps.other_iff] | split
theorem keeps_execWaitTExpiry (t k : Nat) (s : State) {u : State} (h : execWaitTExpiry t k s = .next u) : Keeps s u := by
  unfold execWaitTExpiry at h; injection h with h; subst h
  refine keeps_event (fun t g => ?_) (Keeps.refl _)
  repeat' first | with_reducible assumption | with_reducible (first | apply keeps_event | apply keeps_commit | apply keeps_finish) | simp only [Keeps.other_iff] | split
theorem keeps_planned {s0 : State} (auto : Bool) (s : State) (hk : Keeps s0 s) : Keeps s0 (planned auto s) := by
  unfold planned; repeat' first | with_reducible assumption | with_reducible (first | apply keeps_baseImage | apply Keeps.ite | apply SeqStep.update) | simp only [Keeps.other_iff] | split | with_reducible apply Keeps.withSeq
theorem keeps_abandonStaging {s0 : State} (s : State) (hk : Keeps s0 s) : Keeps s0 (abandonStaging s) := by
  unfold abandonStaging; repeat' first | with_reducible assumption | with_reducible (first | apply keeps_complete | apply SeqStep.update) | simp only [Keeps.other_iff] | split | with_reducible apply Keeps.withSeq
theorem keeps_markFailed {s0 : State} (x : Nat) (s : State) (hk : Keeps s0 s) : Keeps s0 (markFailed x s) := by
  unfold markFailed; repeat' first | with_reducible assumption | with_reducible (first | apply keeps_raiseComplex | apply keeps_setHealth)
theorem keeps_noteFault {s0 : State} (x : Nat) (s : State) (hk : Keeps s0 s) : Keeps s0 (noteFault x s) := by
  unfold noteFault; repeat' first | with_reducible assumption | with_reducible (first | apply keeps_abandonStaging | apply keeps_raiseComplex | apply keeps_markFailed | apply keeps_setHealth | apply Keeps.ite | apply SeqStep.update) | simp only [Keeps.other_iff] | split | with_reducible apply Keeps.withSeq
theorem keeps_noActive {s0 : State} (s : State) (hk : Keeps s0 s) : Keeps s0 (noActive s) :=
  keeps_setCause _ _ (hk.withSeq fun q => ⟨q.1, q.2.1, q.2.2.1, q.2.2.2.1, (fun _ h => nomatch h), q.2.2.2.2.2⟩)
theorem keeps_activeFault {s0 : State} (x : Nat) (s : State) (hk : Keeps s0 s) : Keeps s0 (activeFault x s) := by
  have g := keeps_noteFault x _ hk
  unfold activeFault
  dsimp only
  split
  · exact keeps_takeControl _ _ _ _ (Nat.lt_succ_of_le (Nat.sub_le 1 _)) g
  · exact keeps_noActive _ g
theorem keeps_standbyFault {s0 : State} (x : Nat) (s : State) (hk : Keeps s0 s) : Keeps s0 (standbyFault x s) := by
  unfold standbyFault; repeat' first | with_reducible assumption | with_reducible (first | apply keeps_noteFault | apply SeqStep.update) | simp only [Keeps.other_iff] | with_reducible apply Keeps.withSeq
theorem keeps_complexFaultEff {s0 : State} (x : Nat) (s : State) (hk : Keeps s0 s) : Keeps s0 (complexFaultEff x s) := by
  unfold complexFaultEff; repeat' first | with_reducible assumption | with_reducible (first | apply keeps_activeFault | apply keeps_standbyFault | apply Keeps.ite) | split
theorem keeps_codewordRead {s0 : State} (x cw errors : Nat) (s : State) (hk : Keeps s0 s) : Keeps s0 (codewordRead x cw errors s) := by
  unfold codewordRead; repeat' first | with_reducible assumption | with_reducible (first | apply keeps_badCodeword | apply keeps_bump | apply Keeps.ite) | split
theorem keeps_readCkpt {s0 : State} (found : List CkptRead) (s : State) (hk : Keeps s0 s) : Keeps s0 (readCkpt found s) := by
  unfold readCkpt; repeat' first | with_reducible assumption | with_reducible (first | apply keeps_codewordRead | apply Keeps.foldl) | intro _ _ _
theorem keeps_execComplexFault (t : Nat) (f : CplxFault) (s : State) {u : State} (h : execComplexFault t f s = .next u) : Keeps s u := by
  unfold execComplexFault at h; injection h with h; subst h
  refine keeps_event (fun t g => ?_) (Keeps.refl _)
  repeat' first | with_reducible assumption | with_reducible (first | apply keeps_event | apply keeps_complexFaultEff | apply keeps_readCkpt | apply Keeps.ite) | split
theorem keeps_execInstructionWatchdog (t k : Nat) (s : State) {u : State} (h : execInstructionWatchdog t k s = .next u) : Keeps s u := by
  unfold execInstructionWatchdog at h; injection h with h; subst h
  refine keeps_event (fun t g => ?_) (Keeps.refl _)
  repeat' first | with_reducible assumption | with_reducible (first | apply keeps_event | apply keeps_activeFault) | simp only [Keeps.other_iff] | split
theorem keeps_execStandbySelfTest (t : Nat) (pass : Bool) (s : State) {u : State} (h : execStandbySelfTest t pass s = .next u) : Keeps s u := by
  unfold execStandbySelfTest at h; injection h with h; subst h
  refine keeps_event (fun t g => ?_) (Keeps.refl _)
  repeat' first | with_reducible assumption | with_reducible (first | apply keeps_event | apply keeps_setHealth | apply keeps_standbyFault | apply keeps_markFailed | apply Keeps.ite | apply SeqStep.update) | simp only [Keeps.other_iff] | split | with_reducible apply Keeps.withSeq
theorem keeps_execRepairSelfTest (t : Nat) (pass : Bool) (s : State) {u : State} (h : execRepairSelfTest t pass s = .next u) : Keeps s u := by
  unfold execRepairSelfTest at h; injection h with h; subst h
  refine keeps_event (fun t g => ?_) (Keeps.refl _)
  repeat' first | with_reducible assumption | with_reducible (first | apply keeps_event | apply keeps_setHealth | apply keeps_markFailed | apply Keeps.ite | apply SeqStep.update) | simp only [Keeps.other_iff] | split | with_reducible apply Keeps.withSeq
theorem keeps_execHoldoffExpiry (t : Nat) (s : State) {u : State} (h : execHoldoffExpiry t s = .next u) : Keeps s u := by
  unfold execHoldoffExpiry at h; injection h with h; subst h
  refine keeps_event (fun t g => ?_) (Keeps.refl _)
  repeat' first | with_reducible assumption | with_reducible (first | apply keeps_event | apply keeps_planned) | simp only [Keeps.other_iff] | split
theorem keeps_tryGo {s0 : State} (s : State) (hk : Keeps s0 s) : Keeps s0 (tryGo s) := by
  unfold tryGo; repeat' first | with_reducible assumption | with_reducible (first | apply keeps_planned | apply Keeps.ite) | split
theorem keeps_wakeSlots {s0 : State} (s : State) (hk : Keeps s0 s) : Keeps s0 (wakeSlots s) := by
  unfold wakeSlots; repeat' first | with_reducible assumption | with_reducible (first | apply keeps_journalEntry | apply keeps_setCtx | apply Keeps.ite | apply Keeps.foldl) | simp only [Keeps.other_iff] | intro _ _ _ | split
theorem keeps_execCommandTimeout (t k : Nat) (s : State) {u : State} (h : execCommandTimeout t k s = .next u) : Keeps s u := by
  unfold execCommandTimeout at h; injection h with h; subst h
  refine keeps_event (fun t g => ?_) (Keeps.refl _)
  repeat' first | with_reducible assumption | with_reducible (first | apply keeps_event | apply keeps_tryGo | apply keeps_wakeSlots | apply keeps_commit | apply keeps_finish) | simp only [Keeps.other_iff] | split
theorem keeps_execCommandCompletion (t cseq : Nat) (s : State) {u : State} (h : execCommandCompletion t cseq s = .next u) : Keeps s u := by
  unfold execCommandCompletion at h; injection h with h; subst h
  refine keeps_event (fun t g => ?_) (Keeps.refl _)
  repeat' first | with_reducible assumption | with_reducible (first | apply keeps_event | apply keeps_complete | apply Keeps.ite) | simp only [Keeps.other_iff] | split
theorem keeps_bindAs {s0 : State} (f : Tab Binding → Tab Binding) (s : State) (hk : Keeps s0 s) : Keeps s0 (bindAs f s) := by
  unfold bindAs; repeat' first | with_reducible assumption | with_reducible (first | apply keeps_journalEntry | apply SeqStep.update) | simp only [Keeps.other_iff] | with_reducible apply Keeps.withSeq
theorem keeps_activate {s0 : State} (e : Ev) (b : Binding) (s : State) (hk : Keeps s0 s) : Keeps s0 (activate e b s) := by
  unfold activate; repeat' first | with_reducible assumption | with_reducible (first | apply keeps_raise | apply Keeps.ite | apply SeqStep.update) | simp only [Keeps.other_iff] | split | with_reducible apply Keeps.withSeq
theorem keeps_wakeOne {s0 : State} (e : Ev) (s : State) (k : Nat) (hk : Keeps s0 s) : Keeps s0 (wakeOne e s k) := by
  unfold wakeOne; repeat' first | with_reducible assumption | with_reducible (first | apply keeps_endWaitOn | apply keeps_setCtx | apply Keeps.ite) | simp only [Keeps.other_iff] | split
theorem keeps_wakeWaits {s0 : State} (e : Ev) (s : State) (hk : Keeps s0 s) : Keeps s0 (wakeWaits e s) := by
  unfold wakeWaits; repeat' first | with_reducible assumption | with_reducible (first | apply keeps_wakeOne | apply Keeps.ite | apply Keeps.foldl) | intro _ _ _ | split
theorem keeps_activateBest {s0 : State} (e : Ev) (s : State) (hk : Keeps s0 s) : Keeps s0 (activateBest e s) := by
  unfold activateBest; repeat' first | with_reducible assumption | with_reducible apply keeps_activate | simp only [Keeps.other_iff] | split
theorem keeps_dispatch {s0 : State} (e : Ev) (s : State) (hk : Keeps s0 s) : Keeps s0 (dispatch e s) := by
  unfold dispatch; repeat' first | with_reducible assumption | with_reducible (first | apply keeps_activateBest | apply keeps_wakeWaits)
theorem keeps_writeRec {s0 : State} (e : Ev) (s : State) (hc : s.book.count < 0x7FFFFFFF) (hk : Keeps s0 s) :
    Keeps s0 (writeRec e s) := by
  have hb : ∀ r f, BookStep s.book { s.book with count := s.book.count + 1, recs := r, opens := s.book.opens.filter f } :=
    fun r f b => ⟨b.1, (List.length_filter_le _ _).trans b.2.1, by show s.book.count + 1 < 2 ^ 31; omega⟩
  unfold writeRec
  repeat' first | with_reducible (first | apply keeps_setCause) | simp only [Keeps.other_iff] | split
  all_goals exact hk.withBook (hb _ _)
theorem keeps_missEv {s0 : State} (e : Ev) (s : State) (hk : Keeps s0 s) : Keeps s0 (missEv e s) := by
  unfold missEv; repeat' first | with_reducible assumption | with_reducible apply BookStep.update | simp only [Keeps.other_iff] | with_reducible apply Keeps.withBook
theorem keeps_recordRepeat {s0 : State} (e : Ev) (o : Nat × Nat × Nat) (s : State) (ho : o ∈ s.book.opens)
    (hk : Keeps s0 s) : Keeps s0 (recordRepeat e o s) := by
  have hb : ∀ r n, BookStep s.book { s.book with
      recs := r, lost := n, opens := s.book.opens.filter (fun x => !(x.1 == o.1 && x.2.1 == o.2.1)) ++ [o] } := by
    refine fun r n b => ⟨b.1, ?_, b.2.2⟩
    have : (s.book.opens.filter (fun x => !(x.1 == o.1 && x.2.1 == o.2.1))).length < s.book.opens.length := by
      rw [List.length_filter_lt_length_iff_exists]
      exact ⟨o, ho, by simp⟩
    have := b.2.1
    show (_ ++ [o]).length ≤ 64
    rw [List.length_append, List.length_singleton]
    omega
  unfold recordRepeat
  dsimp only
  split
  · exact keeps_missEv _ _ (hk.withBook (hb _ _))
  · (repeat' split) <;> exact hk.withBook (hb _ _)
theorem keeps_recordNew {s0 : State} (e : Ev) (s : State) (hk : Keeps s0 s) : Keeps s0 (recordNew e s) := by
  have opn : ∀ (t : State) n, Keeps s0 t → Keeps s0 (if isRepeat e.code then { t with book := { t.book with
      opens := (t.book.opens ++ [(e.code, e.obj, n)]).drop (t.book.opens.length - 63) } } else t) := by
    intro t n h
    split
    · refine h.set_book fun b => ⟨b.1, ?_, b.2.2⟩
      show (List.drop _ _).length ≤ 64
      rw [List.length_drop, List.length_append, List.length_singleton]
      omega
    · exact h
  unfold recordNew
  refine keeps_dispatch _ _ (opn _ _ ?_)
  by_cases hc : 0x7FFFFFFF ≤ s.book.count
  · simp only [hc, decide_true, if_true]
    exact keeps_missEv _ _ (hk.withBook (.update _))
  · simp only [hc, decide_false, Bool.false_eq_true, if_false]
    split
    · exact keeps_missEv _ _ hk
    · exact keeps_writeRec _ _ (by omega) hk
theorem keeps_recordEv {s0 : State} (e : Ev) (s : State) (hk : Keeps s0 s) : Keeps s0 (recordEv e s) := by
  have g : Keeps s0 (match openOf s e with | some o => recordRepeat e o s | none => recordNew e s) := by
    split
    · rename_i o ho
      refine keeps_recordRepeat _ _ _ ?_ hk
      unfold openOf at ho
      split at ho
      · exact List.mem_of_find?_eq_some ho
      · cases ho
    · exact keeps_recordNew _ _ hk
  unfold recordEv
  dsimp only
  split
  · exact g.set_book (legalBook_of (Nat.le_refl _) (List.length_filter_le _ _) rfl)
  · exact g
theorem keeps_recordFirst {s0 : State} (errors : Nat) (s : State) (hk : Keeps s0 s) : Keeps s0 (recordFirst errors s) := by
  unfold recordFirst
  split
  · rename_i e he
    have g := keeps_codewordRead (stagingBase + s.book.staged.idxOf e % stagingCells) 0 errors _ hk
    dsimp only
    split
    · exact g
    · exact keeps_recordEv _ _ (g.set_book (legalBook_of (List.length_erase_le) (Nat.le_refl _) rfl))
  · exact hk
theorem keeps_execEventRecord (x : StagedRead) (s : State) {u : State} (h : execEventRecord x s = .next u) : Keeps s u := by
  unfold execEventRecord at h; injection h with h; subst h
  refine keeps_event (fun t g => ?_) (Keeps.refl _)
  repeat' first | with_reducible assumption | with_reducible (first | apply keeps_event | apply keeps_recordFirst)
theorem keeps_startHandler {s0 : State} (l : Nat) (s : State) (hk : Keeps s0 s) : Keeps s0 (startHandler l s) := by
  unfold startHandler; repeat' first | with_reducible assumption | with_reducible (first | apply keeps_commit | apply keeps_setCtx | apply SeqStep.update) | simp only [Keeps.other_iff] | split | with_reducible apply Keeps.withSeq
theorem keeps_execHandlerStart (t l : Nat) (s : State) {u : State} (h : execHandlerStart t l s = .next u) : Keeps s u := by
  unfold execHandlerStart at h; injection h with h; subst h
  refine keeps_event (fun t g => ?_) (Keeps.refl _)
  repeat' first | with_reducible assumption | with_reducible (first | apply keeps_event | apply keeps_startHandler)
theorem keeps_evBindCmd {s0 s : State} (e : Env) (hk : Keeps s0 s) : Keeps s0 (evBindCmd.eff e s).s := by
  unfold evBindCmd; repeat' first | with_reducible assumption | with_reducible apply keeps_bindAs | simp only [Keeps.other_iff] | dsimp only | split
theorem keeps_execEvBind (w : IWord) (s : State) {u : State} (h : execEvBind w s = .next u) : Keeps s u := by
  cases h; exact keeps_runCmd (fun e t g => keeps_evBindCmd e g) (Keeps.refl _)
theorem keeps_evUnbindCmd {s0 s : State} (e : Env) (hk : Keeps s0 s) : Keeps s0 (evUnbindCmd.eff e s).s := by
  unfold evUnbindCmd; repeat' first | with_reducible assumption | with_reducible apply keeps_bindAs | simp only [Keeps.other_iff] | dsimp only | split
theorem keeps_execEvUnbind (w : IWord) (s : State) {u : State} (h : execEvUnbind w s = .next u) : Keeps s u := by
  cases h; exact keeps_runCmd (fun e t g => keeps_evUnbindCmd e g) (Keeps.refl _)
theorem keeps_sysCkptCmd {s0 s : State} (e : Env) (hk : Keeps s0 s) : Keeps s0 (sysCkptCmd.eff e s).s := by
  unfold sysCkptCmd; repeat' first | with_reducible assumption | with_reducible apply keeps_baseImage | dsimp only
theorem keeps_execSysCkpt (w : IWord) (s : State) {u : State} (h : execSysCkpt w s = .next u) : Keeps s u := by
  cases h; exact keeps_runCmd (fun e t g => keeps_sysCkptCmd e g) (Keeps.refl _)
theorem keeps_sysSwitchGoCmd {s0 s : State} (e : Env) (hk : Keeps s0 s) : Keeps s0 (sysSwitchGoCmd.eff e s).s := by
  unfold sysSwitchGoCmd; repeat' first | with_reducible assumption | with_reducible apply SeqStep.update | simp only [Keeps.other_iff] | dsimp only | with_reducible apply Keeps.withSeq
theorem keeps_execSysSwitchGo (w : IWord) (s : State) {u : State}
    (h : execSysSwitchGo w s = .next u) : Keeps s u := by
  unfold execSysSwitchGo at h
  cases h
  have g := keeps_tryGo _ (keeps_runCmd (fun e t g => keeps_sysSwitchGoCmd e g) (Keeps.refl s) (w := w))
  dsimp only
  split
  · exact keeps_readCkpt _ _ g
  · exact g
theorem keeps_sysSwitchStageCmd {s0 s : State} (e : Env) (hk : Keeps s0 s) : Keeps s0 (sysSwitchStageCmd.eff e s).s := by
  unfold sysSwitchStageCmd; repeat' first | with_reducible assumption | with_reducible (first | apply keeps_event | apply SeqStep.update) | simp only [Keeps.other_iff] | dsimp only | with_reducible apply Keeps.withSeq
theorem keeps_execSysSwitchStage (w : IWord) (s : State) {u : State} (h : execSysSwitchStage w s = .next u) : Keeps s u := by
  cases h; exact keeps_runCmd (fun e t g => keeps_sysSwitchStageCmd e g) (Keeps.refl _)
theorem keeps_sysSwitchHoldoffCmd {s0 s : State} (e : Env) (hk : Keeps s0 s) : Keeps s0 (sysSwitchHoldoffCmd.eff e s).s := by
  unfold sysSwitchHoldoffCmd; repeat' first | with_reducible assumption | with_reducible apply SeqStep.update | simp only [Keeps.other_iff] | dsimp only | with_reducible apply Keeps.withSeq
theorem keeps_execSysSwitchHoldoff (w : IWord) (s : State) {u : State} (h : execSysSwitchHoldoff w s = .next u) : Keeps s u := by
  cases h; exact keeps_runCmd (fun e t g => keeps_sysSwitchHoldoffCmd e g) (Keeps.refl _)
theorem keeps_transferOver {s0 : State} (k st : Nat) (s : State) (hk : Keeps s0 s) : Keeps s0 (transferOver k st s) := by
  unfold transferOver; repeat' first | with_reducible assumption | with_reducible (first | apply keeps_commit | apply keeps_finish | apply keeps_setCtx | apply Keeps.ite) | simp only [Keeps.other_iff] | split
theorem keeps_hostTransferLate {s0 : State} (k : Nat) (s : State) (hk : Keeps s0 s) : Keeps s0 (hostTransferLate k s) := by
  unfold hostTransferLate; repeat' first | with_reducible assumption | with_reducible (first | apply keeps_transferOver | apply keeps_bump)

/-! Book -/

theorem keeps_recordMany {s0 : State} (n : Nat) (s : State) (hk : Keeps s0 s) : Keeps s0 (recordMany n s) := by
  induction n generalizing s with
  | zero => exact hk
  | succ n ih => exact ih _ (keeps_recordFirst _ _ hk)
theorem keeps_recordAll {s0 : State} (s : State) (hk : Keeps s0 s) : Keeps s0 (recordAll s) := by
  unfold recordAll; repeat' first | with_reducible assumption | with_reducible apply keeps_recordMany
theorem keeps_logWriteCmd {s0 s : State} (e : Env) (hk : Keeps s0 s) : Keeps s0 (logWriteCmd.eff e s).s := by
  unfold logWriteCmd; repeat' first | with_reducible assumption | with_reducible apply keeps_raiseEv | dsimp only
theorem keeps_execLogWrite (w : IWord) (s : State) {u : State} (h : execLogWrite w s = .next u) : Keeps s u := by
  cases h; exact keeps_runCmd (fun e t g => keeps_logWriteCmd e g) (Keeps.refl _)
theorem keeps_freeze {s0 : State} (s : State) (hk : Keeps s0 s) : Keeps s0 (freeze s) := by
  unfold freeze; repeat' first | with_reducible assumption | with_reducible (first | apply keeps_recordAll | apply keeps_recordNew | apply Keeps.ite | apply BookStep.update) | simp only [Keeps.other_iff] | split | with_reducible apply Keeps.withBook
theorem keeps_logFreezeCmd {s0 s : State} (e : Env) (hk : Keeps s0 s) : Keeps s0 (logFreezeCmd.eff e s).s := by
  unfold logFreezeCmd; repeat' first | with_reducible assumption | with_reducible apply keeps_freeze | dsimp only
theorem keeps_execLogFreeze (w : IWord) (s : State) {u : State} (h : execLogFreeze w s = .next u) : Keeps s u := by
  cases h; exact keeps_runCmd (fun e t g => keeps_logFreezeCmd e g) (Keeps.refl _)
theorem keeps_thaw {s0 : State} (s : State) (hk : Keeps s0 s) : Keeps s0 (thaw s) := by
  unfold thaw; repeat' first | with_reducible assumption | with_reducible (first | apply keeps_recordAll | apply keeps_recordNew | apply Keeps.ite | apply BookStep.update) | simp only [Keeps.other_iff] | split | with_reducible apply Keeps.withBook
theorem keeps_logThawCmd {s0 s : State} (e : Env) (hk : Keeps s0 s) : Keeps s0 (logThawCmd.eff e s).s := by
  unfold logThawCmd; repeat' first | with_reducible assumption | with_reducible apply keeps_thaw | dsimp only
theorem keeps_execLogThaw (w : IWord) (s : State) {u : State} (h : execLogThaw w s = .next u) : Keeps s u := by
  cases h; exact keeps_runCmd (fun e t g => keeps_logThawCmd e g) (Keeps.refl _)
theorem keeps_clearBook {s0 : State} (s : State) (hk : Keeps s0 s) : Keeps s0 (clearBook s) := by
  have g := keeps_recordMany (s.book.staged.filter (fun e => decide (e.at_ < s.clk.root))).length _ hk
  unfold clearBook
  generalize recordMany _ s = u at g ⊢
  refine keeps_recordNew _ _ (g.withBook ?_)
  exact fun b => ⟨b.1, Nat.zero_le _, Nat.two_pow_pos _⟩
theorem keeps_logClearCmd {s0 s : State} (e : Env) (hk : Keeps s0 s) : Keeps s0 (logClearCmd.eff e s).s := by
  unfold logClearCmd; repeat' first | with_reducible assumption | with_reducible apply keeps_clearBook | dsimp only
theorem keeps_execLogClear (w : IWord) (s : State) {u : State} (h : execLogClear w s = .next u) : Keeps s u := by
  cases h; exact keeps_runCmd (fun e t g => keeps_logClearCmd e g) (Keeps.refl _)
theorem keeps_cbRead {s0 : State} (k : Nat) (s : State) (hk : Keeps s0 s) : Keeps s0 (cbRead k s) := by
  unfold cbRead; repeat' first | with_reducible assumption | with_reducible (first | apply keeps_emit | apply Keeps.ite | apply BookStep.update) | simp only [Keeps.other_iff] | split | with_reducible apply Keeps.withBook
theorem keeps_execCbWindowRead (t k : Nat) (s : State) {u : State} (h : execCbWindowRead t k s = .next u) : Keeps s u := by
  unfold execCbWindowRead at h; injection h with h; subst h
  refine keeps_event (fun t g => ?_) (Keeps.refl _)
  repeat' first | with_reducible assumption | with_reducible (first | apply keeps_event | apply keeps_cbRead)

/-! Press -/

theorem keeps_setOp {s0 : State} (g : Nat) (o : OpSlot) (s : State) (hk : Keeps s0 s) : Keeps s0 (setOp g o s) := by
  unfold setOp; repeat' first | with_reducible assumption | simp only [Keeps.other_iff]
theorem keeps_shape {s0 : State} (g k : Nat) (s : State) (hk : Keeps s0 s) : Keeps s0 (shape g k s) := by
  unfold shape; repeat' first | with_reducible assumption | with_reducible apply keeps_setOp | simp only [Keeps.other_iff]
theorem keeps_pkLoadCmd {s0 s : State} (e : Env) (hk : Keeps s0 s) : Keeps s0 (pkLoadCmd.eff e s).s := by
  unfold pkLoadCmd; repeat' first | with_reducible assumption | with_reducible apply keeps_setOp | simp only [Keeps.other_iff] | dsimp only | split
theorem keeps_execPkLoad (w : IWord) (s : State) {u : State} (h : execPkLoad w s = .next u) : Keeps s u := by
  cases h; exact keeps_runCmd (fun e t g => keeps_pkLoadCmd e g) (Keeps.refl _)
theorem keeps_pkReadCmd {s0 s : State} (e : Env) (hk : Keeps s0 s) : Keeps s0 (pkReadCmd.eff e s).s := by
  unfold pkReadCmd; repeat' first | with_reducible assumption | with_reducible apply keeps_addrWrite | simp only [Keeps.other_iff] | dsimp only | split
theorem keeps_execPkRead (w : IWord) (s : State) {u : State} (h : execPkRead w s = .next u) : Keeps s u := by
  cases h; exact keeps_runCmd (fun e t g => keeps_pkReadCmd e g) (Keeps.refl _)
theorem keeps_pkOpCmd {s0 s : State} (e : Env) (hk : Keeps s0 s) : Keeps s0 (pkOpCmd.eff e s).s := by
  unfold pkOpCmd; repeat' first | with_reducible assumption | with_reducible (first | apply keeps_event | apply Keeps.ite) | simp only [Keeps.other_iff] | dsimp only | split
theorem keeps_execPkOp (w : IWord) (s : State) {u : State} (h : execPkOp w s = .next u) : Keeps s u := by
  cases h; exact keeps_runCmd (fun e t g => keeps_pkOpCmd e g) (Keeps.refl _)
theorem keeps_perform {s0 : State} (up : Bytes) (op : PressOp) (s : State) (hk : Keeps s0 s) : Keeps s0 (perform up op s) := by
  unfold perform; repeat' first | with_reducible assumption | with_reducible (first | apply keeps_internalRandom | apply Keeps.ite) | simp only [Keeps.other_iff] | split
theorem keeps_runFn {s0 : State} (run : PressRun) (fs : List Nat) (s : State) (hk : Keeps s0 s) : Keeps s0 (runFn run fs s) := by
  refine keeps_event (fun t g => ?_) hk
  split
  · exact keeps_perform _ _ _ g
  · exact g
theorem keeps_execPkShape (t : Nat) (s : State) {u : State} (h : execPkShape t s = .next u) : Keeps s u := by
  unfold execPkShape at h; injection h with h; subst h
  refine keeps_event (fun t g => ?_) (Keeps.refl _)
  repeat' first | with_reducible assumption | with_reducible (first | apply keeps_event | apply keeps_shape) | simp only [Keeps.other_iff] | split
theorem keeps_execEcPub (run : PressRun) (s : State) {u : State} (h : execEcPub run s = .next u) : Keeps s u := by
  cases h; exact keeps_runFn _ _ _ (Keeps.refl _)
theorem keeps_execEcdsaSign (run : PressRun) (s : State) {u : State} (h : execEcdsaSign run s = .next u) : Keeps s u := by
  cases h; exact keeps_runFn _ _ _ (Keeps.refl _)
theorem keeps_execEcdsaVerify (run : PressRun) (s : State) {u : State} (h : execEcdsaVerify run s = .next u) : Keeps s u := by
  cases h; exact keeps_runFn _ _ _ (Keeps.refl _)
theorem keeps_execEcdhMac (run : PressRun) (s : State) {u : State} (h : execEcdhMac run s = .next u) : Keeps s u := by
  cases h; exact keeps_runFn _ _ _ (Keeps.refl _)
theorem keeps_execEcMul (run : PressRun) (s : State) {u : State} (h : execEcMul run s = .next u) : Keeps s u := by
  cases h; exact keeps_runFn _ _ _ (Keeps.refl _)
theorem keeps_execModexp (run : PressRun) (s : State) {u : State} (h : execModexp run s = .next u) : Keeps s u := by
  cases h; exact keeps_runFn _ _ _ (Keeps.refl _)
theorem keeps_execRsaPkcs1 (run : PressRun) (s : State) {u : State} (h : execRsaPkcs1 run s = .next u) : Keeps s u := by
  cases h; exact keeps_runFn _ _ _ (Keeps.refl _)
theorem keeps_execRsaPss (run : PressRun) (s : State) {u : State} (h : execRsaPss run s = .next u) : Keeps s u := by
  cases h; exact keeps_runFn _ _ _ (Keeps.refl _)
theorem keeps_execKemPub (run : PressRun) (s : State) {u : State} (h : execKemPub run s = .next u) : Keeps s u := by
  cases h; exact keeps_runFn _ _ _ (Keeps.refl _)
theorem keeps_execKemMac (run : PressRun) (s : State) {u : State} (h : execKemMac run s = .next u) : Keeps s u := by
  cases h; exact keeps_runFn _ _ _ (Keeps.refl _)
theorem keeps_execDsaPub (run : PressRun) (s : State) {u : State} (h : execDsaPub run s = .next u) : Keeps s u := by
  cases h; exact keeps_runFn _ _ _ (Keeps.refl _)
theorem keeps_execDsaSign (run : PressRun) (s : State) {u : State} (h : execDsaSign run s = .next u) : Keeps s u := by
  cases h; exact keeps_runFn _ _ _ (Keeps.refl _)
theorem keeps_execDsaVerify (run : PressRun) (s : State) {u : State} (h : execDsaVerify run s = .next u) : Keeps s u := by
  cases h; exact keeps_runFn _ _ _ (Keeps.refl _)
theorem keeps_internalUse {s0 : State} (n : Nat) (s : State) (hk : Keeps s0 s) : Keeps s0 (internalUse n s) := by
  unfold internalUse; repeat' first | with_reducible assumption | with_reducible apply keeps_bump | simp only [Keeps.other_iff]
theorem keeps_pressMismatch {s0 : State} (s : State) (hk : Keeps s0 s) : Keeps s0 (pressMismatch s) := by
  unfold pressMismatch; repeat' first | with_reducible assumption | with_reducible (first | apply keeps_raise | apply keeps_bump)
theorem keeps_clearing {s0 : State} (s : State) (hk : Keeps s0 s) : Keeps s0 (clearing s) := by
  unfold clearing; repeat' first | with_reducible assumption | with_reducible (first | apply keeps_draw | apply keeps_internalRandom | apply Keeps.ite) | simp only [Keeps.other_iff] | split
theorem keeps_endOp {s0 : State} (op : PressOp) (st n : Nat) (s : State) (hk : Keeps s0 s) : Keeps s0 (endOp op st n s) := by
  unfold endOp; repeat' first | with_reducible assumption | with_reducible (first | apply keeps_bump | apply keeps_clearing | apply keeps_complete | apply Keeps.ite) | simp only [Keeps.other_iff] | split
theorem keeps_startOp {s0 : State} (op : PressOp) (rest : List PressOp) (s : State) (hk : Keeps s0 s) : Keeps s0 (startOp op rest s) := by
  unfold startOp; repeat' first | with_reducible assumption | with_reducible (first | apply keeps_bump | apply keeps_endOp | apply Keeps.ite) | simp only [Keeps.other_iff] | split
theorem keeps_leftover {s0 : State} (s : State) (op : PressOp) (n : Nat) (hk : Keeps s0 s) : Keeps s0 (leftover s op n).2 := by
  unfold leftover; repeat' first | with_reducible assumption | with_reducible (first | apply keeps_drawOctets | apply Keeps.ite) | simp only [Keeps.other_iff] | dsimp only | split
theorem keeps_stopOp {s0 : State} (op : PressOp) (st n : Nat) (s : State) (hk : Keeps s0 s) : Keeps s0 (stopOp op st n s) := by
  unfold stopOp; repeat' first | with_reducible assumption | with_reducible (first | apply keeps_leftover | apply keeps_endOp | apply keeps_setOp) | simp only [Keeps.other_iff] | split
theorem keeps_completeOp {s0 : State} (op : PressOp) (st : Nat) (out : Bytes) (s : State) (hk : Keeps s0 s) : Keeps s0 (completeOp op st out s) := by
  unfold completeOp; repeat' first | with_reducible assumption | with_reducible (first | apply keeps_stopOp | apply keeps_pressMismatch | apply keeps_setOp | apply keeps_raise | apply keeps_endOp | apply Keeps.ite) | simp only [Keeps.other_iff] | split
theorem keeps_completeRunning {s0 : State} (s : State) (hk : Keeps s0 s) : Keeps s0 (completeRunning s) := by
  unfold completeRunning; repeat' first | with_reducible assumption | with_reducible apply keeps_completeOp | simp only [Keeps.other_iff] | split
theorem keeps_endRunning {s0 : State} (st : Nat) (s : State) (hk : Keeps s0 s) : Keeps s0 (endRunning st s) := by
  unfold endRunning; repeat' first | with_reducible assumption | with_reducible (first | apply keeps_perform | apply keeps_completeOp | apply keeps_stopOp | apply Keeps.ite) | simp only [Keeps.other_iff] | split
theorem keeps_pkAbortCmd {s0 s : State} (e : Env) (hk : Keeps s0 s) : Keeps s0 (pkAbortCmd.eff e s).s := by
  unfold pkAbortCmd; repeat' first | with_reducible assumption | with_reducible apply keeps_endRunning | dsimp only
theorem keeps_pressErased {s0 : State} (slot : Nat) (s : State) (hk : Keeps s0 s) : Keeps s0 (pressErased slot s) := by
  unfold pressErased; repeat' first | with_reducible assumption | with_reducible (first | apply keeps_endRunning | apply Keeps.ite) | simp only [Keeps.other_iff] | split
theorem keeps_pressWiped {s0 : State} (s : State) (hk : Keeps s0 s) : Keeps s0 (pressWiped s) := by
  unfold pressWiped; repeat' first | with_reducible assumption | with_reducible (first | apply keeps_endOp | apply Keeps.foldl) | simp only [Keeps.other_iff] | intro _ _ _ | split

/-! Guard -/

theorem keeps_execMgAccess (t : Nat) (m : MgMaster) (acc : MgAccess) (s : State) {u : State} (h : execMgAccess t m acc s = .next u) : Keeps s u := by
  unfold execMgAccess at h; injection h with h; subst h
  refine keeps_event (fun t g => ?_) (Keeps.refl _)
  repeat' first | with_reducible assumption | with_reducible (first | apply keeps_event | apply keeps_mgAccess | apply keeps_emit)
theorem keeps_portLine {s0 : State} (x v i : Nat) (fault : DramFault) (others : List (Nat × DramFault)) (r : Nat × State)
    (hk : Keeps s0 r.2) : Keeps s0 (portLine x v i fault others r).2 := by
  unfold portLine
  dsimp only
  repeat' first | with_reducible assumption | with_reducible (first | apply keeps_storeMem | apply keeps_mgAccess) | split
theorem keeps_portCopy {s0 : State} (faults : List DramFault) (others : List (Nat × DramFault)) (s : State)
    (hk : Keeps s0 s) : Keeps s0 (portCopy faults others s) := by
  have key : ∀ (x v : Nat) (l : List Nat) (r : Nat × State), Keeps s0 r.2 →
      Keeps s0 (l.foldl (fun r i => portLine x v i (faults.getD i .none) others r) r).2 := by
    intro x v l
    induction l with
    | nil => exact fun _ h => h
    | cons a l ih => exact fun r h => ih _ (keeps_portLine _ _ _ _ _ _ h)
  unfold portCopy
  dsimp only
  split
  · exact hk
  · apply keeps_storeMem
    split
    · exact hk
    · exact key _ _ _ _ hk
theorem keeps_execMemoryPortCopy (t : Nat) (x : CopyFaults) (s : State) {u : State} (h : execMemoryPortCopy t x s = .next u) : Keeps s u := by
  unfold execMemoryPortCopy at h; injection h with h; subst h
  refine keeps_event (fun t g => ?_) (Keeps.refl _)
  repeat' first | with_reducible assumption | with_reducible (first | apply keeps_event | apply keeps_portCopy)
theorem keeps_dropQuarantine {s0 : State} (base n : Nat) (s : State) (hk : Keeps s0 s) : Keeps s0 (dropQuarantine base n s) := by
  unfold dropQuarantine; repeat' first | with_reducible assumption | simp only [Keeps.other_iff]
theorem keeps_freshPages {s0 : State} (base n : Nat) (s : State) (hk : Keeps s0 s) : Keeps s0 (freshPages base n s) := by
  unfold freshPages; repeat' first | with_reducible assumption | simp only [Keeps.other_iff]
theorem keeps_createRegion {s0 : State} (r v : Nat) (s : State) (hk : Keeps s0 s) : Keeps s0 (createRegion r v s) := by
  unfold createRegion; repeat' first | with_reducible assumption | with_reducible (first | apply keeps_loadKey | apply keeps_freshPages | apply keeps_dropQuarantine | apply keeps_setRegion | apply Keeps.ite) | simp only [Keeps.other_iff] | split
theorem keeps_createRoot {s0 : State} (i : Nat) (s : State) (hk : Keeps s0 s) : Keeps s0 (createRoot i s) := by
  unfold createRoot; repeat' first | with_reducible assumption | with_reducible (first | apply keeps_createRegion | apply Keeps.ite) | split
theorem keeps_rootstockMemory {s0 : State} (s : State) (hk : Keeps s0 s) : Keeps s0 (rootstockMemory s) := by
  unfold rootstockMemory; repeat' first | with_reducible assumption | with_reducible apply keeps_createRoot | simp only [Keeps.other_iff]
theorem keeps_mgRegionCreateBare {s0 s : State} (e : Env) (hk : Keeps s0 s) : Keeps s0 (mgRegionCreateBare.eff e s).s := by
  unfold mgRegionCreateBare; repeat' first | with_reducible assumption | with_reducible apply keeps_createRegion | dsimp only
theorem keeps_loseSpill {s0 : State} (s : State) (hk : Keeps s0 s) : Keeps s0 (loseSpill s) := by
  unfold loseSpill; repeat' first | with_reducible assumption | with_reducible (first | apply keeps_bumpCls | apply Keeps.foldl) | simp only [Keeps.other_iff] | intro _ _ _
theorem keeps_endMgOp {s0 : State} (code : Nat) (cseq : Option Nat) (st : Nat) (s : State) (hk : Keeps s0 s) : Keeps s0 (endMgOp code cseq st s) := by
  unfold endMgOp; repeat' first | with_reducible assumption | with_reducible apply keeps_complete | simp only [Keeps.other_iff] | split
theorem keeps_endRegionOps {s0 : State} (g : Region) (st : Nat) (s : State) (hk : Keeps s0 s) : Keeps s0 (endRegionOps g st s) := by
  unfold endRegionOps; repeat' first | with_reducible assumption | with_reducible (first | apply keeps_endMgOp | apply Keeps.ite) | split
theorem keeps_removeRegion {s0 : State} (r st : Nat) (s : State) (hk : Keeps s0 s) : Keeps s0 (removeRegion r st s) := by
  unfold removeRegion; repeat' first | with_reducible assumption | with_reducible (first | apply keeps_endRegionOps | apply keeps_dropKey | apply keeps_dropQuarantine | apply keeps_loseSpill | apply Keeps.ite) | simp only [Keeps.other_iff] | split
theorem keeps_execMgTrainingComplete (t : Nat) (ok : Bool) (place : Nat) (s : State) {u : State} (h : execMgTrainingComplete t ok place s = .next u) : Keeps s u := by
  unfold execMgTrainingComplete at h; injection h with h; subst h
  refine keeps_event (fun t g => ?_) (Keeps.refl _)
  repeat' first | with_reducible assumption | with_reducible (first | apply keeps_event | apply keeps_rootstockMemory | apply keeps_raise | apply Keeps.ite) | simp only [Keeps.other_iff] | split
theorem keeps_mgRegionRemoveCmd {s0 s : State} (e : Env) (hk : Keeps s0 s) : Keeps s0 (mgRegionRemoveCmd.eff e s).s := by
  unfold mgRegionRemoveCmd; repeat' first | with_reducible assumption | with_reducible (first | apply keeps_rootstockMemory | apply keeps_removeRegion) | dsimp only
theorem keeps_execMgRegionRemove (w : IWord) (s : State) {u : State} (h : execMgRegionRemove w s = .next u) : Keeps s u := by
  cases h; exact keeps_runCmd (fun e t g => keeps_mgRegionRemoveCmd e g) (Keeps.refl _)
theorem keeps_mgRightsCmd {s0 s : State} (e : Env) (hk : Keeps s0 s) : Keeps s0 (mgRightsCmd.eff e s).s := by
  unfold mgRightsCmd; repeat' first | with_reducible assumption | with_reducible apply keeps_setRegion | simp only [Keeps.other_iff] | dsimp only | split
theorem keeps_execMgRights (w : IWord) (s : State) {u : State} (h : execMgRights w s = .next u) : Keeps s u := by
  cases h; exact keeps_runCmd (fun e t g => keeps_mgRightsCmd e g) (Keeps.refl _)
theorem keeps_mgRotateBare {s0 s : State} (e : Env) (hk : Keeps s0 s) : Keeps s0 (mgRotateBare.eff e s).s := by
  unfold mgRotateBare; repeat' first | with_reducible assumption | with_reducible (first | apply keeps_beginRotation | apply keeps_event) | simp only [Keeps.other_iff] | dsimp only | split
theorem keeps_reviveRegion {s0 : State} (r v : Nat) (g : Region) (s : State) (hk : Keeps s0 s) : Keeps s0 (reviveRegion r v g s) := by
  unfold reviveRegion; repeat' first | with_reducible assumption | with_reducible (first | apply keeps_dropKey | apply keeps_loadKey | apply keeps_setRegion | apply keeps_freshPages) | simp only [Keeps.other_iff] | split
theorem keeps_mgRebuildBare {s0 s : State} (e : Env) (hk : Keeps s0 s) : Keeps s0 (mgRebuildBare.eff e s).s := by
  unfold mgRebuildBare; repeat' first | with_reducible assumption | with_reducible (first | apply keeps_reviveRegion | apply keeps_setRegion | apply keeps_event | apply Keeps.ite) | simp only [Keeps.other_iff] | dsimp only | split
theorem keeps_finishRotation {s0 : State} (r : Nat) (g : Region) (faults : List (Nat × DramFault)) (s : State) (hk : Keeps s0 s) : Keeps s0 (finishRotation r g faults s) := by
  unfold finishRotation; repeat' first | with_reducible assumption | with_reducible (first | apply keeps_repage | apply keeps_dropKey | apply keeps_bumpMg | apply keeps_setRegion | apply keeps_complete | apply Keeps.foldl) | simp only [Keeps.other_iff] | intro _ _ _ | split
theorem keeps_execMgRotationComplete (t : Nat) (x : RotationEnd) (s : State) {u : State} (h : execMgRotationComplete t x s = .next u) : Keeps s u := by
  unfold execMgRotationComplete at h; injection h with h; subst h
  refine keeps_event (fun t g => ?_) (Keeps.refl _)
  repeat' first | with_reducible assumption | with_reducible (first | apply keeps_event | apply keeps_finishRotation) | simp only [Keeps.other_iff] | split
theorem keeps_rebuildEntry {s0 : State} (q : Nat × Nat) (s : State) (hk : Keeps s0 s) : Keeps s0 (rebuildEntry q s) := by
  unfold rebuildEntry; repeat' first | with_reducible assumption | with_reducible (first | apply keeps_bumpMg | apply keeps_writeBackNode) | simp only [Keeps.other_iff]
theorem keeps_execMgRebuildComplete (t r : Nat) (s : State) {u : State} (h : execMgRebuildComplete t r s = .next u) : Keeps s u := by
  unfold execMgRebuildComplete at h; injection h with h; subst h
  refine keeps_event (fun t g => ?_) (Keeps.refl _)
  repeat' first | with_reducible assumption | with_reducible (first | apply keeps_event | apply keeps_setRegion | apply keeps_rebuildEntry | apply keeps_complete | apply Keeps.foldl) | simp only [Keeps.other_iff] | intro _ _ _ | split
theorem keeps_revokeRegion {s0 : State} (r : Nat) (g : Region) (s : State) (hk : Keeps s0 s) : Keeps s0 (revokeRegion r g s) := by
  unfold revokeRegion; repeat' first | with_reducible assumption | with_reducible (first | apply keeps_endMgOp | apply keeps_setRegion | apply keeps_coldPages | apply keeps_raise | apply Keeps.ite) | simp only [Keeps.other_iff] | split
theorem keeps_mgSlotErased {s0 : State} (slot : Nat) (s : State) (hk : Keeps s0 s) : Keeps s0 (mgSlotErased slot s) := by
  unfold mgSlotErased; repeat' first | with_reducible assumption | with_reducible (first | apply keeps_revokeRegion | apply Keeps.foldl) | simp only [Keeps.other_iff] | intro _ _ _ | split
theorem keeps_mgWiped {s0 : State} (s : State) (hk : Keeps s0 s) : Keeps s0 (mgWiped s) := by
  unfold mgWiped; repeat' first | with_reducible assumption | with_reducible (first | apply keeps_removeRegion | apply Keeps.foldl) | simp only [Keeps.other_iff] | intro _ _ _
theorem keeps_mgScrubStartCmd {s0 s : State} (e : Env) (hk : Keeps s0 s) : Keeps s0 (mgScrubStartCmd.eff e s).s := by
  unfold mgScrubStartCmd; repeat' first | with_reducible assumption | with_reducible (first | apply keeps_setRegion | apply keeps_event) | simp only [Keeps.other_iff] | dsimp only | split
theorem keeps_execMgScrubStart (w : IWord) (s : State) {u : State} (h : execMgScrubStart w s = .next u) : Keeps s u := by
  cases h; exact keeps_runCmd (fun e t g => keeps_mgScrubStartCmd e g) (Keeps.refl _)
theorem keeps_stopScrub {s0 : State} (r : Nat) (g : Region) (s : State) (hk : Keeps s0 s) : Keeps s0 (stopScrub r g s) := by
  unfold stopScrub; repeat' first | with_reducible assumption | with_reducible (first | apply keeps_draw | apply keeps_setRegion | apply keeps_complete | apply keeps_bumpMg) | simp only [Keeps.other_iff] | split
theorem keeps_mgScrubStopCmd {s0 s : State} (e : Env) (hk : Keeps s0 s) : Keeps s0 (mgScrubStopCmd.eff e s).s := by
  unfold mgScrubStopCmd; repeat' first | with_reducible assumption | with_reducible apply keeps_stopScrub | simp only [Keeps.other_iff] | dsimp only | split
theorem keeps_execMgScrubStop (w : IWord) (s : State) {u : State} (h : execMgScrubStop w s = .next u) : Keeps s u := by
  cases h; exact keeps_runCmd (fun e t g => keeps_mgScrubStopCmd e g) (Keeps.refl _)
theorem keeps_scrubLine {s0 : State} (r : Nat) (x : Nat × Nat) (fault : DramFault) (s : State) (hk : Keeps s0 s) : Keeps s0 (scrubLine r x fault s) := by
  unfold scrubLine; repeat' first | with_reducible assumption | with_reducible (first | apply keeps_readStored | apply Keeps.ite) | split
theorem keeps_finishScrub {s0 : State} (r : Nat) (found : List DramFault) (g : Region) (s : State) (hk : Keeps s0 s) : Keeps s0 (finishScrub r found g s) := by
  unfold finishScrub; repeat' first | with_reducible assumption | with_reducible (first | apply keeps_scrubLine | apply keeps_bumpRegion | apply keeps_bumpMg | apply keeps_setRegion | apply keeps_complete | apply Keeps.foldl) | simp only [Keeps.other_iff] | intro _ _ _ | split
theorem keeps_execMgScrubComplete (t : Nat) (pass : ScrubPass) (s : State) {u : State} (h : execMgScrubComplete t pass s = .next u) : Keeps s u := by
  unfold execMgScrubComplete at h; injection h with h; subst h
  refine keeps_event (fun t g => ?_) (Keeps.refl _)
  repeat' first | with_reducible assumption | with_reducible (first | apply keeps_event | apply keeps_finishScrub) | simp only [Keeps.other_iff] | split
theorem keeps_patrolNode {s0 : State} (k idx : Nat) (fault : DramFault) (s : State) (hk : Keeps s0 s) : Keeps s0 (patrolNode k idx fault s) := by
  unfold patrolNode; repeat' first | with_reducible assumption | with_reducible (first | apply keeps_quarantineNode | apply keeps_bumpMg | apply keeps_markDirty | apply Keeps.ite) | split
theorem keeps_patrolData {s0 : State} (r p i : Nat) (fault : DramFault) (s : State) (hk : Keeps s0 s) : Keeps s0 (patrolData r p i fault s) := by
  unfold patrolData; repeat' first | with_reducible assumption | with_reducible apply keeps_scrubLine
theorem keeps_patrolLine {s0 : State} (line : Nat) (fault : DramFault) (s : State) (hk : Keeps s0 s) : Keeps s0 (patrolLine line fault s) := by
  unfold patrolLine; repeat' first | with_reducible assumption | with_reducible (first | apply keeps_bumpMg | apply keeps_patrolNode | apply keeps_patrolData | apply Keeps.ite) | simp only [Keeps.other_iff] | split
theorem keeps_execPatrolScrub (t line : Nat) (fault : DramFault) (s : State) {u : State} (h : execPatrolScrub t line fault s = .next u) : Keeps s u := by
  unfold execPatrolScrub at h; injection h with h; subst h
  refine keeps_event (fun t g => ?_) (Keeps.refl _)
  repeat' first | with_reducible assumption | with_reducible (first | apply keeps_event | apply keeps_patrolLine)

/-! Vault -/

theorem keeps_bumpVault {s0 : State} (k n : Nat) (s : State) (hk : Keeps s0 s) : Keeps s0 (bumpVault k n s) := by
  unfold bumpVault; repeat' first | with_reducible assumption | with_reducible apply keeps_bump
theorem keeps_eraseNow {s0 : State} (i : Nat) (s : State) (hk : Keeps s0 s) : Keeps s0 (eraseNow i s) := by
  unfold eraseNow; repeat' first | with_reducible assumption | with_reducible (first | apply keeps_internalRandom | apply keeps_setSlot | apply keeps_bumpVault | apply keeps_mgSlotErased | apply keeps_pressErased) | simp only [Keeps.other_iff]
theorem keeps_applyOp {s0 : State} (o : SlotOp) (s : State) (hk : Keeps s0 s) : Keeps s0 (applyOp o s) := by
  unfold applyOp; repeat' first | with_reducible assumption | with_reducible (first | apply keeps_eraseNow | apply keeps_setSlot | apply Keeps.ite) | split
theorem keeps_graftEnds {s0 : State} (g : GraftMsg) (st idx : Nat) (s : State) (hk : Keeps s0 s) : Keeps s0 (graftEnds g st idx s) := by
  unfold graftEnds; repeat' first | with_reducible assumption | with_reducible (first | apply keeps_answerService | apply keeps_complete) | simp only [Keeps.other_iff] | split
theorem keeps_pressServes {s0 : State} (m keys : Bytes) (s : State) (hk : Keeps s0 s) : Keeps s0 (pressServes m keys s) := by
  unfold pressServes; repeat' first | with_reducible assumption | with_reducible (first | apply keeps_internalUse | apply keeps_internalRandom | apply Keeps.ite) | split
theorem keeps_graftFails {s0 : State} (g : GraftMsg) (st idx : Nat) (s : State) (hk : Keeps s0 s) : Keeps s0 (graftFails g st idx s) := by
  unfold graftFails; repeat' first | with_reducible assumption | with_reducible (first | apply keeps_graftEnds | apply keeps_bumpVault) | simp only [Keeps.other_iff] | split
theorem keeps_servingErased {s0 : State} (v : Serving) (s : State) (hk : Keeps s0 s) : Keeps s0 (servingErased v s) := by
  unfold servingErased; repeat' first | with_reducible assumption | with_reducible apply keeps_graftFails | simp only [Keeps.other_iff]
theorem keeps_eraseSlot {s0 : State} (i : Nat) (s : State) (hk : Keeps s0 s) : Keeps s0 (eraseSlot i s) := by
  unfold eraseSlot; repeat' first | with_reducible assumption | with_reducible (first | apply keeps_eraseNow | apply keeps_servingErased | apply Keeps.ite) | simp only [Keeps.other_iff] | split
theorem keeps_slotFails {s0 : State} (i : Nat) (s : State) (hk : Keeps s0 s) : Keeps s0 (slotFails i s) := by
  unfold slotFails; repeat' first | with_reducible assumption | with_reducible (first | apply keeps_raise | apply keeps_bumpVault | apply keeps_eraseSlot)
theorem keeps_struckRow {s0 : State} (i n : Nat) (s : State) (hk : Keeps s0 s) : Keeps s0 (struckRow i n s) := by
  unfold struckRow; repeat' first | with_reducible assumption | with_reducible (first | apply keeps_bumpVault | apply keeps_slotFails | apply Keeps.ite) | split
theorem keeps_drawKey {s0 : State} (s : State) (hk : Keeps s0 s) : Keeps s0 (drawKey s).2 := by
  unfold drawKey; repeat' first | with_reducible assumption | with_reducible apply keeps_internalRandom | dsimp only
theorem keeps_newMaskArea {s0 : State} (s : State) (hk : Keeps s0 s) : Keeps s0 (newMaskArea s) := by
  unfold newMaskArea; repeat' first | with_reducible assumption | with_reducible apply keeps_drawKey | simp only [Keeps.other_iff]
theorem keeps_readRows {s0 : State} (run : RemaskRun) (lo hi : Nat) (s : State) (hk : Keeps s0 s) : Keeps s0 (readRows run lo hi s) := by
  unfold readRows; repeat' first | with_reducible assumption | with_reducible (first | apply keeps_struckRow | apply Keeps.foldl) | simp only [Keeps.other_iff] | intro _ _ _ | split
theorem keeps_beginRemask {s0 : State} (s : State) (hk : Keeps s0 s) : Keeps s0 (beginRemask s) := by
  unfold beginRemask; repeat' first | with_reducible assumption | with_reducible (first | apply keeps_drawKey | apply Keeps.ite) | simp only [Keeps.other_iff] | split
theorem keeps_remaskTo {s0 : State} (run : RemaskRun) (s : State) (hk : Keeps s0 s) : Keeps s0 (remaskTo run s) := by
  unfold remaskTo; repeat' first | with_reducible assumption | with_reducible (first | apply keeps_readRows | apply keeps_beginRemask | apply keeps_bumpVault | apply Keeps.ite) | simp only [Keeps.other_iff] | split
theorem keeps_execRemaskPass (run : RemaskRun) (s : State) {u : State} (h : execRemaskPass run s = .next u) : Keeps s u := by
  unfold execRemaskPass at h; injection h with h; subst h
  refine keeps_event (fun t g => ?_) (Keeps.refl _)
  repeat' first | with_reducible assumption | with_reducible (first | apply keeps_event | apply keeps_remaskTo)
theorem keeps_writeCells {s0 : State} (domain counter n bad : Nat) (s : State) (hk : Keeps s0 s) :
    Keeps s0 (writeCells domain counter n bad s) := by
  induction n generalizing bad s with
  | zero => exact hk
  | succ n ih =>
    unfold writeCells
    dsimp only
    split
    · exact hk
    · split
      · exact keeps_putCell _ _ _ _ hk
      · exact ih _ _ (keeps_raise _ _ _ _ (keeps_bumpVault _ _ _ (Keeps.other_iff.mpr (keeps_putCell _ _ _ _ hk))))
theorem keeps_tornWrite {s0 : State} (domain counter : Nat) (s : State) (hk : Keeps s0 s) : Keeps s0 (tornWrite domain counter s) := by
  unfold tornWrite; repeat' first | with_reducible assumption | with_reducible apply keeps_putCell | simp only [Keeps.other_iff] | split
theorem keeps_setServing {s0 : State} (v : Serving) (s : State) (hk : Keeps s0 s) : Keeps s0 (setServing v s) := by
  unfold setServing; repeat' first | with_reducible assumption | simp only [Keeps.other_iff]
theorem keeps_graftTake {s0 : State} (s : State) (hk : Keeps s0 s) : Keeps s0 (graftTake s) := by
  unfold graftTake; repeat' first | with_reducible assumption | simp only [Keeps.other_iff] | split
theorem keeps_graftStruck {s0 : State} (bursts : List (Nat × Nat)) (s : State) (hk : Keeps s0 s) : Keeps s0 (graftStruck bursts s) := by
  unfold graftStruck; repeat' first | with_reducible assumption | with_reducible (first | apply keeps_struckRow | apply Keeps.ite | apply Keeps.foldl) | simp only [Keeps.other_iff] | intro _ _ _ | split
theorem keeps_graftCheck {s0 : State} (run : GraftRun) (s : State) (hk : Keeps s0 s) : Keeps s0 (graftCheck run s) := by
  unfold graftCheck; repeat' first | with_reducible assumption | with_reducible (first | apply keeps_graftStruck | apply keeps_pressServes | apply keeps_setServing | apply keeps_graftFails | apply Keeps.ite) | simp only [Keeps.other_iff] | split
theorem keeps_graftCount {s0 : State} (run : GraftRun) (s : State) (hk : Keeps s0 s) : Keeps s0 (graftCount run s) := by
  unfold graftCount; repeat' first | with_reducible assumption | with_reducible (first | apply keeps_tornWrite | apply keeps_setServing | apply keeps_writeCells | apply Keeps.ite) | simp only [Keeps.other_iff] | split
theorem keeps_graftArm {s0 : State} (s : State) (hk : Keeps s0 s) : Keeps s0 (graftArm s) := by
  unfold graftArm; repeat' first | with_reducible assumption | with_reducible (first | apply keeps_setServing | apply Keeps.ite) | simp only [Keeps.other_iff] | split
theorem keeps_graftCommit {s0 : State} (s : State) (hk : Keeps s0 s) : Keeps s0 (graftCommit s) := by
  unfold graftCommit; repeat' first | with_reducible assumption | with_reducible (first | apply keeps_extendReg | apply keeps_applyOp | apply keeps_eraseNow | apply keeps_bumpVault | apply keeps_graftEnds | apply keeps_endPending | apply Keeps.ite | apply Keeps.foldl) | simp only [Keeps.other_iff] | intro _ _ _ | split
theorem keeps_graftWork {s0 : State} (run : GraftRun) (s : State) (hk : Keeps s0 s) : Keeps s0 (graftWork run s) := by
  unfold graftWork; repeat' first | with_reducible assumption | with_reducible (first | apply keeps_graftTake | apply keeps_graftCheck | apply keeps_graftCount | apply keeps_graftArm | apply keeps_graftCommit | apply Keeps.ite) | split
theorem keeps_execGraftProcess (run : GraftRun) (s : State) {u : State} (h : execGraftProcess run s = .next u) : Keeps s u := by
  unfold execGraftProcess at h; injection h with h; subst h
  refine keeps_event (fun t g => ?_) (Keeps.refl _)
  repeat' first | with_reducible assumption | with_reducible (first | apply keeps_event | apply keeps_graftWork)
theorem keeps_committedFor {s0 : State} (i : Nat) (s : State) (hk : Keeps s0 s) : Keeps s0 (committedFor i s) := by
  unfold committedFor; repeat' first | with_reducible assumption | with_reducible (first | apply keeps_graftCommit | apply Keeps.ite) | simp only [Keeps.other_iff] | split
theorem keeps_readingSlot {s0 s : State} {slot : Env → State → Option Nat} {lost : Env → State → State} {c : Cmd}
    (hl : ∀ e t, Keeps s0 t → Keeps s0 (lost e t)) (hc : ∀ e t, Keeps s0 t → Keeps s0 (c.eff e t).s) (e : Env)
    (hk : Keeps s0 s) : Keeps s0 ((readingSlot slot lost c).eff e s).s := by
  unfold readingSlot
  dsimp only
  have k : ∀ i t, Keeps s0 t → Keeps s0 (committedFor i t) := fun i t => keeps_committedFor i t
  repeat' first | exact hk | exact k _ _ hk | exact hc _ _ hk | exact hc _ _ (k _ _ hk) | exact hc _ _ g | exact keeps_struckRow _ _ _ (k _ _ hk) | exact hc _ _ (keeps_struckRow _ _ _ (k _ _ hk)) | exact hl _ _ (keeps_slotFails _ _ (k _ _ hk)) | exact keeps_struckRow _ _ _ hk | exact hc _ _ (keeps_struckRow _ _ _ hk) | exact hl _ _ (keeps_slotFails _ _ hk) | split | dsimp only
theorem keeps_slotEraseCmd {s0 s : State} (e : Env) (hk : Keeps s0 s) : Keeps s0 (slotEraseCmd.eff e s).s := by
  unfold slotEraseCmd; repeat' first | with_reducible assumption | with_reducible apply keeps_eraseSlot | dsimp only
theorem keeps_execSlotErase (w : IWord) (s : State) {u : State} (h : execSlotErase w s = .next u) : Keeps s u := by
  cases h; exact keeps_runCmd (fun e t g => keeps_slotEraseCmd e g) (Keeps.refl _)
theorem keeps_slotInfoBare {s0 s : State} (e : Env) (hk : Keeps s0 s) : Keeps s0 (slotInfoBare.eff e s).s := by
  unfold slotInfoBare; repeat' first | with_reducible assumption | dsimp only
theorem keeps_slotInfoCmd {s0 s : State} (e : Env) (hk : Keeps s0 s) : Keeps s0 (slotInfoCmd.eff e s).s := keeps_readingSlot (fun e t g => by repeat' first | exact g | dsimp only | dsimp only) (fun e t g => keeps_slotInfoBare e g) e hk
theorem keeps_execSlotInfo (w : IWord) (s : State) {u : State} (h : execSlotInfo w s = .next u) : Keeps s u := by
  cases h; exact keeps_runCmd (fun e t g => keeps_slotInfoCmd e g) (Keeps.refl _)
theorem keeps_graftCmd {s0 s : State} (e : Env) (hk : Keeps s0 s) : Keeps s0 (graftCmd.eff e s).s := by
  unfold graftCmd; repeat' first | with_reducible assumption | with_reducible apply keeps_event | simp only [Keeps.other_iff] | dsimp only
theorem keeps_execGraft (w : IWord) (s : State) {u : State} (h : execGraft w s = .next u) : Keeps s u := by
  cases h; exact keeps_runCmd (fun e t g => keeps_graftCmd e g) (Keeps.refl _)
theorem keeps_rollBack {s0 : State} (s : State) (hk : Keeps s0 s) : Keeps s0 (rollBack s) := by
  unfold rollBack; repeat' first | with_reducible assumption | with_reducible (first | apply keeps_setSlot | apply keeps_raise | apply keeps_bumpVault | apply Keeps.foldl) | simp only [Keeps.other_iff] | intro _ _ _ | split
theorem keeps_unwrapBare {s0 s : State} (e : Env) (hk : Keeps s0 s) : Keeps s0 (unwrapBare.eff e s).s := by
  unfold unwrapBare; repeat' first | with_reducible assumption | with_reducible (first | apply keeps_bumpVault | apply keeps_extendReg | apply keeps_setSlot | apply Keeps.ite) | dsimp only | split
theorem keeps_unwrapCmd {s0 s : State} (e : Env) (hk : Keeps s0 s) : Keeps s0 (unwrapCmd.eff e s).s := keeps_readingSlot (fun e t g => by repeat' first | exact g | dsimp only | with_reducible apply keeps_bumpVault | dsimp only) (fun e t g => keeps_unwrapBare e g) e hk
theorem keeps_execUnwrap (w : IWord) (s : State) {u : State} (h : execUnwrap w s = .next u) : Keeps s u := by
  cases h; exact keeps_runCmd (fun e t g => keeps_unwrapCmd e g) (Keeps.refl _)
theorem keeps_blkKeyBare {s0 s : State} (e : Env) (hk : Keeps s0 s) : Keeps s0 (blkKeyBare.eff e s).s := by
  unfold blkKeyBare; repeat' first | with_reducible assumption | with_reducible apply Keeps.ite | simp only [Keeps.other_iff] | dsimp only | split
theorem keeps_blkKeyCmd {s0 s : State} (e : Env) (hk : Keeps s0 s) : Keeps s0 (blkKeyCmd.eff e s).s := keeps_readingSlot (fun e t g => by repeat' first | exact g | dsimp only | simp only [Keeps.other_iff] | dsimp only) (fun e t g => keeps_blkKeyBare e g) e hk
theorem keeps_execBlkKey (w : IWord) (s : State) {u : State} (h : execBlkKey w s = .next u) : Keeps s u := by
  cases h; exact keeps_runCmd (fun e t g => keeps_blkKeyCmd e g) (Keeps.refl _)
theorem keeps_drawMasks {s0 : State} (n : Nat) (s : State) (hk : Keeps s0 s) : Keeps s0 (drawMasks n s) := by
  induction n generalizing s with
  | zero => exact hk
  | succ n ih => exact ih _ (keeps_internalRandom _ _ hk)
theorem keeps_blkOpCmd {s0 s : State} (e : Env) (hk : Keeps s0 s) : Keeps s0 (blkOpCmd.eff e s).s := by
  unfold blkOpCmd; repeat' first | with_reducible assumption | with_reducible (first | apply keeps_drawMasks | apply keeps_storeMem) | simp only [Keeps.other_iff] | dsimp only | split
theorem keeps_execBlkOp (w : IWord) (s : State) {u : State} (h : execBlkOp w s = .next u) : Keeps s u := by
  cases h; exact keeps_runCmd (fun e t g => keeps_blkOpCmd e g) (Keeps.refl _)
theorem keeps_blkCmpCmd {s0 s : State} (e : Env) (hk : Keeps s0 s) : Keeps s0 (blkCmpCmd.eff e s).s := by
  unfold blkCmpCmd; repeat' first | with_reducible assumption | with_reducible (first | apply keeps_drawMasks | apply Keeps.ite) | simp only [Keeps.other_iff] | dsimp only | split
theorem keeps_execBlkCmp (w : IWord) (s : State) {u : State} (h : execBlkCmp w s = .next u) : Keeps s u := by
  cases h; exact keeps_runCmd (fun e t g => keeps_blkCmpCmd e g) (Keeps.refl _)
theorem keeps_drbgGetCmd {s0 s : State} (e : Env) (hk : Keeps s0 s) : Keeps s0 (drbgGetCmd.eff e s).s := by
  unfold drbgGetCmd; repeat' first | with_reducible assumption | with_reducible apply keeps_internalRandom | dsimp only
theorem keeps_execDrbgGet (w : IWord) (s : State) {u : State} (h : execDrbgGet w s = .next u) : Keeps s u := by
  cases h; exact keeps_runCmd (fun e t g => keeps_drbgGetCmd e g) (Keeps.refl _)
theorem keeps_drbgInstantiated {s0 : State} (s : State) (hk : Keeps s0 s) : Keeps s0 (drbgInstantiated s) := by
  unfold drbgInstantiated; repeat' first | with_reducible assumption | with_reducible (first | apply keeps_drbgSeed | apply keeps_rootstockMemory) | simp only [Keeps.other_iff]
theorem keeps_execDrbgReseed (t : Nat) (s : State) {u : State} (h : execDrbgReseed t s = .next u) : Keeps s u := by
  unfold execDrbgReseed at h; injection h with h; subst h
  refine keeps_event (fun t g => ?_) (Keeps.refl _)
  repeat' first | with_reducible assumption | with_reducible (first | apply keeps_event | apply keeps_drbgSeed | apply keeps_bumpVault) | simp only [Keeps.other_iff]
theorem keeps_healthFails {s0 : State} (s : State) (hk : Keeps s0 s) : Keeps s0 (healthFails s) := by
  unfold healthFails; repeat' first | with_reducible assumption | with_reducible (first | apply keeps_bumpVault | apply keeps_raise) | simp only [Keeps.other_iff]
theorem keeps_execHealthTestFailure (raw : RawBits) (s : State) {u : State} (h : execHealthTestFailure raw s = .next u) : Keeps s u := by
  unfold execHealthTestFailure at h; injection h with h; subst h
  refine keeps_event (fun t g => ?_) (Keeps.refl _)
  repeat' first | with_reducible assumption | with_reducible (first | apply keeps_event | apply keeps_healthFails)
theorem keeps_reinstantiate {s0 : State} (pass : Bool) (s : State) (hk : Keeps s0 s) : Keeps s0 (reinstantiate pass s) := by
  unfold reinstantiate; repeat' first | with_reducible assumption | with_reducible (first | apply keeps_drbgInstantiated | apply keeps_raise | apply Keeps.ite) | simp only [Keeps.other_iff] | split
theorem keeps_execDrbgReinstantiate (t : Nat) (pass : Bool) (s : State) {u : State} (h : execDrbgReinstantiate t pass s = .next u) : Keeps s u := by
  unfold execDrbgReinstantiate at h; injection h with h; subst h
  refine keeps_event (fun t g => ?_) (Keeps.refl _)
  repeat' first | with_reducible assumption | with_reducible (first | apply keeps_event | apply keeps_reinstantiate)
theorem keeps_execDrbgPostEraseInstantiate (t : Nat) (pass : Bool) (s : State) {u : State} (h : execDrbgPostEraseInstantiate t pass s = .next u) : Keeps s u := by
  unfold execDrbgPostEraseInstantiate at h; injection h with h; subst h
  refine keeps_event (fun t g => ?_) (Keeps.refl _)
  repeat' first | with_reducible assumption | with_reducible (first | apply keeps_event | apply keeps_drbgInstantiated | apply keeps_healthFails | apply Keeps.ite) | split
theorem keeps_vaultWorkingErased {s0 : State} (s : State) (hk : Keeps s0 s) : Keeps s0 (vaultWorkingErased s) := by
  unfold vaultWorkingErased; repeat' first | with_reducible assumption | with_reducible (first | apply keeps_graftFails | apply Keeps.ite | apply Keeps.foldl) | simp only [Keeps.other_iff] | intro _ _ _ | split
theorem keeps_vaultAllErased {s0 : State} (s : State) (hk : Keeps s0 s) : Keeps s0 (vaultAllErased s) := by
  unfold vaultAllErased; repeat' first | with_reducible assumption | with_reducible apply keeps_bumpVault | simp only [Keeps.other_iff]
theorem keeps_startRead {s0 : State} (burst : Nat) (op : PressOp) (rest : List PressOp) (s : State) (hk : Keeps s0 s) : Keeps s0 (startRead burst op rest s) := by
  unfold startRead; repeat' first | with_reducible assumption | with_reducible (first | apply keeps_startOp | apply keeps_struckRow | apply keeps_committedFor | apply Keeps.ite) | split
theorem keeps_execPressOpStart (x : PressStart) (s : State) {u : State} (h : execPressOpStart x s = .next u) : Keeps s u := by
  unfold execPressOpStart at h; injection h with h; subst h
  refine keeps_event (fun t g => ?_) (Keeps.refl _)
  repeat' first | with_reducible assumption | with_reducible (first | apply keeps_event | apply keeps_startRead) | simp only [Keeps.other_iff] | split
theorem keeps_mgRegionCreateCmd {s0 s : State} (e : Env) (hk : Keeps s0 s) : Keeps s0 (mgRegionCreateCmd.eff e s).s := keeps_readingSlot (fun e t g => by repeat' first | exact g | dsimp only | dsimp only) (fun e t g => keeps_mgRegionCreateBare e g) e hk
theorem keeps_execMgRegionCreate (w : IWord) (s : State) {u : State} (h : execMgRegionCreate w s = .next u) : Keeps s u := by
  cases h; exact keeps_runCmd (fun e t g => keeps_mgRegionCreateCmd e g) (Keeps.refl _)
theorem keeps_mgRotateCmd {s0 s : State} (e : Env) (hk : Keeps s0 s) : Keeps s0 (mgRotateCmd.eff e s).s := keeps_readingSlot (fun e t g => by repeat' first | exact g | dsimp only | dsimp only) (fun e t g => keeps_mgRotateBare e g) e hk
theorem keeps_execMgRekeyRotate (w : IWord) (s : State) {u : State} (h : execMgRekeyRotate w s = .next u) : Keeps s u := by
  cases h; exact keeps_runCmd (fun e t g => keeps_mgRotateCmd e g) (Keeps.refl _)
theorem keeps_mgRebuildCmd {s0 s : State} (e : Env) (hk : Keeps s0 s) : Keeps s0 (mgRebuildCmd.eff e s).s := keeps_readingSlot (fun e t g => by repeat' first | exact g | dsimp only | dsimp only) (fun e t g => keeps_mgRebuildBare e g) e hk
theorem keeps_execMgRekeyRebuild (w : IWord) (s : State) {u : State} (h : execMgRekeyRebuild w s = .next u) : Keeps s u := by
  cases h; exact keeps_runCmd (fun e t g => keeps_mgRebuildCmd e g) (Keeps.refl _)

end Sys2Proof.Machine
end

