-- ==== Sys2Proof/Laws/KeepsPower.lean ====
section
/-! SUPPORT. What boot, the Crust, the data group, the host interface, the lanes, the Trellis, the resets and the table commands do keeps `Keeps`. -/

namespace Sys2Proof.Machine

/-! TrellisSetting -/

theorem keeps_trBringUp {s0 : State} (s : State) (hk : Keeps s0 s) : Keeps s0 (trBringUp s) := by
  unfold trBringUp; repeat' first | with_reducible assumption | with_reducible apply Keeps.ite | simp only [Keeps.other_iff] | split
theorem keeps_elect {s0 : State} (s : State) (hk : Keeps s0 s) : Keeps s0 (elect s) := by
  unfold elect; repeat' first | with_reducible assumption | with_reducible (first | apply keeps_bumpTr | apply keeps_raise | apply Keeps.ite) | simp only [Keeps.other_iff] | split
theorem keeps_takeSetting {s0 : State} (v : Nat) (s : State) (hk : Keeps s0 s) : Keeps s0 (takeSetting v s) := by
  unfold takeSetting; repeat' first | with_reducible assumption | with_reducible (first | apply keeps_trBringUp | apply Keeps.ite) | simp only [Keeps.other_iff] | split
theorem keeps_trStart {s0 : State} (s : State) (hk : Keeps s0 s) : Keeps s0 (trStart s) := by
  unfold trStart; repeat' first | with_reducible assumption | with_reducible (first | apply keeps_elect | apply keeps_takeSetting | apply Keeps.ite) | split
theorem keeps_trRoleCmd {s0 s : State} (e : Env) (hk : Keeps s0 s) : Keeps s0 (trRoleCmd.eff e s).s := by
  unfold trRoleCmd; repeat' first | with_reducible assumption | with_reducible (first | apply keeps_takeSetting | apply keeps_elect) | simp only [Keeps.other_iff] | dsimp only
theorem keeps_execTrRole (w : IWord) (s : State) {u : State} (h : execTrRole w s = .next u) : Keeps s u := by
  cases h; exact keeps_runCmd (fun e t g => keeps_trRoleCmd e g) (Keeps.refl _)

/-! Boot -/

theorem keeps_imageServed {s0 : State} (room : Nat) (m : Bytes) (s : State) (hk : Keeps s0 s) : Keeps s0 (imageServed room m s) := by
  unfold imageServed; repeat' first | with_reducible assumption | with_reducible (first | apply keeps_internalUse | apply Keeps.ite) | split
theorem keeps_bootVault {s0 : State} (s : State) (hk : Keeps s0 s) : Keeps s0 (bootVault s) := by
  unfold bootVault; repeat' first | with_reducible assumption | with_reducible (first | apply keeps_rollBack | apply Keeps.ite | apply CrustStep.update) | simp only [Keeps.other_iff] | split | with_reducible apply Keeps.withCrust
theorem keeps_systemSlot {s0 : State} (i typ usage : Nat) (payload : Bytes) (s : State) (hk : Keeps s0 s) : Keeps s0 (systemSlot i typ usage payload s) := by
  unfold systemSlot; repeat' first | with_reducible assumption | with_reducible apply keeps_setSlot
theorem keeps_deriveIdentity {s0 : State} (uds : Bytes) (s : State) (hk : Keeps s0 s) : Keeps s0 (deriveIdentity uds s) := by
  unfold deriveIdentity; repeat' first | with_reducible assumption | with_reducible apply keeps_systemSlot | simp only [Keeps.other_iff]
theorem keeps_measureStart {s0 : State} (m : Bytes) (s : State) (hk : Keeps s0 s) : Keeps s0 (measureStart m s) := by
  unfold measureStart; repeat' first | with_reducible assumption | with_reducible (first | apply keeps_extendReg | apply keeps_commitImage)
theorem keeps_debugStart {s0 : State} (s : State) (hk : Keeps s0 s) : Keeps s0 (debugStart s) := by
  unfold debugStart; repeat' first | with_reducible assumption | with_reducible (first | apply keeps_newMaskArea | apply keeps_drbgInstantiated | apply keeps_vaultAllErased | apply keeps_vaultWorkingErased | apply keeps_deriveIdentity) | simp only [Keeps.other_iff]
theorem keeps_firstActive {s0 : State} (s : State) (hk : Keeps s0 s) : Keeps s0 (firstActive s) :=
  keeps_startRootstock _ (hk.withSeq fun q =>
    ⟨q.1, q.2.1, q.2.2.1, q.2.2.2.1, fun x h => (by cases h; decide), q.2.2.2.2.2⟩)
theorem keeps_startSecrets {s0 : State} (s : State) (hk : Keeps s0 s) : Keeps s0 (startSecrets s) := by
  unfold startSecrets; repeat' first | with_reducible assumption | with_reducible apply keeps_internalRandom | simp only [Keeps.other_iff]
theorem keeps_firstImage {s0 : State} (s : State) (hk : Keeps s0 s) : Keeps s0 (firstImage s) :=
  hk.withSeq fun q => ⟨q.1, q.1, q.2.2.1, q.2.2.2.1, q.2.2.2.2⟩
theorem keeps_releaseA {s0 : State} (s : State) (hk : Keeps s0 s) : Keeps s0 (releaseA s) := by
  unfold releaseA; repeat' first | with_reducible assumption | with_reducible (first | apply keeps_startSecrets | apply keeps_firstActive | apply keeps_trStart | apply keeps_mgBegin | apply keeps_firstImage) | simp only [Keeps.other_iff]
theorem keeps_startImage {s0 : State} (m : Bytes) (offset : Nat) (imageB recovery : Bool) (s : State) (hk : Keeps s0 s) : Keeps s0 (startImage m offset imageB recovery s) := by
  unfold startImage; repeat' first | with_reducible assumption | with_reducible (first | apply keeps_debugStart | apply keeps_releaseA | apply keeps_measureStart | apply Keeps.ite) | simp only [Keeps.other_iff] | split
theorem keeps_waitRecovery {s0 : State} (s : State) (hk : Keeps s0 s) : Keeps s0 (waitRecovery s) := by
  unfold waitRecovery; repeat' first | with_reducible assumption | with_reducible apply keeps_setCause | simp only [Keeps.other_iff]
theorem keeps_enterRecovery {s0 : State} (code : Nat) (s : State) (hk : Keeps s0 s) : Keeps s0 (enterRecovery code s) := by
  unfold enterRecovery; repeat' first | with_reducible assumption | with_reducible (first | apply keeps_raiseEv | apply keeps_waitRecovery | apply Keeps.ite) | simp only [Keeps.other_iff] | split
theorem keeps_bootImages {s0 : State} (h a b : Bytes) (s : State) (hk : Keeps s0 s) : Keeps s0 (bootImages h a b s) := by
  unfold bootImages; repeat' first | with_reducible assumption | with_reducible (first | apply keeps_imageServed | apply keeps_startImage | apply keeps_enterRecovery | apply Keeps.ite) | simp only [Keeps.other_iff] | split
theorem keeps_bootRom {s0 : State} (selfTest drbg : Bool) (h a b : Bytes) (s : State) (hk : Keeps s0 s) : Keeps s0 (bootRom selfTest drbg h a b s) := by
  unfold bootRom; repeat' first | with_reducible assumption | with_reducible (first | apply keeps_turnRecord | apply keeps_bootVault | apply keeps_enterRecovery | apply keeps_drbgInstantiated | apply keeps_bootImages | apply keeps_deriveIdentity | apply keeps_newMaskArea | apply Keeps.ite) | simp only [Keeps.other_iff] | split
theorem keeps_execBootRom (t : Nat) (selfTest drbg : Bool) (h a b : Bytes) (s : State) {u : State} (h : execBootRom t selfTest drbg h a b s = .next u) : Keeps s u := by
  unfold execBootRom at h; injection h with h; subst h
  refine keeps_event (fun t g => ?_) (Keeps.refl _)
  repeat' first | with_reducible assumption | with_reducible (first | apply keeps_event | apply keeps_bootRom)
theorem keeps_recoveryFails {s0 : State} (st : Nat) (s : State) (hk : Keeps s0 s) : Keeps s0 (recoveryFails st s) := by
  unfold recoveryFails; repeat' first | with_reducible assumption | with_reducible apply keeps_waitRecovery | simp only [Keeps.other_iff]
theorem keeps_recoveryRead {s0 : State} (m : Bytes) (s : State) (hk : Keeps s0 s) : Keeps s0 (recoveryRead m s) := by
  unfold recoveryRead; repeat' first | with_reducible assumption | with_reducible (first | apply keeps_imageServed | apply keeps_recoveryFails | apply keeps_draw | apply keeps_startImage | apply Keeps.ite) | simp only [Keeps.other_iff] | split
theorem keeps_execRecoveryReadComplete (t : Nat) (image : HostXfer) (s : State) {u : State} (h : execRecoveryReadComplete t image s = .next u) : Keeps s u := by
  unfold execRecoveryReadComplete at h; injection h with h; subst h
  refine keeps_event (fun t g => ?_) (Keeps.refl _)
  repeat' first | with_reducible assumption | with_reducible (first | apply keeps_event | apply keeps_recoveryRead | apply keeps_recoveryFails | apply keeps_bump) | simp only [Keeps.other_iff] | split
theorem keeps_execRecoveryReadTimeout (t : Nat) (s : State) {u : State} (h : execRecoveryReadTimeout t s = .next u) : Keeps s u := by
  unfold execRecoveryReadTimeout at h; injection h with h; subst h
  refine keeps_event (fun t g => ?_) (Keeps.refl _)
  repeat' first | with_reducible assumption | with_reducible (first | apply keeps_event | apply keeps_recoveryFails | apply keeps_bump) | simp only [Keeps.other_iff] | split
theorem keeps_execRecCtlGo (t value : Nat) (s : State) {u : State} (h : execRecCtlGo t value s = .next u) : Keeps s u := by
  unfold execRecCtlGo at h; injection h with h; subst h
  refine keeps_event (fun t g => ?_) (Keeps.refl _)
  repeat' first | with_reducible assumption | with_reducible (first | apply keeps_event | apply keeps_recoveryFails | apply Keeps.ite) | simp only [Keeps.other_iff] | split
theorem keeps_execStageComplete (t : Nat) (image : Bytes) (s : State) {u : State} (h : execStageComplete t image s = .next u) : Keeps s u := by
  unfold execStageComplete at h; injection h with h; subst h
  refine keeps_event (fun t g => ?_) (Keeps.refl _)
  repeat' first | with_reducible assumption | with_reducible (first | apply keeps_event | apply keeps_complete | apply keeps_imageServed | apply Keeps.ite | apply SeqStep.update) | simp only [Keeps.other_iff] | split | with_reducible apply Keeps.withSeq
theorem keeps_vintageWrite {s0 : State} (v : VintReq) (body up : Bytes) (s : State) (hk : Keeps s0 s) : Keeps s0 (vintageWrite v body up s) := by
  unfold vintageWrite; repeat' first | with_reducible assumption | with_reducible (first | apply keeps_internalRandom | apply keeps_bump | apply keeps_complete | apply keeps_pressMismatch | apply keeps_raise | apply keeps_emit | apply Keeps.ite) | simp only [Keeps.other_iff] | split
theorem keeps_vintageDone {s0 : State} (v : VintReq) (body up : Bytes) (s : State) (hk : Keeps s0 s) : Keeps s0 (vintageDone v body up s) := by
  unfold vintageDone; repeat' first | with_reducible assumption | with_reducible (first | apply keeps_clearing | apply keeps_complete | apply keeps_vintageWrite | apply Keeps.ite) | split
theorem keeps_vintageEnds {s0 : State} (up : Bytes) (s : State) (hk : Keeps s0 s) : Keeps s0 (vintageEnds up s) := by
  unfold vintageEnds; repeat' first | with_reducible assumption | with_reducible apply keeps_vintageDone | simp only [Keeps.other_iff] | split
theorem keeps_sysVintageCmd {s0 s : State} (e : Env) (hk : Keeps s0 s) : Keeps s0 (sysVintageCmd.eff e s).s := by
  unfold sysVintageCmd; repeat' first | with_reducible assumption | with_reducible (first | apply keeps_startVintage | apply keeps_event) | simp only [Keeps.other_iff] | dsimp only
theorem keeps_execSysVintage (w : IWord) (s : State) {u : State} (h : execSysVintage w s = .next u) : Keeps s u := by
  cases h; exact keeps_runCmd (fun e t g => keeps_sysVintageCmd e g) (Keeps.refl _)
theorem keeps_vintagesErased {s0 : State} (s : State) (hk : Keeps s0 s) : Keeps s0 (vintagesErased s) := by
  unfold vintagesErased; repeat' first | with_reducible assumption | with_reducible (first | apply keeps_complete | apply Keeps.foldl) | simp only [Keeps.other_iff] | intro _ _ _

/-! CrustUnit -/

theorem keeps_bumpCrust {s0 : State} (k n : Nat) (s : State) (hk : Keeps s0 s) : Keeps s0 (bumpCrust k n s) := by
  unfold bumpCrust; repeat' first | with_reducible assumption | with_reducible apply keeps_bump
theorem keeps_keepBefore {s0 : State} (s : State) (hk : Keeps s0 s) : Keeps s0 (keepBefore s) := by
  unfold keepBefore; repeat' first | with_reducible assumption | with_reducible (first | apply Keeps.ite | apply CrustStep.update) | simp only [Keeps.other_iff] | split | with_reducible apply Keeps.withCrust
theorem keeps_writeWord {s0 : State} (id : Nat) (s : State) (hk : Keeps s0 s) : Keeps s0 (writeWord id s) := by
  unfold writeWord; repeat' first | with_reducible assumption | with_reducible apply CrustStep.update | simp only [Keeps.other_iff] | with_reducible apply Keeps.withCrust
theorem keeps_setMonitor {s0 : State} (m v : Nat) (s : State) (hk : Keeps s0 s) : Keeps s0 (setMonitor m v s) := by
  unfold setMonitor; repeat' first | with_reducible assumption | with_reducible (first | apply keeps_writeWord | apply keeps_keepBefore | apply CrustStep.update) | simp only [Keeps.other_iff] | split | with_reducible apply Keeps.withCrust
theorem keeps_crustCfgCmd {s0 s : State} (e : Env) (hk : Keeps s0 s) : Keeps s0 (crustCfgCmd.eff e s).s := by
  unfold crustCfgCmd; repeat' first | with_reducible assumption | with_reducible apply keeps_setMonitor | dsimp only
theorem keeps_execCrustCfg (w : IWord) (s : State) {u : State} (h : execCrustCfg w s = .next u) : Keeps s u := by
  cases h; exact keeps_runCmd (fun e t g => keeps_crustCfgCmd e g) (Keeps.refl _)
theorem keeps_logCrust {s0 : State} (source levels detail : Nat) (s : State) (hk : Keeps s0 s) :
    Keeps s0 (logCrust source levels detail s) := by
  have add : Keeps s0 (logCrust.addRec source levels detail s) := by
    refine hk.set_crust fun c => ⟨Nat.min_le_left _ _, ?_⟩
    have h1 := c.1
    have h2 := c.2
    show (logRoom s.crust.kept s.crust.log ++ [_]).length ≤ min 8 (s.crust.kept + 1) + 56
    rw [List.length_append, List.length_singleton]
    unfold logRoom
    split
    · rw [List.length_append, List.length_take, List.length_drop]
      omega
    · omega
  unfold logCrust
  split
  · rename_i r hr
    split
    · refine hk.set_crust fun c => ⟨c.1, ?_⟩
      have h2 := c.2
      have : s.crust.log ≠ [] := by intro hn; rw [hn] at hr; cases hr
      have := List.length_pos_iff.mpr this
      show (s.crust.log.dropLast ++ [_]).length ≤ s.crust.kept + 56
      rw [List.length_append, List.length_singleton, List.length_dropLast]
      omega
    · exact add
  · exact add
theorem keeps_crustEvent {s0 : State} (source levels detail : Nat) (vbat : Bool) (s : State) (hk : Keeps s0 s) : Keeps s0 (crustEvent source levels detail vbat s) := by
  unfold crustEvent; repeat' first | with_reducible assumption | with_reducible (first | apply keeps_raiseEv | apply Keeps.ite) | split
theorem keeps_recordCrust {s0 : State} (source levels detail : Nat) (s : State) (hk : Keeps s0 s) : Keeps s0 (recordCrust source levels detail s) := by
  unfold recordCrust; repeat' first | with_reducible assumption | with_reducible (first | apply keeps_logCrust | apply keeps_crustEvent | apply Keeps.ite) | split
theorem keeps_raiseKept {s0 : State} (s : State) (hk : Keeps s0 s) : Keeps s0 (raiseKept s) := by
  unfold raiseKept; repeat' first | with_reducible assumption | with_reducible (first | apply keeps_crustEvent | apply Keeps.foldl | apply CrustStep.update) | simp only [Keeps.other_iff] | intro _ _ _ | with_reducible apply Keeps.withCrust
theorem keeps_settledSight {s0 : State} (x : CrustSight) (s : State) (hk : Keeps s0 s) : Keeps s0 (settledSight x s).2 := by
  unfold settledSight; repeat' first | with_reducible assumption | with_reducible (first | apply keeps_draw | apply Keeps.ite) | simp only [Keeps.other_iff] | dsimp only | split
theorem keeps_correctWord {s0 : State} (id i : Nat) (s : State) (hk : Keeps s0 s) : Keeps s0 (correctWord id i s) := by
  unfold correctWord; repeat' first | with_reducible assumption | with_reducible (first | apply keeps_writeWord | apply Keeps.ite | apply CrustStep.update) | simp only [Keeps.other_iff] | split | with_reducible apply Keeps.withCrust
theorem keeps_turnOver {s0 : State} (id mask : Nat) (s : State) (hk : Keeps s0 s) : Keeps s0 (turnOver id mask s) := by
  unfold turnOver; repeat' first | with_reducible assumption | with_reducible (first | apply keeps_correctWord | apply keeps_bumpCrust | apply keeps_recordCrust | apply Keeps.ite | apply CrustStep.update) | simp only [Keeps.other_iff] | split | with_reducible apply Keeps.withCrust
theorem keeps_measureArm {s0 : State} (op : Nat) (e : Env) (s : State) (hk : Keeps s0 s) : Keeps s0 (measureArm op e s) := by
  unfold measureArm; repeat' first | with_reducible assumption | with_reducible apply keeps_extendReg
theorem keeps_setCrustMode {s0 : State} (m : CrustMode) (source : Nat) (s : State) (hk : Keeps s0 s) : Keeps s0 (setCrustMode m source s) := by
  unfold setCrustMode; repeat' first | with_reducible assumption | with_reducible (first | apply keeps_writeWord | apply keeps_keepBefore | apply keeps_recordCrust | apply CrustStep.update) | simp only [Keeps.other_iff] | with_reducible apply Keeps.withCrust
theorem keeps_drawSeeds {s0 : State} (s : State) (hk : Keeps s0 s) : Keeps s0 (drawSeeds s) := by
  unfold drawSeeds; repeat' first | with_reducible assumption | with_reducible (first | apply keeps_internalRandom | apply CrustStep.update) | simp only [Keeps.other_iff] | with_reducible apply Keeps.withCrust
theorem keeps_crustArmCmd {s0 s : State} (e : Env) (hk : Keeps s0 s) : Keeps s0 (crustArmCmd.eff e s).s := by
  unfold crustArmCmd; repeat' first | with_reducible assumption | with_reducible (first | apply keeps_measureArm | apply keeps_setCrustMode | apply keeps_drawSeeds | apply Keeps.ite) | dsimp only | split
theorem keeps_execCrustArm (w : IWord) (s : State) {u : State} (h : execCrustArm w s = .next u) : Keeps s u := by
  cases h; exact keeps_runCmd (fun e t g => keeps_crustArmCmd e g) (Keeps.refl _)
theorem keeps_crustDisarmCmd {s0 s : State} (e : Env) (hk : Keeps s0 s) : Keeps s0 (crustDisarmCmd.eff e s).s := by
  unfold crustDisarmCmd; repeat' first | with_reducible assumption | with_reducible (first | apply keeps_measureArm | apply keeps_setCrustMode | apply Keeps.ite) | dsimp only | split
theorem keeps_execCrustDisarm (w : IWord) (s : State) {u : State} (h : execCrustDisarm w s = .next u) : Keeps s u := by
  cases h; exact keeps_runCmd (fun e t g => keeps_crustDisarmCmd e g) (Keeps.refl _)
theorem keeps_crustTestCmd {s0 s : State} (e : Env) (hk : Keeps s0 s) : Keeps s0 (crustTestCmd.eff e s).s := by
  unfold crustTestCmd; repeat' first | with_reducible assumption | with_reducible (first | apply keeps_measureArm | apply keeps_setCrustMode | apply Keeps.ite) | dsimp only | split
theorem keeps_execCrustTest (w : IWord) (s : State) {u : State} (h : execCrustTest w s = .next u) : Keeps s u := by
  cases h; exact keeps_runCmd (fun e t g => keeps_crustTestCmd e g) (Keeps.refl _)
theorem keeps_crustInjectCmd {s0 s : State} (e : Env) (hk : Keeps s0 s) : Keeps s0 (crustInjectCmd.eff e s).s := by
  unfold crustInjectCmd; repeat' first | with_reducible assumption | with_reducible (first | apply keeps_measureArm | apply keeps_event | apply CrustStep.update) | simp only [Keeps.other_iff] | dsimp only | with_reducible apply Keeps.withCrust
theorem keeps_execCrustInject (w : IWord) (s : State) {u : State} (h : execCrustInject w s = .next u) : Keeps s u := by
  cases h; exact keeps_runCmd (fun e t g => keeps_crustInjectCmd e g) (Keeps.refl _)
theorem keeps_crustClearCmd {s0 s : State} (e : Env) (hk : Keeps s0 s) : Keeps s0 (crustClearCmd.eff e s).s := by
  unfold crustClearCmd; repeat' first | with_reducible assumption | with_reducible (first | apply keeps_measureArm | apply keeps_writeWord | apply keeps_recordCrust | apply CrustStep.update) | simp only [Keeps.other_iff] | dsimp only | with_reducible apply Keeps.withCrust
theorem keeps_execCrustClear (w : IWord) (s : State) {u : State} (h : execCrustClear w s = .next u) : Keeps s u := by
  cases h; exact keeps_runCmd (fun e t g => keeps_crustClearCmd e g) (Keeps.refl _)
theorem keeps_crustLogclearCmd {s0 s : State} (e : Env) (hk : Keeps s0 s) : Keeps s0 (crustLogclearCmd.eff e s).s :=
  keeps_recordCrust _ _ _ _ ((keeps_measureArm _ _ _ hk).set_crust fun _ => ⟨Nat.zero_le _, Nat.zero_le _⟩)
theorem keeps_execCrustLogclear (w : IWord) (s : State) {u : State} (h : execCrustLogclear w s = .next u) : Keeps s u := by
  cases h; exact keeps_runCmd (fun e t g => keeps_crustLogclearCmd e g) (Keeps.refl _)
theorem keeps_assocWiped {s0 : State} (s : State) (hk : Keeps s0 s) : Keeps s0 (assocWiped s) := by
  unfold assocWiped; repeat' first | with_reducible assumption | with_reducible (first | apply keeps_dropAbsent | apply keeps_complete | apply Keeps.foldl) | simp only [Keeps.other_iff] | intro _ _ _
theorem keeps_eraseWorking {s0 : State} (s : State) (hk : Keeps s0 s) : Keeps s0 (eraseWorking s) := by
  unfold eraseWorking; repeat' first | with_reducible assumption | with_reducible (first | apply keeps_assocWiped | apply keeps_mgWiped | apply keeps_vintagesErased | apply keeps_pressWiped | apply keeps_vaultWorkingErased)
theorem keeps_eraseAll {s0 : State} (s : State) (hk : Keeps s0 s) : Keeps s0 (eraseAll s) := by
  unfold eraseAll; repeat' first | with_reducible assumption | with_reducible (first | apply keeps_writeWord | apply keeps_vaultAllErased | apply CrustStep.update) | simp only [Keeps.other_iff] | with_reducible apply Keeps.withCrust
theorem keeps_notifyLatch {s0 : State} (s : State) (hk : Keeps s0 s) : Keeps s0 (notifyLatch s) := by
  unfold notifyLatch; repeat' first | with_reducible assumption | with_reducible (first | apply keeps_writeWord | apply keeps_setCause | apply Keeps.ite | apply CrustStep.update) | simp only [Keeps.other_iff] | split | with_reducible apply Keeps.withCrust
theorem keeps_respond {s0 : State} (u : Nat) (s : State) (hk : Keeps s0 s) : Keeps s0 (respond u s) := by
  unfold respond; repeat' first | with_reducible assumption | with_reducible (first | apply keeps_eraseAll | apply keeps_eraseWorking | apply keeps_writeWord | apply keeps_notifyLatch | apply keeps_bumpCrust | apply Keeps.ite | apply CrustStep.update) | simp only [Keeps.other_iff] | split | with_reducible apply Keeps.withCrust
theorem keeps_recordAlarm {s0 : State} (u : Nat) (a : CrustAlarm) (s : State) (hk : Keeps s0 s) : Keeps s0 (recordAlarm u a s) := by
  unfold recordAlarm; repeat' first | with_reducible assumption | with_reducible (first | apply keeps_bumpCrust | apply keeps_recordCrust | apply Keeps.ite) | split
theorem keeps_endInjection {s0 : State} (m : Nat) (s : State) (hk : Keeps s0 s) : Keeps s0 (endInjection m s) := by
  unfold endInjection; repeat' first | with_reducible assumption | with_reducible apply CrustStep.update | simp only [Keeps.other_iff] | with_reducible apply Keeps.withCrust
theorem keeps_injectionPasses {s0 : State} (l : List CrustAlarm) (s : State) (hk : Keeps s0 s) : Keeps s0 (injectionPasses l s) := by
  unfold injectionPasses; repeat' first | with_reducible assumption | with_reducible (first | apply keeps_complete | apply keeps_bumpCrust | apply keeps_endInjection | apply Keeps.ite) | simp only [Keeps.other_iff] | split
theorem keeps_sawWords {s0 : State} (x : CrustSight) (s : State) (hk : Keeps s0 s) : Keeps s0 (sawWords x s) := by
  unfold sawWords; repeat' first | with_reducible assumption | with_reducible (first | apply keeps_turnOver | apply Keeps.foldl | apply CrustStep.update) | simp only [Keeps.other_iff] | intro _ _ _ | split | with_reducible apply Keeps.withCrust
theorem keeps_watch {s0 : State} (m : Nat) (x : CrustSight) (s : State) (hk : Keeps s0 s) : Keeps s0 (watch m x s).1 := by
  have g := keeps_settledSight (if injected s m then forced s m x else x) s hk
  unfold watch
  generalize settledSight (if injected s m then forced s m x else x) s = q at g ⊢
  have h := keeps_sawWords q.1 _ g
  dsimp only
  generalize sawWords q.1 q.2 = u at h ⊢
  repeat' first | exact h | exact h.withCrust (.update _) | split
theorem keeps_takeSights {s0 : State} (l : List CrustSight) (s : State) (hk : Keeps s0 s) : Keeps s0 (takeSights l s).1 := by
  have inner : ∀ (q : List CrustSight) (m : Nat) (r : State × List CrustAlarm), Keeps s0 r.1 →
      Keeps s0 (q.foldl (fun r x => let w := watch m x r.1
        (w.1, r.2 ++ if r.2.any (fun a => a.monitor == m) then [] else w.2.toList)) r).1 := by
    intro q m
    induction q with
    | nil => exact fun _ h => h
    | cons x q ih => exact fun r h => ih _ (keeps_watch _ _ _ h)
  have outer : ∀ (ms : List Nat) (r : State × List CrustAlarm), Keeps s0 r.1 →
      Keeps s0 (ms.foldl (fun r m => (l.filter (fun x => sightMonitor x == m)).foldl (fun r x =>
        let w := watch m x r.1
        (w.1, r.2 ++ if r.2.any (fun a => a.monitor == m) then [] else w.2.toList)) r) r).1 := by
    intro ms
    induction ms with
    | nil => exact fun _ h => h
    | cons m ms ih => exact fun r h => ih _ (inner _ _ _ h)
  exact outer _ _ hk
theorem keeps_raiseAlarms {s0 : State} (live : List CrustAlarm) (s : State) (hk : Keeps s0 s) : Keeps s0 (raiseAlarms live s) := by
  unfold raiseAlarms; repeat' first | with_reducible assumption | with_reducible (first | apply keeps_recordAlarm | apply keeps_respond | apply keeps_injectionPasses | apply Keeps.ite | apply Keeps.foldl) | intro _ _ _ | split
theorem keeps_asBefore {s0 : State} (s : State) (hk : Keeps s0 s) : Keeps s0 (asBefore s) := by
  unfold asBefore; repeat' first | with_reducible assumption | with_reducible (first | apply Keeps.ite | apply CrustStep.update) | simp only [Keeps.other_iff] | split | with_reducible apply Keeps.withCrust
theorem keeps_alarmEdge {s0 : State} (l : List CrustSight) (s : State) (hk : Keeps s0 s) : Keeps s0 (alarmEdge l s) := by
  unfold alarmEdge; repeat' first | with_reducible assumption | with_reducible (first | apply keeps_takeSights | apply keeps_asBefore | apply keeps_raiseAlarms | apply Keeps.ite | apply CrustStep.update) | simp only [Keeps.other_iff] | split | with_reducible apply Keeps.withCrust
theorem keeps_execCrustAlarm (t : Nat) (sights : List CrustSight) (s : State) {u : State} (h : execCrustAlarm t sights s = .next u) : Keeps s u := by
  unfold execCrustAlarm at h; injection h with h; subst h
  refine keeps_event (fun t g => ?_) (Keeps.refl _)
  repeat' first | with_reducible assumption | with_reducible (first | apply keeps_event | apply keeps_alarmEdge)
theorem keeps_execCrustInjectTimeout (t : Nat) (s : State) {u : State} (h : execCrustInjectTimeout t s = .next u) : Keeps s u := by
  unfold execCrustInjectTimeout at h; injection h with h; subst h
  refine keeps_event (fun t g => ?_) (Keeps.refl _)
  repeat' first | with_reducible assumption | with_reducible (first | apply keeps_event | apply keeps_complete | apply keeps_bumpCrust | apply keeps_endInjection) | simp only [Keeps.other_iff] | split
theorem keeps_execReservoirCharged (t : Nat) (s : State) {u : State} (h : execReservoirCharged t s = .next u) : Keeps s u := by
  unfold execReservoirCharged at h; injection h with h; subst h
  refine keeps_event (fun t g => ?_) (Keeps.refl _)
  repeat' first | with_reducible assumption | with_reducible (first | apply keeps_event | apply CrustStep.update) | simp only [Keeps.other_iff] | with_reducible apply Keeps.withCrust
theorem keeps_coldStart {s0 : State} (s : State) (hk : Keeps s0 s) : Keeps s0 (coldStart s) :=
  hk.withCrust fun _ => ⟨Nat.le_of_ble_eq_true rfl, Nat.le_of_ble_eq_true rfl⟩
theorem keeps_execCrustColdStart (t : Nat) (s : State) {u : State} (h : execCrustColdStart t s = .next u) : Keeps s u := by
  unfold execCrustColdStart at h; injection h with h; subst h
  refine keeps_event (fun t g => ?_) (Keeps.refl _)
  repeat' first | with_reducible assumption | with_reducible (first | apply keeps_event | apply keeps_coldStart)

/-! Data -/

theorem keeps_aluWrite {s0 : State} (r : Alu) (e : Env) (s : State) (hk : Keeps s0 s) : Keeps s0 (aluWrite r e s) := by
  unfold aluWrite; repeat' first | with_reducible assumption | with_reducible (first | apply keeps_finish | apply keeps_setCtx) | simp only [Keeps.other_iff]
theorem keeps_runAlu (op : Nat) (f : Word64 → Word64 → Alu) (w : IWord) (s : State) {u : State} (h : runAlu op f w s = .next u) : Keeps s u := by
  cases h; refine keeps_runLoc (fun e t hk => ?_) (Keeps.refl _)
  dsimp only; repeat' first | with_reducible assumption | with_reducible (first | apply keeps_runLoc | apply keeps_aluWrite)
theorem keeps_execMovi (w : IWord) (s : State) {u : State} (h : execMovi w s = .next u) : Keeps s u := by
  cases h; refine keeps_runLoc (fun e t hk => ?_) (Keeps.refl _)
  dsimp only; repeat' first | with_reducible assumption | with_reducible (first | apply keeps_runLoc | apply keeps_finish | apply keeps_setCtx)
theorem keeps_execMov (w : IWord) (s : State) {u : State} (h : execMov w s = .next u) : Keeps s u := by
  cases h; refine keeps_runLoc (fun e t hk => ?_) (Keeps.refl _)
  dsimp only; repeat' first | with_reducible assumption | with_reducible (first | apply keeps_runLoc | apply keeps_finish | apply keeps_setCtx | apply Keeps.ite) | split
theorem keeps_execAdd (w : IWord) (s : State) {u : State} (h : execAdd w s = .next u) : Keeps s u := by
  cases h; exact keeps_runLoc (fun e t hk => keeps_aluWrite _ _ _ hk) (Keeps.refl _)
theorem keeps_execSub (w : IWord) (s : State) {u : State} (h : execSub w s = .next u) : Keeps s u := by
  cases h; exact keeps_runLoc (fun e t hk => keeps_aluWrite _ _ _ hk) (Keeps.refl _)
theorem keeps_execAndW (w : IWord) (s : State) {u : State} (h : execAndW w s = .next u) : Keeps s u := by
  cases h; exact keeps_runLoc (fun e t hk => keeps_aluWrite _ _ _ hk) (Keeps.refl _)
theorem keeps_execOrW (w : IWord) (s : State) {u : State} (h : execOrW w s = .next u) : Keeps s u := by
  cases h; exact keeps_runLoc (fun e t hk => keeps_aluWrite _ _ _ hk) (Keeps.refl _)
theorem keeps_execXorW (w : IWord) (s : State) {u : State} (h : execXorW w s = .next u) : Keeps s u := by
  cases h; exact keeps_runLoc (fun e t hk => keeps_aluWrite _ _ _ hk) (Keeps.refl _)
theorem keeps_execShl (w : IWord) (s : State) {u : State} (h : execShl w s = .next u) : Keeps s u := by
  cases h; exact keeps_runLoc (fun e t hk => keeps_aluWrite _ _ _ hk) (Keeps.refl _)
theorem keeps_execShr (w : IWord) (s : State) {u : State} (h : execShr w s = .next u) : Keeps s u := by
  cases h; exact keeps_runLoc (fun e t hk => keeps_aluWrite _ _ _ hk) (Keeps.refl _)
theorem keeps_execCmp (w : IWord) (s : State) {u : State} (h : execCmp w s = .next u) : Keeps s u := by
  cases h; refine keeps_runLoc (fun e t hk => ?_) (Keeps.refl _)
  dsimp only; repeat' first | with_reducible assumption | with_reducible (first | apply keeps_runLoc | apply keeps_finish | apply keeps_setCtx) | simp only [Keeps.other_iff]
theorem keeps_execLd (w : IWord) (s : State) {u : State} (h : execLd w s = .next u) : Keeps s u := by
  cases h; refine keeps_runLoc (fun e t hk => ?_) (Keeps.refl _)
  dsimp only; repeat' first | with_reducible assumption | with_reducible (first | apply keeps_runLoc | apply keeps_finish | apply keeps_setCtx)
theorem keeps_execSt (w : IWord) (s : State) {u : State} (h : execSt w s = .next u) : Keeps s u := by
  cases h; refine keeps_runLoc (fun e t hk => ?_) (Keeps.refl _)
  dsimp only; repeat' first | with_reducible assumption | with_reducible (first | apply keeps_runLoc | apply keeps_finish | apply keeps_storeMem)

/-! HostIf -/

theorem keeps_bumpHost {s0 : State} (k n : Nat) (s : State) (hk : Keeps s0 s) : Keeps s0 (bumpHost k n s) := by
  unfold bumpHost; repeat' first | with_reducible assumption | with_reducible apply keeps_bump
theorem keeps_overrun {s0 : State} (obj : Nat) (s : State) (hk : Keeps s0 s) : Keeps s0 (overrun obj s) := by
  unfold overrun; repeat' first | with_reducible assumption | with_reducible (first | apply keeps_raise | apply keeps_bumpHost)
theorem keeps_execQdoorWrite (t q value : Nat) (s : State) {u : State} (h : execQdoorWrite t q value s = .next u) : Keeps s u := by
  unfold execQdoorWrite at h; injection h with h; subst h
  refine keeps_event (fun t g => ?_) (Keeps.refl _)
  repeat' first | with_reducible assumption | with_reducible (first | apply keeps_event | apply keeps_bumpHost | apply keeps_setQueue | apply keeps_overrun | apply Keeps.ite) | simp only [Keeps.other_iff] | split
theorem keeps_enableQueue {s0 : State} (q value : Nat) (s : State) (hk : Keeps s0 s) : Keeps s0 (enableQueue q value s) := by
  unfold enableQueue; repeat' first | with_reducible assumption | with_reducible (first | apply keeps_bumpHost | apply keeps_setQueue | apply Keeps.ite) | simp only [Keeps.other_iff] | split
theorem keeps_execQueueEnable (t q value : Nat) (s : State) {u : State} (h : execQueueEnable t q value s = .next u) : Keeps s u := by
  unfold execQueueEnable at h; injection h with h; subst h
  refine keeps_event (fun t g => ?_) (Keeps.refl _)
  repeat' first | with_reducible assumption | with_reducible (first | apply keeps_event | apply keeps_enableQueue)
theorem keeps_cutQueue {s0 : State} (q : Nat) (recorded : Bool) (s : State) (hk : Keeps s0 s) : Keeps s0 (cutQueue q recorded s) := by
  unfold cutQueue; repeat' first | with_reducible assumption | with_reducible (first | apply keeps_setQueue | apply keeps_endProgram | apply keeps_commit | apply keeps_setCtx | apply Keeps.ite) | simp only [Keeps.other_iff] | split
theorem keeps_disableQueue {s0 : State} (q value : Nat) (s : State) (hk : Keeps s0 s) : Keeps s0 (disableQueue q value s) := by
  unfold disableQueue; repeat' first | with_reducible assumption | with_reducible (first | apply keeps_cutQueue | apply keeps_bumpHost | apply keeps_setQueue | apply Keeps.ite) | simp only [Keeps.other_iff] | split
theorem keeps_execQueueDisable (t q value : Nat) (s : State) {u : State} (h : execQueueDisable t q value s = .next u) : Keeps s u := by
  unfold execQueueDisable at h; injection h with h; subst h
  refine keeps_event (fun t g => ?_) (Keeps.refl _)
  repeat' first | with_reducible assumption | with_reducible (first | apply keeps_event | apply keeps_disableQueue)
theorem keeps_execRdoorWrite (t r value : Nat) (s : State) {u : State} (h : execRdoorWrite t r value s = .next u) : Keeps s u := by
  unfold execRdoorWrite at h; injection h with h; subst h
  refine keeps_event (fun t g => ?_) (Keeps.refl _)
  repeat' first | with_reducible assumption | with_reducible (first | apply keeps_event | apply keeps_bumpHost | apply keeps_setRing | apply keeps_overrun | apply Keeps.ite) | simp only [Keeps.other_iff] | split
theorem keeps_newHead {s0 : State} (r : Nat) (s : State) (hk : Keeps s0 s) : Keeps s0 (newHead r s) := by
  unfold newHead; repeat' first | with_reducible assumption | with_reducible apply Keeps.ite | simp only [Keeps.other_iff] | split
theorem keeps_enableRing {s0 : State} (r value : Nat) (s : State) (hk : Keeps s0 s) : Keeps s0 (enableRing r value s) := by
  unfold enableRing; repeat' first | with_reducible assumption | with_reducible (first | apply keeps_bumpHost | apply keeps_setRing | apply keeps_newHead | apply Keeps.ite) | simp only [Keeps.other_iff] | split
theorem keeps_execRingEnable (t r value : Nat) (s : State) {u : State} (h : execRingEnable t r value s = .next u) : Keeps s u := by
  unfold execRingEnable at h; injection h with h; subst h
  refine keeps_event (fun t g => ?_) (Keeps.refl _)
  repeat' first | with_reducible assumption | with_reducible (first | apply keeps_event | apply keeps_enableRing)
theorem keeps_dropPunts {s0 : State} (side : Nat) (s : State) (hk : Keeps s0 s) : Keeps s0 (dropPunts side s) := by
  unfold dropPunts; repeat' first | with_reducible assumption | with_reducible (first | apply keeps_bump | apply keeps_freeFrame | apply Keeps.foldl) | simp only [Keeps.other_iff] | intro _ _ _
theorem keeps_disableRing {s0 : State} (r value : Nat) (s : State) (hk : Keeps s0 s) : Keeps s0 (disableRing r value s) := by
  unfold disableRing; repeat' first | with_reducible assumption | with_reducible (first | apply keeps_setRing | apply keeps_bumpHost | apply keeps_dropPunts | apply keeps_newHead | apply Keeps.ite) | simp only [Keeps.other_iff] | split
theorem keeps_execRingDisable (t r value : Nat) (s : State) {u : State} (h : execRingDisable t r value s = .next u) : Keeps s u := by
  unfold execRingDisable at h; injection h with h; subst h
  refine keeps_frameEvent (fun t g => ?_) (Keeps.refl _)
  repeat' first | with_reducible assumption | with_reducible (first | apply keeps_frameEvent | apply keeps_disableRing)
theorem keeps_writeBack {s0 : State} (r v : Nat) (irq : Option Nat) (s : State) (hk : Keeps s0 s) : Keeps s0 (writeBack r v irq s) := by
  unfold writeBack; repeat' first | with_reducible assumption | with_reducible (first | apply keeps_emit | apply keeps_setRing | apply keeps_setCause) | simp only [Keeps.other_iff] | split
theorem keeps_puntGone {s0 : State} (side : Nat) (f : PuntFrame) (rest : List PuntFrame) (s : State) (hk : Keeps s0 s) : Keeps s0 (puntGone side f rest s) := by
  unfold puntGone; repeat' first | with_reducible assumption | with_reducible apply keeps_freeFrame | simp only [Keeps.other_iff]
theorem keeps_puntSend {s0 : State} (side v : Nat) (f : PuntFrame) (hurt : Bool) (s : State) (hk : Keeps s0 s) : Keeps s0 (puntSend side v f hurt s) := by
  unfold puntSend; repeat' first | with_reducible assumption | with_reducible (first | apply keeps_countHurt | apply keeps_emit | apply keeps_pushIngress | apply keeps_bumpHost | apply keeps_writeBack | apply Keeps.ite) | split
theorem keeps_puntDeliver {s0 : State} (side : Nat) (entry : Bytes) (read : CellRead) (f : PuntFrame) (rest : List PuntFrame) (s : State) (hk : Keeps s0 s) : Keeps s0 (puntDeliver side entry read f rest s) := by
  unfold puntDeliver; repeat' first | with_reducible assumption | with_reducible (first | apply keeps_writeBack | apply keeps_bumpHost | apply keeps_puntGone | apply keeps_readCells | apply keeps_puntSend | apply Keeps.ite) | split
theorem keeps_execPuntDeliver (t side : Nat) (x : PuntBuffer) (s : State) {u : State} (h : execPuntDeliver t side x s = .next u) : Keeps s u := by
  unfold execPuntDeliver at h; injection h with h; subst h
  refine keeps_frameEvent (fun t g => ?_) (Keeps.refl _)
  repeat' first | with_reducible assumption | with_reducible (first | apply keeps_frameEvent | apply keeps_puntDeliver) | simp only [Keeps.other_iff] | split
theorem keeps_execPuntWaitExpiry (t side : Nat) (s : State) {u : State} (h : execPuntWaitExpiry t side s = .next u) : Keeps s u := by
  unfold execPuntWaitExpiry at h; injection h with h; subst h
  refine keeps_frameEvent (fun t g => ?_) (Keeps.refl _)
  repeat' first | with_reducible assumption | with_reducible (first | apply keeps_frameEvent | apply keeps_bump | apply keeps_bumpHost | apply keeps_puntGone) | simp only [Keeps.other_iff] | split
theorem keeps_injectBack {s0 : State} (side v st : Nat) (s : State) (hk : Keeps s0 s) : Keeps s0 (injectBack side v st s) := by
  unfold injectBack; repeat' first | with_reducible assumption | with_reducible (first | apply keeps_bumpHost | apply keeps_writeBack | apply Keeps.ite) | simp only [Keeps.other_iff] | split
theorem keeps_injectFrame {s0 : State} (side v : Nat) (l : Bytes) (s : State) (hk : Keeps s0 s) : Keeps s0 (injectFrame side v l s) := by
  unfold injectFrame; repeat' first | with_reducible assumption | with_reducible (first | apply keeps_requestFill | apply keeps_takeCells | apply keeps_charge | apply keeps_enqueue | apply Keeps.ite) | split
theorem keeps_injectRead {s0 : State} (side v : Nat) (frame : HostXfer) (s : State) (hk : Keeps s0 s) : Keeps s0 (injectRead side v frame s) := by
  unfold injectRead; repeat' first | with_reducible assumption | with_reducible (first | apply keeps_injectBack | apply keeps_injectFrame | apply keeps_bumpHost) | simp only [Keeps.other_iff] | split
theorem keeps_injectHead {s0 : State} (side v : Nat) (frame : HostXfer) (s : State) (hk : Keeps s0 s) : Keeps s0 (injectHead side v frame s) := by
  unfold injectHead; repeat' first | with_reducible assumption | with_reducible (first | apply keeps_injectBack | apply keeps_injectRead | apply keeps_bump | apply Keeps.ite) | simp only [Keeps.other_iff] | split
theorem keeps_execInjectTake (t side : Nat) (entry : Bytes) (frame : HostXfer) (s : State) {u : State} (h : execInjectTake t side entry frame s = .next u) : Keeps s u := by
  unfold execInjectTake at h; injection h with h; subst h
  refine keeps_frameEvent (fun t g => ?_) (Keeps.refl _)
  repeat' first | with_reducible assumption | with_reducible (first | apply keeps_frameEvent | apply keeps_injectRead | apply keeps_injectHead) | simp only [Keeps.other_iff] | split
theorem keeps_execHostTransferTimeout (t k : Nat) (s : State) {u : State} (h : execHostTransferTimeout t k s = .next u) : Keeps s u := by
  unfold execHostTransferTimeout at h; injection h with h; subst h
  refine keeps_event (fun t g => ?_) (Keeps.refl _)
  repeat' first | with_reducible assumption | with_reducible (first | apply keeps_event | apply keeps_injectRead | apply keeps_hostTransferLate | apply keeps_injectBack | apply keeps_bumpHost | apply Keeps.ite) | simp only [Keeps.other_iff] | split
theorem keeps_clearCause {s0 : State} (k : Nat) (s : State) (hk : Keeps s0 s) : Keeps s0 (clearCause k s) := by
  unfold clearCause; repeat' first | with_reducible assumption | with_reducible (first | apply keeps_signalVector | apply Keeps.ite) | simp only [Keeps.other_iff] | split
theorem keeps_execIntCauseWrite (t value : Nat) (s : State) {u : State} (h : execIntCauseWrite t value s = .next u) : Keeps s u := by
  unfold execIntCauseWrite at h; injection h with h; subst h
  refine keeps_event (fun t g => ?_) (Keeps.refl _)
  repeat' first | with_reducible assumption | with_reducible (first | apply keeps_event | apply keeps_clearCause | apply Keeps.ite | apply Keeps.foldl) | intro _ _ _ | split
theorem keeps_execIntEnableWrite (t value : Nat) (s : State) {u : State} (h : execIntEnableWrite t value s = .next u) : Keeps s u := by
  unfold execIntEnableWrite at h; injection h with h; subst h
  refine keeps_event (fun t g => ?_) (Keeps.refl _)
  repeat' first | with_reducible assumption | with_reducible (first | apply keeps_event | apply keeps_signalVector | apply Keeps.ite | apply Keeps.foldl) | simp only [Keeps.other_iff] | intro _ _ _ | split
theorem keeps_execTodLatch (t value : Nat) (s : State) {u : State} (h : execTodLatch t value s = .next u) : Keeps s u := by
  unfold execTodLatch at h; injection h with h; subst h
  refine keeps_event (fun t g => ?_) (Keeps.refl _)
  repeat' first | with_reducible assumption | with_reducible (first | apply keeps_event | apply keeps_advance) | simp only [Keeps.other_iff]
theorem keeps_crustRead {s0 : State} (k : Nat) (s : State) (hk : Keeps s0 s) : Keeps s0 (crustRead k s) := by
  unfold crustRead; repeat' first | with_reducible assumption | with_reducible (first | apply keeps_emit | apply Keeps.ite) | simp only [Keeps.other_iff] | split
theorem keeps_execCrustWindowRead (t k : Nat) (s : State) {u : State} (h : execCrustWindowRead t k s = .next u) : Keeps s u := by
  unfold execCrustWindowRead at h; injection h with h; subst h
  refine keeps_event (fun t g => ?_) (Keeps.refl _)
  repeat' first | with_reducible assumption | with_reducible (first | apply keeps_event | apply keeps_crustRead)
theorem keeps_apertureFails {s0 : State} (st : Nat) (s : State) (hk : Keeps s0 s) : Keeps s0 (apertureFails st s) := by
  unfold apertureFails; repeat' first | with_reducible assumption | with_reducible (first | apply keeps_bumpHost | apply keeps_setCause | apply Keeps.ite) | simp only [Keeps.other_iff] | split
theorem keeps_execMgwinRead (t offset : Nat) (fault : DramFault) (s : State) {u : State} (h : execMgwinRead t offset fault s = .next u) : Keeps s u := by
  unfold execMgwinRead at h; injection h with h; subst h
  refine keeps_event (fun t g => ?_) (Keeps.refl _)
  repeat' first | with_reducible assumption | with_reducible (first | apply keeps_event | apply keeps_mgAccess | apply keeps_emit | apply keeps_apertureFails | apply Keeps.ite) | split
theorem keeps_execMgwinWrite (t offset value : Nat) (x : WindowFault) (s : State) {u : State} (h : execMgwinWrite t offset value x s = .next u) : Keeps s u := by
  unfold execMgwinWrite at h; injection h with h; subst h
  refine keeps_event (fun t g => ?_) (Keeps.refl _)
  repeat' first | with_reducible assumption | with_reducible (first | apply keeps_event | apply keeps_mgAccess | apply keeps_apertureFails | apply Keeps.ite) | split
theorem keeps_execMgwinStatRead (t : Nat) (s : State) {u : State} (h : execMgwinStatRead t s = .next u) : Keeps s u := by
  unfold execMgwinStatRead at h; injection h with h; subst h
  refine keeps_event (fun t g => ?_) (Keeps.refl _)
  repeat' first | with_reducible assumption | with_reducible (first | apply keeps_event | apply keeps_emit) | simp only [Keeps.other_iff]
theorem keeps_writeQueueBase {s0 : State} (q k v : Nat) (s : State) (hk : Keeps s0 s) : Keeps s0 (writeQueueBase q k v s) := by
  unfold writeQueueBase; repeat' first | with_reducible assumption | with_reducible (first | apply keeps_bumpHost | apply keeps_setQueue | apply Keeps.ite) | simp only [Keeps.other_iff] | split
theorem keeps_writeRingBase {s0 : State} (r k v : Nat) (s : State) (hk : Keeps s0 s) : Keeps s0 (writeRingBase r k v s) := by
  unfold writeRingBase; repeat' first | with_reducible assumption | with_reducible (first | apply keeps_bumpHost | apply keeps_setRing | apply Keeps.ite) | simp only [Keeps.other_iff] | split
theorem keeps_writeMsix {s0 : State} (w v : Nat) (s : State) (hk : Keeps s0 s) : Keeps s0 (writeMsix w v s) := by
  unfold writeMsix; repeat' first | with_reducible assumption | with_reducible (first | apply keeps_signalVector | apply Keeps.ite) | simp only [Keeps.other_iff] | split
theorem keeps_writeBar0 {s0 : State} (o v : Nat) (s : State) (hk : Keeps s0 s) : Keeps s0 (writeBar0 o v s) := by
  unfold writeBar0; repeat' first | with_reducible assumption | with_reducible (first | apply keeps_bumpHost | apply keeps_writeQueueBase | apply keeps_writeMsix | apply Keeps.ite | apply BookStep.update) | simp only [Keeps.other_iff] | split | with_reducible apply Keeps.withBook
theorem keeps_writeBar2 {s0 : State} (o v : Nat) (s : State) (hk : Keeps s0 s) : Keeps s0 (writeBar2 o v s) := by
  unfold writeBar2; repeat' first | with_reducible assumption | with_reducible (first | apply keeps_bumpHost | apply keeps_writeRingBase | apply Keeps.ite) | split
theorem keeps_writeReg32 {s0 : State} (bar o v : Nat) (s : State) (hk : Keeps s0 s) : Keeps s0 (writeReg32 bar o v s) := by
  unfold writeReg32; repeat' first | with_reducible assumption | with_reducible (first | apply keeps_writeBar0 | apply keeps_writeBar2 | apply Keeps.ite) | split
theorem keeps_registerWrite {s0 : State} (bar o octets v : Nat) (s : State) (hk : Keeps s0 s) : Keeps s0 (registerWrite bar o octets v s) := by
  unfold registerWrite; repeat' first | with_reducible assumption | with_reducible (first | apply keeps_bumpHost | apply keeps_writeReg32 | apply Keeps.ite) | split
theorem keeps_execRegisterWrite (t bar o octets v : Nat) (s : State) {u : State} (h : execRegisterWrite t bar o octets v s = .next u) : Keeps s u := by
  unfold execRegisterWrite at h; injection h with h; subst h
  refine keeps_event (fun t g => ?_) (Keeps.refl _)
  repeat' first | with_reducible assumption | with_reducible (first | apply keeps_event | apply keeps_registerWrite)
theorem keeps_disableAll {s0 : State} (s : State) (hk : Keeps s0 s) : Keeps s0 (disableAll s) := by
  unfold disableAll; repeat' first | with_reducible assumption | with_reducible (first | apply keeps_cutQueue | apply keeps_setQueue | apply keeps_dropPunts | apply keeps_injectRead | apply Keeps.foldl) | simp only [Keeps.other_iff] | intro _ _ _
theorem keeps_execPcieFunctionReset (t : Nat) (s : State) {u : State} (h : execPcieFunctionReset t s = .next u) : Keeps s u := by
  unfold execPcieFunctionReset at h; injection h with h; subst h
  refine keeps_event (fun t g => ?_) (Keeps.refl _)
  repeat' first | with_reducible assumption | with_reducible (first | apply keeps_event | apply keeps_bumpHost | apply keeps_disableAll | apply keeps_raise) | simp only [Keeps.other_iff]
theorem keeps_linkLost {s0 : State} (s : State) (hk : Keeps s0 s) : Keeps s0 (linkLost s) := by
  unfold linkLost; repeat' first | with_reducible assumption | with_reducible (first | apply keeps_transferOver | apply keeps_bumpHost | apply keeps_copyFails | apply keeps_setCtx | apply keeps_copyEvent | apply keeps_injectRead | apply Keeps.ite | apply Keeps.foldl) | simp only [Keeps.other_iff] | intro _ _ _ | split
theorem keeps_execPcieLinkChange (t : Nat) (up : Bool) (s : State) {u : State} (h : execPcieLinkChange t up s = .next u) : Keeps s u := by
  unfold execPcieLinkChange at h; injection h with h; subst h
  refine keeps_event (fun t g => ?_) (Keeps.refl _)
  repeat' first | with_reducible assumption | with_reducible (first | apply keeps_event | apply keeps_raise | apply keeps_bumpHost | apply keeps_linkLost | apply Keeps.ite) | simp only [Keeps.other_iff] | split

/-! Lanes -/

theorem keeps_synceFollow {s0 : State} (i b l v : Nat) (s : State) (hk : Keeps s0 s) : Keeps s0 (synceFollow i b l v s) := by
  unfold synceFollow; repeat' first | with_reducible assumption | with_reducible (first | apply keeps_setLane | apply Keeps.ite) | simp only [Keeps.other_iff] | split | with_reducible apply Keeps.setSynce
theorem keeps_takeLaneSetting {s0 : State} (l v : Nat) (s : State) (hk : Keeps s0 s) : Keeps s0 (takeLaneSetting l v s) := by
  unfold takeLaneSetting; repeat' first | with_reducible assumption | with_reducible (first | apply keeps_setLane | apply Keeps.ite) | simp only [Keeps.other_iff] | split
theorem keeps_laneCfgEff {s0 : State} (l v : Nat) (s : State) (hk : Keeps s0 s) : Keeps s0 (laneCfgEff l v s) := by
  unfold laneCfgEff; repeat' first | with_reducible assumption | with_reducible (first | apply keeps_synceFollow | apply keeps_takeLaneSetting)
theorem keeps_laneCfgCmd {s0 s : State} (e : Env) (hk : Keeps s0 s) : Keeps s0 (laneCfgCmd.eff e s).s := by
  unfold laneCfgCmd; repeat' first | with_reducible assumption | with_reducible apply keeps_laneCfgEff | dsimp only
theorem keeps_execLaneCfg (w : IWord) (s : State) {u : State} (h : execLaneCfg w s = .next u) : Keeps s u := by
  cases h; exact keeps_runCmd (fun e t g => keeps_laneCfgCmd e g) (Keeps.refl _)
theorem keeps_clearLaneCounters {s0 : State} (l : Nat) (s : State) (hk : Keeps s0 s) : Keeps s0 (clearLaneCounters l s) := by
  unfold clearLaneCounters; repeat' first | with_reducible assumption | with_reducible (first | apply keeps_setCnt | apply Keeps.foldl) | intro _ _ _
theorem keeps_invertBits {s0 : State} (l n : Nat) (s : State) (hk : Keeps s0 s) : Keeps s0 (invertBits l n s) := by
  unfold invertBits; repeat' first | with_reducible assumption | with_reducible (first | apply keeps_emit | apply keeps_setLane | apply keeps_bump | apply Keeps.ite) | simp only [Keeps.other_iff] | split
theorem keeps_injectNow {s0 : State} (l v : Nat) (s : State) (hk : Keeps s0 s) : Keeps s0 (injectNow l v s) := by
  unfold injectNow; repeat' first | with_reducible assumption | with_reducible (first | apply keeps_invertBits | apply Keeps.ite) | split
theorem keeps_laneTestEff {s0 : State} (l v : Nat) (s : State) (hk : Keeps s0 s) : Keeps s0 (laneTestEff l v s) := by
  unfold laneTestEff; repeat' first | with_reducible assumption | with_reducible (first | apply keeps_clearLaneCounters | apply keeps_setLane | apply keeps_injectNow | apply keeps_laneEnters | apply keeps_laneLeaves | apply Keeps.ite) | simp only [Keeps.other_iff] | split
theorem keeps_laneTestCmd {s0 s : State} (e : Env) (hk : Keeps s0 s) : Keeps s0 (laneTestCmd.eff e s).s := by
  unfold laneTestCmd; repeat' first | with_reducible assumption | with_reducible apply keeps_laneTestEff | dsimp only
theorem keeps_execLaneTest (w : IWord) (s : State) {u : State} (h : execLaneTest w s = .next u) : Keeps s u := by
  cases h; exact keeps_runCmd (fun e t g => keeps_laneTestCmd e g) (Keeps.refl _)
theorem keeps_generatorOn {s0 : State} (l : Nat) (received : List Bool) (s : State) (hk : Keeps s0 s) : Keeps s0 (generatorOn l received s) := by
  unfold generatorOn; repeat' first | with_reducible assumption | with_reducible (first | apply keeps_setLane | apply Keeps.ite) | simp only [Keeps.other_iff] | split
theorem keeps_checkerTakes {s0 : State} (l : Nat) (received : List Bool) (s : State) (hk : Keeps s0 s) : Keeps s0 (checkerTakes l received s) := by
  unfold checkerTakes; repeat' first | with_reducible assumption | with_reducible (first | apply keeps_bump | apply keeps_setLane) | simp only [Keeps.other_iff]
theorem keeps_execCheckerLock (t : Nat) (x : LaneBits) (s : State) {u : State} (h : execCheckerLock t x s = .next u) : Keeps s u := by
  unfold execCheckerLock at h; injection h with h; subst h
  refine keeps_event (fun t g => ?_) (Keeps.refl _)
  repeat' first | with_reducible assumption | with_reducible (first | apply keeps_event | apply keeps_checkerTakes | apply keeps_generatorOn)
theorem keeps_execCheckerLossOfLock (t l : Nat) (before window behind : List Bool) (s : State) {u : State} (h : execCheckerLossOfLock t l before window behind s = .next u) : Keeps s u := by
  unfold execCheckerLossOfLock at h; injection h with h; subst h
  refine keeps_event (fun t g => ?_) (Keeps.refl _)
  repeat' first | with_reducible assumption | with_reducible (first | apply keeps_event | apply keeps_checkerTakes | apply keeps_generatorOn)
theorem keeps_execRateInjection (t l : Nat) (s : State) {u : State} (h : execRateInjection t l s = .next u) : Keeps s u := by
  unfold execRateInjection at h; injection h with h; subst h
  refine keeps_event (fun t g => ?_) (Keeps.refl _)
  repeat' first | with_reducible assumption | with_reducible (first | apply keeps_event | apply keeps_invertBits | apply keeps_setLane) | simp only [Keeps.other_iff]
theorem keeps_execSynceUnsquelch (t : Nat) (x : LockHeld) (s : State) {u : State} (h : execSynceUnsquelch t x s = .next u) : Keeps s u := by
  unfold execSynceUnsquelch at h; injection h with h; subst h
  refine keeps_event (fun t g => ?_) (Keeps.refl _)
  repeat' first | with_reducible assumption | with_reducible (first | apply keeps_event | apply keeps_setLane) | simp only [Keeps.other_iff] | split | with_reducible apply Keeps.setSynce
theorem keeps_execEyeMarginCheck (t l before after : Nat) (s : State) {u : State} (h : execEyeMarginCheck t l before after s = .next u) : Keeps s u := by
  unfold execEyeMarginCheck at h; injection h with h; subst h
  refine keeps_event (fun t g => ?_) (Keeps.refl _)
  repeat' first | with_reducible assumption | with_reducible (first | apply keeps_event | apply keeps_raise | apply Keeps.ite) | split
theorem keeps_laneCalAdaptCmd {s0 s : State} (e : Env) (hk : Keeps s0 s) : Keeps s0 (laneCalAdaptCmd.eff e s).s := by
  unfold laneCalAdaptCmd; repeat' first | with_reducible assumption | dsimp only
theorem keeps_execLaneCalAdapt (w : IWord) (s : State) {u : State} (h : execLaneCalAdapt w s = .next u) : Keeps s u := by
  cases h; exact keeps_runCmd (fun e t g => keeps_laneCalAdaptCmd e g) (Keeps.refl _)
theorem keeps_laneCalMarginCmd {s0 s : State} (e : Env) (hk : Keeps s0 s) : Keeps s0 (laneCalMarginCmd.eff e s).s := by
  unfold laneCalMarginCmd; repeat' first | with_reducible assumption | with_reducible apply keeps_draw | dsimp only
theorem keeps_execLaneCalMargin (w : IWord) (s : State) {u : State} (h : execLaneCalMargin w s = .next u) : Keeps s u := by
  cases h; exact keeps_runCmd (fun e t g => keeps_laneCalMarginCmd e g) (Keeps.refl _)
theorem keeps_setCal {s0 : State} (s : State) (g : Nat) (v : CalEngine) (h : Keeps s0 s) : Keeps s0 (setCal s g v) := h.withTabs fun t => ⟨t.1, tabWf_tabSet t.2.1, t.2.2.1, t.2.2.2.1, t.2.2.2.2.1, t.2.2.2.2.2.1, t.2.2.2.2.2.2.1, t.2.2.2.2.2.2.2⟩
theorem keeps_laneCalFullCmd {s0 s : State} (e : Env) (hk : Keeps s0 s) : Keeps s0 (laneCalFullCmd.eff e s).s := by
  unfold laneCalFullCmd; repeat' first | with_reducible assumption | with_reducible (first | apply keeps_setCal | apply keeps_setLane | apply keeps_laneEnters | apply keeps_event) | simp only [Keeps.other_iff] | dsimp only
theorem keeps_execLaneCalFull (w : IWord) (s : State) {u : State} (h : execLaneCalFull w s = .next u) : Keeps s u := by
  cases h; exact keeps_runCmd (fun e t g => keeps_laneCalFullCmd e g) (Keeps.refl _)
theorem keeps_execCalibrationStart (t g : Nat) (s : State) {u : State} (h : execCalibrationStart t g s = .next u) : Keeps s u := by
  unfold execCalibrationStart at h; injection h with h; subst h
  refine keeps_event (fun t g => ?_) (Keeps.refl _)
  repeat' first | with_reducible assumption | with_reducible (first | apply keeps_event | apply keeps_setCal)
theorem keeps_execCalibrationComplete (t g vmargin : Nat) (s : State) {u : State} (h : execCalibrationComplete t g vmargin s = .next u) : Keeps s u := by
  unfold execCalibrationComplete at h; injection h with h; subst h
  refine keeps_event (fun t g => ?_) (Keeps.refl _)
  repeat' first | with_reducible assumption | with_reducible (first | apply keeps_event | apply keeps_setCal | apply keeps_setLane | apply keeps_laneLeaves | apply keeps_complete) | simp only [Keeps.other_iff] | split

/-! TrellisUnit -/

theorem keeps_trSendCmd {s0 s : State} (e : Env) (hk : Keeps s0 s) : Keeps s0 (trSendCmd.eff e s).s := by
  unfold trSendCmd; repeat' first | with_reducible assumption | with_reducible (first | apply keeps_bump | apply keeps_bumpTr | apply keeps_trSendFrame | apply Keeps.ite) | dsimp only | split
theorem keeps_execTrSend (w : IWord) (s : State) {u : State} (h : execTrSend w s = .next u) : Keeps s u := by
  cases h; exact keeps_runCmd (fun e t g => keeps_trSendCmd e g) (Keeps.refl _)
theorem keeps_trRecvCmd {s0 s : State} (e : Env) (hk : Keeps s0 s) : Keeps s0 (trRecvCmd.eff e s).s := by
  unfold trRecvCmd; repeat' first | with_reducible assumption | with_reducible (first | apply keeps_addrWrite | apply keeps_draw) | simp only [Keeps.other_iff] | dsimp only | split
theorem keeps_execTrRecv (w : IWord) (s : State) {u : State} (h : execTrRecv w s = .next u) : Keeps s u := by
  cases h; exact keeps_runCmd (fun e t g => keeps_trRecvCmd e g) (Keeps.refl _)
theorem keeps_setStep {s0 : State} (p : Nat) (st : LinkStep) (s : State) (hk : Keeps s0 s) : Keeps s0 (setStep p st s) := by
  unfold setStep; repeat' first | with_reducible assumption | with_reducible apply keeps_setTPort | simp only [Keeps.other_iff]
theorem keeps_trSent {s0 : State} (p : Nat) (o : Output) (s : State) (hk : Keeps s0 s) : Keeps s0 (trSent p o s) := by
  unfold trSent; repeat' first | with_reducible assumption | with_reducible (first | apply keeps_bumpTr | apply keeps_setTPort | apply keeps_emit) | simp only [Keeps.other_iff]
theorem keeps_trFault {s0 : State} (s : State) (hk : Keeps s0 s) : Keeps s0 (trFault s) := by
  unfold trFault; repeat' first | with_reducible assumption | with_reducible apply keeps_raise
theorem keeps_trCheckFails {s0 : State} (p : Nat) (s : State) (hk : Keeps s0 s) : Keeps s0 (trCheckFails p s) := by
  unfold trCheckFails; repeat' first | with_reducible assumption | with_reducible (first | apply keeps_trFault | apply keeps_bumpTr)
theorem keeps_execTrellisLinkLock (t p : Nat) (s : State) {u : State} (h : execTrellisLinkLock t p s = .next u) : Keeps s u := by
  unfold execTrellisLinkLock at h; injection h with h; subst h
  refine keeps_event (fun t g => ?_) (Keeps.refl _)
  repeat' first | with_reducible assumption | with_reducible (first | apply keeps_event | apply keeps_setStep)
theorem keeps_execHelloSend (t p : Nat) (s : State) {u : State} (h : execHelloSend t p s = .next u) : Keeps s u := by
  unfold execHelloSend at h; injection h with h; subst h
  refine keeps_event (fun t g => ?_) (Keeps.refl _)
  repeat' first | with_reducible assumption | with_reducible (first | apply keeps_event | apply keeps_trSent)
theorem keeps_execHelloReceive (t p : Nat) (h : Hello) (s : State) {u : State} (h : execHelloReceive t p h s = .next u) : Keeps s u := by
  unfold execHelloReceive at h; injection h with h; subst h
  refine keeps_event (fun t g => ?_) (Keeps.refl _)
  repeat' first | with_reducible assumption | with_reducible (first | apply keeps_event | apply keeps_trCheckFails | apply keeps_bumpTr | apply keeps_setTPort | apply Keeps.ite) | simp only [Keeps.other_iff] | split
theorem keeps_sessionFails {s0 : State} (p : Nat) (s : State) (hk : Keeps s0 s) : Keeps s0 (sessionFails p s) := by
  unfold sessionFails; repeat' first | with_reducible assumption | with_reducible apply keeps_setTPort | simp only [Keeps.other_iff]
theorem keeps_linkDown {s0 : State} (p : Nat) (s : State) (hk : Keeps s0 s) : Keeps s0 (linkDown p s) := by
  unfold linkDown; repeat' first | with_reducible assumption | with_reducible (first | apply keeps_bumpTr | apply keeps_sessionFails | apply keeps_setStep | apply keeps_raise | apply Keeps.ite) | simp only [Keeps.other_iff] | split
theorem keeps_exchangeFails {s0 : State} (p : Nat) (s : State) (hk : Keeps s0 s) : Keeps s0 (exchangeFails p s) := by
  unfold exchangeFails; repeat' first | with_reducible assumption | with_reducible (first | apply keeps_linkDown | apply keeps_sessionFails | apply Keeps.ite) | split
theorem keeps_sendOffer {s0 : State} (p : Nat) (s : State) (hk : Keeps s0 s) : Keeps s0 (sendOffer p s) := by
  unfold sendOffer; repeat' first | with_reducible assumption | with_reducible (first | apply keeps_exchangeFails | apply keeps_internalRandom | apply keeps_internalUse | apply keeps_trSent | apply keeps_setTPort | apply Keeps.ite) | simp only [Keeps.other_iff] | split
theorem keeps_modeHeld {s0 : State} (p : Nat) (held : Bool) (s : State) (hk : Keeps s0 s) : Keeps s0 (modeHeld p held s) := by
  unfold modeHeld; repeat' first | with_reducible assumption | with_reducible (first | apply keeps_raise | apply keeps_setStep | apply keeps_sendOffer | apply keeps_setTPort | apply Keeps.ite) | simp only [Keeps.other_iff] | split
theorem keeps_execLinkModeHeld (t p : Nat) (held : Bool) (s : State) {u : State} (h : execLinkModeHeld t p held s = .next u) : Keeps s u := by
  unfold execLinkModeHeld at h; injection h with h; subst h
  refine keeps_event (fun t g => ?_) (Keeps.refl _)
  repeat' first | with_reducible assumption | with_reducible (first | apply keeps_event | apply keeps_modeHeld)
theorem keeps_sendConfirm {s0 : State} (p : Nat) (s : State) (hk : Keeps s0 s) : Keeps s0 (sendConfirm p s) := by
  unfold sendConfirm; repeat' first | with_reducible assumption | with_reducible (first | apply keeps_internalRandom | apply keeps_internalUse | apply keeps_trSent)
theorem keeps_answerOffer {s0 : State} (p : Nat) (m : Keyx) (kem : Bytes) (s : State) (hk : Keeps s0 s) : Keeps s0 (answerOffer p m kem s) := by
  unfold answerOffer; repeat' first | with_reducible assumption | with_reducible (first | apply keeps_exchangeFails | apply keeps_internalRandom | apply keeps_internalUse | apply keeps_trSent | apply keeps_sendConfirm | apply keeps_setTPort | apply Keeps.ite) | simp only [Keeps.other_iff] | split
theorem keeps_sendTopo {s0 : State} (p : Nat) (s : State) (hk : Keeps s0 s) : Keeps s0 (sendTopo p s) := by
  unfold sendTopo; repeat' first | with_reducible assumption | with_reducible (first | apply keeps_trSent | apply Keeps.ite) | split
theorem keeps_sessionUp {s0 : State} (p : Nat) (s : State) (hk : Keeps s0 s) : Keeps s0 (sessionUp p s) := by
  unfold sessionUp; repeat' first | with_reducible assumption | with_reducible (first | apply keeps_setTPort | apply keeps_bumpTr | apply keeps_sendTopo | apply Keeps.ite) | simp only [Keeps.other_iff] | split
theorem keeps_keyxMeans {s0 : State} (p : Nat) (m : Keyx) (s : State) (hk : Keeps s0 s) : Keeps s0 (keyxMeans p m s) := by
  unfold keyxMeans; repeat' first | with_reducible assumption | with_reducible (first | apply keeps_answerOffer | apply keeps_exchangeFails | apply keeps_sendConfirm | apply keeps_setTPort | apply keeps_sessionUp | apply keeps_trCheckFails | apply Keeps.ite) | simp only [Keeps.other_iff] | split
theorem keeps_keyxTaken {s0 : State} (p : Nat) (m : Keyx × Bytes) (s : State) (hk : Keeps s0 s) : Keeps s0 (keyxTaken p m s) := by
  unfold keyxTaken; repeat' first | with_reducible assumption | with_reducible (first | apply keeps_exchangeFails | apply keeps_pressMismatch | apply keeps_keyxMeans | apply Keeps.ite) | split
theorem keeps_serveWaits {s0 : State} (p : Nat) (s : State) (hk : Keeps s0 s) : Keeps s0 (serveWaits p s) := by
  unfold serveWaits; repeat' first | with_reducible assumption | with_reducible (first | apply keeps_keyxTaken | apply keeps_setTPort | apply Keeps.foldl) | simp only [Keeps.other_iff] | intro _ _ _
theorem keeps_serveKeyx {s0 : State} (s : State) (hk : Keeps s0 s) : Keeps s0 (serveKeyx s) := by
  unfold serveKeyx; repeat' first | with_reducible assumption | with_reducible (first | apply keeps_serveWaits | apply Keeps.ite) | split
theorem keeps_keyxArrives {s0 : State} (p : Nat) (m : Keyx × Bytes) (s : State) (hk : Keeps s0 s) : Keeps s0 (keyxArrives p m s) := by
  unfold keyxArrives; repeat' first | with_reducible assumption | with_reducible (first | apply keeps_serveKeyx | apply keeps_bumpTr | apply keeps_setTPort | apply keeps_keyxTaken | apply Keeps.ite) | simp only [Keeps.other_iff] | split
theorem keeps_execKeyxReceive (run : PressRun) (p : Nat) (m : Keyx) (s : State) {u : State} (h : execKeyxReceive run p m s = .next u) : Keeps s u := by
  unfold execKeyxReceive at h; injection h with h; subst h
  refine keeps_event (fun t g => ?_) (Keeps.refl _)
  repeat' first | with_reducible assumption | with_reducible (first | apply keeps_event | apply keeps_keyxArrives)
theorem keeps_execPressOpComplete (t : Nat) (s : State) {u : State} (h : execPressOpComplete t s = .next u) : Keeps s u := by
  unfold execPressOpComplete at h; injection h with h; subst h
  refine keeps_event (fun t g => ?_) (Keeps.refl _)
  repeat' first | with_reducible assumption | with_reducible (first | apply keeps_event | apply keeps_serveKeyx | apply keeps_completeRunning)
theorem keeps_execVintageComplete (run : PressRun) (s : State) {u : State} (h : execVintageComplete run s = .next u) : Keeps s u := by
  unfold execVintageComplete at h; injection h with h; subst h
  refine keeps_event (fun t g => ?_) (Keeps.refl _)
  repeat' first | with_reducible assumption | with_reducible (first | apply keeps_event | apply keeps_serveKeyx | apply keeps_vintageEnds)
theorem keeps_execPkAbort (w : IWord) (s : State) {u : State} (h : execPkAbort w s = .next u) : Keeps s u := by
  unfold execPkAbort at h
  cases h
  exact keeps_serveKeyx _ (keeps_runCmd (fun e t g => keeps_pkAbortCmd e g) (Keeps.refl _))
theorem keeps_execLinkRekey (t p : Nat) (s : State) {u : State} (h : execLinkRekey t p s = .next u) : Keeps s u := by
  unfold execLinkRekey at h; injection h with h; subst h
  refine keeps_event (fun t g => ?_) (Keeps.refl _)
  repeat' first | with_reducible assumption | with_reducible (first | apply keeps_event | apply keeps_sendOffer)
theorem keeps_execTrellisStepTimeout (t p : Nat) (s : State) {u : State} (h : execTrellisStepTimeout t p s = .next u) : Keeps s u := by
  unfold execTrellisStepTimeout at h; injection h with h; subst h
  refine keeps_event (fun t g => ?_) (Keeps.refl _)
  repeat' first | with_reducible assumption | with_reducible (first | apply keeps_event | apply keeps_trFault | apply keeps_setStep | apply keeps_sessionFails | apply Keeps.ite) | simp only [Keeps.other_iff] | split
theorem keeps_trValidated {s0 : State} (p : Nat) (f : TFrame) (s : State) (hk : Keeps s0 s) : Keeps s0 (trValidated p f s) := by
  unfold trValidated; repeat' first | with_reducible assumption | with_reducible (first | apply keeps_setTPort | apply keeps_bumpTr | apply Keeps.ite) | simp only [Keeps.other_iff] | split
theorem keeps_trRejected {s0 : State} (p : Nat) (s : State) (hk : Keeps s0 s) : Keeps s0 (trRejected p s) := by
  unfold trRejected; repeat' first | with_reducible assumption | with_reducible (first | apply keeps_trCheckFails | apply keeps_setTPort | apply keeps_linkDown | apply Keeps.ite) | simp only [Keeps.other_iff] | split
theorem keeps_trForward {s0 : State} (p : Nat) (f : TFrame) (payload : Bytes) (s : State) (hk : Keeps s0 s) : Keeps s0 (trForward p f payload s) := by
  unfold trForward; repeat' first | with_reducible assumption | with_reducible (first | apply keeps_bumpTr | apply keeps_trEmit | apply Keeps.ite) | split
theorem keeps_trTake {s0 : State} (f : TFrame) (s : State) (hk : Keeps s0 s) : Keeps s0 (trTake f s) := by
  unfold trTake; repeat' first | with_reducible assumption | with_reducible (first | apply keeps_bump | apply Keeps.ite) | simp only [Keeps.other_iff] | split
theorem keeps_trService {s0 : State} (p : Nat) (f : TFrame) (s : State) (hk : Keeps s0 s) : Keeps s0 (trService p f s) := by
  unfold trService; repeat' first | with_reducible assumption | with_reducible (first | apply keeps_trForward | apply keeps_trTake | apply keeps_bumpTr | apply Keeps.ite) | split
theorem keeps_tsyncTaken {s0 : State} (p : Nat) (f : TFrame) (s : State) (hk : Keeps s0 s) : Keeps s0 (tsyncTaken p f s) := by
  unfold tsyncTaken; repeat' first | with_reducible assumption | with_reducible (first | apply keeps_bumpTr | apply keeps_advance | apply keeps_draw | apply keeps_trForward | apply Keeps.ite | apply ClkStep.update) | simp only [Keeps.other_iff] | split | with_reducible apply Keeps.withClk
theorem keeps_trTaken {s0 : State} (p : Nat) (f : TFrame) (s : State) (hk : Keeps s0 s) : Keeps s0 (trTaken p f s) := by
  unfold trTaken; repeat' first | with_reducible assumption | with_reducible (first | apply keeps_trService | apply keeps_tsyncTaken | apply keeps_bumpTr | apply Keeps.ite) | split
theorem keeps_trArrives {s0 : State} (p : Nat) (l : Bytes) (s : State) (hk : Keeps s0 s) : Keeps s0 (trArrives p l s) := by
  unfold trArrives; repeat' first | with_reducible assumption | with_reducible (first | apply keeps_trRejected | apply keeps_trTaken | apply keeps_trValidated) | simp only [Keeps.other_iff] | split
theorem keeps_execTrellisFrameReceive (t p : Nat) (l : Bytes) (s : State) {u : State} (h : execTrellisFrameReceive t p l s = .next u) : Keeps s u := by
  unfold execTrellisFrameReceive at h; injection h with h; subst h
  refine keeps_event (fun t g => ?_) (Keeps.refl _)
  repeat' first | with_reducible assumption | with_reducible (first | apply keeps_event | apply keeps_trArrives)
theorem keeps_execTsyncReceive (t p : Nat) (l : Bytes) (s : State) {u : State} (h : execTsyncReceive t p l s = .next u) : Keeps s u := by
  unfold execTsyncReceive at h; injection h with h; subst h
  refine keeps_event (fun t g => ?_) (Keeps.refl _)
  repeat' first | with_reducible assumption | with_reducible (first | apply keeps_event | apply keeps_trArrives)
theorem keeps_execTsyncSend (t : Nat) (s : State) {u : State} (h : execTsyncSend t s = .next u) : Keeps s u := by
  unfold execTsyncSend at h; injection h with h; subst h
  refine keeps_event (fun t g => ?_) (Keeps.refl _)
  repeat' first | with_reducible assumption | with_reducible (first | apply keeps_event | apply keeps_trSendFrame | apply SeqStep.update) | simp only [Keeps.other_iff] | with_reducible apply Keeps.withSeq
theorem keeps_execDelayRequest (t p t1 t2 t3 t4 : Nat) (s : State) {u : State} (h : execDelayRequest t p t1 t2 t3 t4 s = .next u) : Keeps s u := by
  unfold execDelayRequest at h; injection h with h; subst h
  refine keeps_event (fun t g => ?_) (Keeps.refl _)
  repeat' first | with_reducible assumption | with_reducible (first | apply keeps_event | apply keeps_trSent | apply keeps_setTPort) | simp only [Keeps.other_iff]
theorem keeps_execKeepaliveSend (t p : Nat) (s : State) {u : State} (h : execKeepaliveSend t p s = .next u) : Keeps s u := by
  unfold execKeepaliveSend at h; injection h with h; subst h
  refine keeps_event (fun t g => ?_) (Keeps.refl _)
  repeat' first | with_reducible assumption | with_reducible (first | apply keeps_event | apply keeps_trEmit)
theorem keeps_svcProgram {s0 : State} (src relay : Nat) (content : Bytes) (s : State) (hk : Keeps s0 s) : Keeps s0 (svcProgram src relay content s) := by
  unfold svcProgram; repeat' first | with_reducible assumption | with_reducible (first | apply keeps_answerService | apply keeps_setCtx | apply keeps_endUnstarted | apply keeps_startProgram | apply Keeps.ite) | simp only [Keeps.other_iff] | split
theorem keeps_svcGraft {s0 : State} (src relay : Nat) (m : Bytes) (s : State) (hk : Keeps s0 s) : Keeps s0 (svcGraft src relay m s) := by
  unfold svcGraft; repeat' first | with_reducible assumption | with_reducible (first | apply keeps_graftEnds | apply Keeps.ite) | simp only [Keeps.other_iff] | split
theorem keeps_svcFragment {s0 : State} (src relay frag nfrag : Nat) (part : Bytes) (s : State) (hk : Keeps s0 s) : Keeps s0 (svcFragment src relay frag nfrag part s) := by
  unfold svcFragment; repeat' first | with_reducible assumption | with_reducible (first | apply keeps_svcGraft | apply Keeps.ite) | simp only [Keeps.other_iff] | split
theorem keeps_svcQueue {s0 : State} (src : Nat) (payload : Bytes) (s : State) (hk : Keeps s0 s) : Keeps s0 (svcQueue src payload s) := by
  unfold svcQueue; repeat' first | with_reducible assumption | with_reducible (first | apply keeps_bumpTr | apply Keeps.ite) | simp only [Keeps.other_iff] | split
theorem keeps_svcRejected {s0 : State} (src relay : Nat) (l : Bytes) (s : State) (hk : Keeps s0 s) : Keeps s0 (svcRejected src relay l s) := by
  unfold svcRejected; repeat' first | with_reducible assumption | with_reducible (first | apply keeps_answerService | apply keeps_graftEnds | apply Keeps.ite) | simp only [Keeps.other_iff] | split
theorem keeps_svcDeliver {s0 : State} (src : Nat) (l : Bytes) (s : State) (hk : Keeps s0 s) : Keeps s0 (svcDeliver src l s) := by
  unfold svcDeliver; repeat' first | with_reducible assumption | with_reducible (first | apply keeps_svcQueue | apply keeps_sendService | apply keeps_bumpTr | apply keeps_svcRejected | apply keeps_svcProgram | apply keeps_svcFragment | apply Keeps.ite) | simp only [Keeps.other_iff] | split
theorem keeps_execServiceReceive (t : Nat) (s : State) {u : State} (h : execServiceReceive t s = .next u) : Keeps s u := by
  unfold execServiceReceive at h; injection h with h; subst h
  refine keeps_event (fun t g => ?_) (Keeps.refl _)
  repeat' first | with_reducible assumption | with_reducible (first | apply keeps_event | apply keeps_svcDeliver) | simp only [Keeps.other_iff] | split
theorem keeps_execGraftFragmentTimeout (t src relay : Nat) (s : State) {u : State} (h : execGraftFragmentTimeout t src relay s = .next u) : Keeps s u := by
  unfold execGraftFragmentTimeout at h; injection h with h; subst h
  refine keeps_event (fun t g => ?_) (Keeps.refl _)
  repeat' first | with_reducible assumption | with_reducible (first | apply keeps_event | apply keeps_bumpTr) | simp only [Keeps.other_iff] | split
theorem keeps_execEventBatchSend (t : Nat) (s : State) {u : State} (h : execEventBatchSend t s = .next u) : Keeps s u := by
  unfold execEventBatchSend at h; injection h with h; subst h
  refine keeps_event (fun t g => ?_) (Keeps.refl _)
  repeat' first | with_reducible assumption | with_reducible (first | apply keeps_event | apply keeps_sendService) | simp only [Keeps.other_iff]
theorem keeps_execTrellisLinkDown (t : Nat) (x : LinkLost) (s : State) {u : State} (h : execTrellisLinkDown t x s = .next u) : Keeps s u := by
  unfold execTrellisLinkDown at h; injection h with h; subst h
  refine keeps_event (fun t g => ?_) (Keeps.refl _)
  repeat' first | with_reducible assumption | with_reducible (first | apply keeps_event | apply keeps_linkDown)
theorem keeps_execNodeLost (t node : Nat) (s : State) {u : State} (h : execNodeLost t node s = .next u) : Keeps s u := by
  unfold execNodeLost at h; injection h with h; subst h
  refine keeps_event (fun t g => ?_) (Keeps.refl _)
  repeat' first | with_reducible assumption | with_reducible (first | apply keeps_event | apply keeps_elect | apply keeps_raise) | simp only [Keeps.other_iff]
theorem keeps_topoTaken {s0 : State} (p : Nat) (x : Topo) (s : State) (hk : Keeps s0 s) : Keeps s0 (topoTaken p x s) := by
  unfold topoTaken; repeat' first | with_reducible assumption | with_reducible (first | apply keeps_raise | apply keeps_elect | apply keeps_sendTopo | apply Keeps.ite | apply Keeps.foldl) | simp only [Keeps.other_iff] | intro _ _ _ | split
theorem keeps_execTopoReceive (t p : Nat) (x : Topo) (s : State) {u : State} (h : execTopoReceive t p x s = .next u) : Keeps s u := by
  unfold execTopoReceive at h; injection h with h; subst h
  refine keeps_event (fun t g => ?_) (Keeps.refl _)
  repeat' first | with_reducible assumption | with_reducible (first | apply keeps_event | apply keeps_topoTaken)

/-! Power -/

theorem keeps_resetCommon {s0 : State} (s : State) (hk : Keeps s0 s) : Keeps s0 (resetCommon s) :=
  hk.update ⟨Nat.le_refl _, fun _ => todWrap_pos⟩ (fun _ => ⟨rfl, rfl, rfl, rfl, (fun _ h => nomatch h), (fun _ h => nomatch h), (fun _ h => nomatch h)⟩)
    (fun _ => ⟨Nat.zero_le _, Nat.zero_le _, Nat.two_pow_pos _⟩) (.update _) (fun _ => ⟨rfl, rfl, rfl, rfl, rfl, rfl, rfl, rfl⟩) (Nat.le_refl _) (List.suffix_refl _)
theorem keeps_resetMain {s0 : State} (s : State) (hk : Keeps s0 s) : Keeps s0 (resetMain s) :=
  hk.update ⟨Nat.le_refl _, fun _ => todWrap_pos⟩ (fun _ => ⟨rfl, rfl, rfl, rfl, (fun _ h => nomatch h), (fun _ h => nomatch h), (fun _ h => nomatch h)⟩)
    (fun b => ⟨Nat.zero_le _, Nat.zero_le _, b.2.2⟩) (.update _) (fun t => ⟨rfl, rfl, rfl, rfl, rfl, rfl, rfl, tabWf_filter t.2.2.2.2.2.2.2⟩) (Nat.le_refl _) (List.suffix_refl _)
theorem keeps_causeTaken {s0 : State} (s : State) (hk : Keeps s0 s) : Keeps s0 (causeTaken s) := by
  unfold causeTaken; repeat' first | with_reducible assumption | with_reducible apply CrustStep.update | simp only [Keeps.other_iff] | with_reducible apply Keeps.withCrust
theorem keeps_execNpor (t : Nat) (s : State) {u : State} (h : execNpor t s = .next u) : Keeps s u := by
  unfold execNpor at h; injection h with h; subst h
  refine keeps_event (fun t g => ?_) (Keeps.refl _)
  repeat' first | with_reducible assumption | with_reducible (first | apply keeps_event | apply keeps_resetCommon)
theorem keeps_railsFail {s0 : State} (s : State) (hk : Keeps s0 s) : Keeps s0 (railsFail s) := by
  unfold railsFail; repeat' first | with_reducible assumption | with_reducible (first | apply keeps_resetCommon | apply Keeps.ite | apply CrustStep.update) | simp only [Keeps.other_iff] | split | with_reducible apply Keeps.withCrust
theorem keeps_execBrownOut (t rail : Nat) (s : State) {u : State} (h : execBrownOut t rail s = .next u) : Keeps s u := by
  unfold execBrownOut at h; injection h with h; subst h
  refine keeps_event (fun t g => ?_) (Keeps.refl _)
  repeat' first | with_reducible assumption | with_reducible (first | apply keeps_event | apply keeps_railsFail)
theorem keeps_startAt {s0 : State} (input : Nat) (goodA goodB role : Bool) (s : State) (hk : Keeps s0 s) : Keeps s0 (startAt input goodA goodB role s) := by
  unfold startAt; repeat' first | with_reducible assumption | with_reducible (first | apply keeps_resetCommon | apply keeps_causeTaken | apply keeps_recordNew | apply keeps_raiseKept | apply keeps_raise | apply Keeps.ite) | simp only [Keeps.other_iff] | split
theorem keeps_powerGoodEdge {s0 : State} (a b role : Bool) (s : State) (hk : Keeps s0 s) : Keeps s0 (powerGoodEdge a b role s) := by
  unfold powerGoodEdge; repeat' first | with_reducible assumption | with_reducible (first | apply keeps_startAt | apply Keeps.ite | apply CrustStep.update) | simp only [Keeps.other_iff] | split | with_reducible apply Keeps.withCrust
theorem keeps_execPowerGood (t : Nat) (a b role : Bool) (s : State) {u : State} (h : execPowerGood t a b role s = .next u) : Keeps s u := by
  unfold execPowerGood at h; injection h with h; subst h
  refine keeps_event (fun t g => ?_) (Keeps.refl _)
  repeat' first | with_reducible assumption | with_reducible (first | apply keeps_event | apply keeps_powerGoodEdge)
theorem keeps_resetEdge {s0 : State} (s : State) (hk : Keeps s0 s) : Keeps s0 (resetEdge s) := by
  unfold resetEdge; repeat' first | with_reducible assumption | with_reducible (first | apply keeps_resetMain | apply keeps_raiseKept | apply keeps_causeTaken | apply keeps_raise)
theorem keeps_execNreset (t : Nat) (s : State) {u : State} (h : execNreset t s = .next u) : Keeps s u := by
  unfold execNreset at h; injection h with h; subst h
  refine keeps_event (fun t g => ?_) (Keeps.refl _)
  repeat' first | with_reducible assumption | with_reducible (first | apply keeps_event | apply keeps_resetEdge)
theorem keeps_execRailWarning (t rail : Nat) (s : State) {u : State} (h : execRailWarning t rail s = .next u) : Keeps s u := by
  unfold execRailWarning at h; injection h with h; subst h
  refine keeps_event (fun t g => ?_) (Keeps.refl _)
  repeat' first | with_reducible assumption | with_reducible (first | apply keeps_event | apply keeps_raise) | simp only [Keeps.other_iff]
theorem keeps_execRailWarningClear (t rail : Nat) (s : State) {u : State} (h : execRailWarningClear t rail s = .next u) : Keeps s u := by
  unfold execRailWarningClear at h; injection h with h; subst h
  refine keeps_event (fun t g => ?_) (Keeps.refl _)
  repeat' first | with_reducible assumption | with_reducible (first | apply keeps_event | apply keeps_closeRec) | simp only [Keeps.other_iff]
theorem keeps_setRef {s0 : State} (i : Nat) (g : Bool) (s : State) (hk : Keeps s0 s) : Keeps s0 (setRef i g s) := by
  unfold setRef; repeat' first | with_reducible assumption | with_reducible apply Keeps.ite | simp only [Keeps.other_iff] | split
theorem keeps_selectRef {s0 : State} (i : Nat) (s : State) (hk : Keeps s0 s) : Keeps s0 (selectRef i s) := by
  unfold selectRef; repeat' first | with_reducible assumption | with_reducible apply keeps_raise | simp only [Keeps.other_iff]
theorem keeps_holdover {s0 : State} (s : State) (hk : Keeps s0 s) : Keeps s0 (holdover s) := by
  unfold holdover; repeat' first | with_reducible assumption | with_reducible apply keeps_raise | simp only [Keeps.other_iff]
theorem keeps_noteRefFault {s0 : State} (i : Nat) (s : State) (hk : Keeps s0 s) : Keeps s0 (noteRefFault i s) := by
  unfold noteRefFault; repeat' first | with_reducible assumption | with_reducible apply Keeps.ite | simp only [Keeps.other_iff] | split
theorem keeps_refLost {s0 : State} (input : Nat) (s : State) (hk : Keeps s0 s) : Keeps s0 (refLost input s) := by
  unfold refLost; repeat' first | with_reducible assumption | with_reducible (first | apply keeps_noteRefFault | apply keeps_setRef | apply keeps_selectRef | apply keeps_holdover | apply Keeps.ite) | split
theorem keeps_execReferenceLoss (t input : Nat) (s : State) {u : State} (h : execReferenceLoss t input s = .next u) : Keeps s u := by
  unfold execReferenceLoss at h; injection h with h; subst h
  refine keeps_event (fun t g => ?_) (Keeps.refl _)
  repeat' first | with_reducible assumption | with_reducible (first | apply keeps_event | apply keeps_refLost)
theorem keeps_execReferenceGood (t input : Nat) (s : State) {u : State} (h : execReferenceGood t input s = .next u) : Keeps s u := by
  unfold execReferenceGood at h; injection h with h; subst h
  refine keeps_event (fun t g => ?_) (Keeps.refl _)
  repeat' first | with_reducible assumption | with_reducible (first | apply keeps_event | apply keeps_setRef | apply keeps_selectRef | apply Keeps.ite) | split
theorem keeps_execPullInComplete (t : Nat) (s : State) {u : State} (h : execPullInComplete t s = .next u) : Keeps s u := by
  unfold execPullInComplete at h; injection h with h; subst h
  refine keeps_event (fun t g => ?_) (Keeps.refl _)
  repeat' first | with_reducible assumption | with_reducible apply keeps_event | simp only [Keeps.other_iff]
theorem keeps_pllLost {s0 : State} (s : State) (hk : Keeps s0 s) : Keeps s0 (pllLost s) := by
  unfold pllLost; repeat' first | with_reducible assumption | with_reducible (first | apply keeps_raise | apply Keeps.ite) | simp only [Keeps.other_iff] | split
theorem keeps_execRootPllLockLoss (t : Nat) (s : State) {u : State} (h : execRootPllLockLoss t s = .next u) : Keeps s u := by
  unfold execRootPllLockLoss at h; injection h with h; subst h
  refine keeps_event (fun t g => ?_) (Keeps.refl _)
  repeat' first | with_reducible assumption | with_reducible (first | apply keeps_event | apply keeps_pllLost)
theorem keeps_pllRelock {s0 : State} (locked : Bool) (s : State) (hk : Keeps s0 s) : Keeps s0 (pllRelock locked s) := by
  unfold pllRelock; repeat' first | with_reducible assumption | with_reducible (first | apply keeps_raise | apply Keeps.ite) | simp only [Keeps.other_iff] | split
theorem keeps_execRootPllRelock (t : Nat) (locked : Bool) (s : State) {u : State} (h : execRootPllRelock t locked s = .next u) : Keeps s u := by
  unfold execRootPllRelock at h; injection h with h; subst h
  refine keeps_event (fun t g => ?_) (Keeps.refl _)
  repeat' first | with_reducible assumption | with_reducible (first | apply keeps_event | apply keeps_pllRelock)

/-! Tables -/

theorem keeps_settleChecks {s0 : State} (e p n : Nat) (s : State) (hk : Keeps s0 s) : Keeps s0 (settleChecks e p n s) := by
  induction n generalizing s with
  | zero => exact hk
  | succ n ih =>
    unfold settleChecks
    split
    · exact ih _ (keeps_atRoot _ _ _ (fun a t g => keeps_checkRx _ _ _ g) hk)
    · exact hk
theorem keeps_settleRetire {s0 : State} (c : Nat) (s : State) (hk : Keeps s0 s) : Keeps s0 (settleRetire c s) := by
  unfold settleRetire; repeat' first | with_reducible assumption | with_reducible (first | apply keeps_retireDraining | apply Keeps.ite | apply Keeps.foldl) | intro _ _ _ | split
theorem keeps_trafficFirst {s0 : State} (c : Nat) (s : State) (hk : Keeps s0 s) : Keeps s0 (trafficFirst c s) := by
  unfold trafficFirst; repeat' first | with_reducible assumption | with_reducible (first | apply keeps_settleLanes | apply keeps_settleRetire | apply keeps_settleChecks | apply Keeps.foldl) | intro _ _ _
theorem keeps_afterTraffic {s0 s : State} {c : Cmd} (hc : ∀ e t, Keeps s0 t → Keeps s0 (c.eff e t).s) (e : Env)
    (hk : Keeps s0 s) : Keeps s0 ((afterTraffic c).eff e s).s := by
  have g := keeps_trafficFirst (opChan e) _ hk
  unfold afterTraffic
  dsimp only
  exact hc _ _ g
theorem keeps_chSetBare {s0 s : State} (e : Env) (hk : Keeps s0 s) : Keeps s0 (chSetBare.eff e s).s := by
  unfold chSetBare; repeat' first | with_reducible assumption | with_reducible (first | apply keeps_chSetEff | apply Keeps.ite) | dsimp only | split
theorem keeps_chSetCmd {s0 s : State} (e : Env) (hk : Keeps s0 s) : Keeps s0 (chSetCmd.eff e s).s := keeps_afterTraffic (fun e t g => keeps_chSetBare e g) e hk
theorem keeps_execChSet (w : IWord) (s : State) {u : State} (h : execChSet w s = .next u) : Keeps s u := by
  cases h; exact keeps_runCmd (fun e t g => keeps_chSetCmd e g) (Keeps.refl _)
theorem keeps_chPinBare {s0 s : State} (e : Env) (hk : Keeps s0 s) : Keeps s0 (chPinBare.eff e s).s := by
  unfold chPinBare; repeat' first | with_reducible assumption | with_reducible (first | apply keeps_chPinEff | apply Keeps.ite) | dsimp only | split
theorem keeps_chPinCmd {s0 s : State} (e : Env) (hk : Keeps s0 s) : Keeps s0 (chPinCmd.eff e s).s := keeps_afterTraffic (fun e t g => keeps_chPinBare e g) e hk
theorem keeps_execChPin (w : IWord) (s : State) {u : State} (h : execChPin w s = .next u) : Keeps s u := by
  cases h; exact keeps_runCmd (fun e t g => keeps_chPinCmd e g) (Keeps.refl _)
theorem keeps_chUnpinBare {s0 s : State} (e : Env) (hk : Keeps s0 s) : Keeps s0 (chUnpinBare.eff e s).s := by
  unfold chUnpinBare; repeat' first | with_reducible assumption | with_reducible (first | apply keeps_touchLine | apply keeps_putChan | apply Keeps.ite) | simp only [Keeps.other_iff] | dsimp only | split
theorem keeps_chUnpinCmd {s0 s : State} (e : Env) (hk : Keeps s0 s) : Keeps s0 (chUnpinCmd.eff e s).s := keeps_afterTraffic (fun e t g => keeps_chUnpinBare e g) e hk
theorem keeps_execChUnpin (w : IWord) (s : State) {u : State} (h : execChUnpin w s = .next u) : Keeps s u := by
  cases h; exact keeps_runCmd (fun e t g => keeps_chUnpinCmd e g) (Keeps.refl _)
theorem keeps_peerAddBare {s0 s : State} (e : Env) (hk : Keeps s0 s) : Keeps s0 (peerAddBare.eff e s).s := by
  have g := keeps_countOp 0x32 _ (keeps_noteTables _ (keeps_syncFlush _ hk))
  unfold peerAddBare
  dsimp only
  split
  · rename_i u hu
    have h := keeps_peerAdd _ _ _ _ g hu
    repeat' first | exact h | exact keeps_discardAll _ _ h | dsimp only | split
  · exact keeps_raise _ _ _ _ (keeps_bump _ _ _ _ _ _ g)
theorem keeps_peerAddCmd {s0 s : State} (e : Env) (hk : Keeps s0 s) : Keeps s0 (peerAddCmd.eff e s).s := keeps_afterTraffic (fun e t g => keeps_peerAddBare e g) e hk
theorem keeps_execPeerAdd (w : IWord) (s : State) {u : State} (h : execPeerAdd w s = .next u) : Keeps s u := by
  cases h; exact keeps_runCmd (fun e t g => keeps_peerAddCmd e g) (Keeps.refl _)
theorem keeps_chReadBare {s0 s : State} (e : Env) (hk : Keeps s0 s) : Keeps s0 (chReadBare.eff e s).s := by
  unfold chReadBare; repeat' first | with_reducible assumption | with_reducible apply keeps_storeMem | dsimp only
theorem keeps_chReadCmd {s0 s : State} (e : Env) (hk : Keeps s0 s) : Keeps s0 (chReadCmd.eff e s).s := keeps_afterTraffic (fun e t g => keeps_chReadBare e g) e hk
theorem keeps_execChRead (w : IWord) (s : State) {u : State} (h : execChRead w s = .next u) : Keeps s u := by
  cases h; exact keeps_runCmd (fun e t g => keeps_chReadCmd e g) (Keeps.refl _)
theorem keeps_sysReconcileBare {s0 s : State} (e : Env) (hk : Keeps s0 s) : Keeps s0 (sysReconcileBare.eff e s).s := by
  unfold sysReconcileBare; repeat' first | with_reducible assumption | with_reducible (first | apply keeps_reconcileOne | apply Keeps.foldl | apply SeqStep.update) | simp only [Keeps.other_iff] | dsimp only | intro _ _ _ | with_reducible apply Keeps.withSeq
theorem keeps_sysReconcileCmd {s0 s : State} (e : Env) (hk : Keeps s0 s) : Keeps s0 (sysReconcileCmd.eff e s).s := keeps_afterTraffic (fun e t g => keeps_sysReconcileBare e g) e hk
theorem keeps_reconcileUpTo {s0 : State} (w : IWord) (k : Nat) (s : State) (hk : Keeps s0 s) : Keeps s0 (reconcileUpTo w k s) := by
  unfold reconcileUpTo; repeat' first | with_reducible assumption | with_reducible (first | apply keeps_reconcileOne | apply keeps_trafficFirst | apply keeps_setCtx | apply Keeps.foldl | apply SeqStep.update) | simp only [Keeps.other_iff] | intro _ _ _ | split | with_reducible apply Keeps.withSeq
theorem keeps_reconcileLost {s0 : State} (w : IWord) (s : State) (hk : Keeps s0 s) : Keeps s0 (reconcileLost w s) := by
  have g : Keeps s0 (runCmd sysReconcileCmd { w with via := .lostBefore } s) :=
    keeps_runCmd (fun e t g => keeps_sysReconcileCmd e g) hk
  unfold reconcileLost
  generalize runCmd sysReconcileCmd { w with via := .lostBefore } s = r at g ⊢
  dsimp only
  repeat' first | with_reducible exact g | with_reducible exact keeps_reconcileUpTo _ _ _ g | split
theorem keeps_execSysReconcile (w : IWord) (s : State) {u : State} (h : execSysReconcile w s = .next u) : Keeps s u := by
  unfold execSysReconcile at h
  injection h with h
  subst h
  exact Keeps.ite (keeps_runCmd (fun e t g => keeps_sysReconcileCmd e g) (Keeps.refl _)) (keeps_reconcileLost _ _ (Keeps.refl _))
theorem keeps_saLoadBare {s0 s : State} (e : Env) (hk : Keeps s0 s) : Keeps s0 (saLoadBare.eff e s).s := by
  unfold saLoadBare; repeat' first | with_reducible assumption | with_reducible (first | apply keeps_onResident | apply keeps_saLoadEff | apply Keeps.ite) | dsimp only | intro _ _ | split
theorem keeps_saLoadCmd {s0 s : State} (e : Env) (hk : Keeps s0 s) : Keeps s0 (saLoadCmd.eff e s).s := keeps_afterTraffic (fun e t g => keeps_readingSlot (fun e t g => by repeat' first | exact g | dsimp only | dsimp only) (fun e t g => keeps_saLoadBare e g) e g) e hk
theorem keeps_execSaLoad (w : IWord) (s : State) {u : State} (h : execSaLoad w s = .next u) : Keeps s u := by
  cases h; exact keeps_runCmd (fun e t g => keeps_saLoadCmd e g) (Keeps.refl _)
theorem keeps_saArmBare {s0 s : State} (e : Env) (hk : Keeps s0 s) : Keeps s0 (saArmBare.eff e s).s := by
  unfold saArmBare; repeat' first | with_reducible assumption | with_reducible (first | apply keeps_onResident | apply keeps_saArmEff | apply Keeps.ite) | dsimp only | intro _ _ | split
theorem keeps_saArmCmd {s0 s : State} (e : Env) (hk : Keeps s0 s) : Keeps s0 (saArmCmd.eff e s).s := keeps_afterTraffic (fun e t g => keeps_saArmBare e g) e hk
theorem keeps_execSaArm (w : IWord) (s : State) {u : State} (h : execSaArm w s = .next u) : Keeps s u := by
  cases h; exact keeps_runCmd (fun e t g => keeps_saArmCmd e g) (Keeps.refl _)
theorem keeps_saRollBare {s0 s : State} (e : Env) (hk : Keeps s0 s) : Keeps s0 (saRollBare.eff e s).s := by
  unfold saRollBare; repeat' first | with_reducible assumption | with_reducible (first | apply keeps_onResident | apply keeps_saRollEff) | dsimp only | intro _ _
theorem keeps_saRollCmd {s0 s : State} (e : Env) (hk : Keeps s0 s) : Keeps s0 (saRollCmd.eff e s).s := keeps_afterTraffic (fun e t g => keeps_saRollBare e g) e hk
theorem keeps_execSaRoll (w : IWord) (s : State) {u : State} (h : execSaRoll w s = .next u) : Keeps s u := by
  cases h; exact keeps_runCmd (fun e t g => keeps_saRollCmd e g) (Keeps.refl _)
theorem keeps_saRetireBare {s0 s : State} (e : Env) (hk : Keeps s0 s) : Keeps s0 (saRetireBare.eff e s).s := by
  unfold saRetireBare; repeat' first | with_reducible assumption | with_reducible (first | apply keeps_onResident | apply keeps_saRetireEff | apply Keeps.ite) | dsimp only | intro _ _ | split
theorem keeps_saRetireCmd {s0 s : State} (e : Env) (hk : Keeps s0 s) : Keeps s0 (saRetireCmd.eff e s).s := keeps_afterTraffic (fun e t g => keeps_saRetireBare e g) e hk
theorem keeps_execSaRetire (w : IWord) (s : State) {u : State} (h : execSaRetire w s = .next u) : Keeps s u := by
  cases h; exact keeps_runCmd (fun e t g => keeps_saRetireCmd e g) (Keeps.refl _)

end Sys2Proof.Machine
end

