-- ==== Sys2Proof/Laws/State.lean ====
section
/-! SUPPORT. What each named update of the state leaves of each field: later proofs rewrite with these and unfold no
record update. -/

namespace Sys2Proof.Machine

/-! ### setLane -/

@[simp] theorem setLane_pending (s : State) (i : Nat) (v : Lane) : (setLane s i v).pending = s.pending := rfl
@[simp] theorem setLane_clk (s : State) (i : Nat) (v : Lane) : (setLane s i v).clk = s.clk := rfl
@[simp] theorem setLane_lanes (s : State) (i : Nat) (v : Lane) : (setLane s i v).lanes = tabSet {} s.lanes i v := rfl
@[simp] theorem setLane_cals (s : State) (i : Nat) (v : Lane) : (setLane s i v).cals = s.cals := rfl
@[simp] theorem setLane_synce (s : State) (i : Nat) (v : Lane) : (setLane s i v).synce = s.synce := rfl
@[simp] theorem setLane_ports (s : State) (i : Nat) (v : Lane) : (setLane s i v).ports = s.ports := rfl
@[simp] theorem setLane_shapers (s : State) (i : Nat) (v : Lane) : (setLane s i v).shapers = s.shapers := rfl
@[simp] theorem setLane_gates (s : State) (i : Nat) (v : Lane) : (setLane s i v).gates = s.gates := rfl
@[simp] theorem setLane_meters (s : State) (i : Nat) (v : Lane) : (setLane s i v).meters = s.meters := rfl
@[simp] theorem setLane_cls (s : State) (i : Nat) (v : Lane) : (setLane s i v).cls = s.cls := rfl
@[simp] theorem setLane_assoc (s : State) (i : Nat) (v : Lane) : (setLane s i v).assoc = s.assoc := rfl
@[simp] theorem setLane_cipher (s : State) (i : Nat) (v : Lane) : (setLane s i v).cipher = s.cipher := rfl
@[simp] theorem setLane_cask (s : State) (i : Nat) (v : Lane) : (setLane s i v).cask = s.cask := rfl
@[simp] theorem setLane_timeFn (s : State) (i : Nat) (v : Lane) : (setLane s i v).timeFn = s.timeFn := rfl
@[simp] theorem setLane_seq (s : State) (i : Nat) (v : Lane) : (setLane s i v).seq = s.seq := rfl
@[simp] theorem setLane_vault (s : State) (i : Nat) (v : Lane) : (setLane s i v).vault = s.vault := rfl
@[simp] theorem setLane_press (s : State) (i : Nat) (v : Lane) : (setLane s i v).press = s.press := rfl
@[simp] theorem setLane_boot (s : State) (i : Nat) (v : Lane) : (setLane s i v).boot = s.boot := rfl
@[simp] theorem setLane_mg (s : State) (i : Nat) (v : Lane) : (setLane s i v).mg = s.mg := rfl
@[simp] theorem setLane_crust (s : State) (i : Nat) (v : Lane) : (setLane s i v).crust = s.crust := rfl
@[simp] theorem setLane_book (s : State) (i : Nat) (v : Lane) : (setLane s i v).book = s.book := rfl
@[simp] theorem setLane_trellis (s : State) (i : Nat) (v : Lane) : (setLane s i v).trellis = s.trellis := rfl
@[simp] theorem setLane_hostIf (s : State) (i : Nat) (v : Lane) : (setLane s i v).hostIf = s.hostIf := rfl
@[simp] theorem setLane_power (s : State) (i : Nat) (v : Lane) : (setLane s i v).power = s.power := rfl
@[simp] theorem setLane_cnt (s : State) (i : Nat) (v : Lane) : (setLane s i v).cnt = s.cnt := rfl
@[simp] theorem setLane_drawn (s : State) (i : Nat) (v : Lane) : (setLane s i v).drawn = s.drawn := rfl
@[simp] theorem setLane_out (s : State) (i : Nat) (v : Lane) : (setLane s i v).out = s.out := rfl

/-! ### setPort -/

@[simp] theorem setPort_pending (s : State) (i : Nat) (v : Port) : (setPort s i v).pending = s.pending := rfl
@[simp] theorem setPort_clk (s : State) (i : Nat) (v : Port) : (setPort s i v).clk = s.clk := rfl
@[simp] theorem setPort_lanes (s : State) (i : Nat) (v : Port) : (setPort s i v).lanes = s.lanes := rfl
@[simp] theorem setPort_cals (s : State) (i : Nat) (v : Port) : (setPort s i v).cals = s.cals := rfl
@[simp] theorem setPort_synce (s : State) (i : Nat) (v : Port) : (setPort s i v).synce = s.synce := rfl
@[simp] theorem setPort_ports (s : State) (i : Nat) (v : Port) : (setPort s i v).ports = tabSet {} s.ports i v := rfl
@[simp] theorem setPort_shapers (s : State) (i : Nat) (v : Port) : (setPort s i v).shapers = s.shapers := rfl
@[simp] theorem setPort_gates (s : State) (i : Nat) (v : Port) : (setPort s i v).gates = s.gates := rfl
@[simp] theorem setPort_meters (s : State) (i : Nat) (v : Port) : (setPort s i v).meters = s.meters := rfl
@[simp] theorem setPort_cls (s : State) (i : Nat) (v : Port) : (setPort s i v).cls = s.cls := rfl
@[simp] theorem setPort_assoc (s : State) (i : Nat) (v : Port) : (setPort s i v).assoc = s.assoc := rfl
@[simp] theorem setPort_cipher (s : State) (i : Nat) (v : Port) : (setPort s i v).cipher = s.cipher := rfl
@[simp] theorem setPort_cask (s : State) (i : Nat) (v : Port) : (setPort s i v).cask = s.cask := rfl
@[simp] theorem setPort_timeFn (s : State) (i : Nat) (v : Port) : (setPort s i v).timeFn = s.timeFn := rfl
@[simp] theorem setPort_seq (s : State) (i : Nat) (v : Port) : (setPort s i v).seq = s.seq := rfl
@[simp] theorem setPort_vault (s : State) (i : Nat) (v : Port) : (setPort s i v).vault = s.vault := rfl
@[simp] theorem setPort_press (s : State) (i : Nat) (v : Port) : (setPort s i v).press = s.press := rfl
@[simp] theorem setPort_boot (s : State) (i : Nat) (v : Port) : (setPort s i v).boot = s.boot := rfl
@[simp] theorem setPort_mg (s : State) (i : Nat) (v : Port) : (setPort s i v).mg = s.mg := rfl
@[simp] theorem setPort_crust (s : State) (i : Nat) (v : Port) : (setPort s i v).crust = s.crust := rfl
@[simp] theorem setPort_book (s : State) (i : Nat) (v : Port) : (setPort s i v).book = s.book := rfl
@[simp] theorem setPort_trellis (s : State) (i : Nat) (v : Port) : (setPort s i v).trellis = s.trellis := rfl
@[simp] theorem setPort_hostIf (s : State) (i : Nat) (v : Port) : (setPort s i v).hostIf = s.hostIf := rfl
@[simp] theorem setPort_power (s : State) (i : Nat) (v : Port) : (setPort s i v).power = s.power := rfl
@[simp] theorem setPort_cnt (s : State) (i : Nat) (v : Port) : (setPort s i v).cnt = s.cnt := rfl
@[simp] theorem setPort_drawn (s : State) (i : Nat) (v : Port) : (setPort s i v).drawn = s.drawn := rfl
@[simp] theorem setPort_out (s : State) (i : Nat) (v : Port) : (setPort s i v).out = s.out := rfl

/-! ### setGates -/

@[simp] theorem setGates_pending (s : State) (i : Nat) (v : Gates) : (setGates s i v).pending = s.pending := rfl
@[simp] theorem setGates_clk (s : State) (i : Nat) (v : Gates) : (setGates s i v).clk = s.clk := rfl
@[simp] theorem setGates_lanes (s : State) (i : Nat) (v : Gates) : (setGates s i v).lanes = s.lanes := rfl
@[simp] theorem setGates_cals (s : State) (i : Nat) (v : Gates) : (setGates s i v).cals = s.cals := rfl
@[simp] theorem setGates_synce (s : State) (i : Nat) (v : Gates) : (setGates s i v).synce = s.synce := rfl
@[simp] theorem setGates_ports (s : State) (i : Nat) (v : Gates) : (setGates s i v).ports = s.ports := rfl
@[simp] theorem setGates_shapers (s : State) (i : Nat) (v : Gates) : (setGates s i v).shapers = s.shapers := rfl
@[simp] theorem setGates_gates (s : State) (i : Nat) (v : Gates) : (setGates s i v).gates = tabSet {} s.gates i v := rfl
@[simp] theorem setGates_meters (s : State) (i : Nat) (v : Gates) : (setGates s i v).meters = s.meters := rfl
@[simp] theorem setGates_cls (s : State) (i : Nat) (v : Gates) : (setGates s i v).cls = s.cls := rfl
@[simp] theorem setGates_assoc (s : State) (i : Nat) (v : Gates) : (setGates s i v).assoc = s.assoc := rfl
@[simp] theorem setGates_cipher (s : State) (i : Nat) (v : Gates) : (setGates s i v).cipher = s.cipher := rfl
@[simp] theorem setGates_cask (s : State) (i : Nat) (v : Gates) : (setGates s i v).cask = s.cask := rfl
@[simp] theorem setGates_timeFn (s : State) (i : Nat) (v : Gates) : (setGates s i v).timeFn = s.timeFn := rfl
@[simp] theorem setGates_seq (s : State) (i : Nat) (v : Gates) : (setGates s i v).seq = s.seq := rfl
@[simp] theorem setGates_vault (s : State) (i : Nat) (v : Gates) : (setGates s i v).vault = s.vault := rfl
@[simp] theorem setGates_press (s : State) (i : Nat) (v : Gates) : (setGates s i v).press = s.press := rfl
@[simp] theorem setGates_boot (s : State) (i : Nat) (v : Gates) : (setGates s i v).boot = s.boot := rfl
@[simp] theorem setGates_mg (s : State) (i : Nat) (v : Gates) : (setGates s i v).mg = s.mg := rfl
@[simp] theorem setGates_crust (s : State) (i : Nat) (v : Gates) : (setGates s i v).crust = s.crust := rfl
@[simp] theorem setGates_book (s : State) (i : Nat) (v : Gates) : (setGates s i v).book = s.book := rfl
@[simp] theorem setGates_trellis (s : State) (i : Nat) (v : Gates) : (setGates s i v).trellis = s.trellis := rfl
@[simp] theorem setGates_hostIf (s : State) (i : Nat) (v : Gates) : (setGates s i v).hostIf = s.hostIf := rfl
@[simp] theorem setGates_power (s : State) (i : Nat) (v : Gates) : (setGates s i v).power = s.power := rfl
@[simp] theorem setGates_cnt (s : State) (i : Nat) (v : Gates) : (setGates s i v).cnt = s.cnt := rfl
@[simp] theorem setGates_drawn (s : State) (i : Nat) (v : Gates) : (setGates s i v).drawn = s.drawn := rfl
@[simp] theorem setGates_out (s : State) (i : Nat) (v : Gates) : (setGates s i v).out = s.out := rfl

/-! ### setShaper -/

@[simp] theorem setShaper_pending (s : State) (p c : Nat) (v : Shaper) : (setShaper s p c v).pending = s.pending := rfl
@[simp] theorem setShaper_clk (s : State) (p c : Nat) (v : Shaper) : (setShaper s p c v).clk = s.clk := rfl
@[simp] theorem setShaper_lanes (s : State) (p c : Nat) (v : Shaper) : (setShaper s p c v).lanes = s.lanes := rfl
@[simp] theorem setShaper_cals (s : State) (p c : Nat) (v : Shaper) : (setShaper s p c v).cals = s.cals := rfl
@[simp] theorem setShaper_synce (s : State) (p c : Nat) (v : Shaper) : (setShaper s p c v).synce = s.synce := rfl
@[simp] theorem setShaper_ports (s : State) (p c : Nat) (v : Shaper) : (setShaper s p c v).ports = s.ports := rfl
@[simp] theorem setShaper_shapers (s : State) (p c : Nat) (v : Shaper) : (setShaper s p c v).shapers = tabSet {} s.shapers (p * 8 + c) v := rfl
@[simp] theorem setShaper_gates (s : State) (p c : Nat) (v : Shaper) : (setShaper s p c v).gates = s.gates := rfl
@[simp] theorem setShaper_meters (s : State) (p c : Nat) (v : Shaper) : (setShaper s p c v).meters = s.meters := rfl
@[simp] theorem setShaper_cls (s : State) (p c : Nat) (v : Shaper) : (setShaper s p c v).cls = s.cls := rfl
@[simp] theorem setShaper_assoc (s : State) (p c : Nat) (v : Shaper) : (setShaper s p c v).assoc = s.assoc := rfl
@[simp] theorem setShaper_cipher (s : State) (p c : Nat) (v : Shaper) : (setShaper s p c v).cipher = s.cipher := rfl
@[simp] theorem setShaper_cask (s : State) (p c : Nat) (v : Shaper) : (setShaper s p c v).cask = s.cask := rfl
@[simp] theorem setShaper_timeFn (s : State) (p c : Nat) (v : Shaper) : (setShaper s p c v).timeFn = s.timeFn := rfl
@[simp] theorem setShaper_seq (s : State) (p c : Nat) (v : Shaper) : (setShaper s p c v).seq = s.seq := rfl
@[simp] theorem setShaper_vault (s : State) (p c : Nat) (v : Shaper) : (setShaper s p c v).vault = s.vault := rfl
@[simp] theorem setShaper_press (s : State) (p c : Nat) (v : Shaper) : (setShaper s p c v).press = s.press := rfl
@[simp] theorem setShaper_boot (s : State) (p c : Nat) (v : Shaper) : (setShaper s p c v).boot = s.boot := rfl
@[simp] theorem setShaper_mg (s : State) (p c : Nat) (v : Shaper) : (setShaper s p c v).mg = s.mg := rfl
@[simp] theorem setShaper_crust (s : State) (p c : Nat) (v : Shaper) : (setShaper s p c v).crust = s.crust := rfl
@[simp] theorem setShaper_book (s : State) (p c : Nat) (v : Shaper) : (setShaper s p c v).book = s.book := rfl
@[simp] theorem setShaper_trellis (s : State) (p c : Nat) (v : Shaper) : (setShaper s p c v).trellis = s.trellis := rfl
@[simp] theorem setShaper_hostIf (s : State) (p c : Nat) (v : Shaper) : (setShaper s p c v).hostIf = s.hostIf := rfl
@[simp] theorem setShaper_power (s : State) (p c : Nat) (v : Shaper) : (setShaper s p c v).power = s.power := rfl
@[simp] theorem setShaper_cnt (s : State) (p c : Nat) (v : Shaper) : (setShaper s p c v).cnt = s.cnt := rfl
@[simp] theorem setShaper_drawn (s : State) (p c : Nat) (v : Shaper) : (setShaper s p c v).drawn = s.drawn := rfl
@[simp] theorem setShaper_out (s : State) (p c : Nat) (v : Shaper) : (setShaper s p c v).out = s.out := rfl

/-! ### setMeter -/

@[simp] theorem setMeter_pending (s : State) (i : Nat) (v : Meter) : (setMeter s i v).pending = s.pending := rfl
@[simp] theorem setMeter_clk (s : State) (i : Nat) (v : Meter) : (setMeter s i v).clk = s.clk := rfl
@[simp] theorem setMeter_lanes (s : State) (i : Nat) (v : Meter) : (setMeter s i v).lanes = s.lanes := rfl
@[simp] theorem setMeter_cals (s : State) (i : Nat) (v : Meter) : (setMeter s i v).cals = s.cals := rfl
@[simp] theorem setMeter_synce (s : State) (i : Nat) (v : Meter) : (setMeter s i v).synce = s.synce := rfl
@[simp] theorem setMeter_ports (s : State) (i : Nat) (v : Meter) : (setMeter s i v).ports = s.ports := rfl
@[simp] theorem setMeter_shapers (s : State) (i : Nat) (v : Meter) : (setMeter s i v).shapers = s.shapers := rfl
@[simp] theorem setMeter_gates (s : State) (i : Nat) (v : Meter) : (setMeter s i v).gates = s.gates := rfl
@[simp] theorem setMeter_meters (s : State) (i : Nat) (v : Meter) : (setMeter s i v).meters = tabSet {} s.meters i v := rfl
@[simp] theorem setMeter_cls (s : State) (i : Nat) (v : Meter) : (setMeter s i v).cls = s.cls := rfl
@[simp] theorem setMeter_assoc (s : State) (i : Nat) (v : Meter) : (setMeter s i v).assoc = s.assoc := rfl
@[simp] theorem setMeter_cipher (s : State) (i : Nat) (v : Meter) : (setMeter s i v).cipher = s.cipher := rfl
@[simp] theorem setMeter_cask (s : State) (i : Nat) (v : Meter) : (setMeter s i v).cask = s.cask := rfl
@[simp] theorem setMeter_timeFn (s : State) (i : Nat) (v : Meter) : (setMeter s i v).timeFn = s.timeFn := rfl
@[simp] theorem setMeter_seq (s : State) (i : Nat) (v : Meter) : (setMeter s i v).seq = s.seq := rfl
@[simp] theorem setMeter_vault (s : State) (i : Nat) (v : Meter) : (setMeter s i v).vault = s.vault := rfl
@[simp] theorem setMeter_press (s : State) (i : Nat) (v : Meter) : (setMeter s i v).press = s.press := rfl
@[simp] theorem setMeter_boot (s : State) (i : Nat) (v : Meter) : (setMeter s i v).boot = s.boot := rfl
@[simp] theorem setMeter_mg (s : State) (i : Nat) (v : Meter) : (setMeter s i v).mg = s.mg := rfl
@[simp] theorem setMeter_crust (s : State) (i : Nat) (v : Meter) : (setMeter s i v).crust = s.crust := rfl
@[simp] theorem setMeter_book (s : State) (i : Nat) (v : Meter) : (setMeter s i v).book = s.book := rfl
@[simp] theorem setMeter_trellis (s : State) (i : Nat) (v : Meter) : (setMeter s i v).trellis = s.trellis := rfl
@[simp] theorem setMeter_hostIf (s : State) (i : Nat) (v : Meter) : (setMeter s i v).hostIf = s.hostIf := rfl
@[simp] theorem setMeter_power (s : State) (i : Nat) (v : Meter) : (setMeter s i v).power = s.power := rfl
@[simp] theorem setMeter_cnt (s : State) (i : Nat) (v : Meter) : (setMeter s i v).cnt = s.cnt := rfl
@[simp] theorem setMeter_drawn (s : State) (i : Nat) (v : Meter) : (setMeter s i v).drawn = s.drawn := rfl
@[simp] theorem setMeter_out (s : State) (i : Nat) (v : Meter) : (setMeter s i v).out = s.out := rfl

/-! ### setChan -/

@[simp] theorem setChan_pending (s : State) (c : Nat) (v : Chan) : (setChan s c v).pending = s.pending := rfl
@[simp] theorem setChan_clk (s : State) (c : Nat) (v : Chan) : (setChan s c v).clk = s.clk := rfl
@[simp] theorem setChan_lanes (s : State) (c : Nat) (v : Chan) : (setChan s c v).lanes = s.lanes := rfl
@[simp] theorem setChan_cals (s : State) (c : Nat) (v : Chan) : (setChan s c v).cals = s.cals := rfl
@[simp] theorem setChan_synce (s : State) (c : Nat) (v : Chan) : (setChan s c v).synce = s.synce := rfl
@[simp] theorem setChan_ports (s : State) (c : Nat) (v : Chan) : (setChan s c v).ports = s.ports := rfl
@[simp] theorem setChan_shapers (s : State) (c : Nat) (v : Chan) : (setChan s c v).shapers = s.shapers := rfl
@[simp] theorem setChan_gates (s : State) (c : Nat) (v : Chan) : (setChan s c v).gates = s.gates := rfl
@[simp] theorem setChan_meters (s : State) (c : Nat) (v : Chan) : (setChan s c v).meters = s.meters := rfl
@[simp] theorem setChan_cls (s : State) (c : Nat) (v : Chan) : (setChan s c v).cls = s.cls := rfl
@[simp] theorem setChan_cipher (s : State) (c : Nat) (v : Chan) : (setChan s c v).cipher = s.cipher := rfl
@[simp] theorem setChan_cask (s : State) (c : Nat) (v : Chan) : (setChan s c v).cask = s.cask := rfl
@[simp] theorem setChan_timeFn (s : State) (c : Nat) (v : Chan) : (setChan s c v).timeFn = s.timeFn := rfl
@[simp] theorem setChan_seq (s : State) (c : Nat) (v : Chan) : (setChan s c v).seq = s.seq := rfl
@[simp] theorem setChan_vault (s : State) (c : Nat) (v : Chan) : (setChan s c v).vault = s.vault := rfl
@[simp] theorem setChan_press (s : State) (c : Nat) (v : Chan) : (setChan s c v).press = s.press := rfl
@[simp] theorem setChan_boot (s : State) (c : Nat) (v : Chan) : (setChan s c v).boot = s.boot := rfl
@[simp] theorem setChan_mg (s : State) (c : Nat) (v : Chan) : (setChan s c v).mg = s.mg := rfl
@[simp] theorem setChan_crust (s : State) (c : Nat) (v : Chan) : (setChan s c v).crust = s.crust := rfl
@[simp] theorem setChan_book (s : State) (c : Nat) (v : Chan) : (setChan s c v).book = s.book := rfl
@[simp] theorem setChan_trellis (s : State) (c : Nat) (v : Chan) : (setChan s c v).trellis = s.trellis := rfl
@[simp] theorem setChan_hostIf (s : State) (c : Nat) (v : Chan) : (setChan s c v).hostIf = s.hostIf := rfl
@[simp] theorem setChan_power (s : State) (c : Nat) (v : Chan) : (setChan s c v).power = s.power := rfl
@[simp] theorem setChan_cnt (s : State) (c : Nat) (v : Chan) : (setChan s c v).cnt = s.cnt := rfl
@[simp] theorem setChan_drawn (s : State) (c : Nat) (v : Chan) : (setChan s c v).drawn = s.drawn := rfl
@[simp] theorem setChan_out (s : State) (c : Nat) (v : Chan) : (setChan s c v).out = s.out := rfl

/-! ### setCtx -/

@[simp] theorem setCtx_pending (s : State) (k : Nat) (v : Ctx) : (setCtx s k v).pending = s.pending := rfl
@[simp] theorem setCtx_clk (s : State) (k : Nat) (v : Ctx) : (setCtx s k v).clk = s.clk := rfl
@[simp] theorem setCtx_lanes (s : State) (k : Nat) (v : Ctx) : (setCtx s k v).lanes = s.lanes := rfl
@[simp] theorem setCtx_cals (s : State) (k : Nat) (v : Ctx) : (setCtx s k v).cals = s.cals := rfl
@[simp] theorem setCtx_synce (s : State) (k : Nat) (v : Ctx) : (setCtx s k v).synce = s.synce := rfl
@[simp] theorem setCtx_ports (s : State) (k : Nat) (v : Ctx) : (setCtx s k v).ports = s.ports := rfl
@[simp] theorem setCtx_shapers (s : State) (k : Nat) (v : Ctx) : (setCtx s k v).shapers = s.shapers := rfl
@[simp] theorem setCtx_gates (s : State) (k : Nat) (v : Ctx) : (setCtx s k v).gates = s.gates := rfl
@[simp] theorem setCtx_meters (s : State) (k : Nat) (v : Ctx) : (setCtx s k v).meters = s.meters := rfl
@[simp] theorem setCtx_cls (s : State) (k : Nat) (v : Ctx) : (setCtx s k v).cls = s.cls := rfl
@[simp] theorem setCtx_assoc (s : State) (k : Nat) (v : Ctx) : (setCtx s k v).assoc = s.assoc := rfl
@[simp] theorem setCtx_cipher (s : State) (k : Nat) (v : Ctx) : (setCtx s k v).cipher = s.cipher := rfl
@[simp] theorem setCtx_cask (s : State) (k : Nat) (v : Ctx) : (setCtx s k v).cask = s.cask := rfl
@[simp] theorem setCtx_timeFn (s : State) (k : Nat) (v : Ctx) : (setCtx s k v).timeFn = s.timeFn := rfl
@[simp] theorem setCtx_vault (s : State) (k : Nat) (v : Ctx) : (setCtx s k v).vault = s.vault := rfl
@[simp] theorem setCtx_press (s : State) (k : Nat) (v : Ctx) : (setCtx s k v).press = s.press := rfl
@[simp] theorem setCtx_boot (s : State) (k : Nat) (v : Ctx) : (setCtx s k v).boot = s.boot := rfl
@[simp] theorem setCtx_mg (s : State) (k : Nat) (v : Ctx) : (setCtx s k v).mg = s.mg := rfl
@[simp] theorem setCtx_crust (s : State) (k : Nat) (v : Ctx) : (setCtx s k v).crust = s.crust := rfl
@[simp] theorem setCtx_book (s : State) (k : Nat) (v : Ctx) : (setCtx s k v).book = s.book := rfl
@[simp] theorem setCtx_trellis (s : State) (k : Nat) (v : Ctx) : (setCtx s k v).trellis = s.trellis := rfl
@[simp] theorem setCtx_hostIf (s : State) (k : Nat) (v : Ctx) : (setCtx s k v).hostIf = s.hostIf := rfl
@[simp] theorem setCtx_power (s : State) (k : Nat) (v : Ctx) : (setCtx s k v).power = s.power := rfl
@[simp] theorem setCtx_cnt (s : State) (k : Nat) (v : Ctx) : (setCtx s k v).cnt = s.cnt := rfl
@[simp] theorem setCtx_drawn (s : State) (k : Nat) (v : Ctx) : (setCtx s k v).drawn = s.drawn := rfl
@[simp] theorem setCtx_out (s : State) (k : Nat) (v : Ctx) : (setCtx s k v).out = s.out := rfl

/-! ### setQueue -/

@[simp] theorem setQueue_pending (s : State) (q : Nat) (v : Queue) : (setQueue s q v).pending = s.pending := rfl
@[simp] theorem setQueue_clk (s : State) (q : Nat) (v : Queue) : (setQueue s q v).clk = s.clk := rfl
@[simp] theorem setQueue_lanes (s : State) (q : Nat) (v : Queue) : (setQueue s q v).lanes = s.lanes := rfl
@[simp] theorem setQueue_cals (s : State) (q : Nat) (v : Queue) : (setQueue s q v).cals = s.cals := rfl
@[simp] theorem setQueue_synce (s : State) (q : Nat) (v : Queue) : (setQueue s q v).synce = s.synce := rfl
@[simp] theorem setQueue_ports (s : State) (q : Nat) (v : Queue) : (setQueue s q v).ports = s.ports := rfl
@[simp] theorem setQueue_shapers (s : State) (q : Nat) (v : Queue) : (setQueue s q v).shapers = s.shapers := rfl
@[simp] theorem setQueue_gates (s : State) (q : Nat) (v : Queue) : (setQueue s q v).gates = s.gates := rfl
@[simp] theorem setQueue_meters (s : State) (q : Nat) (v : Queue) : (setQueue s q v).meters = s.meters := rfl
@[simp] theorem setQueue_cls (s : State) (q : Nat) (v : Queue) : (setQueue s q v).cls = s.cls := rfl
@[simp] theorem setQueue_assoc (s : State) (q : Nat) (v : Queue) : (setQueue s q v).assoc = s.assoc := rfl
@[simp] theorem setQueue_cipher (s : State) (q : Nat) (v : Queue) : (setQueue s q v).cipher = s.cipher := rfl
@[simp] theorem setQueue_cask (s : State) (q : Nat) (v : Queue) : (setQueue s q v).cask = s.cask := rfl
@[simp] theorem setQueue_timeFn (s : State) (q : Nat) (v : Queue) : (setQueue s q v).timeFn = s.timeFn := rfl
@[simp] theorem setQueue_vault (s : State) (q : Nat) (v : Queue) : (setQueue s q v).vault = s.vault := rfl
@[simp] theorem setQueue_press (s : State) (q : Nat) (v : Queue) : (setQueue s q v).press = s.press := rfl
@[simp] theorem setQueue_boot (s : State) (q : Nat) (v : Queue) : (setQueue s q v).boot = s.boot := rfl
@[simp] theorem setQueue_mg (s : State) (q : Nat) (v : Queue) : (setQueue s q v).mg = s.mg := rfl
@[simp] theorem setQueue_crust (s : State) (q : Nat) (v : Queue) : (setQueue s q v).crust = s.crust := rfl
@[simp] theorem setQueue_book (s : State) (q : Nat) (v : Queue) : (setQueue s q v).book = s.book := rfl
@[simp] theorem setQueue_trellis (s : State) (q : Nat) (v : Queue) : (setQueue s q v).trellis = s.trellis := rfl
@[simp] theorem setQueue_hostIf (s : State) (q : Nat) (v : Queue) : (setQueue s q v).hostIf = s.hostIf := rfl
@[simp] theorem setQueue_power (s : State) (q : Nat) (v : Queue) : (setQueue s q v).power = s.power := rfl
@[simp] theorem setQueue_cnt (s : State) (q : Nat) (v : Queue) : (setQueue s q v).cnt = s.cnt := rfl
@[simp] theorem setQueue_drawn (s : State) (q : Nat) (v : Queue) : (setQueue s q v).drawn = s.drawn := rfl
@[simp] theorem setQueue_out (s : State) (q : Nat) (v : Queue) : (setQueue s q v).out = s.out := rfl

/-! ### setSlot -/

@[simp] theorem setSlot_pending (s : State) (i : Nat) (v : Slot) : (setSlot s i v).pending = s.pending := rfl
@[simp] theorem setSlot_clk (s : State) (i : Nat) (v : Slot) : (setSlot s i v).clk = s.clk := rfl
@[simp] theorem setSlot_lanes (s : State) (i : Nat) (v : Slot) : (setSlot s i v).lanes = s.lanes := rfl
@[simp] theorem setSlot_cals (s : State) (i : Nat) (v : Slot) : (setSlot s i v).cals = s.cals := rfl
@[simp] theorem setSlot_synce (s : State) (i : Nat) (v : Slot) : (setSlot s i v).synce = s.synce := rfl
@[simp] theorem setSlot_ports (s : State) (i : Nat) (v : Slot) : (setSlot s i v).ports = s.ports := rfl
@[simp] theorem setSlot_shapers (s : State) (i : Nat) (v : Slot) : (setSlot s i v).shapers = s.shapers := rfl
@[simp] theorem setSlot_gates (s : State) (i : Nat) (v : Slot) : (setSlot s i v).gates = s.gates := rfl
@[simp] theorem setSlot_meters (s : State) (i : Nat) (v : Slot) : (setSlot s i v).meters = s.meters := rfl
@[simp] theorem setSlot_cls (s : State) (i : Nat) (v : Slot) : (setSlot s i v).cls = s.cls := rfl
@[simp] theorem setSlot_assoc (s : State) (i : Nat) (v : Slot) : (setSlot s i v).assoc = s.assoc := rfl
@[simp] theorem setSlot_cipher (s : State) (i : Nat) (v : Slot) : (setSlot s i v).cipher = s.cipher := rfl
@[simp] theorem setSlot_cask (s : State) (i : Nat) (v : Slot) : (setSlot s i v).cask = s.cask := rfl
@[simp] theorem setSlot_timeFn (s : State) (i : Nat) (v : Slot) : (setSlot s i v).timeFn = s.timeFn := rfl
@[simp] theorem setSlot_seq (s : State) (i : Nat) (v : Slot) : (setSlot s i v).seq = s.seq := rfl
@[simp] theorem setSlot_press (s : State) (i : Nat) (v : Slot) : (setSlot s i v).press = s.press := rfl
@[simp] theorem setSlot_boot (s : State) (i : Nat) (v : Slot) : (setSlot s i v).boot = s.boot := rfl
@[simp] theorem setSlot_mg (s : State) (i : Nat) (v : Slot) : (setSlot s i v).mg = s.mg := rfl
@[simp] theorem setSlot_crust (s : State) (i : Nat) (v : Slot) : (setSlot s i v).crust = s.crust := rfl
@[simp] theorem setSlot_book (s : State) (i : Nat) (v : Slot) : (setSlot s i v).book = s.book := rfl
@[simp] theorem setSlot_trellis (s : State) (i : Nat) (v : Slot) : (setSlot s i v).trellis = s.trellis := rfl
@[simp] theorem setSlot_hostIf (s : State) (i : Nat) (v : Slot) : (setSlot s i v).hostIf = s.hostIf := rfl
@[simp] theorem setSlot_power (s : State) (i : Nat) (v : Slot) : (setSlot s i v).power = s.power := rfl
@[simp] theorem setSlot_cnt (s : State) (i : Nat) (v : Slot) : (setSlot s i v).cnt = s.cnt := rfl
@[simp] theorem setSlot_drawn (s : State) (i : Nat) (v : Slot) : (setSlot s i v).drawn = s.drawn := rfl
@[simp] theorem setSlot_out (s : State) (i : Nat) (v : Slot) : (setSlot s i v).out = s.out := rfl

/-! ### setRing -/

@[simp] theorem setRing_pending (s : State) (r : Nat) (v : Ring) : (setRing s r v).pending = s.pending := rfl
@[simp] theorem setRing_clk (s : State) (r : Nat) (v : Ring) : (setRing s r v).clk = s.clk := rfl
@[simp] theorem setRing_lanes (s : State) (r : Nat) (v : Ring) : (setRing s r v).lanes = s.lanes := rfl
@[simp] theorem setRing_cals (s : State) (r : Nat) (v : Ring) : (setRing s r v).cals = s.cals := rfl
@[simp] theorem setRing_synce (s : State) (r : Nat) (v : Ring) : (setRing s r v).synce = s.synce := rfl
@[simp] theorem setRing_ports (s : State) (r : Nat) (v : Ring) : (setRing s r v).ports = s.ports := rfl
@[simp] theorem setRing_shapers (s : State) (r : Nat) (v : Ring) : (setRing s r v).shapers = s.shapers := rfl
@[simp] theorem setRing_gates (s : State) (r : Nat) (v : Ring) : (setRing s r v).gates = s.gates := rfl
@[simp] theorem setRing_meters (s : State) (r : Nat) (v : Ring) : (setRing s r v).meters = s.meters := rfl
@[simp] theorem setRing_cls (s : State) (r : Nat) (v : Ring) : (setRing s r v).cls = s.cls := rfl
@[simp] theorem setRing_assoc (s : State) (r : Nat) (v : Ring) : (setRing s r v).assoc = s.assoc := rfl
@[simp] theorem setRing_cipher (s : State) (r : Nat) (v : Ring) : (setRing s r v).cipher = s.cipher := rfl
@[simp] theorem setRing_cask (s : State) (r : Nat) (v : Ring) : (setRing s r v).cask = s.cask := rfl
@[simp] theorem setRing_timeFn (s : State) (r : Nat) (v : Ring) : (setRing s r v).timeFn = s.timeFn := rfl
@[simp] theorem setRing_seq (s : State) (r : Nat) (v : Ring) : (setRing s r v).seq = s.seq := rfl
@[simp] theorem setRing_vault (s : State) (r : Nat) (v : Ring) : (setRing s r v).vault = s.vault := rfl
@[simp] theorem setRing_press (s : State) (r : Nat) (v : Ring) : (setRing s r v).press = s.press := rfl
@[simp] theorem setRing_boot (s : State) (r : Nat) (v : Ring) : (setRing s r v).boot = s.boot := rfl
@[simp] theorem setRing_mg (s : State) (r : Nat) (v : Ring) : (setRing s r v).mg = s.mg := rfl
@[simp] theorem setRing_crust (s : State) (r : Nat) (v : Ring) : (setRing s r v).crust = s.crust := rfl
@[simp] theorem setRing_book (s : State) (r : Nat) (v : Ring) : (setRing s r v).book = s.book := rfl
@[simp] theorem setRing_trellis (s : State) (r : Nat) (v : Ring) : (setRing s r v).trellis = s.trellis := rfl
@[simp] theorem setRing_power (s : State) (r : Nat) (v : Ring) : (setRing s r v).power = s.power := rfl
@[simp] theorem setRing_cnt (s : State) (r : Nat) (v : Ring) : (setRing s r v).cnt = s.cnt := rfl
@[simp] theorem setRing_drawn (s : State) (r : Nat) (v : Ring) : (setRing s r v).drawn = s.drawn := rfl
@[simp] theorem setRing_out (s : State) (r : Nat) (v : Ring) : (setRing s r v).out = s.out := rfl

/-! ### setQ -/

@[simp] theorem setQ_pending (s : State) (p c : Nat) (v : List QFrame) : (setQ s p c v).pending = s.pending := rfl
@[simp] theorem setQ_clk (s : State) (p c : Nat) (v : List QFrame) : (setQ s p c v).clk = s.clk := rfl
@[simp] theorem setQ_lanes (s : State) (p c : Nat) (v : List QFrame) : (setQ s p c v).lanes = s.lanes := rfl
@[simp] theorem setQ_cals (s : State) (p c : Nat) (v : List QFrame) : (setQ s p c v).cals = s.cals := rfl
@[simp] theorem setQ_synce (s : State) (p c : Nat) (v : List QFrame) : (setQ s p c v).synce = s.synce := rfl
@[simp] theorem setQ_ports (s : State) (p c : Nat) (v : List QFrame) : (setQ s p c v).ports = s.ports := rfl
@[simp] theorem setQ_shapers (s : State) (p c : Nat) (v : List QFrame) : (setQ s p c v).shapers = s.shapers := rfl
@[simp] theorem setQ_gates (s : State) (p c : Nat) (v : List QFrame) : (setQ s p c v).gates = s.gates := rfl
@[simp] theorem setQ_meters (s : State) (p c : Nat) (v : List QFrame) : (setQ s p c v).meters = s.meters := rfl
@[simp] theorem setQ_cls (s : State) (p c : Nat) (v : List QFrame) : (setQ s p c v).cls = s.cls := rfl
@[simp] theorem setQ_assoc (s : State) (p c : Nat) (v : List QFrame) : (setQ s p c v).assoc = s.assoc := rfl
@[simp] theorem setQ_cipher (s : State) (p c : Nat) (v : List QFrame) : (setQ s p c v).cipher = s.cipher := rfl
@[simp] theorem setQ_timeFn (s : State) (p c : Nat) (v : List QFrame) : (setQ s p c v).timeFn = s.timeFn := rfl
@[simp] theorem setQ_seq (s : State) (p c : Nat) (v : List QFrame) : (setQ s p c v).seq = s.seq := rfl
@[simp] theorem setQ_vault (s : State) (p c : Nat) (v : List QFrame) : (setQ s p c v).vault = s.vault := rfl
@[simp] theorem setQ_press (s : State) (p c : Nat) (v : List QFrame) : (setQ s p c v).press = s.press := rfl
@[simp] theorem setQ_boot (s : State) (p c : Nat) (v : List QFrame) : (setQ s p c v).boot = s.boot := rfl
@[simp] theorem setQ_mg (s : State) (p c : Nat) (v : List QFrame) : (setQ s p c v).mg = s.mg := rfl
@[simp] theorem setQ_crust (s : State) (p c : Nat) (v : List QFrame) : (setQ s p c v).crust = s.crust := rfl
@[simp] theorem setQ_book (s : State) (p c : Nat) (v : List QFrame) : (setQ s p c v).book = s.book := rfl
@[simp] theorem setQ_trellis (s : State) (p c : Nat) (v : List QFrame) : (setQ s p c v).trellis = s.trellis := rfl
@[simp] theorem setQ_hostIf (s : State) (p c : Nat) (v : List QFrame) : (setQ s p c v).hostIf = s.hostIf := rfl
@[simp] theorem setQ_power (s : State) (p c : Nat) (v : List QFrame) : (setQ s p c v).power = s.power := rfl
@[simp] theorem setQ_cnt (s : State) (p c : Nat) (v : List QFrame) : (setQ s p c v).cnt = s.cnt := rfl
@[simp] theorem setQ_drawn (s : State) (p c : Nat) (v : List QFrame) : (setQ s p c v).drawn = s.drawn := rfl
@[simp] theorem setQ_out (s : State) (p c : Nat) (v : List QFrame) : (setQ s p c v).out = s.out := rfl

/-! ### setTx -/

@[simp] theorem setTx_pending (s : State) (p : Nat) (v : TxLane) : (setTx s p v).pending = s.pending := rfl
@[simp] theorem setTx_clk (s : State) (p : Nat) (v : TxLane) : (setTx s p v).clk = s.clk := rfl
@[simp] theorem setTx_lanes (s : State) (p : Nat) (v : TxLane) : (setTx s p v).lanes = s.lanes := rfl
@[simp] theorem setTx_cals (s : State) (p : Nat) (v : TxLane) : (setTx s p v).cals = s.cals := rfl
@[simp] theorem setTx_synce (s : State) (p : Nat) (v : TxLane) : (setTx s p v).synce = s.synce := rfl
@[simp] theorem setTx_ports (s : State) (p : Nat) (v : TxLane) : (setTx s p v).ports = s.ports := rfl
@[simp] theorem setTx_shapers (s : State) (p : Nat) (v : TxLane) : (setTx s p v).shapers = s.shapers := rfl
@[simp] theorem setTx_gates (s : State) (p : Nat) (v : TxLane) : (setTx s p v).gates = s.gates := rfl
@[simp] theorem setTx_meters (s : State) (p : Nat) (v : TxLane) : (setTx s p v).meters = s.meters := rfl
@[simp] theorem setTx_cls (s : State) (p : Nat) (v : TxLane) : (setTx s p v).cls = s.cls := rfl
@[simp] theorem setTx_assoc (s : State) (p : Nat) (v : TxLane) : (setTx s p v).assoc = s.assoc := rfl
@[simp] theorem setTx_cask (s : State) (p : Nat) (v : TxLane) : (setTx s p v).cask = s.cask := rfl
@[simp] theorem setTx_timeFn (s : State) (p : Nat) (v : TxLane) : (setTx s p v).timeFn = s.timeFn := rfl
@[simp] theorem setTx_seq (s : State) (p : Nat) (v : TxLane) : (setTx s p v).seq = s.seq := rfl
@[simp] theorem setTx_vault (s : State) (p : Nat) (v : TxLane) : (setTx s p v).vault = s.vault := rfl
@[simp] theorem setTx_press (s : State) (p : Nat) (v : TxLane) : (setTx s p v).press = s.press := rfl
@[simp] theorem setTx_boot (s : State) (p : Nat) (v : TxLane) : (setTx s p v).boot = s.boot := rfl
@[simp] theorem setTx_mg (s : State) (p : Nat) (v : TxLane) : (setTx s p v).mg = s.mg := rfl
@[simp] theorem setTx_crust (s : State) (p : Nat) (v : TxLane) : (setTx s p v).crust = s.crust := rfl
@[simp] theorem setTx_book (s : State) (p : Nat) (v : TxLane) : (setTx s p v).book = s.book := rfl
@[simp] theorem setTx_trellis (s : State) (p : Nat) (v : TxLane) : (setTx s p v).trellis = s.trellis := rfl
@[simp] theorem setTx_hostIf (s : State) (p : Nat) (v : TxLane) : (setTx s p v).hostIf = s.hostIf := rfl
@[simp] theorem setTx_power (s : State) (p : Nat) (v : TxLane) : (setTx s p v).power = s.power := rfl
@[simp] theorem setTx_cnt (s : State) (p : Nat) (v : TxLane) : (setTx s p v).cnt = s.cnt := rfl
@[simp] theorem setTx_drawn (s : State) (p : Nat) (v : TxLane) : (setTx s p v).drawn = s.drawn := rfl
@[simp] theorem setTx_out (s : State) (p : Nat) (v : TxLane) : (setTx s p v).out = s.out := rfl

/-! ### setRx -/

@[simp] theorem setRx_pending (s : State) (p : Nat) (v : RxLane) : (setRx s p v).pending = s.pending := rfl
@[simp] theorem setRx_clk (s : State) (p : Nat) (v : RxLane) : (setRx s p v).clk = s.clk := rfl
@[simp] theorem setRx_lanes (s : State) (p : Nat) (v : RxLane) : (setRx s p v).lanes = s.lanes := rfl
@[simp] theorem setRx_cals (s : State) (p : Nat) (v : RxLane) : (setRx s p v).cals = s.cals := rfl
@[simp] theorem setRx_synce (s : State) (p : Nat) (v : RxLane) : (setRx s p v).synce = s.synce := rfl
@[simp] theorem setRx_ports (s : State) (p : Nat) (v : RxLane) : (setRx s p v).ports = s.ports := rfl
@[simp] theorem setRx_shapers (s : State) (p : Nat) (v : RxLane) : (setRx s p v).shapers = s.shapers := rfl
@[simp] theorem setRx_gates (s : State) (p : Nat) (v : RxLane) : (setRx s p v).gates = s.gates := rfl
@[simp] theorem setRx_meters (s : State) (p : Nat) (v : RxLane) : (setRx s p v).meters = s.meters := rfl
@[simp] theorem setRx_cls (s : State) (p : Nat) (v : RxLane) : (setRx s p v).cls = s.cls := rfl
@[simp] theorem setRx_assoc (s : State) (p : Nat) (v : RxLane) : (setRx s p v).assoc = s.assoc := rfl
@[simp] theorem setRx_cask (s : State) (p : Nat) (v : RxLane) : (setRx s p v).cask = s.cask := rfl
@[simp] theorem setRx_timeFn (s : State) (p : Nat) (v : RxLane) : (setRx s p v).timeFn = s.timeFn := rfl
@[simp] theorem setRx_seq (s : State) (p : Nat) (v : RxLane) : (setRx s p v).seq = s.seq := rfl
@[simp] theorem setRx_vault (s : State) (p : Nat) (v : RxLane) : (setRx s p v).vault = s.vault := rfl
@[simp] theorem setRx_press (s : State) (p : Nat) (v : RxLane) : (setRx s p v).press = s.press := rfl
@[simp] theorem setRx_boot (s : State) (p : Nat) (v : RxLane) : (setRx s p v).boot = s.boot := rfl
@[simp] theorem setRx_mg (s : State) (p : Nat) (v : RxLane) : (setRx s p v).mg = s.mg := rfl
@[simp] theorem setRx_crust (s : State) (p : Nat) (v : RxLane) : (setRx s p v).crust = s.crust := rfl
@[simp] theorem setRx_book (s : State) (p : Nat) (v : RxLane) : (setRx s p v).book = s.book := rfl
@[simp] theorem setRx_trellis (s : State) (p : Nat) (v : RxLane) : (setRx s p v).trellis = s.trellis := rfl
@[simp] theorem setRx_hostIf (s : State) (p : Nat) (v : RxLane) : (setRx s p v).hostIf = s.hostIf := rfl
@[simp] theorem setRx_power (s : State) (p : Nat) (v : RxLane) : (setRx s p v).power = s.power := rfl
@[simp] theorem setRx_cnt (s : State) (p : Nat) (v : RxLane) : (setRx s p v).cnt = s.cnt := rfl
@[simp] theorem setRx_drawn (s : State) (p : Nat) (v : RxLane) : (setRx s p v).drawn = s.drawn := rfl
@[simp] theorem setRx_out (s : State) (p : Nat) (v : RxLane) : (setRx s p v).out = s.out := rfl

/-! ### setArray -/

@[simp] theorem setArray_pending (s : State) (a : Nat) (v : Machine.Array) : (setArray s a v).pending = s.pending := rfl
@[simp] theorem setArray_clk (s : State) (a : Nat) (v : Machine.Array) : (setArray s a v).clk = s.clk := rfl
@[simp] theorem setArray_lanes (s : State) (a : Nat) (v : Machine.Array) : (setArray s a v).lanes = s.lanes := rfl
@[simp] theorem setArray_cals (s : State) (a : Nat) (v : Machine.Array) : (setArray s a v).cals = s.cals := rfl
@[simp] theorem setArray_synce (s : State) (a : Nat) (v : Machine.Array) : (setArray s a v).synce = s.synce := rfl
@[simp] theorem setArray_ports (s : State) (a : Nat) (v : Machine.Array) : (setArray s a v).ports = s.ports := rfl
@[simp] theorem setArray_shapers (s : State) (a : Nat) (v : Machine.Array) : (setArray s a v).shapers = s.shapers := rfl
@[simp] theorem setArray_gates (s : State) (a : Nat) (v : Machine.Array) : (setArray s a v).gates = s.gates := rfl
@[simp] theorem setArray_meters (s : State) (a : Nat) (v : Machine.Array) : (setArray s a v).meters = s.meters := rfl
@[simp] theorem setArray_cls (s : State) (a : Nat) (v : Machine.Array) : (setArray s a v).cls = s.cls := rfl
@[simp] theorem setArray_assoc (s : State) (a : Nat) (v : Machine.Array) : (setArray s a v).assoc = s.assoc := rfl
@[simp] theorem setArray_cask (s : State) (a : Nat) (v : Machine.Array) : (setArray s a v).cask = s.cask := rfl
@[simp] theorem setArray_timeFn (s : State) (a : Nat) (v : Machine.Array) : (setArray s a v).timeFn = s.timeFn := rfl
@[simp] theorem setArray_seq (s : State) (a : Nat) (v : Machine.Array) : (setArray s a v).seq = s.seq := rfl
@[simp] theorem setArray_vault (s : State) (a : Nat) (v : Machine.Array) : (setArray s a v).vault = s.vault := rfl
@[simp] theorem setArray_press (s : State) (a : Nat) (v : Machine.Array) : (setArray s a v).press = s.press := rfl
@[simp] theorem setArray_boot (s : State) (a : Nat) (v : Machine.Array) : (setArray s a v).boot = s.boot := rfl
@[simp] theorem setArray_mg (s : State) (a : Nat) (v : Machine.Array) : (setArray s a v).mg = s.mg := rfl
@[simp] theorem setArray_crust (s : State) (a : Nat) (v : Machine.Array) : (setArray s a v).crust = s.crust := rfl
@[simp] theorem setArray_book (s : State) (a : Nat) (v : Machine.Array) : (setArray s a v).book = s.book := rfl
@[simp] theorem setArray_trellis (s : State) (a : Nat) (v : Machine.Array) : (setArray s a v).trellis = s.trellis := rfl
@[simp] theorem setArray_hostIf (s : State) (a : Nat) (v : Machine.Array) : (setArray s a v).hostIf = s.hostIf := rfl
@[simp] theorem setArray_power (s : State) (a : Nat) (v : Machine.Array) : (setArray s a v).power = s.power := rfl
@[simp] theorem setArray_cnt (s : State) (a : Nat) (v : Machine.Array) : (setArray s a v).cnt = s.cnt := rfl
@[simp] theorem setArray_drawn (s : State) (a : Nat) (v : Machine.Array) : (setArray s a v).drawn = s.drawn := rfl
@[simp] theorem setArray_out (s : State) (a : Nat) (v : Machine.Array) : (setArray s a v).out = s.out := rfl

/-! ### setRegion -/

@[simp] theorem setRegion_pending (s : State) (r : Nat) (v : Region) : (setRegion s r v).pending = s.pending := rfl
@[simp] theorem setRegion_clk (s : State) (r : Nat) (v : Region) : (setRegion s r v).clk = s.clk := rfl
@[simp] theorem setRegion_lanes (s : State) (r : Nat) (v : Region) : (setRegion s r v).lanes = s.lanes := rfl
@[simp] theorem setRegion_cals (s : State) (r : Nat) (v : Region) : (setRegion s r v).cals = s.cals := rfl
@[simp] theorem setRegion_synce (s : State) (r : Nat) (v : Region) : (setRegion s r v).synce = s.synce := rfl
@[simp] theorem setRegion_ports (s : State) (r : Nat) (v : Region) : (setRegion s r v).ports = s.ports := rfl
@[simp] theorem setRegion_shapers (s : State) (r : Nat) (v : Region) : (setRegion s r v).shapers = s.shapers := rfl
@[simp] theorem setRegion_gates (s : State) (r : Nat) (v : Region) : (setRegion s r v).gates = s.gates := rfl
@[simp] theorem setRegion_meters (s : State) (r : Nat) (v : Region) : (setRegion s r v).meters = s.meters := rfl
@[simp] theorem setRegion_cls (s : State) (r : Nat) (v : Region) : (setRegion s r v).cls = s.cls := rfl
@[simp] theorem setRegion_assoc (s : State) (r : Nat) (v : Region) : (setRegion s r v).assoc = s.assoc := rfl
@[simp] theorem setRegion_cipher (s : State) (r : Nat) (v : Region) : (setRegion s r v).cipher = s.cipher := rfl
@[simp] theorem setRegion_cask (s : State) (r : Nat) (v : Region) : (setRegion s r v).cask = s.cask := rfl
@[simp] theorem setRegion_timeFn (s : State) (r : Nat) (v : Region) : (setRegion s r v).timeFn = s.timeFn := rfl
@[simp] theorem setRegion_seq (s : State) (r : Nat) (v : Region) : (setRegion s r v).seq = s.seq := rfl
@[simp] theorem setRegion_vault (s : State) (r : Nat) (v : Region) : (setRegion s r v).vault = s.vault := rfl
@[simp] theorem setRegion_press (s : State) (r : Nat) (v : Region) : (setRegion s r v).press = s.press := rfl
@[simp] theorem setRegion_boot (s : State) (r : Nat) (v : Region) : (setRegion s r v).boot = s.boot := rfl
@[simp] theorem setRegion_crust (s : State) (r : Nat) (v : Region) : (setRegion s r v).crust = s.crust := rfl
@[simp] theorem setRegion_book (s : State) (r : Nat) (v : Region) : (setRegion s r v).book = s.book := rfl
@[simp] theorem setRegion_trellis (s : State) (r : Nat) (v : Region) : (setRegion s r v).trellis = s.trellis := rfl
@[simp] theorem setRegion_hostIf (s : State) (r : Nat) (v : Region) : (setRegion s r v).hostIf = s.hostIf := rfl
@[simp] theorem setRegion_power (s : State) (r : Nat) (v : Region) : (setRegion s r v).power = s.power := rfl
@[simp] theorem setRegion_cnt (s : State) (r : Nat) (v : Region) : (setRegion s r v).cnt = s.cnt := rfl
@[simp] theorem setRegion_drawn (s : State) (r : Nat) (v : Region) : (setRegion s r v).drawn = s.drawn := rfl
@[simp] theorem setRegion_out (s : State) (r : Nat) (v : Region) : (setRegion s r v).out = s.out := rfl

/-! ### advance -/

@[simp] theorem advance_pending (t : Nat) (s : State) : (advance t s).pending = s.pending := rfl
@[simp] theorem advance_clk (t : Nat) (s : State) : (advance t s).clk = clkTo t s.clk := rfl
@[simp] theorem advance_lanes (t : Nat) (s : State) : (advance t s).lanes = s.lanes := rfl
@[simp] theorem advance_cals (t : Nat) (s : State) : (advance t s).cals = s.cals := rfl
@[simp] theorem advance_synce (t : Nat) (s : State) : (advance t s).synce = s.synce := rfl
@[simp] theorem advance_ports (t : Nat) (s : State) : (advance t s).ports = s.ports := rfl
@[simp] theorem advance_shapers (t : Nat) (s : State) : (advance t s).shapers = s.shapers := rfl
@[simp] theorem advance_gates (t : Nat) (s : State) : (advance t s).gates = s.gates := rfl
@[simp] theorem advance_meters (t : Nat) (s : State) : (advance t s).meters = s.meters := rfl
@[simp] theorem advance_cls (t : Nat) (s : State) : (advance t s).cls = s.cls := rfl
@[simp] theorem advance_assoc (t : Nat) (s : State) : (advance t s).assoc = s.assoc := rfl
@[simp] theorem advance_cipher (t : Nat) (s : State) : (advance t s).cipher = s.cipher := rfl
@[simp] theorem advance_cask (t : Nat) (s : State) : (advance t s).cask = s.cask := rfl
@[simp] theorem advance_timeFn (t : Nat) (s : State) : (advance t s).timeFn = s.timeFn := rfl
@[simp] theorem advance_seq (t : Nat) (s : State) : (advance t s).seq = s.seq := rfl
@[simp] theorem advance_vault (t : Nat) (s : State) : (advance t s).vault = s.vault := rfl
@[simp] theorem advance_press (t : Nat) (s : State) : (advance t s).press = s.press := rfl
@[simp] theorem advance_boot (t : Nat) (s : State) : (advance t s).boot = s.boot := rfl
@[simp] theorem advance_mg (t : Nat) (s : State) : (advance t s).mg = s.mg := rfl
@[simp] theorem advance_crust (t : Nat) (s : State) : (advance t s).crust = s.crust := rfl
@[simp] theorem advance_book (t : Nat) (s : State) : (advance t s).book = s.book := rfl
@[simp] theorem advance_trellis (t : Nat) (s : State) : (advance t s).trellis = s.trellis := rfl
@[simp] theorem advance_hostIf (t : Nat) (s : State) : (advance t s).hostIf = s.hostIf := rfl
@[simp] theorem advance_power (t : Nat) (s : State) : (advance t s).power = s.power := rfl
@[simp] theorem advance_cnt (t : Nat) (s : State) : (advance t s).cnt = s.cnt := rfl
@[simp] theorem advance_drawn (t : Nat) (s : State) : (advance t s).drawn = s.drawn := rfl
@[simp] theorem advance_out (t : Nat) (s : State) : (advance t s).out = s.out := rfl

/-! ### setCnt -/

@[simp] theorem setCnt_pending (s : State) (i j k v : Nat) : (setCnt s i j k v).pending = s.pending := rfl
@[simp] theorem setCnt_clk (s : State) (i j k v : Nat) : (setCnt s i j k v).clk = s.clk := rfl
@[simp] theorem setCnt_lanes (s : State) (i j k v : Nat) : (setCnt s i j k v).lanes = s.lanes := rfl
@[simp] theorem setCnt_cals (s : State) (i j k v : Nat) : (setCnt s i j k v).cals = s.cals := rfl
@[simp] theorem setCnt_synce (s : State) (i j k v : Nat) : (setCnt s i j k v).synce = s.synce := rfl
@[simp] theorem setCnt_ports (s : State) (i j k v : Nat) : (setCnt s i j k v).ports = s.ports := rfl
@[simp] theorem setCnt_shapers (s : State) (i j k v : Nat) : (setCnt s i j k v).shapers = s.shapers := rfl
@[simp] theorem setCnt_gates (s : State) (i j k v : Nat) : (setCnt s i j k v).gates = s.gates := rfl
@[simp] theorem setCnt_meters (s : State) (i j k v : Nat) : (setCnt s i j k v).meters = s.meters := rfl
@[simp] theorem setCnt_cls (s : State) (i j k v : Nat) : (setCnt s i j k v).cls = s.cls := rfl
@[simp] theorem setCnt_assoc (s : State) (i j k v : Nat) : (setCnt s i j k v).assoc = s.assoc := rfl
@[simp] theorem setCnt_cipher (s : State) (i j k v : Nat) : (setCnt s i j k v).cipher = s.cipher := rfl
@[simp] theorem setCnt_cask (s : State) (i j k v : Nat) : (setCnt s i j k v).cask = s.cask := rfl
@[simp] theorem setCnt_timeFn (s : State) (i j k v : Nat) : (setCnt s i j k v).timeFn = s.timeFn := rfl
@[simp] theorem setCnt_seq (s : State) (i j k v : Nat) : (setCnt s i j k v).seq = s.seq := rfl
@[simp] theorem setCnt_vault (s : State) (i j k v : Nat) : (setCnt s i j k v).vault = s.vault := rfl
@[simp] theorem setCnt_press (s : State) (i j k v : Nat) : (setCnt s i j k v).press = s.press := rfl
@[simp] theorem setCnt_boot (s : State) (i j k v : Nat) : (setCnt s i j k v).boot = s.boot := rfl
@[simp] theorem setCnt_mg (s : State) (i j k v : Nat) : (setCnt s i j k v).mg = s.mg := rfl
@[simp] theorem setCnt_crust (s : State) (i j k v : Nat) : (setCnt s i j k v).crust = s.crust := rfl
@[simp] theorem setCnt_book (s : State) (i j k v : Nat) : (setCnt s i j k v).book = s.book := rfl
@[simp] theorem setCnt_trellis (s : State) (i j k v : Nat) : (setCnt s i j k v).trellis = s.trellis := rfl
@[simp] theorem setCnt_hostIf (s : State) (i j k v : Nat) : (setCnt s i j k v).hostIf = s.hostIf := rfl
@[simp] theorem setCnt_power (s : State) (i j k v : Nat) : (setCnt s i j k v).power = s.power := rfl
@[simp] theorem setCnt_cnt (s : State) (i j k v : Nat) : (setCnt s i j k v).cnt = tabSet 0 s.cnt (cntKey i j k) v := rfl
@[simp] theorem setCnt_drawn (s : State) (i j k v : Nat) : (setCnt s i j k v).drawn = s.drawn := rfl
@[simp] theorem setCnt_out (s : State) (i j k v : Nat) : (setCnt s i j k v).out = s.out := rfl

/-! ### bump -/

@[simp] theorem bump_pending (i j k w n : Nat) (s : State) : (bump i j k w n s).pending = s.pending := rfl
@[simp] theorem bump_clk (i j k w n : Nat) (s : State) : (bump i j k w n s).clk = s.clk := rfl
@[simp] theorem bump_lanes (i j k w n : Nat) (s : State) : (bump i j k w n s).lanes = s.lanes := rfl
@[simp] theorem bump_cals (i j k w n : Nat) (s : State) : (bump i j k w n s).cals = s.cals := rfl
@[simp] theorem bump_synce (i j k w n : Nat) (s : State) : (bump i j k w n s).synce = s.synce := rfl
@[simp] theorem bump_ports (i j k w n : Nat) (s : State) : (bump i j k w n s).ports = s.ports := rfl
@[simp] theorem bump_shapers (i j k w n : Nat) (s : State) : (bump i j k w n s).shapers = s.shapers := rfl
@[simp] theorem bump_gates (i j k w n : Nat) (s : State) : (bump i j k w n s).gates = s.gates := rfl
@[simp] theorem bump_meters (i j k w n : Nat) (s : State) : (bump i j k w n s).meters = s.meters := rfl
@[simp] theorem bump_cls (i j k w n : Nat) (s : State) : (bump i j k w n s).cls = s.cls := rfl
@[simp] theorem bump_assoc (i j k w n : Nat) (s : State) : (bump i j k w n s).assoc = s.assoc := rfl
@[simp] theorem bump_cipher (i j k w n : Nat) (s : State) : (bump i j k w n s).cipher = s.cipher := rfl
@[simp] theorem bump_cask (i j k w n : Nat) (s : State) : (bump i j k w n s).cask = s.cask := rfl
@[simp] theorem bump_timeFn (i j k w n : Nat) (s : State) : (bump i j k w n s).timeFn = s.timeFn := rfl
@[simp] theorem bump_seq (i j k w n : Nat) (s : State) : (bump i j k w n s).seq = s.seq := rfl
@[simp] theorem bump_vault (i j k w n : Nat) (s : State) : (bump i j k w n s).vault = s.vault := rfl
@[simp] theorem bump_press (i j k w n : Nat) (s : State) : (bump i j k w n s).press = s.press := rfl
@[simp] theorem bump_boot (i j k w n : Nat) (s : State) : (bump i j k w n s).boot = s.boot := rfl
@[simp] theorem bump_mg (i j k w n : Nat) (s : State) : (bump i j k w n s).mg = s.mg := rfl
@[simp] theorem bump_crust (i j k w n : Nat) (s : State) : (bump i j k w n s).crust = s.crust := rfl
@[simp] theorem bump_book (i j k w n : Nat) (s : State) : (bump i j k w n s).book = s.book := rfl
@[simp] theorem bump_trellis (i j k w n : Nat) (s : State) : (bump i j k w n s).trellis = s.trellis := rfl
@[simp] theorem bump_hostIf (i j k w n : Nat) (s : State) : (bump i j k w n s).hostIf = s.hostIf := rfl
@[simp] theorem bump_power (i j k w n : Nat) (s : State) : (bump i j k w n s).power = s.power := rfl
@[simp] theorem bump_drawn (i j k w n : Nat) (s : State) : (bump i j k w n s).drawn = s.drawn := rfl
@[simp] theorem bump_out (i j k w n : Nat) (s : State) : (bump i j k w n s).out = s.out := rfl

/-! ### bumpMax -/

@[simp] theorem bumpMax_pending (i j k v : Nat) (s : State) : (bumpMax i j k v s).pending = s.pending := rfl
@[simp] theorem bumpMax_clk (i j k v : Nat) (s : State) : (bumpMax i j k v s).clk = s.clk := rfl
@[simp] theorem bumpMax_lanes (i j k v : Nat) (s : State) : (bumpMax i j k v s).lanes = s.lanes := rfl
@[simp] theorem bumpMax_cals (i j k v : Nat) (s : State) : (bumpMax i j k v s).cals = s.cals := rfl
@[simp] theorem bumpMax_synce (i j k v : Nat) (s : State) : (bumpMax i j k v s).synce = s.synce := rfl
@[simp] theorem bumpMax_ports (i j k v : Nat) (s : State) : (bumpMax i j k v s).ports = s.ports := rfl
@[simp] theorem bumpMax_shapers (i j k v : Nat) (s : State) : (bumpMax i j k v s).shapers = s.shapers := rfl
@[simp] theorem bumpMax_gates (i j k v : Nat) (s : State) : (bumpMax i j k v s).gates = s.gates := rfl
@[simp] theorem bumpMax_meters (i j k v : Nat) (s : State) : (bumpMax i j k v s).meters = s.meters := rfl
@[simp] theorem bumpMax_cls (i j k v : Nat) (s : State) : (bumpMax i j k v s).cls = s.cls := rfl
@[simp] theorem bumpMax_assoc (i j k v : Nat) (s : State) : (bumpMax i j k v s).assoc = s.assoc := rfl
@[simp] theorem bumpMax_cipher (i j k v : Nat) (s : State) : (bumpMax i j k v s).cipher = s.cipher := rfl
@[simp] theorem bumpMax_cask (i j k v : Nat) (s : State) : (bumpMax i j k v s).cask = s.cask := rfl
@[simp] theorem bumpMax_timeFn (i j k v : Nat) (s : State) : (bumpMax i j k v s).timeFn = s.timeFn := rfl
@[simp] theorem bumpMax_seq (i j k v : Nat) (s : State) : (bumpMax i j k v s).seq = s.seq := rfl
@[simp] theorem bumpMax_vault (i j k v : Nat) (s : State) : (bumpMax i j k v s).vault = s.vault := rfl
@[simp] theorem bumpMax_press (i j k v : Nat) (s : State) : (bumpMax i j k v s).press = s.press := rfl
@[simp] theorem bumpMax_boot (i j k v : Nat) (s : State) : (bumpMax i j k v s).boot = s.boot := rfl
@[simp] theorem bumpMax_mg (i j k v : Nat) (s : State) : (bumpMax i j k v s).mg = s.mg := rfl
@[simp] theorem bumpMax_crust (i j k v : Nat) (s : State) : (bumpMax i j k v s).crust = s.crust := rfl
@[simp] theorem bumpMax_book (i j k v : Nat) (s : State) : (bumpMax i j k v s).book = s.book := rfl
@[simp] theorem bumpMax_trellis (i j k v : Nat) (s : State) : (bumpMax i j k v s).trellis = s.trellis := rfl
@[simp] theorem bumpMax_hostIf (i j k v : Nat) (s : State) : (bumpMax i j k v s).hostIf = s.hostIf := rfl
@[simp] theorem bumpMax_power (i j k v : Nat) (s : State) : (bumpMax i j k v s).power = s.power := rfl
@[simp] theorem bumpMax_drawn (i j k v : Nat) (s : State) : (bumpMax i j k v s).drawn = s.drawn := rfl
@[simp] theorem bumpMax_out (i j k v : Nat) (s : State) : (bumpMax i j k v s).out = s.out := rfl

/-! ### emit -/

@[simp] theorem emit_pending (o : Output) (s : State) : (emit o s).pending = s.pending := rfl
@[simp] theorem emit_clk (o : Output) (s : State) : (emit o s).clk = s.clk := rfl
@[simp] theorem emit_lanes (o : Output) (s : State) : (emit o s).lanes = s.lanes := rfl
@[simp] theorem emit_cals (o : Output) (s : State) : (emit o s).cals = s.cals := rfl
@[simp] theorem emit_synce (o : Output) (s : State) : (emit o s).synce = s.synce := rfl
@[simp] theorem emit_ports (o : Output) (s : State) : (emit o s).ports = s.ports := rfl
@[simp] theorem emit_shapers (o : Output) (s : State) : (emit o s).shapers = s.shapers := rfl
@[simp] theorem emit_gates (o : Output) (s : State) : (emit o s).gates = s.gates := rfl
@[simp] theorem emit_meters (o : Output) (s : State) : (emit o s).meters = s.meters := rfl
@[simp] theorem emit_cls (o : Output) (s : State) : (emit o s).cls = s.cls := rfl
@[simp] theorem emit_assoc (o : Output) (s : State) : (emit o s).assoc = s.assoc := rfl
@[simp] theorem emit_cipher (o : Output) (s : State) : (emit o s).cipher = s.cipher := rfl
@[simp] theorem emit_cask (o : Output) (s : State) : (emit o s).cask = s.cask := rfl
@[simp] theorem emit_timeFn (o : Output) (s : State) : (emit o s).timeFn = s.timeFn := rfl
@[simp] theorem emit_seq (o : Output) (s : State) : (emit o s).seq = s.seq := rfl
@[simp] theorem emit_vault (o : Output) (s : State) : (emit o s).vault = s.vault := rfl
@[simp] theorem emit_press (o : Output) (s : State) : (emit o s).press = s.press := rfl
@[simp] theorem emit_boot (o : Output) (s : State) : (emit o s).boot = s.boot := rfl
@[simp] theorem emit_mg (o : Output) (s : State) : (emit o s).mg = s.mg := rfl
@[simp] theorem emit_crust (o : Output) (s : State) : (emit o s).crust = s.crust := rfl
@[simp] theorem emit_book (o : Output) (s : State) : (emit o s).book = s.book := rfl
@[simp] theorem emit_trellis (o : Output) (s : State) : (emit o s).trellis = s.trellis := rfl
@[simp] theorem emit_hostIf (o : Output) (s : State) : (emit o s).hostIf = s.hostIf := rfl
@[simp] theorem emit_power (o : Output) (s : State) : (emit o s).power = s.power := rfl
@[simp] theorem emit_cnt (o : Output) (s : State) : (emit o s).cnt = s.cnt := rfl
@[simp] theorem emit_drawn (o : Output) (s : State) : (emit o s).drawn = s.drawn := rfl
@[simp] theorem emit_out (o : Output) (s : State) : (emit o s).out = o :: s.out := rfl

/-! ### journalEntry -/

@[simp] theorem journalEntry_pending (s : State) : (journalEntry s).pending = s.pending := rfl
@[simp] theorem journalEntry_clk (s : State) : (journalEntry s).clk = s.clk := rfl
@[simp] theorem journalEntry_lanes (s : State) : (journalEntry s).lanes = s.lanes := rfl
@[simp] theorem journalEntry_cals (s : State) : (journalEntry s).cals = s.cals := rfl
@[simp] theorem journalEntry_synce (s : State) : (journalEntry s).synce = s.synce := rfl
@[simp] theorem journalEntry_ports (s : State) : (journalEntry s).ports = s.ports := rfl
@[simp] theorem journalEntry_shapers (s : State) : (journalEntry s).shapers = s.shapers := rfl
@[simp] theorem journalEntry_gates (s : State) : (journalEntry s).gates = s.gates := rfl
@[simp] theorem journalEntry_meters (s : State) : (journalEntry s).meters = s.meters := rfl
@[simp] theorem journalEntry_cls (s : State) : (journalEntry s).cls = s.cls := rfl
@[simp] theorem journalEntry_assoc (s : State) : (journalEntry s).assoc = s.assoc := rfl
@[simp] theorem journalEntry_cipher (s : State) : (journalEntry s).cipher = s.cipher := rfl
@[simp] theorem journalEntry_cask (s : State) : (journalEntry s).cask = s.cask := rfl
@[simp] theorem journalEntry_timeFn (s : State) : (journalEntry s).timeFn = s.timeFn := rfl
@[simp] theorem journalEntry_vault (s : State) : (journalEntry s).vault = s.vault := rfl
@[simp] theorem journalEntry_press (s : State) : (journalEntry s).press = s.press := rfl
@[simp] theorem journalEntry_boot (s : State) : (journalEntry s).boot = s.boot := rfl
@[simp] theorem journalEntry_mg (s : State) : (journalEntry s).mg = s.mg := rfl
@[simp] theorem journalEntry_crust (s : State) : (journalEntry s).crust = s.crust := rfl
@[simp] theorem journalEntry_book (s : State) : (journalEntry s).book = s.book := rfl
@[simp] theorem journalEntry_trellis (s : State) : (journalEntry s).trellis = s.trellis := rfl
@[simp] theorem journalEntry_hostIf (s : State) : (journalEntry s).hostIf = s.hostIf := rfl
@[simp] theorem journalEntry_power (s : State) : (journalEntry s).power = s.power := rfl
@[simp] theorem journalEntry_cnt (s : State) : (journalEntry s).cnt = s.cnt := rfl
@[simp] theorem journalEntry_drawn (s : State) : (journalEntry s).drawn = s.drawn := rfl
@[simp] theorem journalEntry_out (s : State) : (journalEntry s).out = s.out := rfl

/-! ### commit -/

@[simp] theorem commit_pending (s : State) : (commit s).pending = s.pending := rfl
@[simp] theorem commit_clk (s : State) : (commit s).clk = s.clk := rfl
@[simp] theorem commit_lanes (s : State) : (commit s).lanes = s.lanes := rfl
@[simp] theorem commit_cals (s : State) : (commit s).cals = s.cals := rfl
@[simp] theorem commit_synce (s : State) : (commit s).synce = s.synce := rfl
@[simp] theorem commit_ports (s : State) : (commit s).ports = s.ports := rfl
@[simp] theorem commit_shapers (s : State) : (commit s).shapers = s.shapers := rfl
@[simp] theorem commit_gates (s : State) : (commit s).gates = s.gates := rfl
@[simp] theorem commit_meters (s : State) : (commit s).meters = s.meters := rfl
@[simp] theorem commit_cls (s : State) : (commit s).cls = s.cls := rfl
@[simp] theorem commit_assoc (s : State) : (commit s).assoc = s.assoc := rfl
@[simp] theorem commit_cipher (s : State) : (commit s).cipher = s.cipher := rfl
@[simp] theorem commit_cask (s : State) : (commit s).cask = s.cask := rfl
@[simp] theorem commit_timeFn (s : State) : (commit s).timeFn = s.timeFn := rfl
@[simp] theorem commit_vault (s : State) : (commit s).vault = s.vault := rfl
@[simp] theorem commit_press (s : State) : (commit s).press = s.press := rfl
@[simp] theorem commit_boot (s : State) : (commit s).boot = s.boot := rfl
@[simp] theorem commit_mg (s : State) : (commit s).mg = s.mg := rfl
@[simp] theorem commit_crust (s : State) : (commit s).crust = s.crust := rfl
@[simp] theorem commit_book (s : State) : (commit s).book = s.book := rfl
@[simp] theorem commit_trellis (s : State) : (commit s).trellis = s.trellis := rfl
@[simp] theorem commit_hostIf (s : State) : (commit s).hostIf = s.hostIf := rfl
@[simp] theorem commit_power (s : State) : (commit s).power = s.power := rfl
@[simp] theorem commit_cnt (s : State) : (commit s).cnt = s.cnt := rfl
@[simp] theorem commit_drawn (s : State) : (commit s).drawn = s.drawn := rfl
@[simp] theorem commit_out (s : State) : (commit s).out = s.out := rfl

/-! ### baseImage -/

@[simp] theorem baseImage_pending (s : State) : (baseImage s).pending = s.pending := rfl
@[simp] theorem baseImage_clk (s : State) : (baseImage s).clk = s.clk := rfl
@[simp] theorem baseImage_lanes (s : State) : (baseImage s).lanes = s.lanes := rfl
@[simp] theorem baseImage_cals (s : State) : (baseImage s).cals = s.cals := rfl
@[simp] theorem baseImage_synce (s : State) : (baseImage s).synce = s.synce := rfl
@[simp] theorem baseImage_ports (s : State) : (baseImage s).ports = s.ports := rfl
@[simp] theorem baseImage_shapers (s : State) : (baseImage s).shapers = s.shapers := rfl
@[simp] theorem baseImage_gates (s : State) : (baseImage s).gates = s.gates := rfl
@[simp] theorem baseImage_meters (s : State) : (baseImage s).meters = s.meters := rfl
@[simp] theorem baseImage_cls (s : State) : (baseImage s).cls = s.cls := rfl
@[simp] theorem baseImage_assoc (s : State) : (baseImage s).assoc = s.assoc := rfl
@[simp] theorem baseImage_cipher (s : State) : (baseImage s).cipher = s.cipher := rfl
@[simp] theorem baseImage_cask (s : State) : (baseImage s).cask = s.cask := rfl
@[simp] theorem baseImage_timeFn (s : State) : (baseImage s).timeFn = s.timeFn := rfl
@[simp] theorem baseImage_vault (s : State) : (baseImage s).vault = s.vault := rfl
@[simp] theorem baseImage_press (s : State) : (baseImage s).press = s.press := rfl
@[simp] theorem baseImage_boot (s : State) : (baseImage s).boot = s.boot := rfl
@[simp] theorem baseImage_mg (s : State) : (baseImage s).mg = s.mg := rfl
@[simp] theorem baseImage_crust (s : State) : (baseImage s).crust = s.crust := rfl
@[simp] theorem baseImage_book (s : State) : (baseImage s).book = s.book := rfl
@[simp] theorem baseImage_trellis (s : State) : (baseImage s).trellis = s.trellis := rfl
@[simp] theorem baseImage_power (s : State) : (baseImage s).power = s.power := rfl
@[simp] theorem baseImage_cnt (s : State) : (baseImage s).cnt = s.cnt := rfl
@[simp] theorem baseImage_drawn (s : State) : (baseImage s).drawn = s.drawn := rfl
@[simp] theorem baseImage_out (s : State) : (baseImage s).out = s.out := rfl

/-! ### issue -/

@[simp] theorem issue_pending (n : Nat) (s : State) : (issue n s).pending = s.pending := rfl
@[simp] theorem issue_lanes (n : Nat) (s : State) : (issue n s).lanes = s.lanes := rfl
@[simp] theorem issue_cals (n : Nat) (s : State) : (issue n s).cals = s.cals := rfl
@[simp] theorem issue_synce (n : Nat) (s : State) : (issue n s).synce = s.synce := rfl
@[simp] theorem issue_ports (n : Nat) (s : State) : (issue n s).ports = s.ports := rfl
@[simp] theorem issue_shapers (n : Nat) (s : State) : (issue n s).shapers = s.shapers := rfl
@[simp] theorem issue_gates (n : Nat) (s : State) : (issue n s).gates = s.gates := rfl
@[simp] theorem issue_meters (n : Nat) (s : State) : (issue n s).meters = s.meters := rfl
@[simp] theorem issue_cls (n : Nat) (s : State) : (issue n s).cls = s.cls := rfl
@[simp] theorem issue_assoc (n : Nat) (s : State) : (issue n s).assoc = s.assoc := rfl
@[simp] theorem issue_cipher (n : Nat) (s : State) : (issue n s).cipher = s.cipher := rfl
@[simp] theorem issue_cask (n : Nat) (s : State) : (issue n s).cask = s.cask := rfl
@[simp] theorem issue_timeFn (n : Nat) (s : State) : (issue n s).timeFn = s.timeFn := rfl
@[simp] theorem issue_seq (n : Nat) (s : State) : (issue n s).seq = s.seq := rfl
@[simp] theorem issue_vault (n : Nat) (s : State) : (issue n s).vault = s.vault := rfl
@[simp] theorem issue_press (n : Nat) (s : State) : (issue n s).press = s.press := rfl
@[simp] theorem issue_boot (n : Nat) (s : State) : (issue n s).boot = s.boot := rfl
@[simp] theorem issue_mg (n : Nat) (s : State) : (issue n s).mg = s.mg := rfl
@[simp] theorem issue_crust (n : Nat) (s : State) : (issue n s).crust = s.crust := rfl
@[simp] theorem issue_book (n : Nat) (s : State) : (issue n s).book = s.book := rfl
@[simp] theorem issue_trellis (n : Nat) (s : State) : (issue n s).trellis = s.trellis := rfl
@[simp] theorem issue_power (n : Nat) (s : State) : (issue n s).power = s.power := rfl
@[simp] theorem issue_cnt (n : Nat) (s : State) : (issue n s).cnt = s.cnt := rfl
@[simp] theorem issue_drawn (n : Nat) (s : State) : (issue n s).drawn = s.drawn := rfl
@[simp] theorem issue_out (n : Nat) (s : State) : (issue n s).out = s.out := rfl

/-! ### closeRec -/

@[simp] theorem closeRec_pending (code obj : Nat) (s : State) : (closeRec code obj s).pending = s.pending := rfl
@[simp] theorem closeRec_clk (code obj : Nat) (s : State) : (closeRec code obj s).clk = s.clk := rfl
@[simp] theorem closeRec_lanes (code obj : Nat) (s : State) : (closeRec code obj s).lanes = s.lanes := rfl
@[simp] theorem closeRec_cals (code obj : Nat) (s : State) : (closeRec code obj s).cals = s.cals := rfl
@[simp] theorem closeRec_synce (code obj : Nat) (s : State) : (closeRec code obj s).synce = s.synce := rfl
@[simp] theorem closeRec_ports (code obj : Nat) (s : State) : (closeRec code obj s).ports = s.ports := rfl
@[simp] theorem closeRec_shapers (code obj : Nat) (s : State) : (closeRec code obj s).shapers = s.shapers := rfl
@[simp] theorem closeRec_gates (code obj : Nat) (s : State) : (closeRec code obj s).gates = s.gates := rfl
@[simp] theorem closeRec_meters (code obj : Nat) (s : State) : (closeRec code obj s).meters = s.meters := rfl
@[simp] theorem closeRec_cls (code obj : Nat) (s : State) : (closeRec code obj s).cls = s.cls := rfl
@[simp] theorem closeRec_assoc (code obj : Nat) (s : State) : (closeRec code obj s).assoc = s.assoc := rfl
@[simp] theorem closeRec_cipher (code obj : Nat) (s : State) : (closeRec code obj s).cipher = s.cipher := rfl
@[simp] theorem closeRec_cask (code obj : Nat) (s : State) : (closeRec code obj s).cask = s.cask := rfl
@[simp] theorem closeRec_timeFn (code obj : Nat) (s : State) : (closeRec code obj s).timeFn = s.timeFn := rfl
@[simp] theorem closeRec_seq (code obj : Nat) (s : State) : (closeRec code obj s).seq = s.seq := rfl
@[simp] theorem closeRec_vault (code obj : Nat) (s : State) : (closeRec code obj s).vault = s.vault := rfl
@[simp] theorem closeRec_press (code obj : Nat) (s : State) : (closeRec code obj s).press = s.press := rfl
@[simp] theorem closeRec_boot (code obj : Nat) (s : State) : (closeRec code obj s).boot = s.boot := rfl
@[simp] theorem closeRec_mg (code obj : Nat) (s : State) : (closeRec code obj s).mg = s.mg := rfl
@[simp] theorem closeRec_crust (code obj : Nat) (s : State) : (closeRec code obj s).crust = s.crust := rfl
@[simp] theorem closeRec_trellis (code obj : Nat) (s : State) : (closeRec code obj s).trellis = s.trellis := rfl
@[simp] theorem closeRec_hostIf (code obj : Nat) (s : State) : (closeRec code obj s).hostIf = s.hostIf := rfl
@[simp] theorem closeRec_power (code obj : Nat) (s : State) : (closeRec code obj s).power = s.power := rfl
@[simp] theorem closeRec_cnt (code obj : Nat) (s : State) : (closeRec code obj s).cnt = s.cnt := rfl
@[simp] theorem closeRec_drawn (code obj : Nat) (s : State) : (closeRec code obj s).drawn = s.drawn := rfl
@[simp] theorem closeRec_out (code obj : Nat) (s : State) : (closeRec code obj s).out = s.out := rfl

/-! ### writeMem -/

@[simp] theorem writeMem_pending (s : State) (a : Nat) (l : Bytes) : (writeMem s a l).pending = s.pending := rfl
@[simp] theorem writeMem_clk (s : State) (a : Nat) (l : Bytes) : (writeMem s a l).clk = s.clk := rfl
@[simp] theorem writeMem_lanes (s : State) (a : Nat) (l : Bytes) : (writeMem s a l).lanes = s.lanes := rfl
@[simp] theorem writeMem_cals (s : State) (a : Nat) (l : Bytes) : (writeMem s a l).cals = s.cals := rfl
@[simp] theorem writeMem_synce (s : State) (a : Nat) (l : Bytes) : (writeMem s a l).synce = s.synce := rfl
@[simp] theorem writeMem_ports (s : State) (a : Nat) (l : Bytes) : (writeMem s a l).ports = s.ports := rfl
@[simp] theorem writeMem_shapers (s : State) (a : Nat) (l : Bytes) : (writeMem s a l).shapers = s.shapers := rfl
@[simp] theorem writeMem_gates (s : State) (a : Nat) (l : Bytes) : (writeMem s a l).gates = s.gates := rfl
@[simp] theorem writeMem_meters (s : State) (a : Nat) (l : Bytes) : (writeMem s a l).meters = s.meters := rfl
@[simp] theorem writeMem_cls (s : State) (a : Nat) (l : Bytes) : (writeMem s a l).cls = s.cls := rfl
@[simp] theorem writeMem_assoc (s : State) (a : Nat) (l : Bytes) : (writeMem s a l).assoc = s.assoc := rfl
@[simp] theorem writeMem_cipher (s : State) (a : Nat) (l : Bytes) : (writeMem s a l).cipher = s.cipher := rfl
@[simp] theorem writeMem_cask (s : State) (a : Nat) (l : Bytes) : (writeMem s a l).cask = s.cask := rfl
@[simp] theorem writeMem_timeFn (s : State) (a : Nat) (l : Bytes) : (writeMem s a l).timeFn = s.timeFn := rfl
@[simp] theorem writeMem_vault (s : State) (a : Nat) (l : Bytes) : (writeMem s a l).vault = s.vault := rfl
@[simp] theorem writeMem_press (s : State) (a : Nat) (l : Bytes) : (writeMem s a l).press = s.press := rfl
@[simp] theorem writeMem_boot (s : State) (a : Nat) (l : Bytes) : (writeMem s a l).boot = s.boot := rfl
@[simp] theorem writeMem_mg (s : State) (a : Nat) (l : Bytes) : (writeMem s a l).mg = s.mg := rfl
@[simp] theorem writeMem_crust (s : State) (a : Nat) (l : Bytes) : (writeMem s a l).crust = s.crust := rfl
@[simp] theorem writeMem_book (s : State) (a : Nat) (l : Bytes) : (writeMem s a l).book = s.book := rfl
@[simp] theorem writeMem_trellis (s : State) (a : Nat) (l : Bytes) : (writeMem s a l).trellis = s.trellis := rfl
@[simp] theorem writeMem_hostIf (s : State) (a : Nat) (l : Bytes) : (writeMem s a l).hostIf = s.hostIf := rfl
@[simp] theorem writeMem_power (s : State) (a : Nat) (l : Bytes) : (writeMem s a l).power = s.power := rfl
@[simp] theorem writeMem_cnt (s : State) (a : Nat) (l : Bytes) : (writeMem s a l).cnt = s.cnt := rfl
@[simp] theorem writeMem_drawn (s : State) (a : Nat) (l : Bytes) : (writeMem s a l).drawn = s.drawn := rfl
@[simp] theorem writeMem_out (s : State) (a : Nat) (l : Bytes) : (writeMem s a l).out = s.out := rfl

/-! ### raiseEv -/

@[simp] theorem raiseEv_pending (e : Ev) (s : State) : (raiseEv e s).pending = s.pending := by unfold raiseEv; split <;> rfl
@[simp] theorem raiseEv_clk (e : Ev) (s : State) : (raiseEv e s).clk = s.clk := by unfold raiseEv; split <;> rfl
@[simp] theorem raiseEv_lanes (e : Ev) (s : State) : (raiseEv e s).lanes = s.lanes := by unfold raiseEv; split <;> rfl
@[simp] theorem raiseEv_cals (e : Ev) (s : State) : (raiseEv e s).cals = s.cals := by unfold raiseEv; split <;> rfl
@[simp] theorem raiseEv_synce (e : Ev) (s : State) : (raiseEv e s).synce = s.synce := by unfold raiseEv; split <;> rfl
@[simp] theorem raiseEv_ports (e : Ev) (s : State) : (raiseEv e s).ports = s.ports := by unfold raiseEv; split <;> rfl
@[simp] theorem raiseEv_shapers (e : Ev) (s : State) : (raiseEv e s).shapers = s.shapers := by unfold raiseEv; split <;> rfl
@[simp] theorem raiseEv_gates (e : Ev) (s : State) : (raiseEv e s).gates = s.gates := by unfold raiseEv; split <;> rfl
@[simp] theorem raiseEv_meters (e : Ev) (s : State) : (raiseEv e s).meters = s.meters := by unfold raiseEv; split <;> rfl
@[simp] theorem raiseEv_cls (e : Ev) (s : State) : (raiseEv e s).cls = s.cls := by unfold raiseEv; split <;> rfl
@[simp] theorem raiseEv_assoc (e : Ev) (s : State) : (raiseEv e s).assoc = s.assoc := by unfold raiseEv; split <;> rfl
@[simp] theorem raiseEv_cipher (e : Ev) (s : State) : (raiseEv e s).cipher = s.cipher := by unfold raiseEv; split <;> rfl
@[simp] theorem raiseEv_cask (e : Ev) (s : State) : (raiseEv e s).cask = s.cask := by unfold raiseEv; split <;> rfl
@[simp] theorem raiseEv_timeFn (e : Ev) (s : State) : (raiseEv e s).timeFn = s.timeFn := by unfold raiseEv; split <;> rfl
@[simp] theorem raiseEv_seq (e : Ev) (s : State) : (raiseEv e s).seq = s.seq := by unfold raiseEv; split <;> rfl
@[simp] theorem raiseEv_vault (e : Ev) (s : State) : (raiseEv e s).vault = s.vault := by unfold raiseEv; split <;> rfl
@[simp] theorem raiseEv_press (e : Ev) (s : State) : (raiseEv e s).press = s.press := by unfold raiseEv; split <;> rfl
@[simp] theorem raiseEv_boot (e : Ev) (s : State) : (raiseEv e s).boot = s.boot := by unfold raiseEv; split <;> rfl
@[simp] theorem raiseEv_mg (e : Ev) (s : State) : (raiseEv e s).mg = s.mg := by unfold raiseEv; split <;> rfl
@[simp] theorem raiseEv_crust (e : Ev) (s : State) : (raiseEv e s).crust = s.crust := by unfold raiseEv; split <;> rfl
@[simp] theorem raiseEv_trellis (e : Ev) (s : State) : (raiseEv e s).trellis = s.trellis := by unfold raiseEv; split <;> rfl
@[simp] theorem raiseEv_hostIf (e : Ev) (s : State) : (raiseEv e s).hostIf = s.hostIf := by unfold raiseEv; split <;> rfl
@[simp] theorem raiseEv_power (e : Ev) (s : State) : (raiseEv e s).power = s.power := by unfold raiseEv; split <;> rfl
@[simp] theorem raiseEv_drawn (e : Ev) (s : State) : (raiseEv e s).drawn = s.drawn := by unfold raiseEv; split <;> rfl
@[simp] theorem raiseEv_out (e : Ev) (s : State) : (raiseEv e s).out = s.out := by unfold raiseEv; split <;> rfl

/-! ### raise -/

@[simp] theorem raise_pending (code obj data : Nat) (s : State) : (raise code obj data s).pending = s.pending := by simp [raise]
@[simp] theorem raise_clk (code obj data : Nat) (s : State) : (raise code obj data s).clk = s.clk := by simp [raise]
@[simp] theorem raise_lanes (code obj data : Nat) (s : State) : (raise code obj data s).lanes = s.lanes := by simp [raise]
@[simp] theorem raise_cals (code obj data : Nat) (s : State) : (raise code obj data s).cals = s.cals := by simp [raise]
@[simp] theorem raise_synce (code obj data : Nat) (s : State) : (raise code obj data s).synce = s.synce := by simp [raise]
@[simp] theorem raise_ports (code obj data : Nat) (s : State) : (raise code obj data s).ports = s.ports := by simp [raise]
@[simp] theorem raise_shapers (code obj data : Nat) (s : State) : (raise code obj data s).shapers = s.shapers := by simp [raise]
@[simp] theorem raise_gates (code obj data : Nat) (s : State) : (raise code obj data s).gates = s.gates := by simp [raise]
@[simp] theorem raise_meters (code obj data : Nat) (s : State) : (raise code obj data s).meters = s.meters := by simp [raise]
@[simp] theorem raise_cls (code obj data : Nat) (s : State) : (raise code obj data s).cls = s.cls := by simp [raise]
@[simp] theorem raise_assoc (code obj data : Nat) (s : State) : (raise code obj data s).assoc = s.assoc := by simp [raise]
@[simp] theorem raise_cipher (code obj data : Nat) (s : State) : (raise code obj data s).cipher = s.cipher := by simp [raise]
@[simp] theorem raise_cask (code obj data : Nat) (s : State) : (raise code obj data s).cask = s.cask := by simp [raise]
@[simp] theorem raise_timeFn (code obj data : Nat) (s : State) : (raise code obj data s).timeFn = s.timeFn := by simp [raise]
@[simp] theorem raise_seq (code obj data : Nat) (s : State) : (raise code obj data s).seq = s.seq := by simp [raise]
@[simp] theorem raise_vault (code obj data : Nat) (s : State) : (raise code obj data s).vault = s.vault := by simp [raise]
@[simp] theorem raise_press (code obj data : Nat) (s : State) : (raise code obj data s).press = s.press := by simp [raise]
@[simp] theorem raise_boot (code obj data : Nat) (s : State) : (raise code obj data s).boot = s.boot := by simp [raise]
@[simp] theorem raise_mg (code obj data : Nat) (s : State) : (raise code obj data s).mg = s.mg := by simp [raise]
@[simp] theorem raise_crust (code obj data : Nat) (s : State) : (raise code obj data s).crust = s.crust := by simp [raise]
@[simp] theorem raise_trellis (code obj data : Nat) (s : State) : (raise code obj data s).trellis = s.trellis := by simp [raise]
@[simp] theorem raise_hostIf (code obj data : Nat) (s : State) : (raise code obj data s).hostIf = s.hostIf := by simp [raise]
@[simp] theorem raise_power (code obj data : Nat) (s : State) : (raise code obj data s).power = s.power := by simp [raise]
@[simp] theorem raise_drawn (code obj data : Nat) (s : State) : (raise code obj data s).drawn = s.drawn := by simp [raise]
@[simp] theorem raise_out (code obj data : Nat) (s : State) : (raise code obj data s).out = s.out := by simp [raise]

/-! ### raiseDone -/

@[simp] theorem raiseDone_pending (code cseq st aux data : Nat) (s : State) : (raiseDone code cseq st aux data s).pending = s.pending := by simp [raiseDone]
@[simp] theorem raiseDone_clk (code cseq st aux data : Nat) (s : State) : (raiseDone code cseq st aux data s).clk = s.clk := by simp [raiseDone]
@[simp] theorem raiseDone_lanes (code cseq st aux data : Nat) (s : State) : (raiseDone code cseq st aux data s).lanes = s.lanes := by simp [raiseDone]
@[simp] theorem raiseDone_cals (code cseq st aux data : Nat) (s : State) : (raiseDone code cseq st aux data s).cals = s.cals := by simp [raiseDone]
@[simp] theorem raiseDone_synce (code cseq st aux data : Nat) (s : State) : (raiseDone code cseq st aux data s).synce = s.synce := by simp [raiseDone]
@[simp] theorem raiseDone_ports (code cseq st aux data : Nat) (s : State) : (raiseDone code cseq st aux data s).ports = s.ports := by simp [raiseDone]
@[simp] theorem raiseDone_shapers (code cseq st aux data : Nat) (s : State) : (raiseDone code cseq st aux data s).shapers = s.shapers := by simp [raiseDone]
@[simp] theorem raiseDone_gates (code cseq st aux data : Nat) (s : State) : (raiseDone code cseq st aux data s).gates = s.gates := by simp [raiseDone]
@[simp] theorem raiseDone_meters (code cseq st aux data : Nat) (s : State) : (raiseDone code cseq st aux data s).meters = s.meters := by simp [raiseDone]
@[simp] theorem raiseDone_cls (code cseq st aux data : Nat) (s : State) : (raiseDone code cseq st aux data s).cls = s.cls := by simp [raiseDone]
@[simp] theorem raiseDone_assoc (code cseq st aux data : Nat) (s : State) : (raiseDone code cseq st aux data s).assoc = s.assoc := by simp [raiseDone]
@[simp] theorem raiseDone_cipher (code cseq st aux data : Nat) (s : State) : (raiseDone code cseq st aux data s).cipher = s.cipher := by simp [raiseDone]
@[simp] theorem raiseDone_cask (code cseq st aux data : Nat) (s : State) : (raiseDone code cseq st aux data s).cask = s.cask := by simp [raiseDone]
@[simp] theorem raiseDone_timeFn (code cseq st aux data : Nat) (s : State) : (raiseDone code cseq st aux data s).timeFn = s.timeFn := by simp [raiseDone]
@[simp] theorem raiseDone_seq (code cseq st aux data : Nat) (s : State) : (raiseDone code cseq st aux data s).seq = s.seq := by simp [raiseDone]
@[simp] theorem raiseDone_vault (code cseq st aux data : Nat) (s : State) : (raiseDone code cseq st aux data s).vault = s.vault := by simp [raiseDone]
@[simp] theorem raiseDone_press (code cseq st aux data : Nat) (s : State) : (raiseDone code cseq st aux data s).press = s.press := by simp [raiseDone]
@[simp] theorem raiseDone_boot (code cseq st aux data : Nat) (s : State) : (raiseDone code cseq st aux data s).boot = s.boot := by simp [raiseDone]
@[simp] theorem raiseDone_mg (code cseq st aux data : Nat) (s : State) : (raiseDone code cseq st aux data s).mg = s.mg := by simp [raiseDone]
@[simp] theorem raiseDone_crust (code cseq st aux data : Nat) (s : State) : (raiseDone code cseq st aux data s).crust = s.crust := by simp [raiseDone]
@[simp] theorem raiseDone_trellis (code cseq st aux data : Nat) (s : State) : (raiseDone code cseq st aux data s).trellis = s.trellis := by simp [raiseDone]
@[simp] theorem raiseDone_hostIf (code cseq st aux data : Nat) (s : State) : (raiseDone code cseq st aux data s).hostIf = s.hostIf := by simp [raiseDone]
@[simp] theorem raiseDone_power (code cseq st aux data : Nat) (s : State) : (raiseDone code cseq st aux data s).power = s.power := by simp [raiseDone]
@[simp] theorem raiseDone_drawn (code cseq st aux data : Nat) (s : State) : (raiseDone code cseq st aux data s).drawn = s.drawn := by simp [raiseDone]
@[simp] theorem raiseDone_out (code cseq st aux data : Nat) (s : State) : (raiseDone code cseq st aux data s).out = s.out := by simp [raiseDone]

/-! ### signalVector -/

@[simp] theorem signalVector_pending (k : Nat) (s : State) : (signalVector k s).pending = s.pending := by unfold signalVector; split <;> rfl
@[simp] theorem signalVector_clk (k : Nat) (s : State) : (signalVector k s).clk = s.clk := by unfold signalVector; split <;> rfl
@[simp] theorem signalVector_lanes (k : Nat) (s : State) : (signalVector k s).lanes = s.lanes := by unfold signalVector; split <;> rfl
@[simp] theorem signalVector_cals (k : Nat) (s : State) : (signalVector k s).cals = s.cals := by unfold signalVector; split <;> rfl
@[simp] theorem signalVector_synce (k : Nat) (s : State) : (signalVector k s).synce = s.synce := by unfold signalVector; split <;> rfl
@[simp] theorem signalVector_ports (k : Nat) (s : State) : (signalVector k s).ports = s.ports := by unfold signalVector; split <;> rfl
@[simp] theorem signalVector_shapers (k : Nat) (s : State) : (signalVector k s).shapers = s.shapers := by unfold signalVector; split <;> rfl
@[simp] theorem signalVector_gates (k : Nat) (s : State) : (signalVector k s).gates = s.gates := by unfold signalVector; split <;> rfl
@[simp] theorem signalVector_meters (k : Nat) (s : State) : (signalVector k s).meters = s.meters := by unfold signalVector; split <;> rfl
@[simp] theorem signalVector_cls (k : Nat) (s : State) : (signalVector k s).cls = s.cls := by unfold signalVector; split <;> rfl
@[simp] theorem signalVector_assoc (k : Nat) (s : State) : (signalVector k s).assoc = s.assoc := by unfold signalVector; split <;> rfl
@[simp] theorem signalVector_cipher (k : Nat) (s : State) : (signalVector k s).cipher = s.cipher := by unfold signalVector; split <;> rfl
@[simp] theorem signalVector_cask (k : Nat) (s : State) : (signalVector k s).cask = s.cask := by unfold signalVector; split <;> rfl
@[simp] theorem signalVector_timeFn (k : Nat) (s : State) : (signalVector k s).timeFn = s.timeFn := by unfold signalVector; split <;> rfl
@[simp] theorem signalVector_seq (k : Nat) (s : State) : (signalVector k s).seq = s.seq := by unfold signalVector; split <;> rfl
@[simp] theorem signalVector_vault (k : Nat) (s : State) : (signalVector k s).vault = s.vault := by unfold signalVector; split <;> rfl
@[simp] theorem signalVector_press (k : Nat) (s : State) : (signalVector k s).press = s.press := by unfold signalVector; split <;> rfl
@[simp] theorem signalVector_boot (k : Nat) (s : State) : (signalVector k s).boot = s.boot := by unfold signalVector; split <;> rfl
@[simp] theorem signalVector_mg (k : Nat) (s : State) : (signalVector k s).mg = s.mg := by unfold signalVector; split <;> rfl
@[simp] theorem signalVector_crust (k : Nat) (s : State) : (signalVector k s).crust = s.crust := by unfold signalVector; split <;> rfl
@[simp] theorem signalVector_book (k : Nat) (s : State) : (signalVector k s).book = s.book := by unfold signalVector; split <;> rfl
@[simp] theorem signalVector_trellis (k : Nat) (s : State) : (signalVector k s).trellis = s.trellis := by unfold signalVector; split <;> rfl
@[simp] theorem signalVector_power (k : Nat) (s : State) : (signalVector k s).power = s.power := by unfold signalVector; split <;> rfl
@[simp] theorem signalVector_drawn (k : Nat) (s : State) : (signalVector k s).drawn = s.drawn := by unfold signalVector; split <;> rfl

/-! ### setCause -/

@[simp] theorem setCause_pending (k : Nat) (s : State) : (setCause k s).pending = s.pending := by unfold setCause; dsimp only; split <;> simp
@[simp] theorem setCause_clk (k : Nat) (s : State) : (setCause k s).clk = s.clk := by unfold setCause; dsimp only; split <;> simp
@[simp] theorem setCause_lanes (k : Nat) (s : State) : (setCause k s).lanes = s.lanes := by unfold setCause; dsimp only; split <;> simp
@[simp] theorem setCause_cals (k : Nat) (s : State) : (setCause k s).cals = s.cals := by unfold setCause; dsimp only; split <;> simp
@[simp] theorem setCause_synce (k : Nat) (s : State) : (setCause k s).synce = s.synce := by unfold setCause; dsimp only; split <;> simp
@[simp] theorem setCause_ports (k : Nat) (s : State) : (setCause k s).ports = s.ports := by unfold setCause; dsimp only; split <;> simp
@[simp] theorem setCause_shapers (k : Nat) (s : State) : (setCause k s).shapers = s.shapers := by unfold setCause; dsimp only; split <;> simp
@[simp] theorem setCause_gates (k : Nat) (s : State) : (setCause k s).gates = s.gates := by unfold setCause; dsimp only; split <;> simp
@[simp] theorem setCause_meters (k : Nat) (s : State) : (setCause k s).meters = s.meters := by unfold setCause; dsimp only; split <;> simp
@[simp] theorem setCause_cls (k : Nat) (s : State) : (setCause k s).cls = s.cls := by unfold setCause; dsimp only; split <;> simp
@[simp] theorem setCause_assoc (k : Nat) (s : State) : (setCause k s).assoc = s.assoc := by unfold setCause; dsimp only; split <;> simp
@[simp] theorem setCause_cipher (k : Nat) (s : State) : (setCause k s).cipher = s.cipher := by unfold setCause; dsimp only; split <;> simp
@[simp] theorem setCause_cask (k : Nat) (s : State) : (setCause k s).cask = s.cask := by unfold setCause; dsimp only; split <;> simp
@[simp] theorem setCause_timeFn (k : Nat) (s : State) : (setCause k s).timeFn = s.timeFn := by unfold setCause; dsimp only; split <;> simp
@[simp] theorem setCause_seq (k : Nat) (s : State) : (setCause k s).seq = s.seq := by unfold setCause; dsimp only; split <;> simp
@[simp] theorem setCause_vault (k : Nat) (s : State) : (setCause k s).vault = s.vault := by unfold setCause; dsimp only; split <;> simp
@[simp] theorem setCause_press (k : Nat) (s : State) : (setCause k s).press = s.press := by unfold setCause; dsimp only; split <;> simp
@[simp] theorem setCause_boot (k : Nat) (s : State) : (setCause k s).boot = s.boot := by unfold setCause; dsimp only; split <;> simp
@[simp] theorem setCause_mg (k : Nat) (s : State) : (setCause k s).mg = s.mg := by unfold setCause; dsimp only; split <;> simp
@[simp] theorem setCause_crust (k : Nat) (s : State) : (setCause k s).crust = s.crust := by unfold setCause; dsimp only; split <;> simp
@[simp] theorem setCause_book (k : Nat) (s : State) : (setCause k s).book = s.book := by unfold setCause; dsimp only; split <;> simp
@[simp] theorem setCause_trellis (k : Nat) (s : State) : (setCause k s).trellis = s.trellis := by unfold setCause; dsimp only; split <;> simp
@[simp] theorem setCause_power (k : Nat) (s : State) : (setCause k s).power = s.power := by unfold setCause; dsimp only; split <;> simp
@[simp] theorem setCause_drawn (k : Nat) (s : State) : (setCause k s).drawn = s.drawn := by unfold setCause; dsimp only; split <;> simp

/-! ### boundary -/

@[simp] theorem boundary_pending (s : State) : (boundary s).pending = s.pending := by unfold boundary; split <;> rfl
@[simp] theorem boundary_clk (s : State) : (boundary s).clk = s.clk := by unfold boundary; split <;> rfl
@[simp] theorem boundary_lanes (s : State) : (boundary s).lanes = s.lanes := by unfold boundary; split <;> rfl
@[simp] theorem boundary_cals (s : State) : (boundary s).cals = s.cals := by unfold boundary; split <;> rfl
@[simp] theorem boundary_synce (s : State) : (boundary s).synce = s.synce := by unfold boundary; split <;> rfl
@[simp] theorem boundary_ports (s : State) : (boundary s).ports = s.ports := by unfold boundary; split <;> rfl
@[simp] theorem boundary_shapers (s : State) : (boundary s).shapers = s.shapers := by unfold boundary; split <;> rfl
@[simp] theorem boundary_gates (s : State) : (boundary s).gates = s.gates := by unfold boundary; split <;> rfl
@[simp] theorem boundary_meters (s : State) : (boundary s).meters = s.meters := by unfold boundary; split <;> rfl
@[simp] theorem boundary_cls (s : State) : (boundary s).cls = s.cls := by unfold boundary; split <;> rfl
@[simp] theorem boundary_assoc (s : State) : (boundary s).assoc = s.assoc := by unfold boundary; split <;> rfl
@[simp] theorem boundary_cipher (s : State) : (boundary s).cipher = s.cipher := by unfold boundary; split <;> rfl
@[simp] theorem boundary_cask (s : State) : (boundary s).cask = s.cask := by unfold boundary; split <;> rfl
@[simp] theorem boundary_timeFn (s : State) : (boundary s).timeFn = s.timeFn := by unfold boundary; split <;> rfl
@[simp] theorem boundary_vault (s : State) : (boundary s).vault = s.vault := by unfold boundary; split <;> rfl
@[simp] theorem boundary_press (s : State) : (boundary s).press = s.press := by unfold boundary; split <;> rfl
@[simp] theorem boundary_boot (s : State) : (boundary s).boot = s.boot := by unfold boundary; split <;> rfl
@[simp] theorem boundary_mg (s : State) : (boundary s).mg = s.mg := by unfold boundary; split <;> rfl
@[simp] theorem boundary_crust (s : State) : (boundary s).crust = s.crust := by unfold boundary; split <;> rfl
@[simp] theorem boundary_book (s : State) : (boundary s).book = s.book := by unfold boundary; split <;> rfl
@[simp] theorem boundary_trellis (s : State) : (boundary s).trellis = s.trellis := by unfold boundary; split <;> rfl
@[simp] theorem boundary_power (s : State) : (boundary s).power = s.power := by unfold boundary; split <;> rfl
@[simp] theorem boundary_cnt (s : State) : (boundary s).cnt = s.cnt := by unfold boundary; split <;> rfl
@[simp] theorem boundary_drawn (s : State) : (boundary s).drawn = s.drawn := by unfold boundary; split <;> rfl
@[simp] theorem boundary_out (s : State) : (boundary s).out = s.out := by unfold boundary; split <;> rfl

/-! ### The reads of the arrays -/

@[simp] theorem getLane_setPort (s : State) (i : Nat) (v : Port) (j : Nat) : getLane (setPort s i v) j = getLane s j := rfl
@[simp] theorem getLane_setGates (s : State) (i : Nat) (v : Gates) (j : Nat) : getLane (setGates s i v) j = getLane s j := rfl
@[simp] theorem getLane_setShaper (s : State) (p c : Nat) (v : Shaper) (j : Nat) : getLane (setShaper s p c v) j = getLane s j := rfl
@[simp] theorem getLane_setMeter (s : State) (i : Nat) (v : Meter) (j : Nat) : getLane (setMeter s i v) j = getLane s j := rfl
@[simp] theorem getLane_setChan (s : State) (c : Nat) (v : Chan) (j : Nat) : getLane (setChan s c v) j = getLane s j := rfl
@[simp] theorem getLane_setCtx (s : State) (k : Nat) (v : Ctx) (j : Nat) : getLane (setCtx s k v) j = getLane s j := rfl
@[simp] theorem getLane_setQueue (s : State) (q : Nat) (v : Queue) (j : Nat) : getLane (setQueue s q v) j = getLane s j := rfl
@[simp] theorem getLane_setSlot (s : State) (i : Nat) (v : Slot) (j : Nat) : getLane (setSlot s i v) j = getLane s j := rfl
@[simp] theorem getLane_setRing (s : State) (r : Nat) (v : Ring) (j : Nat) : getLane (setRing s r v) j = getLane s j := rfl
@[simp] theorem getLane_setQ (s : State) (p c : Nat) (v : List QFrame) (j : Nat) : getLane (setQ s p c v) j = getLane s j := rfl
@[simp] theorem getLane_setTx (s : State) (p : Nat) (v : TxLane) (j : Nat) : getLane (setTx s p v) j = getLane s j := rfl
@[simp] theorem getLane_setRx (s : State) (p : Nat) (v : RxLane) (j : Nat) : getLane (setRx s p v) j = getLane s j := rfl
@[simp] theorem getLane_setArray (s : State) (a : Nat) (v : Machine.Array) (j : Nat) : getLane (setArray s a v) j = getLane s j := rfl
@[simp] theorem getLane_setRegion (s : State) (r : Nat) (v : Region) (j : Nat) : getLane (setRegion s r v) j = getLane s j := rfl
@[simp] theorem getLane_advance (t : Nat) (s : State) (j : Nat) : getLane (advance t s) j = getLane s j := rfl
@[simp] theorem getLane_setCnt (s : State) (i j k v : Nat) (j' : Nat) : getLane (setCnt s i j k v) j' = getLane s j' := rfl
@[simp] theorem getLane_bump (i j k w n : Nat) (s : State) (j' : Nat) : getLane (bump i j k w n s) j' = getLane s j' := rfl
@[simp] theorem getLane_bumpMax (i j k v : Nat) (s : State) (j' : Nat) : getLane (bumpMax i j k v s) j' = getLane s j' := rfl
@[simp] theorem getLane_emit (o : Output) (s : State) (j : Nat) : getLane (emit o s) j = getLane s j := rfl
@[simp] theorem getLane_journalEntry (s : State) (j : Nat) : getLane (journalEntry s) j = getLane s j := rfl
@[simp] theorem getLane_commit (s : State) (j : Nat) : getLane (commit s) j = getLane s j := rfl
@[simp] theorem getLane_baseImage (s : State) (j : Nat) : getLane (baseImage s) j = getLane s j := rfl
@[simp] theorem getLane_issue (n : Nat) (s : State) (j : Nat) : getLane (issue n s) j = getLane s j := rfl
@[simp] theorem getLane_closeRec (code obj : Nat) (s : State) (j : Nat) : getLane (closeRec code obj s) j = getLane s j := rfl
@[simp] theorem getLane_writeMem (s : State) (a : Nat) (l : Bytes) (j : Nat) : getLane (writeMem s a l) j = getLane s j := rfl
@[simp] theorem getLane_raiseEv (e : Ev) (s : State) (j : Nat) : getLane (raiseEv e s) j = getLane s j := by simp [getLane]
@[simp] theorem getLane_raise (code obj data : Nat) (s : State) (j : Nat) : getLane (raise code obj data s) j = getLane s j := by simp [getLane]
@[simp] theorem getLane_raiseDone (code cseq st aux data : Nat) (s : State) (j : Nat) : getLane (raiseDone code cseq st aux data s) j = getLane s j := by simp [getLane]
@[simp] theorem getLane_signalVector (k : Nat) (s : State) (j : Nat) : getLane (signalVector k s) j = getLane s j := by simp [getLane]
@[simp] theorem getLane_setCause (k : Nat) (s : State) (j : Nat) : getLane (setCause k s) j = getLane s j := by simp [getLane]
@[simp] theorem getPort_setLane (s : State) (i : Nat) (v : Lane) (j : Nat) : getPort (setLane s i v) j = getPort s j := rfl
@[simp] theorem getPort_setGates (s : State) (i : Nat) (v : Gates) (j : Nat) : getPort (setGates s i v) j = getPort s j := rfl
@[simp] theorem getPort_setShaper (s : State) (p c : Nat) (v : Shaper) (j : Nat) : getPort (setShaper s p c v) j = getPort s j := rfl
@[simp] theorem getPort_setMeter (s : State) (i : Nat) (v : Meter) (j : Nat) : getPort (setMeter s i v) j = getPort s j := rfl
@[simp] theorem getPort_setChan (s : State) (c : Nat) (v : Chan) (j : Nat) : getPort (setChan s c v) j = getPort s j := rfl
@[simp] theorem getPort_setCtx (s : State) (k : Nat) (v : Ctx) (j : Nat) : getPort (setCtx s k v) j = getPort s j := rfl
@[simp] theorem getPort_setQueue (s : State) (q : Nat) (v : Queue) (j : Nat) : getPort (setQueue s q v) j = getPort s j := rfl
@[simp] theorem getPort_setSlot (s : State) (i : Nat) (v : Slot) (j : Nat) : getPort (setSlot s i v) j = getPort s j := rfl
@[simp] theorem getPort_setRing (s : State) (r : Nat) (v : Ring) (j : Nat) : getPort (setRing s r v) j = getPort s j := rfl
@[simp] theorem getPort_setQ (s : State) (p c : Nat) (v : List QFrame) (j : Nat) : getPort (setQ s p c v) j = getPort s j := rfl
@[simp] theorem getPort_setTx (s : State) (p : Nat) (v : TxLane) (j : Nat) : getPort (setTx s p v) j = getPort s j := rfl
@[simp] theorem getPort_setRx (s : State) (p : Nat) (v : RxLane) (j : Nat) : getPort (setRx s p v) j = getPort s j := rfl
@[simp] theorem getPort_setArray (s : State) (a : Nat) (v : Machine.Array) (j : Nat) : getPort (setArray s a v) j = getPort s j := rfl
@[simp] theorem getPort_setRegion (s : State) (r : Nat) (v : Region) (j : Nat) : getPort (setRegion s r v) j = getPort s j := rfl
@[simp] theorem getPort_advance (t : Nat) (s : State) (j : Nat) : getPort (advance t s) j = getPort s j := rfl
@[simp] theorem getPort_setCnt (s : State) (i j k v : Nat) (j' : Nat) : getPort (setCnt s i j k v) j' = getPort s j' := rfl
@[simp] theorem getPort_bump (i j k w n : Nat) (s : State) (j' : Nat) : getPort (bump i j k w n s) j' = getPort s j' := rfl
@[simp] theorem getPort_bumpMax (i j k v : Nat) (s : State) (j' : Nat) : getPort (bumpMax i j k v s) j' = getPort s j' := rfl
@[simp] theorem getPort_emit (o : Output) (s : State) (j : Nat) : getPort (emit o s) j = getPort s j := rfl
@[simp] theorem getPort_journalEntry (s : State) (j : Nat) : getPort (journalEntry s) j = getPort s j := rfl
@[simp] theorem getPort_commit (s : State) (j : Nat) : getPort (commit s) j = getPort s j := rfl
@[simp] theorem getPort_baseImage (s : State) (j : Nat) : getPort (baseImage s) j = getPort s j := rfl
@[simp] theorem getPort_issue (n : Nat) (s : State) (j : Nat) : getPort (issue n s) j = getPort s j := rfl
@[simp] theorem getPort_closeRec (code obj : Nat) (s : State) (j : Nat) : getPort (closeRec code obj s) j = getPort s j := rfl
@[simp] theorem getPort_writeMem (s : State) (a : Nat) (l : Bytes) (j : Nat) : getPort (writeMem s a l) j = getPort s j := rfl
@[simp] theorem getPort_raiseEv (e : Ev) (s : State) (j : Nat) : getPort (raiseEv e s) j = getPort s j := by simp [getPort]
@[simp] theorem getPort_raise (code obj data : Nat) (s : State) (j : Nat) : getPort (raise code obj data s) j = getPort s j := by simp [getPort]
@[simp] theorem getPort_raiseDone (code cseq st aux data : Nat) (s : State) (j : Nat) : getPort (raiseDone code cseq st aux data s) j = getPort s j := by simp [getPort]
@[simp] theorem getPort_signalVector (k : Nat) (s : State) (j : Nat) : getPort (signalVector k s) j = getPort s j := by simp [getPort]
@[simp] theorem getPort_setCause (k : Nat) (s : State) (j : Nat) : getPort (setCause k s) j = getPort s j := by simp [getPort]
@[simp] theorem getGates_setLane (s : State) (i : Nat) (v : Lane) (j : Nat) : getGates (setLane s i v) j = getGates s j := rfl
@[simp] theorem getGates_setPort (s : State) (i : Nat) (v : Port) (j : Nat) : getGates (setPort s i v) j = getGates s j := rfl
@[simp] theorem getGates_setShaper (s : State) (p c : Nat) (v : Shaper) (j : Nat) : getGates (setShaper s p c v) j = getGates s j := rfl
@[simp] theorem getGates_setMeter (s : State) (i : Nat) (v : Meter) (j : Nat) : getGates (setMeter s i v) j = getGates s j := rfl
@[simp] theorem getGates_setChan (s : State) (c : Nat) (v : Chan) (j : Nat) : getGates (setChan s c v) j = getGates s j := rfl
@[simp] theorem getGates_setCtx (s : State) (k : Nat) (v : Ctx) (j : Nat) : getGates (setCtx s k v) j = getGates s j := rfl
@[simp] theorem getGates_setQueue (s : State) (q : Nat) (v : Queue) (j : Nat) : getGates (setQueue s q v) j = getGates s j := rfl
@[simp] theorem getGates_setSlot (s : State) (i : Nat) (v : Slot) (j : Nat) : getGates (setSlot s i v) j = getGates s j := rfl
@[simp] theorem getGates_setRing (s : State) (r : Nat) (v : Ring) (j : Nat) : getGates (setRing s r v) j = getGates s j := rfl
@[simp] theorem getGates_setQ (s : State) (p c : Nat) (v : List QFrame) (j : Nat) : getGates (setQ s p c v) j = getGates s j := rfl
@[simp] theorem getGates_setTx (s : State) (p : Nat) (v : TxLane) (j : Nat) : getGates (setTx s p v) j = getGates s j := rfl
@[simp] theorem getGates_setRx (s : State) (p : Nat) (v : RxLane) (j : Nat) : getGates (setRx s p v) j = getGates s j := rfl
@[simp] theorem getGates_setArray (s : State) (a : Nat) (v : Machine.Array) (j : Nat) : getGates (setArray s a v) j = getGates s j := rfl
@[simp] theorem getGates_setRegion (s : State) (r : Nat) (v : Region) (j : Nat) : getGates (setRegion s r v) j = getGates s j := rfl
@[simp] theorem getGates_advance (t : Nat) (s : State) (j : Nat) : getGates (advance t s) j = getGates s j := rfl
@[simp] theorem getGates_setCnt (s : State) (i j k v : Nat) (j' : Nat) : getGates (setCnt s i j k v) j' = getGates s j' := rfl
@[simp] theorem getGates_bump (i j k w n : Nat) (s : State) (j' : Nat) : getGates (bump i j k w n s) j' = getGates s j' := rfl
@[simp] theorem getGates_bumpMax (i j k v : Nat) (s : State) (j' : Nat) : getGates (bumpMax i j k v s) j' = getGates s j' := rfl
@[simp] theorem getGates_emit (o : Output) (s : State) (j : Nat) : getGates (emit o s) j = getGates s j := rfl
@[simp] theorem getGates_journalEntry (s : State) (j : Nat) : getGates (journalEntry s) j = getGates s j := rfl
@[simp] theorem getGates_commit (s : State) (j : Nat) : getGates (commit s) j = getGates s j := rfl
@[simp] theorem getGates_baseImage (s : State) (j : Nat) : getGates (baseImage s) j = getGates s j := rfl
@[simp] theorem getGates_issue (n : Nat) (s : State) (j : Nat) : getGates (issue n s) j = getGates s j := rfl
@[simp] theorem getGates_closeRec (code obj : Nat) (s : State) (j : Nat) : getGates (closeRec code obj s) j = getGates s j := rfl
@[simp] theorem getGates_writeMem (s : State) (a : Nat) (l : Bytes) (j : Nat) : getGates (writeMem s a l) j = getGates s j := rfl
@[simp] theorem getGates_raiseEv (e : Ev) (s : State) (j : Nat) : getGates (raiseEv e s) j = getGates s j := by simp [getGates]
@[simp] theorem getGates_raise (code obj data : Nat) (s : State) (j : Nat) : getGates (raise code obj data s) j = getGates s j := by simp [getGates]
@[simp] theorem getGates_raiseDone (code cseq st aux data : Nat) (s : State) (j : Nat) : getGates (raiseDone code cseq st aux data s) j = getGates s j := by simp [getGates]
@[simp] theorem getGates_signalVector (k : Nat) (s : State) (j : Nat) : getGates (signalVector k s) j = getGates s j := by simp [getGates]
@[simp] theorem getGates_setCause (k : Nat) (s : State) (j : Nat) : getGates (setCause k s) j = getGates s j := by simp [getGates]
@[simp] theorem getShaper_setLane (s : State) (i : Nat) (v : Lane) (x y : Nat) : getShaper (setLane s i v) x y = getShaper s x y := rfl
@[simp] theorem getShaper_setPort (s : State) (i : Nat) (v : Port) (x y : Nat) : getShaper (setPort s i v) x y = getShaper s x y := rfl
@[simp] theorem getShaper_setGates (s : State) (i : Nat) (v : Gates) (x y : Nat) : getShaper (setGates s i v) x y = getShaper s x y := rfl
@[simp] theorem getShaper_setMeter (s : State) (i : Nat) (v : Meter) (x y : Nat) : getShaper (setMeter s i v) x y = getShaper s x y := rfl
@[simp] theorem getShaper_setChan (s : State) (c : Nat) (v : Chan) (x y : Nat) : getShaper (setChan s c v) x y = getShaper s x y := rfl
@[simp] theorem getShaper_setCtx (s : State) (k : Nat) (v : Ctx) (x y : Nat) : getShaper (setCtx s k v) x y = getShaper s x y := rfl
@[simp] theorem getShaper_setQueue (s : State) (q : Nat) (v : Queue) (x y : Nat) : getShaper (setQueue s q v) x y = getShaper s x y := rfl
@[simp] theorem getShaper_setSlot (s : State) (i : Nat) (v : Slot) (x y : Nat) : getShaper (setSlot s i v) x y = getShaper s x y := rfl
@[simp] theorem getShaper_setRing (s : State) (r : Nat) (v : Ring) (x y : Nat) : getShaper (setRing s r v) x y = getShaper s x y := rfl
@[simp] theorem getShaper_setQ (s : State) (p c : Nat) (v : List QFrame) (x y : Nat) : getShaper (setQ s p c v) x y = getShaper s x y := rfl
@[simp] theorem getShaper_setTx (s : State) (p : Nat) (v : TxLane) (x y : Nat) : getShaper (setTx s p v) x y = getShaper s x y := rfl
@[simp] theorem getShaper_setRx (s : State) (p : Nat) (v : RxLane) (x y : Nat) : getShaper (setRx s p v) x y = getShaper s x y := rfl
@[simp] theorem getShaper_setArray (s : State) (a : Nat) (v : Machine.Array) (x y : Nat) : getShaper (setArray s a v) x y = getShaper s x y := rfl
@[simp] theorem getShaper_setRegion (s : State) (r : Nat) (v : Region) (x y : Nat) : getShaper (setRegion s r v) x y = getShaper s x y := rfl
@[simp] theorem getShaper_advance (t : Nat) (s : State) (x y : Nat) : getShaper (advance t s) x y = getShaper s x y := rfl
@[simp] theorem getShaper_setCnt (s : State) (i j k v : Nat) (x y : Nat) : getShaper (setCnt s i j k v) x y = getShaper s x y := rfl
@[simp] theorem getShaper_bump (i j k w n : Nat) (s : State) (x y : Nat) : getShaper (bump i j k w n s) x y = getShaper s x y := rfl
@[simp] theorem getShaper_bumpMax (i j k v : Nat) (s : State) (x y : Nat) : getShaper (bumpMax i j k v s) x y = getShaper s x y := rfl
@[simp] theorem getShaper_emit (o : Output) (s : State) (x y : Nat) : getShaper (emit o s) x y = getShaper s x y := rfl
@[simp] theorem getShaper_journalEntry (s : State) (x y : Nat) : getShaper (journalEntry s) x y = getShaper s x y := rfl
@[simp] theorem getShaper_commit (s : State) (x y : Nat) : getShaper (commit s) x y = getShaper s x y := rfl
@[simp] theorem getShaper_baseImage (s : State) (x y : Nat) : getShaper (baseImage s) x y = getShaper s x y := rfl
@[simp] theorem getShaper_issue (n : Nat) (s : State) (x y : Nat) : getShaper (issue n s) x y = getShaper s x y := rfl
@[simp] theorem getShaper_closeRec (code obj : Nat) (s : State) (x y : Nat) : getShaper (closeRec code obj s) x y = getShaper s x y := rfl
@[simp] theorem getShaper_writeMem (s : State) (a : Nat) (l : Bytes) (x y : Nat) : getShaper (writeMem s a l) x y = getShaper s x y := rfl
@[simp] theorem getShaper_raiseEv (e : Ev) (s : State) (x y : Nat) : getShaper (raiseEv e s) x y = getShaper s x y := by simp [getShaper]
@[simp] theorem getShaper_raise (code obj data : Nat) (s : State) (x y : Nat) : getShaper (raise code obj data s) x y = getShaper s x y := by simp [getShaper]
@[simp] theorem getShaper_raiseDone (code cseq st aux data : Nat) (s : State) (x y : Nat) : getShaper (raiseDone code cseq st aux data s) x y = getShaper s x y := by simp [getShaper]
@[simp] theorem getShaper_signalVector (k : Nat) (s : State) (x y : Nat) : getShaper (signalVector k s) x y = getShaper s x y := by simp [getShaper]
@[simp] theorem getShaper_setCause (k : Nat) (s : State) (x y : Nat) : getShaper (setCause k s) x y = getShaper s x y := by simp [getShaper]
@[simp] theorem getMeter_setLane (s : State) (i : Nat) (v : Lane) (j : Nat) : getMeter (setLane s i v) j = getMeter s j := rfl
@[simp] theorem getMeter_setPort (s : State) (i : Nat) (v : Port) (j : Nat) : getMeter (setPort s i v) j = getMeter s j := rfl
@[simp] theorem getMeter_setGates (s : State) (i : Nat) (v : Gates) (j : Nat) : getMeter (setGates s i v) j = getMeter s j := rfl
@[simp] theorem getMeter_setShaper (s : State) (p c : Nat) (v : Shaper) (j : Nat) : getMeter (setShaper s p c v) j = getMeter s j := rfl
@[simp] theorem getMeter_setChan (s : State) (c : Nat) (v : Chan) (j : Nat) : getMeter (setChan s c v) j = getMeter s j := rfl
@[simp] theorem getMeter_setCtx (s : State) (k : Nat) (v : Ctx) (j : Nat) : getMeter (setCtx s k v) j = getMeter s j := rfl
@[simp] theorem getMeter_setQueue (s : State) (q : Nat) (v : Queue) (j : Nat) : getMeter (setQueue s q v) j = getMeter s j := rfl
@[simp] theorem getMeter_setSlot (s : State) (i : Nat) (v : Slot) (j : Nat) : getMeter (setSlot s i v) j = getMeter s j := rfl
@[simp] theorem getMeter_setRing (s : State) (r : Nat) (v : Ring) (j : Nat) : getMeter (setRing s r v) j = getMeter s j := rfl
@[simp] theorem getMeter_setQ (s : State) (p c : Nat) (v : List QFrame) (j : Nat) : getMeter (setQ s p c v) j = getMeter s j := rfl
@[simp] theorem getMeter_setTx (s : State) (p : Nat) (v : TxLane) (j : Nat) : getMeter (setTx s p v) j = getMeter s j := rfl
@[simp] theorem getMeter_setRx (s : State) (p : Nat) (v : RxLane) (j : Nat) : getMeter (setRx s p v) j = getMeter s j := rfl
@[simp] theorem getMeter_setArray (s : State) (a : Nat) (v : Machine.Array) (j : Nat) : getMeter (setArray s a v) j = getMeter s j := rfl
@[simp] theorem getMeter_setRegion (s : State) (r : Nat) (v : Region) (j : Nat) : getMeter (setRegion s r v) j = getMeter s j := rfl
@[simp] theorem getMeter_advance (t : Nat) (s : State) (j : Nat) : getMeter (advance t s) j = getMeter s j := rfl
@[simp] theorem getMeter_setCnt (s : State) (i j k v : Nat) (j' : Nat) : getMeter (setCnt s i j k v) j' = getMeter s j' := rfl
@[simp] theorem getMeter_bump (i j k w n : Nat) (s : State) (j' : Nat) : getMeter (bump i j k w n s) j' = getMeter s j' := rfl
@[simp] theorem getMeter_bumpMax (i j k v : Nat) (s : State) (j' : Nat) : getMeter (bumpMax i j k v s) j' = getMeter s j' := rfl
@[simp] theorem getMeter_emit (o : Output) (s : State) (j : Nat) : getMeter (emit o s) j = getMeter s j := rfl
@[simp] theorem getMeter_journalEntry (s : State) (j : Nat) : getMeter (journalEntry s) j = getMeter s j := rfl
@[simp] theorem getMeter_commit (s : State) (j : Nat) : getMeter (commit s) j = getMeter s j := rfl
@[simp] theorem getMeter_baseImage (s : State) (j : Nat) : getMeter (baseImage s) j = getMeter s j := rfl
@[simp] theorem getMeter_issue (n : Nat) (s : State) (j : Nat) : getMeter (issue n s) j = getMeter s j := rfl
@[simp] theorem getMeter_closeRec (code obj : Nat) (s : State) (j : Nat) : getMeter (closeRec code obj s) j = getMeter s j := rfl
@[simp] theorem getMeter_writeMem (s : State) (a : Nat) (l : Bytes) (j : Nat) : getMeter (writeMem s a l) j = getMeter s j := rfl
@[simp] theorem getMeter_raiseEv (e : Ev) (s : State) (j : Nat) : getMeter (raiseEv e s) j = getMeter s j := by simp [getMeter]
@[simp] theorem getMeter_raise (code obj data : Nat) (s : State) (j : Nat) : getMeter (raise code obj data s) j = getMeter s j := by simp [getMeter]
@[simp] theorem getMeter_raiseDone (code cseq st aux data : Nat) (s : State) (j : Nat) : getMeter (raiseDone code cseq st aux data s) j = getMeter s j := by simp [getMeter]
@[simp] theorem getMeter_signalVector (k : Nat) (s : State) (j : Nat) : getMeter (signalVector k s) j = getMeter s j := by simp [getMeter]
@[simp] theorem getMeter_setCause (k : Nat) (s : State) (j : Nat) : getMeter (setCause k s) j = getMeter s j := by simp [getMeter]
@[simp] theorem getChan_setLane (s : State) (i : Nat) (v : Lane) (j : Nat) : getChan (setLane s i v) j = getChan s j := rfl
@[simp] theorem getChan_setPort (s : State) (i : Nat) (v : Port) (j : Nat) : getChan (setPort s i v) j = getChan s j := rfl
@[simp] theorem getChan_setGates (s : State) (i : Nat) (v : Gates) (j : Nat) : getChan (setGates s i v) j = getChan s j := rfl
@[simp] theorem getChan_setShaper (s : State) (p c : Nat) (v : Shaper) (j : Nat) : getChan (setShaper s p c v) j = getChan s j := rfl
@[simp] theorem getChan_setMeter (s : State) (i : Nat) (v : Meter) (j : Nat) : getChan (setMeter s i v) j = getChan s j := rfl
@[simp] theorem getChan_setCtx (s : State) (k : Nat) (v : Ctx) (j : Nat) : getChan (setCtx s k v) j = getChan s j := rfl
@[simp] theorem getChan_setQueue (s : State) (q : Nat) (v : Queue) (j : Nat) : getChan (setQueue s q v) j = getChan s j := rfl
@[simp] theorem getChan_setSlot (s : State) (i : Nat) (v : Slot) (j : Nat) : getChan (setSlot s i v) j = getChan s j := rfl
@[simp] theorem getChan_setRing (s : State) (r : Nat) (v : Ring) (j : Nat) : getChan (setRing s r v) j = getChan s j := rfl
@[simp] theorem getChan_setQ (s : State) (p c : Nat) (v : List QFrame) (j : Nat) : getChan (setQ s p c v) j = getChan s j := rfl
@[simp] theorem getChan_setTx (s : State) (p : Nat) (v : TxLane) (j : Nat) : getChan (setTx s p v) j = getChan s j := rfl
@[simp] theorem getChan_setRx (s : State) (p : Nat) (v : RxLane) (j : Nat) : getChan (setRx s p v) j = getChan s j := rfl
@[simp] theorem getChan_setArray (s : State) (a : Nat) (v : Machine.Array) (j : Nat) : getChan (setArray s a v) j = getChan s j := rfl
@[simp] theorem getChan_setRegion (s : State) (r : Nat) (v : Region) (j : Nat) : getChan (setRegion s r v) j = getChan s j := rfl
@[simp] theorem getChan_advance (t : Nat) (s : State) (j : Nat) : getChan (advance t s) j = getChan s j := rfl
@[simp] theorem getChan_setCnt (s : State) (i j k v : Nat) (j' : Nat) : getChan (setCnt s i j k v) j' = getChan s j' := rfl
@[simp] theorem getChan_bump (i j k w n : Nat) (s : State) (j' : Nat) : getChan (bump i j k w n s) j' = getChan s j' := rfl
@[simp] theorem getChan_bumpMax (i j k v : Nat) (s : State) (j' : Nat) : getChan (bumpMax i j k v s) j' = getChan s j' := rfl
@[simp] theorem getChan_emit (o : Output) (s : State) (j : Nat) : getChan (emit o s) j = getChan s j := rfl
@[simp] theorem getChan_journalEntry (s : State) (j : Nat) : getChan (journalEntry s) j = getChan s j := rfl
@[simp] theorem getChan_commit (s : State) (j : Nat) : getChan (commit s) j = getChan s j := rfl
@[simp] theorem getChan_baseImage (s : State) (j : Nat) : getChan (baseImage s) j = getChan s j := rfl
@[simp] theorem getChan_issue (n : Nat) (s : State) (j : Nat) : getChan (issue n s) j = getChan s j := rfl
@[simp] theorem getChan_closeRec (code obj : Nat) (s : State) (j : Nat) : getChan (closeRec code obj s) j = getChan s j := rfl
@[simp] theorem getChan_writeMem (s : State) (a : Nat) (l : Bytes) (j : Nat) : getChan (writeMem s a l) j = getChan s j := rfl
@[simp] theorem getChan_raiseEv (e : Ev) (s : State) (j : Nat) : getChan (raiseEv e s) j = getChan s j := by simp [getChan]
@[simp] theorem getChan_raise (code obj data : Nat) (s : State) (j : Nat) : getChan (raise code obj data s) j = getChan s j := by simp [getChan]
@[simp] theorem getChan_raiseDone (code cseq st aux data : Nat) (s : State) (j : Nat) : getChan (raiseDone code cseq st aux data s) j = getChan s j := by simp [getChan]
@[simp] theorem getChan_signalVector (k : Nat) (s : State) (j : Nat) : getChan (signalVector k s) j = getChan s j := by simp [getChan]
@[simp] theorem getChan_setCause (k : Nat) (s : State) (j : Nat) : getChan (setCause k s) j = getChan s j := by simp [getChan]
@[simp] theorem getCtx_setLane (s : State) (i : Nat) (v : Lane) (j : Nat) : getCtx (setLane s i v) j = getCtx s j := rfl
@[simp] theorem getCtx_setPort (s : State) (i : Nat) (v : Port) (j : Nat) : getCtx (setPort s i v) j = getCtx s j := rfl
@[simp] theorem getCtx_setGates (s : State) (i : Nat) (v : Gates) (j : Nat) : getCtx (setGates s i v) j = getCtx s j := rfl
@[simp] theorem getCtx_setShaper (s : State) (p c : Nat) (v : Shaper) (j : Nat) : getCtx (setShaper s p c v) j = getCtx s j := rfl
@[simp] theorem getCtx_setMeter (s : State) (i : Nat) (v : Meter) (j : Nat) : getCtx (setMeter s i v) j = getCtx s j := rfl
@[simp] theorem getCtx_setChan (s : State) (c : Nat) (v : Chan) (j : Nat) : getCtx (setChan s c v) j = getCtx s j := rfl
@[simp] theorem getCtx_setQueue (s : State) (q : Nat) (v : Queue) (j : Nat) : getCtx (setQueue s q v) j = getCtx s j := rfl
@[simp] theorem getCtx_setSlot (s : State) (i : Nat) (v : Slot) (j : Nat) : getCtx (setSlot s i v) j = getCtx s j := rfl
@[simp] theorem getCtx_setRing (s : State) (r : Nat) (v : Ring) (j : Nat) : getCtx (setRing s r v) j = getCtx s j := rfl
@[simp] theorem getCtx_setQ (s : State) (p c : Nat) (v : List QFrame) (j : Nat) : getCtx (setQ s p c v) j = getCtx s j := rfl
@[simp] theorem getCtx_setTx (s : State) (p : Nat) (v : TxLane) (j : Nat) : getCtx (setTx s p v) j = getCtx s j := rfl
@[simp] theorem getCtx_setRx (s : State) (p : Nat) (v : RxLane) (j : Nat) : getCtx (setRx s p v) j = getCtx s j := rfl
@[simp] theorem getCtx_setArray (s : State) (a : Nat) (v : Machine.Array) (j : Nat) : getCtx (setArray s a v) j = getCtx s j := rfl
@[simp] theorem getCtx_setRegion (s : State) (r : Nat) (v : Region) (j : Nat) : getCtx (setRegion s r v) j = getCtx s j := rfl
@[simp] theorem getCtx_advance (t : Nat) (s : State) (j : Nat) : getCtx (advance t s) j = getCtx s j := rfl
@[simp] theorem getCtx_setCnt (s : State) (i j k v : Nat) (j' : Nat) : getCtx (setCnt s i j k v) j' = getCtx s j' := rfl
@[simp] theorem getCtx_bump (i j k w n : Nat) (s : State) (j' : Nat) : getCtx (bump i j k w n s) j' = getCtx s j' := rfl
@[simp] theorem getCtx_bumpMax (i j k v : Nat) (s : State) (j' : Nat) : getCtx (bumpMax i j k v s) j' = getCtx s j' := rfl
@[simp] theorem getCtx_emit (o : Output) (s : State) (j : Nat) : getCtx (emit o s) j = getCtx s j := rfl
@[simp] theorem getCtx_journalEntry (s : State) (j : Nat) : getCtx (journalEntry s) j = getCtx s j := rfl
@[simp] theorem getCtx_commit (s : State) (j : Nat) : getCtx (commit s) j = getCtx s j := rfl
@[simp] theorem getCtx_baseImage (s : State) (j : Nat) : getCtx (baseImage s) j = getCtx s j := rfl
@[simp] theorem getCtx_closeRec (code obj : Nat) (s : State) (j : Nat) : getCtx (closeRec code obj s) j = getCtx s j := rfl
@[simp] theorem getCtx_writeMem (s : State) (a : Nat) (l : Bytes) (j : Nat) : getCtx (writeMem s a l) j = getCtx s j := rfl
@[simp] theorem getCtx_raiseEv (e : Ev) (s : State) (j : Nat) : getCtx (raiseEv e s) j = getCtx s j := by simp [getCtx]
@[simp] theorem getCtx_raise (code obj data : Nat) (s : State) (j : Nat) : getCtx (raise code obj data s) j = getCtx s j := by simp [getCtx]
@[simp] theorem getCtx_raiseDone (code cseq st aux data : Nat) (s : State) (j : Nat) : getCtx (raiseDone code cseq st aux data s) j = getCtx s j := by simp [getCtx]
@[simp] theorem getCtx_signalVector (k : Nat) (s : State) (j : Nat) : getCtx (signalVector k s) j = getCtx s j := by simp [getCtx]
@[simp] theorem getCtx_setCause (k : Nat) (s : State) (j : Nat) : getCtx (setCause k s) j = getCtx s j := by simp [getCtx]
@[simp] theorem getQueue_setLane (s : State) (i : Nat) (v : Lane) (j : Nat) : getQueue (setLane s i v) j = getQueue s j := rfl
@[simp] theorem getQueue_setPort (s : State) (i : Nat) (v : Port) (j : Nat) : getQueue (setPort s i v) j = getQueue s j := rfl
@[simp] theorem getQueue_setGates (s : State) (i : Nat) (v : Gates) (j : Nat) : getQueue (setGates s i v) j = getQueue s j := rfl
@[simp] theorem getQueue_setShaper (s : State) (p c : Nat) (v : Shaper) (j : Nat) : getQueue (setShaper s p c v) j = getQueue s j := rfl
@[simp] theorem getQueue_setMeter (s : State) (i : Nat) (v : Meter) (j : Nat) : getQueue (setMeter s i v) j = getQueue s j := rfl
@[simp] theorem getQueue_setChan (s : State) (c : Nat) (v : Chan) (j : Nat) : getQueue (setChan s c v) j = getQueue s j := rfl
@[simp] theorem getQueue_setCtx (s : State) (k : Nat) (v : Ctx) (j : Nat) : getQueue (setCtx s k v) j = getQueue s j := rfl
@[simp] theorem getQueue_setSlot (s : State) (i : Nat) (v : Slot) (j : Nat) : getQueue (setSlot s i v) j = getQueue s j := rfl
@[simp] theorem getQueue_setRing (s : State) (r : Nat) (v : Ring) (j : Nat) : getQueue (setRing s r v) j = getQueue s j := rfl
@[simp] theorem getQueue_setQ (s : State) (p c : Nat) (v : List QFrame) (j : Nat) : getQueue (setQ s p c v) j = getQueue s j := rfl
@[simp] theorem getQueue_setTx (s : State) (p : Nat) (v : TxLane) (j : Nat) : getQueue (setTx s p v) j = getQueue s j := rfl
@[simp] theorem getQueue_setRx (s : State) (p : Nat) (v : RxLane) (j : Nat) : getQueue (setRx s p v) j = getQueue s j := rfl
@[simp] theorem getQueue_setArray (s : State) (a : Nat) (v : Machine.Array) (j : Nat) : getQueue (setArray s a v) j = getQueue s j := rfl
@[simp] theorem getQueue_setRegion (s : State) (r : Nat) (v : Region) (j : Nat) : getQueue (setRegion s r v) j = getQueue s j := rfl
@[simp] theorem getQueue_advance (t : Nat) (s : State) (j : Nat) : getQueue (advance t s) j = getQueue s j := rfl
@[simp] theorem getQueue_setCnt (s : State) (i j k v : Nat) (j' : Nat) : getQueue (setCnt s i j k v) j' = getQueue s j' := rfl
@[simp] theorem getQueue_bump (i j k w n : Nat) (s : State) (j' : Nat) : getQueue (bump i j k w n s) j' = getQueue s j' := rfl
@[simp] theorem getQueue_bumpMax (i j k v : Nat) (s : State) (j' : Nat) : getQueue (bumpMax i j k v s) j' = getQueue s j' := rfl
@[simp] theorem getQueue_emit (o : Output) (s : State) (j : Nat) : getQueue (emit o s) j = getQueue s j := rfl
@[simp] theorem getQueue_journalEntry (s : State) (j : Nat) : getQueue (journalEntry s) j = getQueue s j := rfl
@[simp] theorem getQueue_commit (s : State) (j : Nat) : getQueue (commit s) j = getQueue s j := rfl
@[simp] theorem getQueue_baseImage (s : State) (j : Nat) : getQueue (baseImage s) j = getQueue s j := rfl
@[simp] theorem getQueue_closeRec (code obj : Nat) (s : State) (j : Nat) : getQueue (closeRec code obj s) j = getQueue s j := rfl
@[simp] theorem getQueue_writeMem (s : State) (a : Nat) (l : Bytes) (j : Nat) : getQueue (writeMem s a l) j = getQueue s j := rfl
@[simp] theorem getQueue_raiseEv (e : Ev) (s : State) (j : Nat) : getQueue (raiseEv e s) j = getQueue s j := by simp [getQueue]
@[simp] theorem getQueue_raise (code obj data : Nat) (s : State) (j : Nat) : getQueue (raise code obj data s) j = getQueue s j := by simp [getQueue]
@[simp] theorem getQueue_raiseDone (code cseq st aux data : Nat) (s : State) (j : Nat) : getQueue (raiseDone code cseq st aux data s) j = getQueue s j := by simp [getQueue]
@[simp] theorem getQueue_signalVector (k : Nat) (s : State) (j : Nat) : getQueue (signalVector k s) j = getQueue s j := by simp [getQueue]
@[simp] theorem getQueue_setCause (k : Nat) (s : State) (j : Nat) : getQueue (setCause k s) j = getQueue s j := by simp [getQueue]
@[simp] theorem getSlot_setLane (s : State) (i : Nat) (v : Lane) (j : Nat) : getSlot (setLane s i v) j = getSlot s j := rfl
@[simp] theorem getSlot_setPort (s : State) (i : Nat) (v : Port) (j : Nat) : getSlot (setPort s i v) j = getSlot s j := rfl
@[simp] theorem getSlot_setGates (s : State) (i : Nat) (v : Gates) (j : Nat) : getSlot (setGates s i v) j = getSlot s j := rfl
@[simp] theorem getSlot_setShaper (s : State) (p c : Nat) (v : Shaper) (j : Nat) : getSlot (setShaper s p c v) j = getSlot s j := rfl
@[simp] theorem getSlot_setMeter (s : State) (i : Nat) (v : Meter) (j : Nat) : getSlot (setMeter s i v) j = getSlot s j := rfl
@[simp] theorem getSlot_setChan (s : State) (c : Nat) (v : Chan) (j : Nat) : getSlot (setChan s c v) j = getSlot s j := rfl
@[simp] theorem getSlot_setCtx (s : State) (k : Nat) (v : Ctx) (j : Nat) : getSlot (setCtx s k v) j = getSlot s j := rfl
@[simp] theorem getSlot_setQueue (s : State) (q : Nat) (v : Queue) (j : Nat) : getSlot (setQueue s q v) j = getSlot s j := rfl
@[simp] theorem getSlot_setRing (s : State) (r : Nat) (v : Ring) (j : Nat) : getSlot (setRing s r v) j = getSlot s j := rfl
@[simp] theorem getSlot_setQ (s : State) (p c : Nat) (v : List QFrame) (j : Nat) : getSlot (setQ s p c v) j = getSlot s j := rfl
@[simp] theorem getSlot_setTx (s : State) (p : Nat) (v : TxLane) (j : Nat) : getSlot (setTx s p v) j = getSlot s j := rfl
@[simp] theorem getSlot_setRx (s : State) (p : Nat) (v : RxLane) (j : Nat) : getSlot (setRx s p v) j = getSlot s j := rfl
@[simp] theorem getSlot_setArray (s : State) (a : Nat) (v : Machine.Array) (j : Nat) : getSlot (setArray s a v) j = getSlot s j := rfl
@[simp] theorem getSlot_setRegion (s : State) (r : Nat) (v : Region) (j : Nat) : getSlot (setRegion s r v) j = getSlot s j := rfl
@[simp] theorem getSlot_advance (t : Nat) (s : State) (j : Nat) : getSlot (advance t s) j = getSlot s j := rfl
@[simp] theorem getSlot_setCnt (s : State) (i j k v : Nat) (j' : Nat) : getSlot (setCnt s i j k v) j' = getSlot s j' := rfl
@[simp] theorem getSlot_bump (i j k w n : Nat) (s : State) (j' : Nat) : getSlot (bump i j k w n s) j' = getSlot s j' := rfl
@[simp] theorem getSlot_bumpMax (i j k v : Nat) (s : State) (j' : Nat) : getSlot (bumpMax i j k v s) j' = getSlot s j' := rfl
@[simp] theorem getSlot_emit (o : Output) (s : State) (j : Nat) : getSlot (emit o s) j = getSlot s j := rfl
@[simp] theorem getSlot_journalEntry (s : State) (j : Nat) : getSlot (journalEntry s) j = getSlot s j := rfl
@[simp] theorem getSlot_commit (s : State) (j : Nat) : getSlot (commit s) j = getSlot s j := rfl
@[simp] theorem getSlot_baseImage (s : State) (j : Nat) : getSlot (baseImage s) j = getSlot s j := rfl
@[simp] theorem getSlot_issue (n : Nat) (s : State) (j : Nat) : getSlot (issue n s) j = getSlot s j := rfl
@[simp] theorem getSlot_closeRec (code obj : Nat) (s : State) (j : Nat) : getSlot (closeRec code obj s) j = getSlot s j := rfl
@[simp] theorem getSlot_writeMem (s : State) (a : Nat) (l : Bytes) (j : Nat) : getSlot (writeMem s a l) j = getSlot s j := rfl
@[simp] theorem getSlot_raiseEv (e : Ev) (s : State) (j : Nat) : getSlot (raiseEv e s) j = getSlot s j := by simp [getSlot]
@[simp] theorem getSlot_raise (code obj data : Nat) (s : State) (j : Nat) : getSlot (raise code obj data s) j = getSlot s j := by simp [getSlot]
@[simp] theorem getSlot_raiseDone (code cseq st aux data : Nat) (s : State) (j : Nat) : getSlot (raiseDone code cseq st aux data s) j = getSlot s j := by simp [getSlot]
@[simp] theorem getSlot_signalVector (k : Nat) (s : State) (j : Nat) : getSlot (signalVector k s) j = getSlot s j := by simp [getSlot]
@[simp] theorem getSlot_setCause (k : Nat) (s : State) (j : Nat) : getSlot (setCause k s) j = getSlot s j := by simp [getSlot]
@[simp] theorem getRing_setLane (s : State) (i : Nat) (v : Lane) (j : Nat) : getRing (setLane s i v) j = getRing s j := rfl
@[simp] theorem getRing_setPort (s : State) (i : Nat) (v : Port) (j : Nat) : getRing (setPort s i v) j = getRing s j := rfl
@[simp] theorem getRing_setGates (s : State) (i : Nat) (v : Gates) (j : Nat) : getRing (setGates s i v) j = getRing s j := rfl
@[simp] theorem getRing_setShaper (s : State) (p c : Nat) (v : Shaper) (j : Nat) : getRing (setShaper s p c v) j = getRing s j := rfl
@[simp] theorem getRing_setMeter (s : State) (i : Nat) (v : Meter) (j : Nat) : getRing (setMeter s i v) j = getRing s j := rfl
@[simp] theorem getRing_setChan (s : State) (c : Nat) (v : Chan) (j : Nat) : getRing (setChan s c v) j = getRing s j := rfl
@[simp] theorem getRing_setCtx (s : State) (k : Nat) (v : Ctx) (j : Nat) : getRing (setCtx s k v) j = getRing s j := rfl
@[simp] theorem getRing_setQueue (s : State) (q : Nat) (v : Queue) (j : Nat) : getRing (setQueue s q v) j = getRing s j := rfl
@[simp] theorem getRing_setSlot (s : State) (i : Nat) (v : Slot) (j : Nat) : getRing (setSlot s i v) j = getRing s j := rfl
@[simp] theorem getRing_setQ (s : State) (p c : Nat) (v : List QFrame) (j : Nat) : getRing (setQ s p c v) j = getRing s j := rfl
@[simp] theorem getRing_setTx (s : State) (p : Nat) (v : TxLane) (j : Nat) : getRing (setTx s p v) j = getRing s j := rfl
@[simp] theorem getRing_setRx (s : State) (p : Nat) (v : RxLane) (j : Nat) : getRing (setRx s p v) j = getRing s j := rfl
@[simp] theorem getRing_setArray (s : State) (a : Nat) (v : Machine.Array) (j : Nat) : getRing (setArray s a v) j = getRing s j := rfl
@[simp] theorem getRing_setRegion (s : State) (r : Nat) (v : Region) (j : Nat) : getRing (setRegion s r v) j = getRing s j := rfl
@[simp] theorem getRing_advance (t : Nat) (s : State) (j : Nat) : getRing (advance t s) j = getRing s j := rfl
@[simp] theorem getRing_setCnt (s : State) (i j k v : Nat) (j' : Nat) : getRing (setCnt s i j k v) j' = getRing s j' := rfl
@[simp] theorem getRing_bump (i j k w n : Nat) (s : State) (j' : Nat) : getRing (bump i j k w n s) j' = getRing s j' := rfl
@[simp] theorem getRing_bumpMax (i j k v : Nat) (s : State) (j' : Nat) : getRing (bumpMax i j k v s) j' = getRing s j' := rfl
@[simp] theorem getRing_emit (o : Output) (s : State) (j : Nat) : getRing (emit o s) j = getRing s j := rfl
@[simp] theorem getRing_journalEntry (s : State) (j : Nat) : getRing (journalEntry s) j = getRing s j := rfl
@[simp] theorem getRing_commit (s : State) (j : Nat) : getRing (commit s) j = getRing s j := rfl
@[simp] theorem getRing_baseImage (s : State) (j : Nat) : getRing (baseImage s) j = getRing s j := rfl
@[simp] theorem getRing_issue (n : Nat) (s : State) (j : Nat) : getRing (issue n s) j = getRing s j := rfl
@[simp] theorem getRing_closeRec (code obj : Nat) (s : State) (j : Nat) : getRing (closeRec code obj s) j = getRing s j := rfl
@[simp] theorem getRing_writeMem (s : State) (a : Nat) (l : Bytes) (j : Nat) : getRing (writeMem s a l) j = getRing s j := rfl
@[simp] theorem getRing_raiseEv (e : Ev) (s : State) (j : Nat) : getRing (raiseEv e s) j = getRing s j := by simp [getRing]
@[simp] theorem getRing_raise (code obj data : Nat) (s : State) (j : Nat) : getRing (raise code obj data s) j = getRing s j := by simp [getRing]
@[simp] theorem getRing_raiseDone (code cseq st aux data : Nat) (s : State) (j : Nat) : getRing (raiseDone code cseq st aux data s) j = getRing s j := by simp [getRing]
@[simp] theorem getQ_setLane (s : State) (i : Nat) (v : Lane) (x y : Nat) : getQ (setLane s i v) x y = getQ s x y := rfl
@[simp] theorem getQ_setPort (s : State) (i : Nat) (v : Port) (x y : Nat) : getQ (setPort s i v) x y = getQ s x y := rfl
@[simp] theorem getQ_setGates (s : State) (i : Nat) (v : Gates) (x y : Nat) : getQ (setGates s i v) x y = getQ s x y := rfl
@[simp] theorem getQ_setShaper (s : State) (p c : Nat) (v : Shaper) (x y : Nat) : getQ (setShaper s p c v) x y = getQ s x y := rfl
@[simp] theorem getQ_setMeter (s : State) (i : Nat) (v : Meter) (x y : Nat) : getQ (setMeter s i v) x y = getQ s x y := rfl
@[simp] theorem getQ_setChan (s : State) (c : Nat) (v : Chan) (x y : Nat) : getQ (setChan s c v) x y = getQ s x y := rfl
@[simp] theorem getQ_setCtx (s : State) (k : Nat) (v : Ctx) (x y : Nat) : getQ (setCtx s k v) x y = getQ s x y := rfl
@[simp] theorem getQ_setQueue (s : State) (q : Nat) (v : Queue) (x y : Nat) : getQ (setQueue s q v) x y = getQ s x y := rfl
@[simp] theorem getQ_setSlot (s : State) (i : Nat) (v : Slot) (x y : Nat) : getQ (setSlot s i v) x y = getQ s x y := rfl
@[simp] theorem getQ_setRing (s : State) (r : Nat) (v : Ring) (x y : Nat) : getQ (setRing s r v) x y = getQ s x y := rfl
@[simp] theorem getQ_setTx (s : State) (p : Nat) (v : TxLane) (x y : Nat) : getQ (setTx s p v) x y = getQ s x y := rfl
@[simp] theorem getQ_setRx (s : State) (p : Nat) (v : RxLane) (x y : Nat) : getQ (setRx s p v) x y = getQ s x y := rfl
@[simp] theorem getQ_setArray (s : State) (a : Nat) (v : Machine.Array) (x y : Nat) : getQ (setArray s a v) x y = getQ s x y := rfl
@[simp] theorem getQ_setRegion (s : State) (r : Nat) (v : Region) (x y : Nat) : getQ (setRegion s r v) x y = getQ s x y := rfl
@[simp] theorem getQ_advance (t : Nat) (s : State) (x y : Nat) : getQ (advance t s) x y = getQ s x y := rfl
@[simp] theorem getQ_setCnt (s : State) (i j k v : Nat) (x y : Nat) : getQ (setCnt s i j k v) x y = getQ s x y := rfl
@[simp] theorem getQ_bump (i j k w n : Nat) (s : State) (x y : Nat) : getQ (bump i j k w n s) x y = getQ s x y := rfl
@[simp] theorem getQ_bumpMax (i j k v : Nat) (s : State) (x y : Nat) : getQ (bumpMax i j k v s) x y = getQ s x y := rfl
@[simp] theorem getQ_emit (o : Output) (s : State) (x y : Nat) : getQ (emit o s) x y = getQ s x y := rfl
@[simp] theorem getQ_journalEntry (s : State) (x y : Nat) : getQ (journalEntry s) x y = getQ s x y := rfl
@[simp] theorem getQ_commit (s : State) (x y : Nat) : getQ (commit s) x y = getQ s x y := rfl
@[simp] theorem getQ_baseImage (s : State) (x y : Nat) : getQ (baseImage s) x y = getQ s x y := rfl
@[simp] theorem getQ_issue (n : Nat) (s : State) (x y : Nat) : getQ (issue n s) x y = getQ s x y := rfl
@[simp] theorem getQ_closeRec (code obj : Nat) (s : State) (x y : Nat) : getQ (closeRec code obj s) x y = getQ s x y := rfl
@[simp] theorem getQ_writeMem (s : State) (a : Nat) (l : Bytes) (x y : Nat) : getQ (writeMem s a l) x y = getQ s x y := rfl
@[simp] theorem getQ_raiseEv (e : Ev) (s : State) (x y : Nat) : getQ (raiseEv e s) x y = getQ s x y := by simp [getQ]
@[simp] theorem getQ_raise (code obj data : Nat) (s : State) (x y : Nat) : getQ (raise code obj data s) x y = getQ s x y := by simp [getQ]
@[simp] theorem getQ_raiseDone (code cseq st aux data : Nat) (s : State) (x y : Nat) : getQ (raiseDone code cseq st aux data s) x y = getQ s x y := by simp [getQ]
@[simp] theorem getQ_signalVector (k : Nat) (s : State) (x y : Nat) : getQ (signalVector k s) x y = getQ s x y := by simp [getQ]
@[simp] theorem getQ_setCause (k : Nat) (s : State) (x y : Nat) : getQ (setCause k s) x y = getQ s x y := by simp [getQ]
@[simp] theorem getTx_setLane (s : State) (i : Nat) (v : Lane) (j : Nat) : getTx (setLane s i v) j = getTx s j := rfl
@[simp] theorem getTx_setPort (s : State) (i : Nat) (v : Port) (j : Nat) : getTx (setPort s i v) j = getTx s j := rfl
@[simp] theorem getTx_setGates (s : State) (i : Nat) (v : Gates) (j : Nat) : getTx (setGates s i v) j = getTx s j := rfl
@[simp] theorem getTx_setShaper (s : State) (p c : Nat) (v : Shaper) (j : Nat) : getTx (setShaper s p c v) j = getTx s j := rfl
@[simp] theorem getTx_setMeter (s : State) (i : Nat) (v : Meter) (j : Nat) : getTx (setMeter s i v) j = getTx s j := rfl
@[simp] theorem getTx_setChan (s : State) (c : Nat) (v : Chan) (j : Nat) : getTx (setChan s c v) j = getTx s j := rfl
@[simp] theorem getTx_setCtx (s : State) (k : Nat) (v : Ctx) (j : Nat) : getTx (setCtx s k v) j = getTx s j := rfl
@[simp] theorem getTx_setQueue (s : State) (q : Nat) (v : Queue) (j : Nat) : getTx (setQueue s q v) j = getTx s j := rfl
@[simp] theorem getTx_setSlot (s : State) (i : Nat) (v : Slot) (j : Nat) : getTx (setSlot s i v) j = getTx s j := rfl
@[simp] theorem getTx_setRing (s : State) (r : Nat) (v : Ring) (j : Nat) : getTx (setRing s r v) j = getTx s j := rfl
@[simp] theorem getTx_setQ (s : State) (p c : Nat) (v : List QFrame) (j : Nat) : getTx (setQ s p c v) j = getTx s j := rfl
@[simp] theorem getTx_setRx (s : State) (p : Nat) (v : RxLane) (j : Nat) : getTx (setRx s p v) j = getTx s j := rfl
@[simp] theorem getTx_setArray (s : State) (a : Nat) (v : Machine.Array) (j : Nat) : getTx (setArray s a v) j = getTx s j := rfl
@[simp] theorem getTx_setRegion (s : State) (r : Nat) (v : Region) (j : Nat) : getTx (setRegion s r v) j = getTx s j := rfl
@[simp] theorem getTx_advance (t : Nat) (s : State) (j : Nat) : getTx (advance t s) j = getTx s j := rfl
@[simp] theorem getTx_setCnt (s : State) (i j k v : Nat) (j' : Nat) : getTx (setCnt s i j k v) j' = getTx s j' := rfl
@[simp] theorem getTx_bump (i j k w n : Nat) (s : State) (j' : Nat) : getTx (bump i j k w n s) j' = getTx s j' := rfl
@[simp] theorem getTx_bumpMax (i j k v : Nat) (s : State) (j' : Nat) : getTx (bumpMax i j k v s) j' = getTx s j' := rfl
@[simp] theorem getTx_emit (o : Output) (s : State) (j : Nat) : getTx (emit o s) j = getTx s j := rfl
@[simp] theorem getTx_journalEntry (s : State) (j : Nat) : getTx (journalEntry s) j = getTx s j := rfl
@[simp] theorem getTx_commit (s : State) (j : Nat) : getTx (commit s) j = getTx s j := rfl
@[simp] theorem getTx_baseImage (s : State) (j : Nat) : getTx (baseImage s) j = getTx s j := rfl
@[simp] theorem getTx_issue (n : Nat) (s : State) (j : Nat) : getTx (issue n s) j = getTx s j := rfl
@[simp] theorem getTx_closeRec (code obj : Nat) (s : State) (j : Nat) : getTx (closeRec code obj s) j = getTx s j := rfl
@[simp] theorem getTx_writeMem (s : State) (a : Nat) (l : Bytes) (j : Nat) : getTx (writeMem s a l) j = getTx s j := rfl
@[simp] theorem getTx_raiseEv (e : Ev) (s : State) (j : Nat) : getTx (raiseEv e s) j = getTx s j := by simp [getTx]
@[simp] theorem getTx_raise (code obj data : Nat) (s : State) (j : Nat) : getTx (raise code obj data s) j = getTx s j := by simp [getTx]
@[simp] theorem getTx_raiseDone (code cseq st aux data : Nat) (s : State) (j : Nat) : getTx (raiseDone code cseq st aux data s) j = getTx s j := by simp [getTx]
@[simp] theorem getTx_signalVector (k : Nat) (s : State) (j : Nat) : getTx (signalVector k s) j = getTx s j := by simp [getTx]
@[simp] theorem getTx_setCause (k : Nat) (s : State) (j : Nat) : getTx (setCause k s) j = getTx s j := by simp [getTx]
@[simp] theorem getRx_setLane (s : State) (i : Nat) (v : Lane) (j : Nat) : getRx (setLane s i v) j = getRx s j := rfl
@[simp] theorem getRx_setPort (s : State) (i : Nat) (v : Port) (j : Nat) : getRx (setPort s i v) j = getRx s j := rfl
@[simp] theorem getRx_setGates (s : State) (i : Nat) (v : Gates) (j : Nat) : getRx (setGates s i v) j = getRx s j := rfl
@[simp] theorem getRx_setShaper (s : State) (p c : Nat) (v : Shaper) (j : Nat) : getRx (setShaper s p c v) j = getRx s j := rfl
@[simp] theorem getRx_setMeter (s : State) (i : Nat) (v : Meter) (j : Nat) : getRx (setMeter s i v) j = getRx s j := rfl
@[simp] theorem getRx_setChan (s : State) (c : Nat) (v : Chan) (j : Nat) : getRx (setChan s c v) j = getRx s j := rfl
@[simp] theorem getRx_setCtx (s : State) (k : Nat) (v : Ctx) (j : Nat) : getRx (setCtx s k v) j = getRx s j := rfl
@[simp] theorem getRx_setQueue (s : State) (q : Nat) (v : Queue) (j : Nat) : getRx (setQueue s q v) j = getRx s j := rfl
@[simp] theorem getRx_setSlot (s : State) (i : Nat) (v : Slot) (j : Nat) : getRx (setSlot s i v) j = getRx s j := rfl
@[simp] theorem getRx_setRing (s : State) (r : Nat) (v : Ring) (j : Nat) : getRx (setRing s r v) j = getRx s j := rfl
@[simp] theorem getRx_setQ (s : State) (p c : Nat) (v : List QFrame) (j : Nat) : getRx (setQ s p c v) j = getRx s j := rfl
@[simp] theorem getRx_setTx (s : State) (p : Nat) (v : TxLane) (j : Nat) : getRx (setTx s p v) j = getRx s j := rfl
@[simp] theorem getRx_setArray (s : State) (a : Nat) (v : Machine.Array) (j : Nat) : getRx (setArray s a v) j = getRx s j := rfl
@[simp] theorem getRx_setRegion (s : State) (r : Nat) (v : Region) (j : Nat) : getRx (setRegion s r v) j = getRx s j := rfl
@[simp] theorem getRx_advance (t : Nat) (s : State) (j : Nat) : getRx (advance t s) j = getRx s j := rfl
@[simp] theorem getRx_setCnt (s : State) (i j k v : Nat) (j' : Nat) : getRx (setCnt s i j k v) j' = getRx s j' := rfl
@[simp] theorem getRx_bump (i j k w n : Nat) (s : State) (j' : Nat) : getRx (bump i j k w n s) j' = getRx s j' := rfl
@[simp] theorem getRx_bumpMax (i j k v : Nat) (s : State) (j' : Nat) : getRx (bumpMax i j k v s) j' = getRx s j' := rfl
@[simp] theorem getRx_emit (o : Output) (s : State) (j : Nat) : getRx (emit o s) j = getRx s j := rfl
@[simp] theorem getRx_journalEntry (s : State) (j : Nat) : getRx (journalEntry s) j = getRx s j := rfl
@[simp] theorem getRx_commit (s : State) (j : Nat) : getRx (commit s) j = getRx s j := rfl
@[simp] theorem getRx_baseImage (s : State) (j : Nat) : getRx (baseImage s) j = getRx s j := rfl
@[simp] theorem getRx_issue (n : Nat) (s : State) (j : Nat) : getRx (issue n s) j = getRx s j := rfl
@[simp] theorem getRx_closeRec (code obj : Nat) (s : State) (j : Nat) : getRx (closeRec code obj s) j = getRx s j := rfl
@[simp] theorem getRx_writeMem (s : State) (a : Nat) (l : Bytes) (j : Nat) : getRx (writeMem s a l) j = getRx s j := rfl
@[simp] theorem getRx_raiseEv (e : Ev) (s : State) (j : Nat) : getRx (raiseEv e s) j = getRx s j := by simp [getRx]
@[simp] theorem getRx_raise (code obj data : Nat) (s : State) (j : Nat) : getRx (raise code obj data s) j = getRx s j := by simp [getRx]
@[simp] theorem getRx_raiseDone (code cseq st aux data : Nat) (s : State) (j : Nat) : getRx (raiseDone code cseq st aux data s) j = getRx s j := by simp [getRx]
@[simp] theorem getRx_signalVector (k : Nat) (s : State) (j : Nat) : getRx (signalVector k s) j = getRx s j := by simp [getRx]
@[simp] theorem getRx_setCause (k : Nat) (s : State) (j : Nat) : getRx (setCause k s) j = getRx s j := by simp [getRx]
@[simp] theorem getArray_setLane (s : State) (i : Nat) (v : Lane) (j : Nat) : getArray (setLane s i v) j = getArray s j := rfl
@[simp] theorem getArray_setPort (s : State) (i : Nat) (v : Port) (j : Nat) : getArray (setPort s i v) j = getArray s j := rfl
@[simp] theorem getArray_setGates (s : State) (i : Nat) (v : Gates) (j : Nat) : getArray (setGates s i v) j = getArray s j := rfl
@[simp] theorem getArray_setShaper (s : State) (p c : Nat) (v : Shaper) (j : Nat) : getArray (setShaper s p c v) j = getArray s j := rfl
@[simp] theorem getArray_setMeter (s : State) (i : Nat) (v : Meter) (j : Nat) : getArray (setMeter s i v) j = getArray s j := rfl
@[simp] theorem getArray_setChan (s : State) (c : Nat) (v : Chan) (j : Nat) : getArray (setChan s c v) j = getArray s j := rfl
@[simp] theorem getArray_setCtx (s : State) (k : Nat) (v : Ctx) (j : Nat) : getArray (setCtx s k v) j = getArray s j := rfl
@[simp] theorem getArray_setQueue (s : State) (q : Nat) (v : Queue) (j : Nat) : getArray (setQueue s q v) j = getArray s j := rfl
@[simp] theorem getArray_setSlot (s : State) (i : Nat) (v : Slot) (j : Nat) : getArray (setSlot s i v) j = getArray s j := rfl
@[simp] theorem getArray_setRing (s : State) (r : Nat) (v : Ring) (j : Nat) : getArray (setRing s r v) j = getArray s j := rfl
@[simp] theorem getArray_setQ (s : State) (p c : Nat) (v : List QFrame) (j : Nat) : getArray (setQ s p c v) j = getArray s j := rfl
@[simp] theorem getArray_setTx (s : State) (p : Nat) (v : TxLane) (j : Nat) : getArray (setTx s p v) j = getArray s j := rfl
@[simp] theorem getArray_setRx (s : State) (p : Nat) (v : RxLane) (j : Nat) : getArray (setRx s p v) j = getArray s j := rfl
@[simp] theorem getArray_setRegion (s : State) (r : Nat) (v : Region) (j : Nat) : getArray (setRegion s r v) j = getArray s j := rfl
@[simp] theorem getArray_advance (t : Nat) (s : State) (j : Nat) : getArray (advance t s) j = getArray s j := rfl
@[simp] theorem getArray_setCnt (s : State) (i j k v : Nat) (j' : Nat) : getArray (setCnt s i j k v) j' = getArray s j' := rfl
@[simp] theorem getArray_bump (i j k w n : Nat) (s : State) (j' : Nat) : getArray (bump i j k w n s) j' = getArray s j' := rfl
@[simp] theorem getArray_bumpMax (i j k v : Nat) (s : State) (j' : Nat) : getArray (bumpMax i j k v s) j' = getArray s j' := rfl
@[simp] theorem getArray_emit (o : Output) (s : State) (j : Nat) : getArray (emit o s) j = getArray s j := rfl
@[simp] theorem getArray_journalEntry (s : State) (j : Nat) : getArray (journalEntry s) j = getArray s j := rfl
@[simp] theorem getArray_commit (s : State) (j : Nat) : getArray (commit s) j = getArray s j := rfl
@[simp] theorem getArray_baseImage (s : State) (j : Nat) : getArray (baseImage s) j = getArray s j := rfl
@[simp] theorem getArray_issue (n : Nat) (s : State) (j : Nat) : getArray (issue n s) j = getArray s j := rfl
@[simp] theorem getArray_closeRec (code obj : Nat) (s : State) (j : Nat) : getArray (closeRec code obj s) j = getArray s j := rfl
@[simp] theorem getArray_writeMem (s : State) (a : Nat) (l : Bytes) (j : Nat) : getArray (writeMem s a l) j = getArray s j := rfl
@[simp] theorem getArray_raiseEv (e : Ev) (s : State) (j : Nat) : getArray (raiseEv e s) j = getArray s j := by simp [getArray]
@[simp] theorem getArray_raise (code obj data : Nat) (s : State) (j : Nat) : getArray (raise code obj data s) j = getArray s j := by simp [getArray]
@[simp] theorem getArray_raiseDone (code cseq st aux data : Nat) (s : State) (j : Nat) : getArray (raiseDone code cseq st aux data s) j = getArray s j := by simp [getArray]
@[simp] theorem getArray_signalVector (k : Nat) (s : State) (j : Nat) : getArray (signalVector k s) j = getArray s j := by simp [getArray]
@[simp] theorem getArray_setCause (k : Nat) (s : State) (j : Nat) : getArray (setCause k s) j = getArray s j := by simp [getArray]
@[simp] theorem getRegion_setLane (s : State) (i : Nat) (v : Lane) (j : Nat) : getRegion (setLane s i v) j = getRegion s j := rfl
@[simp] theorem getRegion_setPort (s : State) (i : Nat) (v : Port) (j : Nat) : getRegion (setPort s i v) j = getRegion s j := rfl
@[simp] theorem getRegion_setGates (s : State) (i : Nat) (v : Gates) (j : Nat) : getRegion (setGates s i v) j = getRegion s j := rfl
@[simp] theorem getRegion_setShaper (s : State) (p c : Nat) (v : Shaper) (j : Nat) : getRegion (setShaper s p c v) j = getRegion s j := rfl
@[simp] theorem getRegion_setMeter (s : State) (i : Nat) (v : Meter) (j : Nat) : getRegion (setMeter s i v) j = getRegion s j := rfl
@[simp] theorem getRegion_setChan (s : State) (c : Nat) (v : Chan) (j : Nat) : getRegion (setChan s c v) j = getRegion s j := rfl
@[simp] theorem getRegion_setCtx (s : State) (k : Nat) (v : Ctx) (j : Nat) : getRegion (setCtx s k v) j = getRegion s j := rfl
@[simp] theorem getRegion_setQueue (s : State) (q : Nat) (v : Queue) (j : Nat) : getRegion (setQueue s q v) j = getRegion s j := rfl
@[simp] theorem getRegion_setSlot (s : State) (i : Nat) (v : Slot) (j : Nat) : getRegion (setSlot s i v) j = getRegion s j := rfl
@[simp] theorem getRegion_setRing (s : State) (r : Nat) (v : Ring) (j : Nat) : getRegion (setRing s r v) j = getRegion s j := rfl
@[simp] theorem getRegion_setQ (s : State) (p c : Nat) (v : List QFrame) (j : Nat) : getRegion (setQ s p c v) j = getRegion s j := rfl
@[simp] theorem getRegion_setTx (s : State) (p : Nat) (v : TxLane) (j : Nat) : getRegion (setTx s p v) j = getRegion s j := rfl
@[simp] theorem getRegion_setRx (s : State) (p : Nat) (v : RxLane) (j : Nat) : getRegion (setRx s p v) j = getRegion s j := rfl
@[simp] theorem getRegion_setArray (s : State) (a : Nat) (v : Machine.Array) (j : Nat) : getRegion (setArray s a v) j = getRegion s j := rfl
@[simp] theorem getRegion_advance (t : Nat) (s : State) (j : Nat) : getRegion (advance t s) j = getRegion s j := rfl
@[simp] theorem getRegion_setCnt (s : State) (i j k v : Nat) (j' : Nat) : getRegion (setCnt s i j k v) j' = getRegion s j' := rfl
@[simp] theorem getRegion_bump (i j k w n : Nat) (s : State) (j' : Nat) : getRegion (bump i j k w n s) j' = getRegion s j' := rfl
@[simp] theorem getRegion_bumpMax (i j k v : Nat) (s : State) (j' : Nat) : getRegion (bumpMax i j k v s) j' = getRegion s j' := rfl
@[simp] theorem getRegion_emit (o : Output) (s : State) (j : Nat) : getRegion (emit o s) j = getRegion s j := rfl
@[simp] theorem getRegion_journalEntry (s : State) (j : Nat) : getRegion (journalEntry s) j = getRegion s j := rfl
@[simp] theorem getRegion_commit (s : State) (j : Nat) : getRegion (commit s) j = getRegion s j := rfl
@[simp] theorem getRegion_baseImage (s : State) (j : Nat) : getRegion (baseImage s) j = getRegion s j := rfl
@[simp] theorem getRegion_issue (n : Nat) (s : State) (j : Nat) : getRegion (issue n s) j = getRegion s j := rfl
@[simp] theorem getRegion_closeRec (code obj : Nat) (s : State) (j : Nat) : getRegion (closeRec code obj s) j = getRegion s j := rfl
@[simp] theorem getRegion_writeMem (s : State) (a : Nat) (l : Bytes) (j : Nat) : getRegion (writeMem s a l) j = getRegion s j := rfl
@[simp] theorem getRegion_raiseEv (e : Ev) (s : State) (j : Nat) : getRegion (raiseEv e s) j = getRegion s j := by simp [getRegion]
@[simp] theorem getRegion_raise (code obj data : Nat) (s : State) (j : Nat) : getRegion (raise code obj data s) j = getRegion s j := by simp [getRegion]
@[simp] theorem getRegion_raiseDone (code cseq st aux data : Nat) (s : State) (j : Nat) : getRegion (raiseDone code cseq st aux data s) j = getRegion s j := by simp [getRegion]
@[simp] theorem getRegion_signalVector (k : Nat) (s : State) (j : Nat) : getRegion (signalVector k s) j = getRegion s j := by simp [getRegion]
@[simp] theorem getRegion_setCause (k : Nat) (s : State) (j : Nat) : getRegion (setCause k s) j = getRegion s j := by simp [getRegion]
@[simp] theorem getCnt_setLane (s : State) (i : Nat) (v : Lane) (x y z : Nat) : getCnt (setLane s i v) x y z = getCnt s x y z := rfl
@[simp] theorem getCnt_setPort (s : State) (i : Nat) (v : Port) (x y z : Nat) : getCnt (setPort s i v) x y z = getCnt s x y z := rfl
@[simp] theorem getCnt_setGates (s : State) (i : Nat) (v : Gates) (x y z : Nat) : getCnt (setGates s i v) x y z = getCnt s x y z := rfl
@[simp] theorem getCnt_setShaper (s : State) (p c : Nat) (v : Shaper) (x y z : Nat) : getCnt (setShaper s p c v) x y z = getCnt s x y z := rfl
@[simp] theorem getCnt_setMeter (s : State) (i : Nat) (v : Meter) (x y z : Nat) : getCnt (setMeter s i v) x y z = getCnt s x y z := rfl
@[simp] theorem getCnt_setChan (s : State) (c : Nat) (v : Chan) (x y z : Nat) : getCnt (setChan s c v) x y z = getCnt s x y z := rfl
@[simp] theorem getCnt_setCtx (s : State) (k : Nat) (v : Ctx) (x y z : Nat) : getCnt (setCtx s k v) x y z = getCnt s x y z := rfl
@[simp] theorem getCnt_setQueue (s : State) (q : Nat) (v : Queue) (x y z : Nat) : getCnt (setQueue s q v) x y z = getCnt s x y z := rfl
@[simp] theorem getCnt_setSlot (s : State) (i : Nat) (v : Slot) (x y z : Nat) : getCnt (setSlot s i v) x y z = getCnt s x y z := rfl
@[simp] theorem getCnt_setRing (s : State) (r : Nat) (v : Ring) (x y z : Nat) : getCnt (setRing s r v) x y z = getCnt s x y z := rfl
@[simp] theorem getCnt_setQ (s : State) (p c : Nat) (v : List QFrame) (x y z : Nat) : getCnt (setQ s p c v) x y z = getCnt s x y z := rfl
@[simp] theorem getCnt_setTx (s : State) (p : Nat) (v : TxLane) (x y z : Nat) : getCnt (setTx s p v) x y z = getCnt s x y z := rfl
@[simp] theorem getCnt_setRx (s : State) (p : Nat) (v : RxLane) (x y z : Nat) : getCnt (setRx s p v) x y z = getCnt s x y z := rfl
@[simp] theorem getCnt_setArray (s : State) (a : Nat) (v : Machine.Array) (x y z : Nat) : getCnt (setArray s a v) x y z = getCnt s x y z := rfl
@[simp] theorem getCnt_setRegion (s : State) (r : Nat) (v : Region) (x y z : Nat) : getCnt (setRegion s r v) x y z = getCnt s x y z := rfl
@[simp] theorem getCnt_advance (t : Nat) (s : State) (x y z : Nat) : getCnt (advance t s) x y z = getCnt s x y z := rfl
@[simp] theorem getCnt_emit (o : Output) (s : State) (x y z : Nat) : getCnt (emit o s) x y z = getCnt s x y z := rfl
@[simp] theorem getCnt_journalEntry (s : State) (x y z : Nat) : getCnt (journalEntry s) x y z = getCnt s x y z := rfl
@[simp] theorem getCnt_commit (s : State) (x y z : Nat) : getCnt (commit s) x y z = getCnt s x y z := rfl
@[simp] theorem getCnt_baseImage (s : State) (x y z : Nat) : getCnt (baseImage s) x y z = getCnt s x y z := rfl
@[simp] theorem getCnt_issue (n : Nat) (s : State) (x y z : Nat) : getCnt (issue n s) x y z = getCnt s x y z := rfl
@[simp] theorem getCnt_closeRec (code obj : Nat) (s : State) (x y z : Nat) : getCnt (closeRec code obj s) x y z = getCnt s x y z := rfl
@[simp] theorem getCnt_writeMem (s : State) (a : Nat) (l : Bytes) (x y z : Nat) : getCnt (writeMem s a l) x y z = getCnt s x y z := rfl

end Sys2Proof.Machine
end

