-- ==== Sys2Proof/Tests/Slice0.lean ====
section
/-! SUPPORT. Own tests: ill-formed terms that the checks refuse, small steps on values of the spec, and for every statement
with hypotheses a state and operands that meet them, clause by clause. -/

namespace Sys2Proof.Tests

open Sys2Proof Sys2Proof.Machine

-- One theorem at a time: elaborated all at once, their many kernel evaluations ask for more threads than there are.
set_option Elab.async false

/-! ### Helpers -/

/-- Complex A runs a program of eight instructions on queue 0, at its first instruction; the link is up. -/
def base : State :=
  { State.reset with
    power := { State.reset.power with booting := false, faultN := false }
    hostIf := { State.reset.hostIf with linkUp := true }
    seq := { State.reset.seq with
      active := some 0, healthA := .active, healthB := .standby, ckptValid := true
      ctxs := [(1, { pc := 0x70000, run := .ready })]
      queues := [(0, { qd := 0x1000, qc := 0x2000, size := 4, enabled := true, producer := 1
                       prog := some ⟨8, 128, false, false, false, 7, 0x3000, 100000000, none, none⟩ })] } }

/-- An instruction word without register operands. -/
def word (a b imm : Nat) (x : Nat := 0) : IWord :=
  { src := 0, x := BitVec.ofNat 2 x, rx := 0, a := BitVec.ofNat 16 a, b := BitVec.ofNat 32 b, imm := BitVec.ofNat 64 imm }

/-- `s` with `n` octets of value `v` at the start of the data window of queue 0. -/
def inWin (n v : Nat) (s : State) : State := writeMem s 0x78000 (beBytes n v)

/-- A cycle late enough for every timer. -/
def late : Nat := 1000000000000000

/-- `s` with context 1 as `c`. -/
def inCtx (c : Ctx) (s : State) : State := { s with seq := { s.seq with ctxs := [(1, c)] } }

/-- Channel 0 as `h`. -/
def inChan (h : Chan) (s : State) : State := { s with assoc := { s.assoc with chans := [(0, h)] } }

/-- A receive channel that is there, and a transmit channel. -/
def rxHead : Nat := 3 * 2 ^ 446
def txHead : Nat := 2 ^ 447

/-- A MAC frame of EtherType `typ` with a good frame check sequence. -/
def frame (typ : Nat) (rest : Bytes) : Bytes :=
  let l := List.replicate 12 0 ++ beBytes 2 typ ++ rest
  l ++ fcsOf l

/-- 46 octets of zero. -/
def zeros : Bytes := List.replicate 46 0

/-- Port `p` as `o`. -/
def inPort (p : Nat) (o : Port) (s : State) : State := { s with ports := [(p, o)] }

/-- A peer entry of SCI 5 on port 0, in way 0. -/
def withPeer (x : Peer) (s : State) : State :=
  { s with cls := { s.cls with peers := [(peerSet s 0 5 * 16, x)] } }

/-- A peer descriptor of SCI 5 on port 0 with channel number `c`. -/
def peerFive (c : Nat) : Nat := 5 * 2 ^ 64 + c * 2 ^ 40

/-- Slot 0 holds a key of 32 octets that may decrypt, of generation 0. -/
def inSlot (s : State) : State :=
  { s with vault := { s.vault with slots := [(0, { payload := List.replicate 32 7, attr := 2 ^ 28 + 2 ^ 26 })] } }

/-- A meter descriptor: enabled, CIR and PIR of one unit, bursts of 64 octets, full buckets. -/
def meter : Nat := 2 ^ 255 + 2 ^ 252 + 2 ^ 215 + 2 ^ 183 + 64 * 2 ^ 159 + 64 * 2 ^ 135

/-- 2 017 of the 2 048 cache lines hold channels. -/
def crowded : State :=
  { base with assoc := { base.assoc with lines := (List.range 2017).map (fun i => (i, ⟨i, .valid, false, true, 0, none, 0, []⟩)) } }

theorem pair_eq {α β : Type} {p : α × β} {y : β} (h : p.2 = y) : p = (p.1, y) := by rw [← h]

theorem clock_turns : (turnClock (2 * 2048 + 1) (advance 0 crowded)).2 = some 0 := by decide +kernel


/-- What an unwrapping of `src` at `e` finds, with no need to compute it. -/
theorem unwrap_values (e : Env) (a : State) (src : Slot) : ∃ o, ∃ st : Nat,
    o = kwpUnwrap 256 (beNat (fit 32 src.payload)) ((readMem a e.imm 96).take 80) ∧
    st = (match o with | none => stAuth | some p => firstFail (unwrapContent (nf src.attr 19 16) p)) := ⟨_, _, rfl, rfl⟩

/-- Slot 16 holds a key that may unwrap. -/
def wrapping : State := { base with vault := { base.vault with slots := [(16, { payload := List.replicate 32 7, attr := 2 ^ 28 + 2 ^ 24 })] } }

/-- A signature operation of ML-DSA from a slot, and a block that runs it. -/
def signing : PressOp := { func := 0xA2, vault := true, slot := 0, imm := 0, cseq := 7 }
def signs : State := { base with press := { base.press with running := some signing } }

/-- A region of 16 pages from page 16 under key ID 5, open to every master. -/
def region : Region :=
  { ksrc := false, retain_ := false, patrol := true, keyid := 5, slot := 0, kgen := 0, base := 16, pages := 16, rights := 0x3FF, birth := 1 }

/-- `s` with the Memory Guard ready and region 0 as `g`. -/
def withRegion (g : Region) (s : State) : State :=
  { s with mg := { s.mg with ready := .ready 8388608, regions := [(0, g)], keys := [(5, ⟨1, 2, 1, none⟩)] } }

/-- A region descriptor: valid, key ID 6, `base`, one page, all rights. -/
def regionWord (base : Nat) : Nat := 2 ^ 255 + 6 * 2 ^ 246 + base * 2 ^ 202 + 2 ^ 178 + 0x3FF * 2 ^ 168

/-- A program that creates region 0 from page `b`. -/
def creating (b : Nat) : State := inWin 32 (regionWord b) { base with mg := { base.mg with ready := .ready 8388608 } }

/-- An image at 1 MiB may be staged: the flash holds at least 4 MiB. -/
theorem stage_runs : runs sysSwitchStageCmd (word 0 0 0x100000) base 1 = true := by
  have h : decide (Config.flashSize ≤ (resolve (issued base) 1 (word 0 0 0x100000)).imm) = false := by
    rw [show (resolve (issued base) 1 (word 0 0 0x100000)).imm = 0x100000 from by decide +kernel, decide_eq_false_iff_not]
    unfold Config.flashSize
    omega
  have hf : sysSwitchStageCmd.fmt (resolve (issued base) 1 (word 0 0 0x100000)) (issued base) =
      switchChecks (resolve (issued base) 1 (word 0 0 0x100000)) ++
        [(decide ((resolve (issued base) 1 (word 0 0 0x100000)).imm % 4096 ≠ 0), stAlign), (false, stRange)] := by
    simp only [sysSwitchStageCmd, h]
  have hc : cmdFieldStatus sysSwitchStageCmd (word 0 0 0x100000) (resolve (issued base) 1 (word 0 0 0x100000)) (issued base) = 0 := by
    unfold cmdFieldStatus
    rw [hf]
    decide +kernel
  simp only [runs, hc]
  decide +kernel

/-- The Crust log full, its last record another source's. -/
def fullLog : State :=
  { base with crust := { base.crust with log := (List.range 64).map (fun i => ⟨0, 25, 0, 0, 0, i⟩), kept := 8 } }

/-- A Trellis port whose session is up under the same key in both directions. -/
def linked : TPort := { step := .up }

/-- Context 1 may run nothing. -/
def masked : State := { base with seq := { base.seq with queues := (base.seq.queues.map (fun q => (q.1, { q.2 with mask := 0 }))),
                                                          ctxs := [(1, { pc := 0x70000, run := .ready, mask := 0 })] } }

/-- A condition of monitor 21 is true. -/
def alarmed : State := { base with crust := { base.crust with oscStopped := true } }

/-- The sequencer block has applied CSEQ 1, with content `d`. -/
def took (d : List Nat) : State :=
  { base with seq := { base.seq with applied := [(groupOf 0xC0, 1)], kept := [(groupOf 0xC0, [⟨1, d, 0⟩])] } }

/-- Four commands are outstanding. -/
def full : State :=
  { base with seq := { base.seq with
      ctxs := [(1, { pc := 0x70000, run := .ready }), (3, { run := .waitStatus 1 0 }), (5, { run := .waitStatus 2 0 }),
        (7, { run := .waitStatus 3 0 }), (9, { run := .waitStatus 4 0 })] } }

theorem pair_first {α β : Type} {p : α × β} {x : α} (h : p.1 = x) : p = (x, p.2) := by rw [← h]

/-- A received MACsec frame with octets `l`, not yet at its check, its key all zero. -/
def received (l : Bytes) (flow : Bool := false) : RxFrame :=
  { octets := l, port := 0, channel := 0, an := 0, pn := 9, key := 0, header := rxHead, salt := 0, ssci := 0, cls := 0, stamp := 0
    num := 0, ref := 0, arrived := 0, ends := 0, account := .management, cells := 1, loadGen := 3, mark := .clean, flow := flow }

/-- A MACsec frame under integrity protection alone, whose ICV is that of a key of zeros and packet number 9. -/
def sealed : Bytes :=
  List.replicate 12 0 ++ beBytes 2 0x88E5 ++ [0, 8] ++ beBytes 4 9 ++ List.replicate 8 5 ++
    beBytes 16 76879868914305824532697558109138147006 ++ beBytes 4 0

/-! ### Form: for each check a command that fails it alone, and one that passes -/

theorem test_ill_formed_1 : (
    [.hostFrameReceive 0 31 [] {}, .hostFrameReceive 0 64 [] {}, .lineFrameReceive 0 32 [] {}, .pendingAgeExpiry 0 4096 0,
     .pendingAgeExpiry 0 0 16, .pauseFrameReceive 0 64 [] {}, .pauseTimeExpiry 0 64 0, .pauseTimeExpiry 0 0 8,
     .pauseLimitRelease 0 64 0, .pauseLimitRelease 0 0 8, .pauseRefresh 0 64 0, .pauseRefresh 0 0 8, .egressSelect 0 64,
     .calendarSlotReached 0 64 0, .calendarSlotReached 0 0 8, .frameTransmit 0 ⟨64, {}⟩, .icvCheck 0 32,
     .probeTimeout 0 65536, .fillComplete 0 65536 .ok, .fillTimeout 0 65536, .writeBackComplete 0 65536 .ok,
     .proofRefill 0 2 0, .proofRefill 0 0 4, .sliceFault 0 2 0 true] : List Instr).all (fun i => !i.wf) = true := by decide +kernel

theorem test_ill_formed_2 : (
    [.sliceFault 0 0 16 true, .rotationStep 0 2, .sliceTestComplete 0 2 true, .retireTimeReached 0 65536 0,
     .retireTimeReached 0 0 4, .caskScrub 0 524288 0 {}, .caskScrub 0 0 4 {}, .puntDeliver 0 2 ⟨[], {}⟩,
     .puntWaitExpiry 0 2, .injectTake 0 2 [] .late, .gateEntryChange 0 64, .gateSwapChange 0 64, .captureEdge 0 9 true 0,
     .triggerPulse 0 8, .verifyTimeout 0 64, .verifyRespondReceive 0 64, .anResolved 0 64 ⟨0, false⟩,
     .anResolved 0 0 ⟨512, false⟩, .trainingComplete 0 64, .trainingTimeout 0 64, .alignmentHeld 0 64,
     .alignmentTimeout 0 64, .negotiationRestartWait 0 64, .linkLoss 0 ⟨68, .signal⟩] : List Instr).all (fun i => !i.wf) = true := by decide +kernel

theorem test_ill_formed_3 : (
    [.synceUnsquelch 0 ⟨2, 0⟩, .eyeMarginCheck 0 68 0 0, .calibrationStart 0 9, .calibrationComplete 0 9 0,
     .referenceLoss 0 2, .referenceGood 0 2, .programStart 0 16 (List.replicate 64 0) .late .late,
     .programStart 0 0 (List.replicate 63 0) .late .late, .programCopyTimeout 0 16, .programTimeLimit 0 16,
     .commandTimeout 0 32, .commandCompletion 0 18446744073709551616, .instructionWatchdog 0 32, .complexFault 0 ⟨2, []⟩,
     .handlerStart 0 16, .railWarning 0 6, .railWarningClear 0 6, .brownOut 0 6, .mgRotationComplete 0 ⟨16, []⟩,
     .mgRebuildComplete 0 16, .mgScrubComplete 0 ⟨16, []⟩, .patrolScrub 0 1099511627776 .none, .trellisLinkLock 0 2,
     .helloReceive 0 2 ⟨true, 1, false, false, true, 0, 0, 0⟩] : List Instr).all (fun i => !i.wf) = true := by decide +kernel

theorem test_ill_formed_4 : (
    [.linkModeHeld 0 2 true, .keyxReceive ⟨0, []⟩ 2 (.offer [] [] []), .trellisStepTimeout 0 2,
     .trellisFrameReceive 0 2 [], .graftFragmentTimeout 0 32 0, .graftFragmentTimeout 0 0 65536, .tsyncReceive 0 2 [],
     .delayRequest 0 2 0 0 0 0, .topoReceive 0 2 ⟨[], false⟩, .keepaliveSend 0 2, .trellisLinkDown 0 ⟨2, true⟩,
     .nodeLost 0 32, .linkRekey 0 2, .qdoorWrite 0 16 0, .qdoorWrite 0 0 4294967296, .queueEnable 0 16 0,
     .queueEnable 0 0 4294967296, .queueDisable 0 16 0, .queueDisable 0 0 4294967296, .ringEnable 0 4 0,
     .ringEnable 0 0 4294967296, .ringDisable 0 4 0, .ringDisable 0 0 4294967296, .rdoorWrite 0 4 0] : List Instr).all (fun i => !i.wf) = true := by decide +kernel

theorem test_ill_formed_5 : (
    [.rdoorWrite 0 0 4294967296, .recCtlGo 0 4294967296, .intCauseWrite 0 4294967296, .intEnableWrite 0 4294967296,
     .todLatch 0 4294967296, .cbWindowRead 0 8, .crustWindowRead 0 4, .mgwinRead 0 65536 .none, .mgwinWrite 0 65536 0 {},
     .mgwinWrite 0 0 4294967296 {}, .registerWrite 0 0 0 0 4294967296, .faultSequenceChange 0 64 true true,
     .checkerLock 0 ⟨68, []⟩, .checkerLossOfLock 0 68 [] [] [], .rateInjection 0 68, .waitEvTimeout 0 32,
     .waitTExpiry 0 32, .hostTransferTimeout 0 32, .helloSend 0 2, .rollStraddleWindow 0 65536] : List Instr).all (fun i => !i.wf) = true := by decide +kernel

theorem test_well_formed_1 : (
    [.hostFrameReceive 0 32 [] {}, .lineFrameReceive 0 0 [] {}, .pendingAgeExpiry 0 0 0, .pauseFrameReceive 0 0 [] {},
     .pauseTimeExpiry 0 0 0, .pauseLimitRelease 0 0 0, .pauseRefresh 0 0 0, .egressSelect 0 0, .calendarSlotReached 0 0 0,
     .frameTransmit 0 ⟨0, {}⟩, .icvCheck 0 0, .probeTimeout 0 0, .fillComplete 0 0 .ok, .fillTimeout 0 0,
     .writeBackComplete 0 0 .ok, .proofRefill 0 0 0, .sliceFault 0 0 0 true, .rotationStep 0 0,
     .sliceTestComplete 0 0 true, .retireTimeReached 0 0 0, .caskScrub 0 0 0 {}, .puntDeliver 0 0 ⟨[], {}⟩,
     .puntWaitExpiry 0 0, .injectTake 0 0 [] .late] : List Instr).all (fun i => i.wf) = true := by decide +kernel

theorem test_well_formed_2 : (
    [.gateEntryChange 0 0, .gateSwapChange 0 0, .captureEdge 0 0 true 0, .triggerPulse 0 0, .verifyTimeout 0 0,
     .verifyRespondReceive 0 0, .anResolved 0 0 ⟨0, false⟩, .trainingComplete 0 0, .trainingTimeout 0 0,
     .alignmentHeld 0 0, .alignmentTimeout 0 0, .negotiationRestartWait 0 0, .linkLoss 0 ⟨0, .signal⟩,
     .synceUnsquelch 0 ⟨0, 0⟩, .eyeMarginCheck 0 0 0 0, .calibrationStart 0 0, .calibrationComplete 0 0 0,
     .referenceLoss 0 0, .referenceGood 0 0, .programStart 0 0 (List.replicate 64 0) .late .late, .programCopyTimeout 0 0,
     .programTimeLimit 0 0, .commandTimeout 0 0, .commandCompletion 0 0] : List Instr).all (fun i => i.wf) = true := by decide +kernel

theorem test_well_formed_3 : (
    [.instructionWatchdog 0 0, .complexFault 0 ⟨0, []⟩, .handlerStart 0 0, .railWarning 0 0, .railWarningClear 0 0,
     .brownOut 0 0, .mgRotationComplete 0 ⟨0, []⟩, .mgRebuildComplete 0 0, .mgScrubComplete 0 ⟨0, []⟩,
     .patrolScrub 0 0 .none, .trellisLinkLock 0 0, .helloReceive 0 0 ⟨true, 1, false, false, true, 0, 0, 0⟩,
     .linkModeHeld 0 0 true, .keyxReceive ⟨0, []⟩ 0 (.offer [] [] []), .trellisStepTimeout 0 0,
     .trellisFrameReceive 0 0 [], .graftFragmentTimeout 0 0 0, .tsyncReceive 0 0 [], .delayRequest 0 0 0 0 0 0,
     .topoReceive 0 0 ⟨[], false⟩, .keepaliveSend 0 0, .trellisLinkDown 0 ⟨0, true⟩, .nodeLost 0 0, .linkRekey 0 0] : List Instr).all (fun i => i.wf) = true := by decide +kernel

theorem test_well_formed_4 : (
    [.qdoorWrite 0 0 0, .queueEnable 0 0 0, .queueDisable 0 0 0, .ringEnable 0 0 0, .ringDisable 0 0 0, .rdoorWrite 0 0 0,
     .recCtlGo 0 0, .intCauseWrite 0 0, .intEnableWrite 0 0, .todLatch 0 0, .cbWindowRead 0 0, .crustWindowRead 0 0,
     .mgwinRead 0 0 .none, .mgwinWrite 0 0 0 {}, .registerWrite 0 0 0 0 0, .faultSequenceChange 0 0 true true,
     .checkerLock 0 ⟨0, []⟩, .checkerLossOfLock 0 0 [] [] [], .rateInjection 0 0, .waitEvTimeout 0 0, .waitTExpiry 0 0,
     .hostTransferTimeout 0 0, .helloSend 0 0, .rollStraddleWindow 0 0] : List Instr).all (fun i => i.wf) = true := by decide +kernel

/-! ### Values that the spec gives -/

/-- Whether a command answers a next state of which `f` holds. -/
def answersWith (c : Instr) (s : State) (f : State → Bool) : Bool :=
  match exec c s with
  | .next t => f t
  | _ => false

/-- The AES-256 example vector of FIPS 197, which R188 has a tested slice compute. -/
theorem test_aes256 :
    aesEnc 256 0x000102030405060708090A0B0C0D0E0F101112131415161718191A1B1C1D1E1F 0x00112233445566778899AABBCCDDEEFF =
      0x8EA2B7CA516745BFEAFC49904B496089 := by decide +kernel

/-- The AES-128 example vector of FIPS 197. -/
theorem test_aes128 :
    aesEnc 128 0x000102030405060708090A0B0C0D0E0F 0x00112233445566778899AABBCCDDEEFF =
      0x69C4E0D86A7B0430D8CDB78070B4C55A := by decide +kernel

/-- The SHA-384 example of FIPS 180: the digest of "abc". -/
theorem test_sha384 : sha384 [0x61, 0x62, 0x63] = beBytes 48
    0xCB00753F45A35E8BB5A03D699AC65007272C32AB0EDED1631A8B605A43FF5BED8086072BA1E7CC2358BAECA134C825A7 := by
  decide +kernel

/-- The SHA3-256 example of FIPS 202: the digest of the empty string. -/
theorem test_sha3 :
    sha3 [] = beBytes 32 0xA7FFC6F8BF1ED76651C14756A061D662F580FF4DE43B49FA82D80A4B80F8434A := by decide +kernel

/-- The first root that FIPS 203 and FIPS 204 list for their transforms after 1. -/
theorem test_roots : kemRoot (bitRev 7 1) = 1729 ∧ dsaRoot (bitRev 8 1) = 4808194 := by decide +kernel

/-- The check value of the CRC of IEEE 802.3 over the digits 1 to 9. -/
theorem test_fcs : fcsOf [0x31, 0x32, 0x33, 0x34, 0x35, 0x36, 0x37, 0x38, 0x39] = [0x26, 0x39, 0xF4, 0xCB] := by
  decide +kernel

/-- The worked example of 07_cask.md: H, XON, XOFF and the drop limit of a port at 1.6T. -/
theorem test_thresholds :
    let s := inPort 32 { speedNow := 8, state := .up } base
    (headroom s 32, xonOf s 32, xoffOf s 32, dropLimit s 32) = (1253, 3759, 5012, 6305) := by decide +kernel

/-- The worked example under R275: a temporary increment lower by 0x400 for 1 048 576 000 edges takes off 250 ns. -/
theorem test_temporary_increment :
    (ticks 1048576000 { incr := 0xFFFFFF5F, temp := some (0xFFFFFB5F, 1048576000) }).tod + 250 * 2 ^ 32 =
      (ticks 1048576000 { incr := 0xFFFFFF5F }).tod := by decide +kernel

/-- R273: an idle step is one TCLK tick, 1 ns at the increment of reset. -/
theorem test_tick : (idle base).clk.tod = base.clk.tod + 2 ^ 32 := by decide +kernel

/-- ADD wraps, and sets C and Z: w1 = w2 + 1 with w2 all ones. -/
theorem test_add_wraps :
    answersWith (.add (word 0x1200 0 1 1)) (inCtx { pc := 0x70000, run := .ready, regs := [(2, BitVec.allOnes 64)] } base)
      (fun t => (getCtx t 1).c && (getCtx t 1).z && readReg (getCtx t 1) 1 == 0) = true := by decide +kernel

/-- SUB of a larger number wraps: 0 - 1. -/
theorem test_sub_wraps :
    answersWith (.sub (word 0x1200 0 1 1)) base (fun t => readReg (getCtx t 1) 1 == BitVec.allOnes 64) = true := by
  decide +kernel

/-- R342: JMP with REL = 1 and IMM -16 at the first instruction leaves the program buffer, and the program counter stays at
the next instruction. -/
theorem test_jump_out :
    answersWith (.jmp (word 0 0 (2 ^ 64 - 16) 1)) base (fun t => (getCtx t 1).pc == 0x70010) = true := by decide +kernel

/-- R488: LOG.WRITE stages an event of its code that carries its data. -/
theorem test_log_write :
    answersWith (.logWrite (word 0xB900 0 77)) base
      (fun t => t.book.staged.any (fun e => e.code == 0xB900 && e.data == 77)) = true := by decide +kernel

/-- R37: a reserved field is found before a value out of its range. -/
theorem test_reserved_first : fieldFail [(true, stRange), (true, stReserved)] = stReserved := by decide

/-- R55: a frame shorter than 64 octets is counted and goes no further. -/
theorem test_short_frame :
    answersWith (.hostFrameReceive 0 33 [0] {}) (inPort 33 { setting := 1518 * 2 ^ 29, state := .up } base)
      (fun t => getCnt t 1 33 8 == 1 && t.cask.queues == []) = true := by decide +kernel

/-- R477, two alarms on VBAT: the records of CASE1 and of loop 5, confirmed at one edge. -/
theorem test_two_alarms :
    let s := { base with
      power := { base.power with powerGood := false }
      crust := { base.crust with
        onVbat := true, mode := .armed
        settings := [(1, 2 ^ 63 + 1 * 2 ^ 60 + 4 * 2 ^ 55), (9, 2 ^ 63 + 4 * 2 ^ 60 + 2 * 2 ^ 58 + 2 * 2 ^ 54)] } }
    let t := raiseAlarms [⟨1, 1⟩, ⟨9, 2⟩] s
    ((t.crust.log.drop 1).map (fun r => (r.source, r.levels, r.detail)) = [(1, 0xA1, 1), (9, 0xA4, 2)] ∧
      t.crust.eraseFlag = true ∧ t.crust.quiesce = true ∧ t.crust.alarmOut = true) := by decide +kernel

/-- R66: PRBS7 comes back to its first seven bits after 127 bits and not after 63. -/
theorem test_prbs7 :
    let next (l : List Bool) := ((patternNext 1 0 l).getD false :: l).take 7
    let after (n : Nat) := (List.range n).foldl (fun l _ => next l) (List.replicate 7 true)
    (after 127 = List.replicate 7 true ∧ after 63 ≠ List.replicate 7 true) := by decide +kernel

/-- R68: 256 right bits in a row lock a checker, 255 do not. -/
theorem test_checker_lock :
    let seen (n : Nat) := (checkBits (2 ^ 53) false { hist := List.replicate 7 false } (List.replicate n false)).1.lock
    (seen 255 = false ∧ seen 256 = true) := by decide +kernel

/-- R461: a word three bits away from a codeword is corrected to it; the mode stays ARMED. -/
theorem test_word_corrected :
    let s := { base with crust := { base.crust with mode := .armed } }
    ((turnOver 0 0x0007 s).crust.mode = .armed ∧ (turnOver 0 0x0007 s).crust.flips = [] ∧
      (turnOver 0 0x000F s).crust.flips ≠ []) := by decide +kernel

/-- A step takes the command at the front of the queue and leaves the rest. -/
theorem test_front :
    (match step { base with pending := [.logWrite (word 0xB900 0 77), .nop (word 0 0 0)] } with
      | .next t => decide (t.pending = [.nop (word 0 0 0)])
      | _ => false) = true := by decide +kernel

/-- R334, the opcode tables of 11_instruction_reference.md: MOVI with SRC 0, RX 1, A 0x1200 and IMM 5, and LANE.CFG. -/
theorem test_words :
    readWord 0x10011200000000000000000000000005 (resolve base 1 (wordOf 0)) base =
      some (.movi { src := 0, x := 0, rx := 1, a := 0x1200, b := 0, imm := 5 }) ∧
    readWord 0x20000007000000000000000000000000 (resolve base 1 (wordOf 0)) base =
      some (.laneCfg { src := 0, x := 0, rx := 0, a := 7, b := 0, imm := 0 }) := by decide +kernel


/-! ### Witnesses: for every statement with hypotheses, values that meet them, clause by clause -/

/-- Values that meet the hypotheses of SequencerFlow, one for each clause that has some. -/
theorem wit_SequencerFlow :
    (∃ w, ∃ s : State, ∃ k, mayRun 0 s k = true ∧ fieldFail (bareChecks w (resolve (begun s) k w) s) = 0) ∧
    (∃ w, ∃ s : State, ∃ k, mayRun 0 s k = true ∧ fieldFail (bareChecks w (resolve (begun s) k w) s) = 0) ∧
    (∃ w, ∃ s : State, ∃ k a e tgt, mayRun 0 s k = true ∧ a = local_ 3 s ∧ e = resolve (begun s) k w ∧ tgt = targetOf e a ∧ fieldFail (wordChecks 1 w ++ [zeroA e, zeroB e] ++ targetChecks k tgt) = 0) ∧
    (∃ w, ∃ s : State, ∃ k a e tgt, mayRun 0 s k = true ∧ a = local_ 3 s ∧ e = resolve (begun s) k w ∧ w.a.toNat < 8 ∧ tgt = targetOf e a ∧ fieldFail (wordChecks 1 w ++ [zeroB e] ++ targetChecks k tgt) = 0 ∧ branchTaken w.a.toNat (getCtx a k).z (getCtx a k).c (getCtx a k).e = some true) ∧
    (∃ w, ∃ s : State, ∃ k a e, mayRun 0 s k = true ∧ a = local_ 1 s ∧ e = resolve (begun s) k w ∧ w.a.toNat < 8 ∧ fieldFail (wordChecks 1 w ++ [zeroB e] ++ targetChecks k (targetOf e a)) = 0 ∧ branchTaken w.a.toNat (getCtx a k).z (getCtx a k).c (getCtx a k).e = some false) ∧
    (∃ w, ∃ s : State, ∃ k a e tgt, Legal s ∧ mayRun 0 s k = true ∧ a = local_ 3 s ∧ e = resolve (begun s) k w ∧ tgt = targetOf e a ∧ fieldFail (wordChecks 1 w ++ [zeroA e, zeroB e] ++ targetChecks k tgt) = 0) ∧
    (∃ w, ∃ s : State, ∃ k a tgt, mayRun 0 s k = true ∧ a = local_ 3 s ∧ tgt = (readReg (getCtx a k) 15).toNat ∧ fieldFail (bareChecks w (resolve (begun s) k w) a ++ targetChecks k tgt) = 0) ∧
    (∃ w, ∃ s : State, ∃ k a, mayRun 0 s k = true ∧ a = local_ 1 s ∧ fieldFail (bareChecks w (resolve (begun s) k w) s) = 0) ∧
    (∃ w, ∃ s : State, ∃ k a e, mayRun 0 s k = true ∧ a = local_ 2 s ∧ e = resolve (begun s) k w ∧ fieldFail (wordChecks 1 w) = 0 ∧ e.x = 0 ∧ e.b < 2 ^ 16 ∧ e.imm < 2 ^ 32) ∧
    (∃ w, ∃ s : State, ∃ k a e q, mayRun 0 s k = true ∧ a = local_ 2 s ∧ e = resolve (begun s) k w ∧ fieldFail (wordChecks 1 w) = 0 ∧ e.x = 1 ∧ e.a = 0 ∧ e.b = 0 ∧ e.imm < 2 ^ 32 ∧ (getCtx a k).lastPending = some q) ∧
    (∃ w, ∃ s : State, ∃ k a e, mayRun 0 s k = true ∧ a = local_ 2 s ∧ e = resolve (begun s) k w ∧ fieldFail (wordChecks 1 w) = 0 ∧ e.x = 1 ∧ e.a = 0 ∧ e.b = 0 ∧ e.imm < 2 ^ 32 ∧ (getCtx a k).lastPending = none) ∧
    (∃ w, ∃ s : State, ∃ k a e, mayRun 0 s k = true ∧ a = local_ 2 s ∧ e = resolve (begun s) k w ∧ fieldFail (wordChecks 1 w) = 0 ∧ e.x = 0 ∧ e.a = 0 ∧ e.b = 0 ∧ 0 < e.imm ∧ e.imm < 2 ^ 32) ∧
    (∃ w, ∃ s : State, ∃ k a e tm, mayRun 0 s k = true ∧ a = local_ 2 s ∧ e = resolve (begun s) k w ∧ fieldFail (wordChecks 1 w) = 0 ∧ e.x = 1 ∧ e.a = 0 ∧ e.b = 0 ∧ ptrOk k false 16 e.imm 12 = true ∧ tm = beNat (readMem a e.imm 12) ∧ fieldFail (todFormChecks tm) = 0) ∧
    (∃ w, ∃ s : State, ∃ k a, mayRun 0 s k = true ∧ a = local_ 2 s ∧ fieldFail (bareChecks w (resolve (begun s) k w) s) = 0) :=
  ⟨⟨word 0 0 0, base, 1, by decide +kernel, by decide +kernel⟩,
   ⟨word 0 0 0, base, 1, by decide +kernel, by decide +kernel⟩,
   ⟨word 0 0 0x70020, base, 1, _, _, _, by decide +kernel, rfl, rfl, rfl, by decide +kernel⟩,
   ⟨word 1 0 0x707F0, base, 1, _, _, _, by decide +kernel, rfl, rfl, by decide +kernel, rfl, by decide +kernel, by decide +kernel⟩,
   ⟨word 0 0 0x70000, base, 1, _, _, by decide +kernel, rfl, rfl, by decide +kernel, by decide +kernel, by decide +kernel⟩,
   ⟨word 0 0 0x70020, base, 1, _, _, _, by unfold Legal LegalTabs LegalSeq LegalBook LegalCrust; decide +kernel, by decide +kernel, rfl, rfl, rfl, by decide +kernel⟩,
   ⟨word 0 0 0, inCtx { pc := 0x70000, run := .ready, regs := [(15, 0x70010)] } base, 1, _, _, by decide +kernel, rfl, rfl, by decide +kernel⟩,
   ⟨word 0 0 0, base, 1, _, by decide +kernel, rfl, by decide +kernel⟩,
   ⟨word 0x8001 0xFFFF 0xFFFFFFFF, base, 1, _, _, by decide +kernel, rfl, rfl, by decide +kernel, by decide +kernel, by decide +kernel, by decide +kernel⟩,
   ⟨word 0 0 0xFFFFFFFF 1, inCtx { pc := 0x70000, run := .ready, lastPending := some 5 } base, 1, _, _, _, by decide +kernel, rfl, rfl, by decide +kernel, by decide +kernel, by decide +kernel, by decide +kernel, by decide +kernel, rfl⟩,
   ⟨word 0 0 5 1, base, 1, _, _, by decide +kernel, rfl, rfl, by decide +kernel, by decide +kernel, by decide +kernel, by decide +kernel, by decide +kernel, by decide +kernel⟩,
   ⟨word 0 0 1, base, 1, _, _, by decide +kernel, rfl, rfl, by decide +kernel, by decide +kernel, by decide +kernel, by decide +kernel, by decide +kernel, by decide +kernel⟩,
   ⟨word 0 0 0x78000 1, base, 1, _, _, _, by decide +kernel, rfl, rfl, by decide +kernel, by decide +kernel, by decide +kernel, by decide +kernel, by decide +kernel, rfl, by decide +kernel⟩,
   ⟨word 0 0 0, base, 1, _, by decide +kernel, rfl, by decide +kernel⟩⟩

/-- Values that meet the hypotheses of DataInstructions, one for each clause that has some. -/
theorem wit_DataInstructions :
    (∃ w, ∃ s : State, ∃ k a e, mayRun 1 s k = true ∧ a = local_ 1 s ∧ e = resolve (begun s) k w ∧ fieldFail (dataChecks w e) = 0 ∧ w.x = 0 ∧ opRs e = 0 ∧ opRt e = 0) ∧
    (∃ w, ∃ s : State, ∃ k a e, mayRun 1 s k = true ∧ a = local_ 1 s ∧ e = resolve (begun s) k w ∧ fieldFail (dataChecks w e) = 0 ∧ w.x = 0 ∧ opRt e = 0 ∧ w.imm = 0) ∧
    (∃ w, ∃ s : State, ∃ k a e, mayRun 1 s k = true ∧ a = local_ 1 s ∧ e = resolve (begun s) k w ∧ fieldFail (dataChecks w e) = 0 ∧ w.x = 1 ∧ opRs e = 0 ∧ opRt e = 0 ∧ w.imm = 0) ∧
    (∃ w, ∃ s : State, ∃ k a e x y, mayRun 1 s k = true ∧ a = local_ 1 s ∧ e = resolve (begun s) k w ∧ fieldFail (op2Checks w e s) = 0 ∧ x = readReg (getCtx a k) (opRs e) ∧ y = (if w.x = 1 then w.imm else readReg (getCtx a k) (opRt e))) ∧
    (∃ w, ∃ s : State, ∃ k a e x n, mayRun 1 s k = true ∧ a = local_ 1 s ∧ e = resolve (begun s) k w ∧ fieldFail (op2Checks w e s) = 0 ∧ x = readReg (getCtx a k) (opRs e) ∧ n = (if w.x = 1 then w.imm else readReg (getCtx a k) (opRt e)).toNat % 64) ∧
    (∃ w, ∃ s : State, ∃ k a e x y, mayRun 1 s k = true ∧ a = local_ 1 s ∧ e = resolve (begun s) k w ∧ fieldFail (op2Checks w e s) = 0 ∧ opRd e = 0 ∧ x = readReg (getCtx a k) (opRs e) ∧ y = (if w.x = 1 then w.imm else readReg (getCtx a k) (opRt e))) ∧
    (∃ w, ∃ s : State, ∃ k a e n ad, mayRun 1 s k = true ∧ a = local_ 2 s ∧ e = resolve (begun s) k w ∧ fieldFail (dataChecks w e) = 0 ∧ opRt e = 0 ∧ n = 2 ^ (3 - w.x.toNat) ∧ ad = ((readReg (getCtx a k) (opRs e)).toNat + w.imm.toNat) % 2 ^ 64 ∧ ad % n = 0 ∧ areaOk k false ad n = true) ∧
    (∃ w, ∃ s : State, ∃ k a e n ad, mayRun 1 s k = true ∧ a = local_ 2 s ∧ e = resolve (begun s) k w ∧ fieldFail (dataChecks w e) = 0 ∧ opRd e = 0 ∧ n = 2 ^ (3 - w.x.toNat) ∧ ad = ((readReg (getCtx a k) (opRs e)).toNat + w.imm.toNat) % 2 ^ 64 ∧ ad % n = 0 ∧ areaOk k true ad n = true) :=
  ⟨⟨word 0x3000 0 7, base, 1, _, _, by decide +kernel, rfl, rfl, by decide +kernel, by decide +kernel, by decide +kernel, by decide +kernel⟩,
   ⟨word 0x3100 0 0, base, 1, _, _, by decide +kernel, rfl, rfl, by decide +kernel, by decide +kernel, by decide +kernel, by decide +kernel⟩,
   ⟨word 0xF000 0 0 1, base, 1, _, _, by decide +kernel, rfl, rfl, by decide +kernel, by decide +kernel, by decide +kernel, by decide +kernel, by decide +kernel⟩,
   ⟨word 0x3120 0 0, base, 1, _, _, _, _, by decide +kernel, rfl, rfl, by decide +kernel, rfl, rfl⟩,
   ⟨word 0x3100 0 63 1, base, 1, _, _, _, _, by decide +kernel, rfl, rfl, by decide +kernel, rfl, rfl⟩,
   ⟨word 0x0200 0 9 1, base, 1, _, _, _, _, by decide +kernel, rfl, rfl, by decide +kernel, by decide +kernel, rfl, rfl⟩,
   ⟨word 0x3000 0 0x787F8, base, 1, _, _, _, _, by decide +kernel, rfl, rfl, by decide +kernel, by decide +kernel, rfl, rfl, by decide +kernel, by decide +kernel⟩,
   ⟨word 0x0030 0 0x787FF 3, base, 1, _, _, _, _, by decide +kernel, rfl, rfl, by decide +kernel, by decide +kernel, rfl, rfl, by decide +kernel, by decide +kernel⟩⟩

/-- Values that meet the hypotheses of Lanes, one for each clause that has some. -/
theorem wit_Lanes :
    (∃ w, ∃ s : State, ∃ k e a, runs laneCfgCmd w s k = true ∧ e = envAt w s k ∧ a = atBlock s k) ∧
    (∃ w, ∃ s : State, ∃ k e a b, runs laneTestCmd w s k = true ∧ e = envAt w s k ∧ a = atBlock s k ∧ b = (if nb e.imm 33 then clearLaneCounters e.a a else a) ∧ testsLane e.imm = true) ∧
    (∃ w, ∃ s : State, ∃ k e a b, runs laneTestCmd w s k = true ∧ e = envAt w s k ∧ a = atBlock s k ∧ b = (if nb e.imm 33 then clearLaneCounters e.a a else a) ∧ testsLane e.imm = false ∧ nf e.imm 50 48 = 0 ∧ (getLane a e.a).testing = true) ∧
    (∃ t, ∃ x : LaneBits, ∃ s : State, ∃ a b, a = comeTo t s ∧ nf (getLane a x.lane).test 56 53 ≠ 0 ∧ b = bitsSeen a x.lane x.received ∧ (laneChecks a x.lane b).1.lock = true) ∧
    (∃ t l before window behind, ∃ s : State, ∃ a b, a = comeTo t s ∧ nf (getLane a l).test 56 53 ≠ 0 ∧ b = bitsSeen a l (before ++ window ++ behind) ∧ (laneChecks a l b).2.losses ≠ 0) ∧
    (∃ t l, ∃ s : State, ∃ a, a = comeTo t s ∧ nf (getLane a l).test 50 48 = 3 ∧ injectionDue a l = true) ∧
    (∃ l, ∃ s : State, laneSends s l = .own ∧ laneSees s l ≠ .own) ∧
    (∃ w, ∃ s : State, ∃ k, runs laneCalAdaptCmd w s k = true) ∧
    (∃ w, ∃ s : State, ∃ k a, runs laneCalMarginCmd w s k = true ∧ a = atBlock s k) ∧
    (∃ w, ∃ s : State, ∃ k e a g, runs laneCalFullCmd w s k = true ∧ e = envAt w s k ∧ a = atBlock s k ∧ g = e.a / 8) ∧
    (∃ t g, ∃ s : State, ∃ a x l, a = comeTo t s ∧ (getCal a g).running = none ∧ (getCal a g).waiting = x :: l) ∧
    (∃ t g, ∃ s : State, ∃ a l q, a = comeTo t s ∧ (getCal a g).running = some (l, q)) ∧
    (∃ t, ∃ x : LockHeld, ∃ s : State, ∃ a y l, a = comeTo t s ∧ y = tabGet {} a.synce x.output ∧ y.source = some l ∧ y.squelched = true ∧ heldSince (getLane a l) x.since + 100000000 ≤ a.clk.root) ∧
    (∃ t l before, ∃ s : State, ∃ a, a = comeTo t s ∧ before * 100 < 60 * (getLane a l).recorded) :=
  ⟨⟨word 0 0 0, base, 1, _, _, by decide +kernel, rfl, rfl⟩,
   ⟨word 0 0 0x0100000000000000, base, 1, _, _, _, by decide +kernel, rfl, rfl, rfl, by decide +kernel⟩,
   ⟨word 0 0 0, { base with lanes := [(0, { testing := true, test := 1 })] }, 1, _, _, _, by decide +kernel, rfl, rfl, rfl, by decide +kernel, by decide +kernel, by decide +kernel⟩,
   ⟨0, ⟨0, [false]⟩, { base with lanes := [(0, { test := 2 ^ 53, check := { hist := List.replicate 32 false, run := 255 } })] }, _, _, rfl, by decide +kernel, rfl, by decide +kernel⟩,
   ⟨0, 0, [], [true], [], { base with lanes := [(0, { test := 2 ^ 53, check := { hist := List.replicate 32 false, lock := true, window := List.replicate 127 true } })] }, _, _, rfl, by decide +kernel, rfl, by decide +kernel⟩,
   ⟨0, 0, { base with lanes := [(0, { test := 3 * 2 ^ 48 })] }, _, rfl, by decide +kernel, by decide +kernel⟩,
   ⟨0, { base with lanes := [(0, { test := 3 * 2 ^ 48 })] }, by decide +kernel, by decide +kernel⟩,
   ⟨word 0 0 0, base, 1, by decide +kernel⟩,
   ⟨word 0 0 0x4000000000000000, base, 1, _, by decide +kernel, rfl⟩,
   ⟨word 0 0 0x8000000000000000, base, 1, _, _, _, by decide +kernel, rfl, rfl, rfl⟩,
   ⟨0, 0, { base with cals := [(0, { waiting := [(3, 7)] })] }, _, _, _, rfl, by decide +kernel, rfl⟩,
   ⟨0, 0, { base with cals := [(0, { running := some (3, 7) })] }, _, _, _, rfl, rfl⟩,
   ⟨late, ⟨0, 5⟩, { base with synce := [(0, { source := some 0, squelched := true })] }, _, _, _, rfl, rfl, rfl, by decide +kernel, by decide +kernel⟩,
   ⟨0, 0, 5, { base with lanes := [(0, { recorded := 10 })] }, _, rfl, by decide +kernel⟩⟩

/-- Values that meet the hypotheses of PortSettings, one for each clause that has some. -/
theorem wit_PortSettings :
    (∃ w, ∃ s : State, ∃ k e a b, runs portCfgCmd w s k = true ∧ e = envAt w s k ∧ nb e.imm 63 = true ∧ a = atBlock s k ∧ b = portTo e.a .disabled (disableOverlaps e.a e.imm a)) ∧
    (∃ w, ∃ s : State, ∃ k e a b, runs portCfgCmd w s k = true ∧ e = envAt w s k ∧ nb e.imm 63 = false ∧ a = atBlock s k ∧ b = portTo e.a .disabled a) ∧
    (∃ w, ∃ s : State, ∃ k e a, runs portStateCmd w s k = true ∧ e = envAt w s k ∧ a = atBlock s k) :=
  ⟨⟨word 0 0 0x880000BDC0000000, base, 1, _, _, _, by decide +kernel, rfl, by decide +kernel, rfl, rfl⟩,
   ⟨word 0 0 0, base, 1, _, _, _, by decide +kernel, rfl, by decide +kernel, rfl, rfl⟩,
   ⟨word 63 0 0, base, 1, _, _, by decide +kernel, rfl, rfl⟩⟩

/-- Values that meet the hypotheses of PortBringUp, one for each clause that has some. -/
theorem wit_PortBringUp :
    (∃ t p, ∃ x : Partner, ∃ s : State, ∃ a n, a = comeTo t s ∧ (getPort a p).state = .negotiating ∧ (getPort a p).waitUntil = none ∧ n = topAbility 8 ((getPort a p).advert &&& x.ability) ∧ n ≠ 0) ∧
    (∃ t p, ∃ s : State, ∃ a, a = comeTo t s ∧ (getPort a p).state = .training) ∧
    (∃ t p, ∃ s : State, ∃ a, a = comeTo t s ∧ (getPort a p).state = .training ∧ (getPort a p).since + (if portRate a p ≤ 2 then 5000000000 else 30000000000) < a.clk.root) ∧
    (∃ t p, ∃ s : State, ∃ a b, a = comeTo t s ∧ (getPort a p).state = .aligning ∧ (getPort a p).since + 100000000 ≤ a.clk.root ∧ b = portTo p .up (locksHeld p a)) ∧
    (∃ t p, ∃ s : State, ∃ a, a = comeTo t s ∧ (getPort a p).state = .aligning ∧ (getPort a p).since + 1000000000 < a.clk.root) ∧
    (∃ t p, ∃ s : State, ∃ a u, a = comeTo t s ∧ (getPort a p).state = .negotiating ∧ (getPort a p).waitUntil = some u ∧ u ≤ a.clk.root) :=
  ⟨⟨0, 0, ⟨3, false⟩, { base with ports := [(0, { state := .negotiating, advert := 3 })] }, _, _, rfl, by decide +kernel, by decide +kernel, rfl, by decide +kernel⟩,
   ⟨0, 0, { base with ports := [(0, { state := .training })] }, _, rfl, by decide +kernel⟩,
   ⟨late, 0, { base with ports := [(0, { state := .training })] }, _, rfl, by decide +kernel, by decide +kernel⟩,
   ⟨late, 0, { base with ports := [(0, { state := .aligning })] }, _, _, rfl, by decide +kernel, by decide +kernel, rfl⟩,
   ⟨late, 0, { base with ports := [(0, { state := .aligning })] }, _, rfl, by decide +kernel, by decide +kernel⟩,
   ⟨late, 0, { base with ports := [(0, { state := .negotiating, waitUntil := some 5 })] }, _, _, rfl, by decide +kernel, rfl, by decide +kernel⟩⟩

/-- Values that meet the hypotheses of PortsAndPause, one for each clause that has some. -/
theorem wit_PortsAndPause :
    (∃ t, ∃ x : LaneLoss, ∃ s : State, ∃ a b, a = comeTo t s ∧ x.lane < 68 ∧ ((x.cause = .signal ∨ x.cause = .cdrLock)) ∧ b = squelchOutputs x.lane (setLane a x.lane { getLane a x.lane with cdrLock := false, lockSince := a.clk.root })) ∧
    (∃ t, ∃ x : LaneLoss, ∃ s : State, ∃ a, a = comeTo t s ∧ x.lane < 68 ∧ x.cause ≠ .signal ∧ x.cause ≠ .cdrLock) ∧
    (∃ t p, ∃ s : State, ∃ a, a = comeTo t s ∧ (getPort a p).state = .up) ∧
    (∃ t p, ∃ s : State, ∃ a, a = comeTo t s ∧ (getPort a p).state = .up ∧ (getPort a p).preempt = .verifying ∧ (getPort a p).verifyAt + (nf (getPort a p).setting 7 1 + 1) * 10000000 < a.clk.root) ∧
    (∃ t p, ∃ s : State, ∃ a, a = comeTo t s ∧ (getPort a p).state = .up ∧ (getPort a p).preempt = .verifying) ∧
    (∃ t p l, ∃ x : MacRx, ∃ s : State, ∃ a b n, a = settleControl p (comeTo t s) ∧ p < 64 ∧ etherType l = 0x8808 ∧ b = countSeen p x.mark x.seen a ∧ receives b p = true ∧ macFault b p l x.mark = some n) ∧
    (∃ t p l, ∃ x : MacRx, ∃ s : State, ∃ a b, a = settleControl p (comeTo t s) ∧ p < 64 ∧ etherType l = 0x8808 ∧ b = countSeen p x.mark x.seen a ∧ receives b p = true ∧ macFault b p l x.mark = none ∧ mf l 14 2 = 0x0001 ∧ 18 ≤ l.length) ∧
    (∃ t p l, ∃ x : MacRx, ∃ s : State, ∃ a b, a = settleControl p (comeTo t s) ∧ p < 64 ∧ etherType l = 0x8808 ∧ b = countSeen p x.mark x.seen a ∧ receives b p = true ∧ macFault b p l x.mark = none ∧ mf l 14 2 = 0x0101 ∧ 18 ≤ l.length) ∧
    (∃ t p c, ∃ s : State, ∃ a u, a = settleControl p (comeTo t s) ∧ (getPause a p c).until_ = some u ∧ u < a.clk.root) ∧
    (∃ t p c, ∃ s : State, ∃ a u, a = settleControl p (comeTo t s) ∧ (getPause a p c).until_ = some u ∧ a.clk.root < u ∧ c < 6 ∧ (getPause a p c).since + nf (getPort a p).setting 20 13 * 100000 ≤ a.clk.root) :=
  ⟨⟨0, ⟨67, .signal⟩, base, _, _, rfl, by decide +kernel, by decide +kernel, rfl⟩,
   ⟨0, ⟨67, .blockLock⟩, base, _, rfl, by decide +kernel, by decide +kernel, by decide +kernel⟩,
   ⟨0, 0, inPort 0 { state := .up } base, _, rfl, by decide +kernel⟩,
   ⟨late, 0, inPort 0 { state := .up, preempt := .verifying } base, _, rfl, by decide +kernel, by decide +kernel, by decide +kernel⟩,
   ⟨late, 0, inPort 0 { state := .up, preempt := .verifying } base, _, rfl, by decide +kernel, by decide +kernel⟩,
   ⟨0, 0, frame 0x8808 [0, 1], {}, inPort 0 { setting := 1518 * 2 ^ 29, state := .up } base, _, _, _, rfl, by decide +kernel, by decide +kernel, rfl, by decide +kernel, rfl⟩,
   ⟨0, 0, frame 0x8808 ([0, 1] ++ zeros), {}, inPort 0 { setting := 1518 * 2 ^ 29, state := .up } base, _, _, rfl, by decide +kernel, by decide +kernel, rfl, by decide +kernel, by decide +kernel, by decide +kernel, by decide +kernel⟩,
   ⟨0, 0, frame 0x8808 ([1, 1] ++ zeros), {}, inPort 0 { setting := 1518 * 2 ^ 29, state := .up } base, _, _, rfl, by decide +kernel, by decide +kernel, rfl, by decide +kernel, by decide +kernel, by decide +kernel, by decide +kernel⟩,
   ⟨late + 1, 0, 0, inPort 0 { pause := [(0, { until_ := some late })] } base, _, _, rfl, rfl, by decide +kernel⟩,
   ⟨late, 0, 5, inPort 0 { setting := 255 * 2 ^ 13, pause := [(5, { until_ := some (late + 1) })] } base, _, _, rfl, rfl, by decide +kernel, by decide +kernel, by decide +kernel⟩⟩

/-- Values that meet the hypotheses of ClassifierAndCounters, one for each clause that has some. -/
theorem wit_ClassifierAndCounters :
    (∃ w, ∃ s : State, ∃ k e a, runs clsMapCmd w s k = true ∧ e = envAt w s k ∧ a = atBlock s k) ∧
    (∃ w, ∃ s : State, ∃ k e a, runs clsRuleCmd w s k = true ∧ e = envAt w s k ∧ a = atBlock s k) ∧
    (∃ a : State, ∃ b : OldTables, a.cls.before = some b ∧ b.edge = cclkEdge a) ∧
    (∃ w, ∃ s : State, ∃ k e a b, runs cntReadCmd w s k = true ∧ e = envAt w s k ∧ a = settleBefore (atBlock s k) ∧ w.x = 0 ∧ b = (if e.a = 7 then foldDeltas e.b a else a)) ∧
    (∃ w, ∃ s : State, ∃ k e a b, runs cntReadCmd w s k = true ∧ e = envAt w s k ∧ a = settleBefore (atBlock s k) ∧ w.x = 1 ∧ b = (if e.a = 7 then foldDeltas e.b a else a)) ∧
    (∃ w, ∃ s : State, ∃ k e a, runs cntClearCmd w s k = true ∧ e = envAt w s k ∧ a = settleBefore (atBlock s k)) :=
  ⟨⟨word 32 4094 0, base, 1, _, _, by decide +kernel, rfl, rfl⟩,
   ⟨word 1023 0 0x78000, base, 1, _, _, by decide +kernel, rfl, rfl⟩,
   ⟨{ base with cls := { base.cls with before := some ⟨0, [], [], []⟩ } }, ⟨0, [], [], []⟩, by decide +kernel, by decide +kernel⟩,
   ⟨word 1 0 0x78000, base, 1, _, _, _, by decide +kernel, rfl, rfl, by decide +kernel, rfl⟩,
   ⟨word 1 0 0x78000 1, base, 1, _, _, _, by decide +kernel, rfl, rfl, by decide +kernel, rfl⟩,
   ⟨word 1 0 0, base, 1, _, _, by decide +kernel, rfl, rfl⟩⟩

/-- Values that meet the hypotheses of PeerTable, one for each clause that has some. -/
theorem wit_PeerTable :
    (∃ w, ∃ s : State, ∃ k e a v p c ch set i, runs peerAddCmd w s k = true ∧ e = envAt w s k ∧ a = trafficFirst (opChan e) (atBlock s k) ∧ a.cls.flush = none ∧ v = beNat (readMem a e.imm 16) ∧ p = nf v 63 59 ∧ c = nf v 127 64 ∧ ch = nf v 55 40 ∧ set = peerSet a p c ∧ findWay a 16 set p c = some i ∧ chanPinned a ch = false ∧ ((∀ x, peerChannel a p c = some x → x = ch))) ∧
    (∃ w, ∃ s : State, ∃ k e a v p c ch set i, runs peerAddCmd w s k = true ∧ e = envAt w s k ∧ a = trafficFirst (opChan e) (atBlock s k) ∧ a.cls.flush = none ∧ v = beNat (readMem a e.imm 16) ∧ p = nf v 63 59 ∧ c = nf v 127 64 ∧ ch = nf v 55 40 ∧ set = peerSet a p c ∧ findWay a 16 set p c = none ∧ freeWay a set 0 4 = some i) ∧
    (∃ w, ∃ s : State, ∃ k e a v p c ch b, runs peerAddCmd w s k = true ∧ e = envAt w s k ∧ a = trafficFirst (opChan e) (atBlock s k) ∧ a.cls.flush = none ∧ v = beNat (readMem a e.imm 16) ∧ p = nf v 63 59 ∧ c = nf v 127 64 ∧ ch = nf v 55 40 ∧ b = countOp 0x32 (noteTables a) ∧ peerAdd b p c ch = none) ∧
    (∃ w, ∃ s : State, ∃ k e a v p c set i, runs peerDelCmd w s k = true ∧ e = envAt w s k ∧ a = atBlock s k ∧ v = beNat (readMem a e.imm 16) ∧ p = nf v 63 59 ∧ c = nf v 127 64 ∧ set = peerSet a p c ∧ findWay a 16 set p c = some i) ∧
    (∃ w, ∃ s : State, ∃ k e a v p c set i x, runs peerSearchCmd w s k = true ∧ e = envAt w s k ∧ a = atBlock s k ∧ a.cls.flush = none ∧ v = beNat (readMem a e.imm 16) ∧ p = nf v 63 59 ∧ c = nf v 127 64 ∧ set = peerSet a p c ∧ findWay a 16 set p c = some i ∧ peerAt a set i = some x) ∧
    (∃ w, ∃ s : State, ∃ k e a v p c set, runs peerSearchCmd w s k = true ∧ e = envAt w s k ∧ a = atBlock s k ∧ a.cls.flush = none ∧ v = beNat (readMem a e.imm 16) ∧ p = nf v 63 59 ∧ c = nf v 127 64 ∧ set = peerSet a p c ∧ findWay a 16 set p c = none) ∧
    (∃ w, ∃ s : State, ∃ k e a v i x, runs peerNextCmd w s k = true ∧ e = envAt w s k ∧ a = atBlock s k ∧ a.cls.flush = none ∧ v = beNat (readMem a e.imm 16) ∧ walkNext a (if nb e.b 0 then 0 else walkKey (peerSet a (nf v 63 59) (nf v 127 64)) (nf v 63 59) (nf v 127 64) + 1) (if nb e.b 1 then some (nf v 63 59) else none) (nb e.b 2) = some (i, x)) ∧
    (∃ w, ∃ s : State, ∃ k e a b, runs peerFlushCmd w s k = true ∧ e = envAt w s k ∧ a = atBlock s k ∧ b = countOp 0x36 a) ∧
    (∃ t, ∃ s : State, ∃ a f, a = comeTo t s ∧ a.cls.flush = some f ∧ f.since + 4096 * 12 ≤ a.clk.root) ∧
    (∃ t set way, ∃ s : State, ∃ a x, a = comeTo t s ∧ a.cls.flush = none ∧ peerAt a set way = some x ∧ x.bound = false ∧ x.expires < a.clk.root) :=
  ⟨⟨word 0 0 0x78000, withPeer ⟨5, 0, true, 9, 0⟩ (inWin 16 (peerFive 9) base), 1, _, _, _, _, _, _, _, 0, by decide +kernel, rfl, rfl, by decide +kernel, rfl, rfl, rfl, rfl, rfl, by decide +kernel, by decide +kernel, by intro x hx; exact (Option.some.inj (hx.symm.trans (by decide +kernel)))⟩,
   ⟨word 0 0 0x78000, inWin 16 (peerFive 9) base, 1, _, _, _, _, _, _, _, 0, by decide +kernel, rfl, rfl, by decide +kernel, rfl, rfl, rfl, rfl, rfl, by decide +kernel, by decide +kernel⟩,
   ⟨word 0 0 0x78000, inWin 16 (peerFive 9) { base with cls := { base.cls with peers := (List.range 4).map (fun i => (peerSet base 0 5 * 16 + i, ⟨100 + i, 1, true, 9, 0⟩)) } }, 1, _, _, _, _, _, _, _, by decide +kernel, rfl, rfl, by decide +kernel, rfl, rfl, rfl, rfl, rfl, by decide +kernel⟩,
   ⟨word 0 0 0x78000, withPeer ⟨5, 0, true, 9, 0⟩ (inWin 16 (peerFive 0) base), 1, _, _, _, _, _, _, 0, by decide +kernel, rfl, rfl, rfl, rfl, rfl, rfl, by decide +kernel⟩,
   ⟨word 0 0 0x78000, withPeer ⟨5, 0, true, 9, 0⟩ (inWin 16 (peerFive 0) base), 1, _, _, _, _, _, _, 0, ⟨5, 0, true, 9, 0⟩, by decide +kernel, rfl, rfl, by decide +kernel, rfl, rfl, rfl, rfl, by decide +kernel, by decide +kernel⟩,
   ⟨word 0 0 0x78000, inWin 16 (peerFive 0) base, 1, _, _, _, _, _, _, by decide +kernel, rfl, rfl, by decide +kernel, rfl, rfl, rfl, rfl, by decide +kernel⟩,
   ⟨word 0 1 0x78000, withPeer ⟨5, 0, true, 9, 0⟩ (inWin 16 0 base), 1, _, _, _, peerSet base 0 5 * 16, ⟨5, 0, true, 9, 0⟩, by decide +kernel, rfl, rfl, by decide +kernel, rfl, by decide +kernel⟩,
   ⟨word 0 1 31, base, 1, _, _, _, by decide +kernel, rfl, rfl, rfl⟩,
   ⟨late, { base with cls := { base.cls with flush := some ⟨0, 0, 7, 0, 0⟩ } }, _, _, rfl, rfl, by decide +kernel⟩,
   ⟨late + 1, peerSet base 0 5, 0, withPeer ⟨5, 0, false, 0, late⟩ base, _, ⟨5, 0, false, 0, late⟩, rfl, by decide +kernel, by decide +kernel, by decide +kernel, by decide +kernel⟩⟩

/-- Values that meet the hypotheses of Channels, one for each clause that has some. -/
theorem wit_Channels :
    (∃ w, ∃ s : State, ∃ k e a v, runs chSetCmd w s k = true ∧ e = envAt w s k ∧ a = trafficFirst (opChan e) (atBlock s k) ∧ v = beNat (readMem a e.imm 64) ∧ hChen v = true ∧ ((present a e.b = false ∨ (getChan a e.b).cold = true))) ∧
    (∃ w, ∃ s : State, ∃ k e a b v, runs chSetCmd w s k = true ∧ e = envAt w s k ∧ a = trafficFirst (opChan e) (atBlock s k) ∧ v = beNat (readMem a e.imm 64) ∧ hChen v = true ∧ present a e.b = true ∧ (getChan a e.b).cold = false ∧ fillNow e.b e.fill e.back a = (stOk, b)) ∧
    (∃ w, ∃ s : State, ∃ k e a b v st, runs chSetCmd w s k = true ∧ e = envAt w s k ∧ a = trafficFirst (opChan e) (atBlock s k) ∧ v = beNat (readMem a e.imm 64) ∧ hChen v = true ∧ present a e.b = true ∧ (getChan a e.b).cold = false ∧ fillNow e.b e.fill e.back a = (st, b) ∧ st ≠ stOk) ∧
    (∃ w, ∃ s : State, ∃ k e a v, runs chSetCmd w s k = true ∧ e = envAt w s k ∧ a = trafficFirst (opChan e) (atBlock s k) ∧ v = beNat (readMem a e.imm 64) ∧ hChen v = false) ∧
    (∃ w, ∃ s : State, ∃ k e a b c, runs chPinCmd w s k = true ∧ e = envAt w s k ∧ a = trafficFirst (opChan e) (atBlock s k) ∧ (getChan a e.b).pinned = false ∧ a.cls.flush = none ∧ movePeers e.b (noteTables a) = some b ∧ c = syncSlots e.b (setChan (requestFill e.b b) e.b { getChan (requestFill e.b b) e.b with pinning := some e.cseq }) ∧ pinReady c e.b = false) ∧
    (∃ w, ∃ s : State, ∃ k e a, runs chPinCmd w s k = true ∧ e = envAt w s k ∧ a = trafficFirst (opChan e) (atBlock s k) ∧ (getChan a e.b).pinned = true) ∧
    (∃ w, ∃ s : State, ∃ k e a, runs chUnpinCmd w s k = true ∧ e = envAt w s k ∧ a = trafficFirst (opChan e) (atBlock s k) ∧ (getChan a e.b).pinned = true) ∧
    (∃ w, ∃ s : State, ∃ k e a, runs chReadCmd w s k = true ∧ e = envAt w s k ∧ a = trafficFirst (opChan e) (atBlock s k)) ∧
    (∃ w, ∃ s : State, ∃ k e a, runs sysReconcileCmd w s k = true ∧ w.via = .answered ∧ e = envAt w s k ∧ a = trafficFirst (opChan e) (atBlock s k) ∧ e.imm = 1) ∧
    (∃ c, ∃ s : State, ∃ a v x, a = advance (s.clk.root + 16) s ∧ v = beNat (readMem a (viewAddr c) 4) ∧ x = stateWord (getChan a c)) ∧
    (∃ t c res, ∃ s : State, ∃ a b i st, a = settle (comeTo t s) ∧ lineOf a c .writeBack = some i ∧ backAnswer c ((tabFind a.assoc.lines i).map (·.back) |>.getD 0) res a = (st, b)) ∧
    (∃ t, ∃ s : State, ∃ a b i, a = settle (comeTo t s) ∧ freeLines a < 32 ∧ turnClock (2 * 2048 + 1) a = (b, some i)) ∧
    (∃ t, ∃ s : State, ∃ a, a = settle (comeTo t s) ∧ 32 ≤ freeLines a) :=
  ⟨⟨word 0 65535 0x78000, inWin 64 txHead base, 1, _, _, _, by decide +kernel, rfl, rfl, rfl, by decide +kernel, by decide +kernel⟩,
   ⟨word 0 0 0x78000, inChan { resident := true, header := txHead } (inWin 64 txHead base), 1, _, _, _, _, by decide +kernel, rfl, rfl, rfl, by decide +kernel, by decide +kernel, by decide +kernel, pair_first (by decide +kernel)⟩,
   ⟨{ word 0 0 0x78000 with fill := .poisoned }, inChan { header := txHead } (inWin 64 txHead base), 1, _, _, _, _, _, by decide +kernel, rfl, rfl, rfl, by decide +kernel, by decide +kernel, by decide +kernel, Prod.mk.eta.symm, by decide +kernel⟩,
   ⟨word 0 0 0x78000, inChan { header := txHead } base, 1, _, _, _, by decide +kernel, rfl, rfl, rfl, by decide +kernel⟩,
   ⟨word 0 0 0, inChan { header := txHead } base, 1, _, _, _, _, by decide +kernel, rfl, rfl, by decide +kernel, by decide +kernel, rfl, rfl, by decide +kernel⟩,
   ⟨word 0 0 0, inChan { header := txHead, pinned := true } base, 1, _, _, by decide +kernel, rfl, rfl, by decide +kernel⟩,
   ⟨word 0 0 0, inChan { header := txHead, pinned := true } base, 1, _, _, by decide +kernel, rfl, rfl, by decide +kernel⟩,
   ⟨word 0 0 0x78000, inChan { header := txHead } base, 1, _, _, by decide +kernel, rfl, rfl⟩,
   ⟨word 0 0 1, base, 1, _, _, by decide +kernel, by decide +kernel, rfl, rfl, by decide +kernel⟩,
   ⟨65535, base, _, _, _, rfl, rfl, rfl⟩,
   ⟨0, 0, .poisoned, { base with assoc := { base.assoc with lines := [(0, ⟨0, .writeBack, true, true, 0, none, 0, []⟩)] } }, _, _, 0, _, rfl, by decide +kernel, Prod.mk.eta.symm⟩,
   ⟨0, crowded, _, _, 0, rfl, by decide +kernel, pair_eq clock_turns⟩,
   ⟨0, base, _, rfl, by decide +kernel⟩⟩

/-- Values that meet the hypotheses of Associations, one for each clause that has some. -/
theorem wit_Associations :
    (∃ w, ∃ s : State, ∃ k e x a b c n v, runs saLoadCmd w s k = true ∧ e = envAt w s k ∧ x = trafficFirst (opChan e) (atBlock s k) ∧ a = committedFor (saSlot e x) x ∧ c = e.b % 2 ^ 16 ∧ n = nf e.b 17 16 ∧ v = beNat (readMem a e.imm 32) ∧ fillNow c e.fill e.back a = (stOk, b)) ∧
    (∃ w, ∃ s : State, ∃ k e x a b st, runs saLoadCmd w s k = true ∧ e = envAt w s k ∧ x = trafficFirst (opChan e) (atBlock s k) ∧ a = committedFor (saSlot e x) x ∧ fillNow (e.b % 2 ^ 16) e.fill e.back a = (st, b) ∧ st ≠ stOk) ∧
    (∃ w, ∃ s : State, ∃ k e a b st, e = envAt w s k ∧ a = trafficFirst (opChan e) (atBlock s k) ∧ fillNow (e.b % 2 ^ 16) e.fill e.back a = (st, b) ∧ st ≠ stOk) ∧
    (∃ w, ∃ s : State, ∃ k e a b c n v, runs saArmCmd w s k = true ∧ e = envAt w s k ∧ a = trafficFirst (opChan e) (atBlock s k) ∧ c = e.b % 2 ^ 16 ∧ n = nf e.b 17 16 ∧ v = beNat (readMem a e.imm 32) ∧ fillNow c e.fill e.back a = (stOk, b)) ∧
    (∃ w, ∃ s : State, ∃ k e a b c n, runs saRollCmd w s k = true ∧ e = envAt w s k ∧ a = trafficFirst (opChan e) (atBlock s k) ∧ c = e.b % 2 ^ 16 ∧ n = nf e.b 17 16 ∧ fillNow c e.fill e.back a = (stOk, b) ∧ hRx (getChan b c).header = true) ∧
    (∃ w, ∃ s : State, ∃ k e a b c n top, runs saRollCmd w s k = true ∧ e = envAt w s k ∧ a = trafficFirst (opChan e) (atBlock s k) ∧ c = e.b % 2 ^ 16 ∧ n = nf e.b 17 16 ∧ fillNow c e.fill e.back a = (stOk, b) ∧ hRx (getChan b c).header = false ∧ top = (activeAn (getChan b c)).elim (lastPn (getChan b c).header) (fun x => (getSub (getChan b c) x).nextPn)) ∧
    (∃ w, ∃ s : State, ∃ k e a b c n u h, runs saRetireCmd w s k = true ∧ e = envAt w s k ∧ a = trafficFirst (opChan e) (atBlock s k) ∧ c = e.b % 2 ^ 16 ∧ n = nf e.b 17 16 ∧ retireIdle (getSub (getChan a c) n).state (nb e.b 18) = false ∧ fillNow c e.fill e.back a = (stOk, b) ∧ u = { getSub (getChan b c) n with wipe := (getSub (getChan b c) n).wipe || nb e.b 18 } ∧ ((u.state = .active ∨ u.state = .loaded)) ∧ h = setSub (getChan b c) n (retireSub u)) ∧
    (∃ w, ∃ s : State, ∃ k e a b c n u, runs saRetireCmd w s k = true ∧ e = envAt w s k ∧ a = trafficFirst (opChan e) (atBlock s k) ∧ c = e.b % 2 ^ 16 ∧ n = nf e.b 17 16 ∧ retireIdle (getSub (getChan a c) n).state (nb e.b 18) = false ∧ fillNow c e.fill e.back a = (stOk, b) ∧ u = { getSub (getChan b c) n with wipe := (getSub (getChan b c) n).wipe || nb e.b 18 } ∧ u.state = .draining) ∧
    (∃ w, ∃ s : State, ∃ k e a b c n u, runs saRetireCmd w s k = true ∧ e = envAt w s k ∧ a = trafficFirst (opChan e) (atBlock s k) ∧ c = e.b % 2 ^ 16 ∧ n = nf e.b 17 16 ∧ retireIdle (getSub (getChan a c) n).state (nb e.b 18) = false ∧ fillNow c e.fill e.back a = (stOk, b) ∧ u = getSub (getChan b c) n ∧ ((u.state = .retired ∨ u.state = .exhausted)) ∧ nb e.b 18 = true) ∧
    (∃ w, ∃ s : State, ∃ k e a c n u, runs saRetireCmd w s k = true ∧ e = envAt w s k ∧ a = trafficFirst (opChan e) (atBlock s k) ∧ c = e.b % 2 ^ 16 ∧ n = nf e.b 17 16 ∧ u = getSub (getChan a c) n ∧ ((u.state = .empty ∨ ((u.state = .retired ∨ u.state = .exhausted) ∧ nb e.b 18 = false)))) ∧
    (∃ t c n, ∃ s : State, ∃ a u, a = settle (comeTo t s) ∧ u = getSub (getChan a c) n ∧ u.state = .draining ∧ rollTime u ≤ a.clk.tod) ∧
    (∃ t c, ∃ s : State, ∃ a n, a = settle (comeTo t s) ∧ (getChan a c).pinned = true ∧ armedAn (getChan a c) = some n ∧ (getSub (getChan a c) n).rollMode = 2 ∧ rollTime (getSub (getChan a c) n) ≤ a.clk.tod + 2000 * 2 ^ 32) :=
  ⟨⟨word 0 0x10000 0x78000, inSlot (inChan { resident := true, header := rxHead } (inWin 32 (2 ^ 44) base)), 1, _, _, _, _, _, _, _, by decide +kernel, rfl, rfl, rfl, rfl, rfl, rfl, pair_first (by decide +kernel)⟩,
   ⟨{ word 0 0x10000 0x78000 with fill := .poisoned }, inSlot (inChan { header := rxHead } (inWin 32 (2 ^ 44) base)), 1, _, _, _, _, _, by decide +kernel, rfl, rfl, rfl, Prod.mk.eta.symm, by decide +kernel⟩,
   ⟨{ word 0 0x10000 0 with fill := .integrity }, inChan { header := rxHead, subs := [(1, { state := .loaded })] } base, 1, _, _, _, _, rfl, rfl, Prod.mk.eta.symm, by decide +kernel⟩,
   ⟨word 0 0x10000 0x78000, inChan { resident := true, header := txHead, subs := [(1, { state := .loaded })] } base, 1, _, _, _, _, _, _, by decide +kernel, rfl, rfl, rfl, rfl, rfl, pair_first (by decide +kernel)⟩,
   ⟨word 0 0x10000 0, inChan { resident := true, header := rxHead, subs := [(1, { state := .loaded })] } base, 1, _, _, _, _, _, by decide +kernel, rfl, rfl, rfl, rfl, pair_first (by decide +kernel), by decide +kernel⟩,
   ⟨word 0 0x30000 0, inChan { resident := true, header := txHead, subs := [(3, { state := .loaded })] } base, 1, _, _, _, _, _, _, by decide +kernel, rfl, rfl, rfl, rfl, pair_first (by decide +kernel), by decide +kernel, rfl⟩,
   ⟨word 0 0x50000 0, inChan { resident := true, header := txHead, subs := [(1, { state := .active })] } base, 1, _, _, _, _, _, _, _, by decide +kernel, rfl, rfl, rfl, rfl, by decide +kernel, pair_first (by decide +kernel), rfl, by decide +kernel, rfl⟩,
   ⟨word 0 0x10000 60000, inChan { resident := true, header := txHead, subs := [(1, { state := .draining, rollSec := 100 })] } base, 1, _, _, _, _, _, _, by decide +kernel, rfl, rfl, rfl, rfl, by decide +kernel, pair_first (by decide +kernel), rfl, by decide +kernel⟩,
   ⟨word 0 0x50000 0, inChan { resident := true, header := txHead, subs := [(1, { state := .exhausted })] } base, 1, _, _, _, _, _, _, by decide +kernel, rfl, rfl, rfl, rfl, by decide +kernel, pair_first (by decide +kernel), rfl, by decide +kernel, by decide +kernel⟩,
   ⟨word 0 0x10000 0, inChan { header := txHead, subs := [(1, { state := .retired })] } base, 1, _, _, _, _, _, by decide +kernel, rfl, rfl, rfl, rfl, rfl, by decide +kernel⟩,
   ⟨late, 0, 1, inChan { header := txHead, subs := [(1, { state := .draining })] } base, _, _, rfl, rfl, by decide +kernel, by decide +kernel⟩,
   ⟨0, 0, inChan { header := txHead, pinned := true, subs := [(1, { state := .loaded, rollMode := 2 })] } base, _, _, rfl, by decide +kernel, rfl, by decide +kernel, by decide +kernel⟩⟩

/-- Values that meet the hypotheses of Scheduling, one for each clause that has some. -/
theorem wit_Scheduling :
    (∃ w, ∃ s : State, ∃ k e a, runs classMapCmd w s k = true ∧ e = envAt w s k ∧ a = atBlock s k) ∧
    (∃ w, ∃ s : State, ∃ k e a v, runs policeSetCmd w s k = true ∧ e = envAt w s k ∧ a = atBlock s k ∧ v = beNat (readMem a e.imm 32) ∧ nb v 252 = true) ∧
    (∃ w, ∃ s : State, ∃ k e a v, runs policeSetCmd w s k = true ∧ e = envAt w s k ∧ a = atBlock s k ∧ v = beNat (readMem a e.imm 32) ∧ nb v 252 = false) ∧
    (∃ w, ∃ s : State, ∃ k e a, runs shapeSetCmd w s k = true ∧ e = envAt w s k ∧ a = atBlock s k) ∧
    (∃ w, ∃ s : State, ∃ k e a, runs preemptSetCmd w s k = true ∧ e = envAt w s k ∧ a = atBlock s k) ∧
    (∃ w, ∃ s : State, ∃ k e a n l, runs gateLoadCmd w s k = true ∧ e = envAt w s k ∧ a = atBlock s k ∧ n = nf (beNat (addrRead e a 32)) 111 103 ∧ l = addrRead e a (32 + 8 * n)) ∧
    (∃ w, ∃ s : State, ∃ k e a g t, runs gateSwapCmd w s k = true ∧ e = envAt w s k ∧ a = atBlock s k ∧ g = getGates a e.a ∧ t = changeTime g (edgeTod a)) ∧
    (∃ w, ∃ s : State, ∃ k e a t, runs gateSwapCancelCmd w s k = true ∧ e = envAt w s k ∧ a = atBlock s k ∧ (getGates a e.a).change = some t ∧ edgeTod a < t) ∧
    (∃ w, ∃ s : State, ∃ k e a, runs gateSwapCancelCmd w s k = true ∧ e = envAt w s k ∧ a = atBlock s k ∧ ((∀ t, (getGates a e.a).change = some t → t ≤ edgeTod a))) ∧
    (∃ t p, ∃ s : State, ∃ a c, a = comeTo t s ∧ (getGates a p).change = some c ∧ c ≤ a.clk.tod) ∧
    (∃ t p, ∃ s : State, ∃ a b n, a = comeTo t s ∧ (getGates a p).oper.enable = true ∧ n = cycleStart (getGates a p) a.clk.tod ∧ b = (if n = (getGates a p).cycleSeen then a else bump 11 p 40 48 1 (setGates a p { getGates a p with cycleSeen := n }))) ∧
    (∃ t p c, ∃ s : State, ∃ a u, a = comeTo t s ∧ (shaperAt a p c a.clk.root).wheel = some u ∧ u ≤ a.clk.root) :=
  ⟨⟨word 63 0xFFFFFF 0x7FFFFFFFFFFFFF, base, 1, _, _, by decide +kernel, rfl, rfl⟩,
   ⟨word 0 2047 0x78000, inWin 32 meter base, 1, _, _, _, by decide +kernel, rfl, rfl, rfl, by decide +kernel⟩,
   ⟨word 0 0 0x78000, base, 1, _, _, _, by decide +kernel, rfl, rfl, rfl, by decide +kernel⟩,
   ⟨word 63 7 0x8000000000000000, base, 1, _, _, by decide +kernel, rfl, rfl⟩,
   ⟨word 63 0 0x8000000000000000, base, 1, _, _, by decide +kernel, rfl, rfl⟩,
   ⟨word 63 0 0x78000, base, 1, _, _, _, _, by decide +kernel, rfl, rfl, rfl, rfl⟩,
   ⟨word 63 0 0, base, 1, _, _, _, _, by decide +kernel, rfl, rfl, rfl, rfl⟩,
   ⟨word 0 0 1, { base with gates := [(0, { change := some (2 ^ 60) })] }, 1, _, _, _, by decide +kernel, rfl, rfl, rfl, by decide +kernel⟩,
   ⟨word 0 0 1, base, 1, _, _, by decide +kernel, rfl, rfl, by decide +kernel⟩,
   ⟨late, 0, { base with gates := [(0, { change := some 1 })] }, _, _, rfl, rfl, by decide +kernel⟩,
   ⟨late, 0, { base with gates := [(0, { oper := { enable := true, cycle := 1000 } })] }, _, _, _, rfl, by decide +kernel, rfl, rfl⟩,
   ⟨late, 0, 0, { base with shapers := [(0, { wheel := some 3 })] }, _, _, rfl, rfl, by decide +kernel⟩⟩

/-- Values that meet the hypotheses of NetworkTime, one for each clause that has some. -/
theorem wit_NetworkTime :
    (∃ w, ∃ s : State, ∃ k e a b, runs timeIncrCmd w s k = true ∧ e = envAt w s k ∧ a = atBlock s k ∧ b = advance (edgeAt 10 (cclkEdge a)) a ∧ e.b = 0) ∧
    (∃ w, ∃ s : State, ∃ k e a b, runs timeIncrCmd w s k = true ∧ e = envAt w s k ∧ a = atBlock s k ∧ b = advance (edgeAt 10 (cclkEdge a)) a ∧ e.b ≠ 0) ∧
    (∃ w, ∃ s : State, ∃ k e a b n, runs timeSetCmd w s k = true ∧ e = envAt w s k ∧ a = atBlock s k ∧ b = advance (edgeAt 10 (cclkEdge a)) a ∧ n = todOfForm (beNat (readMem a e.imm 16) / 2 ^ 32) ∧ n < todWrap) ∧
    (∃ w, ∃ s : State, ∃ k e a b n, runs timeAdjCmd w s k = true ∧ e = envAt w s k ∧ a = atBlock s k ∧ b = advance (edgeAt 10 (cclkEdge a)) a ∧ ((n : Nat) : Int) = (b.clk.tod : Int) + signed 64 e.imm * 65536 ∧ n < todWrap) ∧
    (∃ t, ∃ s : State, ∃ a, a = comeTo t s) ∧
    (∃ t, ∃ s : State, ∃ a, a = comeTo t s ∧ a.clk.wrapped = true) ∧
    (∃ w, ∃ s : State, ∃ k e a, ∃ q : PpsSet, runs timeSetAtPpsCmd w s k = true ∧ e = envAt w s k ∧ a = atBlock s k ∧ q = ⟨todOfForm (beNat (readMem a e.imm 16) / 2 ^ 32), a.clk.root + 20000000000, e.cseq⟩) ∧
    (∃ t r n, ∃ s : State, ∃ a q v, a = comeTo t s ∧ a.clk.ppsSet = some q ∧ v = (getPin a 8).setting ∧ selects v r = true ∧ nf v 59 52 * 40 ≤ n ∧ confirmAt (nf v 59 52) t ≤ q.expiry) ∧
    (∃ t, ∃ s : State, ∃ a q, a = comeTo t s ∧ a.clk.ppsSet = some q ∧ q.expiry < a.clk.root) ∧
    (∃ t i n, ∃ s : State, ∃ a v, a = comeTo t s ∧ i < 9 ∧ v = (getPin a i).setting ∧ nb v 63 = true ∧ n < nf v 59 52 * 40) ∧
    (∃ t i n, ∃ s : State, ∃ a b v, a = comeTo t s ∧ i < 9 ∧ v = (getPin a i).setting ∧ nb v 63 = true ∧ nf v 59 52 * 40 ≤ n ∧ b = bump 14 0 (24 + i) 48 1 (comeTo (confirmAt (nf v 59 52) t) a)) ∧
    (∃ w, ∃ s : State, ∃ k e a, runs captCfgCmd w s k = true ∧ e = envAt w s k ∧ a = atBlock s k ∧ nf e.a 7 6 = 0) ∧
    (∃ w, ∃ s : State, ∃ k e a, runs captCfgCmd w s k = true ∧ e = envAt w s k ∧ a = atBlock s k ∧ nf e.a 7 6 ≠ 0) ∧
    (∃ w, ∃ s : State, ∃ k e a, runs trigArmCmd w s k = true ∧ e = envAt w s k ∧ a = atBlock s k) ∧
    (∃ t o, ∃ s : State, ∃ a x, a = comeTo t s ∧ (getTrig a o).endAt = some x ∧ x ≤ a.clk.root) ∧
    (∃ t o, ∃ s : State, ∃ a, a = comeTo t s ∧ (getTrig a o).endAt = none ∧ trigDone (getTrig a o) = false ∧ pulseTime (getTrig a o) (getTrig a o).k ≤ exactNow a) :=
  ⟨⟨word 0 0 0x0F0000000, base, 1, _, _, _, by decide +kernel, rfl, rfl, rfl, by decide +kernel⟩,
   ⟨word 0 1 0x110000000, base, 1, _, _, _, by decide +kernel, rfl, rfl, rfl, by decide +kernel⟩,
   ⟨word 0 0 0x78000, base, 1, _, _, _, _, by decide +kernel, rfl, rfl, rfl, rfl, by decide +kernel⟩,
   ⟨word 0 0 1, base, 1, _, _, _, (advance ((((atBlock base 1).clk.root + 9) / 10) * 10) (atBlock base 1)).clk.tod + 65536, by decide +kernel, rfl, rfl, rfl, by decide +kernel, by decide +kernel⟩,
   ⟨0, base, _, rfl⟩,
   ⟨0, { base with clk := { base.clk with wrapped := true } }, _, rfl, by decide +kernel⟩,
   ⟨word 0 0 0x78000, { base with timeFn := { base.timeFn with pins := [(8, { setting := 2 ^ 63 + 2 ^ 61 + 3 * 2 ^ 52 })] } }, 1, _, _, _, by decide +kernel, rfl, rfl, rfl⟩,
   ⟨0, true, 120, { base with timeFn := { base.timeFn with pins := [(8, { setting := 2 ^ 63 + 2 ^ 61 + 3 * 2 ^ 52 })] }, clk := { base.clk with ppsSet := some ⟨0, 200, 7⟩ } }, _, _, _, rfl, rfl, rfl, by decide +kernel, by decide +kernel, by decide +kernel⟩,
   ⟨201, { base with timeFn := { base.timeFn with pins := [(8, { setting := 2 ^ 63 + 2 ^ 61 + 3 * 2 ^ 52 })] }, clk := { base.clk with ppsSet := some ⟨0, 200, 7⟩ } }, _, _, rfl, rfl, by decide +kernel⟩,
   ⟨0, 8, 119, { base with timeFn := { base.timeFn with pins := [(8, { setting := 2 ^ 63 + 2 ^ 61 + 3 * 2 ^ 52 })] } }, _, _, rfl, by decide +kernel, rfl, by decide +kernel, by decide +kernel⟩,
   ⟨0, 8, 120, { base with timeFn := { base.timeFn with pins := [(8, { setting := 2 ^ 63 + 2 ^ 61 + 3 * 2 ^ 52 })] } }, _, _, _, rfl, by decide +kernel, rfl, by decide +kernel, by decide +kernel, rfl⟩,
   ⟨word 63 0 0x8000000000000000, base, 1, _, _, by decide +kernel, rfl, rfl, by decide +kernel⟩,
   ⟨word 0x48 0 0xA030000000000000, base, 1, _, _, by decide +kernel, rfl, rfl, by decide +kernel⟩,
   ⟨word 8 0 0x78000, base, 1, _, _, by decide +kernel, rfl, rfl⟩,
   ⟨5, 8, { base with timeFn := { base.timeFn with outputs := [(8, { endAt := some 5 })] } }, _, _, rfl, rfl, by decide +kernel⟩,
   ⟨0, 0, { base with timeFn := { base.timeFn with outputs := [(0, { mode := 1, width := 4 })] } }, _, rfl, by decide +kernel, by decide +kernel, by decide +kernel⟩⟩

/-- Values that meet the hypotheses of StampQueuesAndProbes, one for each clause that has some. -/
theorem wit_StampQueuesAndProbes :
    (∃ w, ∃ s : State, ∃ k e a b q n x got, runs tsPopCmd w s k = true ∧ e = envAt w s k ∧ a = atBlock s k ∧ q = e.b % 32 ∧ n = nf e.b 10 5 ∧ x = tabGet {} a.timeFn.stamps q ∧ got = (x.entries.take n).flatMap (beBytes (if q = 11 then 64 else 16)) ∧ b = storeMem a e.imm (got ++ List.replicate (n * (if q = 11 then 64 else 16) - got.length) 0) ∧ n < x.entries.length) ∧
    (∃ w, ∃ s : State, ∃ k e a b v p r, runs probeSendCmd w s k = true ∧ e = envAt w s k ∧ a = atBlock s k ∧ fitsAccount a .management 1 = true ∧ v = beNat (readMem a e.imm 32) ∧ p = ⟨nf v 239 224, nf v 223 208, a.clk.root + nf v 96 81 * 10000, 0⟩ ∧ b = { a with timeFn := { a.timeFn with probes := tabPut a.timeFn.probes (nf v 255 240) p } } ∧ r = sendOwn (nf v 239 224) (nf v 207 205) (if nb v 204 then some (nf v 203 193) else none) (probeFrame (beBytes 6 (nf v 192 145)) (beBytes 6 (nf v 144 97)) 1 (nf v 255 240) 0 0 0) (.probe (nf v 255 240)) b) ∧
    (∃ w, ∃ s : State, ∃ k e a, runs probeSendCmd w s k = true ∧ e = envAt w s k ∧ a = atBlock s k ∧ fitsAccount a .management 1 = false) ∧
    (∃ w, ∃ s : State, ∃ k e a v, ∃ r : Responder, runs probeResponderCmd w s k = true ∧ e = envAt w s k ∧ a = atBlock s k ∧ v = beNat (readMem a e.imm 32) ∧ nb v 246 = true ∧ r = ⟨nf v 245 230, nf v 229 214, nf v 213 211, nb v 210, nf v 209 199⟩) ∧
    (∃ w, ∃ s : State, ∃ k e a v, runs probeResponderCmd w s k = true ∧ e = envAt w s k ∧ a = atBlock s k ∧ v = beNat (readMem a e.imm 32) ∧ nb v 246 = false) ∧
    (∃ t i, ∃ s : State, ∃ a p, a = comeTo t s ∧ tabFind a.timeFn.probes i = some p ∧ p.expiry < a.clk.root) :=
  ⟨⟨word 0 (32 * 1 + 11) 0x78000, { base with timeFn := { base.timeFn with stamps := [(11, { entries := [1, 2] })] } }, 1, _, _, _, _, _, _, _, by decide +kernel, rfl, rfl, rfl, rfl, rfl, rfl, rfl, by decide +kernel⟩,
   ⟨word 0 0 0x78000, { inWin 32 (2 ^ 208 + 6 * 2 ^ 205 + 2 ^ 81) base with assoc := { base.assoc with chans := [(0, { header := txHead }), (1, { header := rxHead })] } }, 1, _, _, _, _, _, _, by decide +kernel, rfl, rfl, by decide +kernel, rfl, rfl, rfl, rfl⟩,
   ⟨word 0 0 0x78000, { inWin 32 (2 ^ 208 + 6 * 2 ^ 205 + 2 ^ 81) base with assoc := { base.assoc with chans := [(0, { header := txHead }), (1, { header := rxHead })] }, cask := { base.cask with mgmt := 8192 } }, 1, _, _, by decide +kernel, rfl, rfl, by decide +kernel⟩,
   ⟨word 0 1 0x78000, { inWin 32 (2 ^ 246 + 2 ^ 230 + 6 * 2 ^ 211) base with assoc := { base.assoc with chans := [(0, { header := txHead }), (1, { header := rxHead })] } }, 1, _, _, _, _, by decide +kernel, rfl, rfl, rfl, by decide +kernel, rfl⟩,
   ⟨word 0 1 0x78000, base, 1, _, _, _, by decide +kernel, rfl, rfl, rfl, by decide +kernel⟩,
   ⟨6, 0, { base with timeFn := { base.timeFn with probes := [(0, ⟨0, 1, 5, 0⟩)] } }, _, _, rfl, rfl, by decide +kernel⟩⟩

/-- Values that meet the hypotheses of KeyVault, one for each clause that has some. -/
theorem wit_KeyVault :
    (∃ w, ∃ s : State, ∃ k e a, runs slotEraseCmd w s k = true ∧ e = envAt w s k ∧ a = atBlock s k) ∧
    (∃ w, ∃ s : State, ∃ k e a, runs slotInfoCmd w s k = true ∧ e = envAt w s k ∧ a = committedFor (e.b % 256) (atBlock s k)) ∧
    (∃ i : Nat, ¬(4 ≤ i ∧ i < 16)) ∧
    (∃ i : Nat, 4 ≤ i ∧ i < 16) ∧
    (∃ w, ∃ s : State, ∃ k e a d src o, ∃ st : Nat, runs unwrapCmd w s k = true ∧ e = envAt w s k ∧ a = committedFor (e.b % 256) (atBlock s k) ∧ d = getSlot a (e.b / 256) ∧ src = getSlot a (e.b % 256) ∧ firstFail (unwrapOwn e a) = 0 ∧ o = kwpUnwrap 256 (beNat (fit 32 src.payload)) ((readMem a e.imm 96).take 80) ∧ st = (match o with | none => stAuth | some p => firstFail (unwrapContent (nf src.attr 19 16) p))) ∧
    (∃ w, ∃ s : State, ∃ k e a x b, ∃ r : BKey, runs blkKeyCmd w s k = true ∧ e = envAt w s k ∧ a = committedFor (e.b % 256) (atBlock s k) ∧ x = getSlot a (e.b % 256) ∧ b = (if nf x.attr 31 28 = 1 then 256 else 128) ∧ r = { key := beNat (fit (b / 8) x.payload), bits := b, slot := e.b % 256, gen := nf x.attr 11 0, enc := nb x.attr 27, dec := nb x.attr 26 }) ∧
    (∃ w, ∃ s : State, ∃ k e a r, runs blkOpCmd w s k = true ∧ e = envAt w s k ∧ a = atBlock s k ∧ tabFind a.vault.bk (e.a % 4) = some r) ∧
    (∃ w, ∃ s : State, ∃ k e a r, runs blkCmpCmd w s k = true ∧ e = envAt w s k ∧ a = atBlock s k ∧ tabFind a.vault.bk (e.a % 4) = some r) ∧
    (∃ w, ∃ s : State, ∃ k e a r, runs drbgGetCmd w s k = true ∧ e = envAt w s k ∧ a = atBlock s k ∧ r = internalRandom (8 * e.b) a) :=
  ⟨⟨word 0 255 0, base, 1, _, _, by decide +kernel, rfl, rfl⟩,
   ⟨word 0 255 0, base, 1, _, _, by decide +kernel, rfl, rfl⟩,
   ⟨0, by decide +kernel⟩,
   ⟨4, by decide +kernel, by decide +kernel⟩,
   (unwrap_values (envAt (word 0 0x1110 0x78000) wrapping 1) (atBlock wrapping 1) (getSlot (atBlock wrapping 1) 16)).elim fun o h => h.elim fun st h => ⟨word 0 0x1110 0x78000, wrapping, 1, _, _, getSlot (atBlock wrapping 1) 17, getSlot (atBlock wrapping 1) 16, o, st, by decide +kernel, rfl, rfl, by decide +kernel, by decide +kernel, by decide +kernel, h.1, h.2⟩,
   ⟨word 3 16 0, { base with vault := { base.vault with slots := [(16, { payload := List.replicate 32 7, attr := 2 ^ 28 + 2 ^ 12 })] } }, 1, _, _, _, _, _, by decide +kernel, rfl, rfl, rfl, rfl, rfl⟩,
   ⟨word 7 128 0x78000, { base with vault := { base.vault with bk := [(3, ⟨1, 256, 16, 0, true, true⟩)] } }, 1, _, _, _, by decide +kernel, rfl, rfl, rfl⟩,
   ⟨word 3 64 0x78000, { base with vault := { base.vault with bk := [(3, ⟨1, 256, 16, 0, true, true⟩)] } }, 1, _, _, _, by decide +kernel, rfl, rfl, rfl⟩,
   ⟨word 0 4 0, base, 1, _, _, _, by decide +kernel, rfl, rfl, rfl⟩⟩

/-- Values that meet the hypotheses of RowsArePermuted, one for each clause that has some. -/
theorem wit_RowsArePermuted : ∃ key : Nat, ∃ i : BitVec 8, ∃ j : BitVec 8, rowOf key i = rowOf key j :=
  ⟨0, 0, 0, rfl⟩

/-- Values that meet the hypotheses of VaultEvents, one for each clause that has some. -/
theorem wit_VaultEvents :
    (∃ w, ∃ s : State, ∃ k e a, runs graftCmd w s k = true ∧ e = envAt w s k ∧ a = atBlock s k) ∧
    (∃ run : GraftRun, ∃ s : State, ∃ a g l, a = comeTo run.t s ∧ a.vault.serving = none ∧ a.vault.journal = none ∧ a.vault.grafts = g :: l ∧ run.upTo = .taken) ∧
    (∃ run : GraftRun, ∃ s : State, ∃ a b v r, a = comeTo run.t s ∧ a.vault.serving = some v ∧ v.phase = .taken ∧ ((graftNeedsPress v.msg.octets = false ∨ pressIdle a = true)) ∧ run.bursts = [] ∧ run.upTo = .checked ∧ r = graftVerdict a v.msg.octets v.keys ∧ b = pressServes v.msg.octets v.keys a) ∧
    (∃ run : GraftRun, ∃ s : State, ∃ a v, a = comeTo run.t s ∧ a.vault.serving = some v ∧ v.phase = .checked ∧ run.bursts = [] ∧ run.torn = false ∧ run.upTo = .counted) ∧
    (∃ run : GraftRun, ∃ s : State, ∃ a v, a = comeTo run.t s ∧ a.vault.serving = some v ∧ v.phase = .counted ∧ run.bursts = [] ∧ run.upTo = .armed) ∧
    (∃ run : GraftRun, ∃ s : State, ∃ a b v, a = comeTo run.t s ∧ a.vault.serving = some v ∧ v.phase = .armed ∧ run.bursts = [] ∧ run.upTo = .committed ∧ v.msg.relay = none ∧ b = bump 17 0 16 48 1 (extendReg 5 (sha384 (v.msg.octets.take (opsEnd v.msg.octets))) (v.ops.foldl (fun s o => applyOp o s) { a with vault := { a.vault with serving := none } }))) ∧
    (∃ t, ∃ s : State, ∃ a b, a = comeTo t s ∧ a.vault.drbgStopped = false ∧ 65536 ≤ a.vault.drbgRequests ∧ b = drbgSeed (a.vault.drbgKey, a.vault.drbgV) a) ∧
    (∃ t raw, ∃ s : State, ∃ a, a = comeTo t s ∧ a.vault.drbgStopped = false ∧ a.power.held = false ∧ ((repetitionFails raw = true ∨ proportionFails raw = true))) ∧
    (∃ t, ∃ s : State, ∃ a, a = comeTo t s ∧ a.vault.drbgStopped = true ∧ a.vault.drbgErased = false ∧ a.vault.drbgAttempts < 3 ∧ a.vault.drbgFailedAt + 100000000 * a.vault.drbgAttempts ≤ a.clk.root) ∧
    (∃ t, ∃ s : State, ∃ a, a = comeTo t s ∧ a.vault.drbgStopped = true ∧ a.vault.drbgErased = true) ∧
    (∃ run : RemaskRun, ∃ s : State, ∃ a b, a = comeTo run.t s ∧ a.vault.drbgStopped = false ∧ a.power.held = false ∧ a.vault.remaskRow = 0 ∧ a.vault.remaskAt + 10000000000 ≤ a.clk.root ∧ run.upTo = 256 ∧ b = readRows run 0 256 (beginRemask a)) :=
  ⟨⟨word 0 8192 0x1000 1, base, 1, _, _, by decide +kernel, rfl, rfl⟩,
   ⟨⟨0, .taken, 0, false, []⟩, { base with vault := { base.vault with grafts := [⟨[], 7, none⟩] } }, _, ⟨[], 7, none⟩, [], rfl, by decide +kernel, by decide +kernel, by decide +kernel, by decide +kernel⟩,
   ⟨⟨0, .checked, 0, false, []⟩, { base with vault := { base.vault with serving := some { msg := ⟨[], 7, none⟩, phase := .taken, keys := [] } } }, _, _, { msg := ⟨[], 7, none⟩, phase := .taken, keys := [] }, _, rfl, by decide +kernel, by decide +kernel, by decide +kernel, by decide +kernel, by decide +kernel, rfl, rfl⟩,
   ⟨⟨0, .counted, 0, false, []⟩, { base with vault := { base.vault with serving := some { msg := ⟨[], 7, none⟩, phase := .checked, keys := [] } } }, _, { msg := ⟨[], 7, none⟩, phase := .checked, keys := [] }, rfl, by decide +kernel, by decide +kernel, by decide +kernel, by decide +kernel, by decide +kernel⟩,
   ⟨⟨0, .armed, 0, false, []⟩, { base with vault := { base.vault with serving := some { msg := ⟨[], 7, none⟩, phase := .counted, keys := [] } } }, _, { msg := ⟨[], 7, none⟩, phase := .counted, keys := [] }, rfl, by decide +kernel, by decide +kernel, by decide +kernel, by decide +kernel⟩,
   ⟨⟨0, .committed, 0, false, []⟩, { base with vault := { base.vault with serving := some { msg := ⟨[], 7, none⟩, phase := .armed, keys := [] } } }, _, _, { msg := ⟨[], 7, none⟩, phase := .armed, keys := [] }, rfl, by decide +kernel, by decide +kernel, by decide +kernel, by decide +kernel, by decide +kernel, rfl⟩,
   ⟨0, { base with vault := { base.vault with drbgRequests := 65536 } }, _, _, rfl, by decide +kernel, by decide +kernel, rfl⟩,
   ⟨0, List.replicate 41 true, base, _, rfl, by decide +kernel, by decide +kernel, by decide +kernel⟩,
   ⟨200000000, { base with vault := { base.vault with drbgStopped := true, drbgAttempts := 2 } }, _, rfl, by decide +kernel, by decide +kernel, by decide +kernel, by decide +kernel⟩,
   ⟨0, { base with vault := { base.vault with drbgStopped := true, drbgErased := true } }, _, rfl, by decide +kernel, by decide +kernel⟩,
   ⟨⟨late, 256, []⟩, base, _, _, rfl, by decide +kernel, by decide +kernel, by decide +kernel, by decide +kernel, by decide +kernel, rfl⟩⟩

/-- Values that meet the hypotheses of PressOperations, one for each clause that has some. -/
theorem wit_PressOperations :
    (∃ w, ∃ s : State, ∃ k e a o, runs pkLoadCmd w s k = true ∧ e = envAt w s k ∧ a = atBlock s k ∧ slotAt a e.a = some o) ∧
    (∃ w, ∃ s : State, ∃ k e a o, runs pkReadCmd w s k = true ∧ e = envAt w s k ∧ a = atBlock s k ∧ slotAt a e.a = some o) ∧
    (∃ w, ∃ s : State, ∃ k e a, runs pkOpCmd w s k = true ∧ e = envAt w s k ∧ a = atBlock s k) ∧
    (∃ w, ∃ s : State, ∃ k a, runs pkAbortCmd w s k = true ∧ a = atBlock s k ∧ a.press.running = none) ∧
    (∃ w, ∃ s : State, ∃ k a op r, runs pkAbortCmd w s k = true ∧ a = atBlock s k ∧ a.press.running = some op ∧ op.result = some r ∧ opDue a op = false) ∧
    (∃ t, ∃ s : State, ∃ a op l, a = comeTo t s ∧ pressIdle a = true ∧ internalWaits a = false ∧ a.press.queue = op :: l ∧ op.vault = false) ∧
    (∃ t, ∃ s : State, ∃ a b c op l, a = comeTo t s ∧ pressIdle a = true ∧ internalWaits a = false ∧ a.press.queue = op :: l ∧ op.vault = true ∧ c = committedFor op.slot a ∧ b = bump 17 1 0 48 1 { c with press := { c.press with queue := l, running := some { op with since := c.clk.root } } }) ∧
    (∃ t, ∃ s : State, ∃ a op n o out, a = comeTo t s ∧ a.press.running = some op ∧ op.result = some (0, out) ∧ op.mismatch = false ∧ op.since + 8 * opCycles a op 0 ≤ a.clk.root ∧ fnOutput op.func = some n ∧ slotAt a (nf op.imm 49 40) = some o ∧ op.func ≠ 0xA2) ∧
    (∃ t, ∃ s : State, ∃ a op st, a = comeTo t s ∧ a.press.running = some op ∧ op.result = some (st, []) ∧ st ≠ 0 ∧ op.mismatch = false ∧ op.since + 8 * opCycles a op st ≤ a.clk.root ∧ op.func ≠ 0xA2) ∧
    (∃ t, ∃ s : State, ∃ a op r, a = comeTo t s ∧ a.press.running = some op ∧ op.result = some r ∧ op.mismatch = true ∧ op.since + 8 * opCycles a op r.1 ≤ a.clk.root) :=
  ⟨⟨word 1023 64 0x787C0, base, 1, _, _, {}, by decide +kernel, rfl, rfl, by decide +kernel⟩,
   ⟨word 1023 64 0x787C0, base, 1, _, _, {}, by decide +kernel, rfl, rfl, by decide +kernel⟩,
   ⟨word 0 1 0x400, base, 1, _, _, by decide +kernel, rfl, rfl⟩,
   ⟨word 0 0 0, base, 1, _, by decide +kernel, rfl, by decide +kernel⟩,
   ⟨word 0 0 0, { base with press := { base.press with running := some { func := 1, vault := false, slot := 0, imm := 0, cseq := 7, since := 2 ^ 60, result := some (0, []) } } }, 1, _, _, _, by decide +kernel, rfl, rfl, rfl, by decide +kernel⟩,
   ⟨0, { base with press := { base.press with queue := [{ func := 1, vault := false, slot := 0, imm := 0, cseq := 7 }] } }, _, _, _, rfl, by decide +kernel, by decide +kernel, rfl, by decide +kernel⟩,
   ⟨0, { base with press := { base.press with queue := [{ func := 0x11, vault := true, slot := 0, imm := 0, cseq := 7 }] } }, _, _, _, _, _, rfl, by decide +kernel, by decide +kernel, rfl, by decide +kernel, rfl, rfl⟩,
   ⟨late, { base with press := { base.press with running := some { func := 0x11, vault := true, slot := 0, imm := 0, cseq := 7, result := some (0, []) } } }, _, _, 64, {}, _, rfl, rfl, rfl, by decide +kernel, by decide +kernel, by decide +kernel, by decide +kernel, by decide +kernel⟩,
   ⟨late, { base with press := { base.press with running := some { func := 1, vault := false, slot := 0, imm := 0, cseq := 7, result := some (0x10, []) } } }, _, _, _, rfl, rfl, rfl, by decide +kernel, by decide +kernel, by decide +kernel, by decide +kernel⟩,
   ⟨late, { base with press := { base.press with running := some { func := 1, vault := false, slot := 0, imm := 0, cseq := 7, mismatch := true, result := some (0x10, []) } } }, _, _, _, rfl, rfl, rfl, by decide +kernel, by decide +kernel⟩⟩

/-- Values that meet the hypotheses of PressAlgorithms, one for each clause that has some. -/
theorem wit_PressAlgorithms :
    (∃ t, ∃ s : State, ∃ a b op g n, a = comeTo t s ∧ a.press.running = some op ∧ op.func = 1 ∧ op.result = none ∧ g = nf op.imm 9 0 ∧ n = nf op.imm 19 10 ∧ b = shape g n a) ∧
    (∃ run : PressRun, ∃ s : State, ∃ a op c q, a = comeTo run.t s ∧ a.press.running = some op ∧ op.result = none ∧ op.vault = false ∧ 1 ≤ c ∧ c ≤ 3 ∧ op.func = 0x30 + c ∧ firstFail (validation a op) = 0 ∧ q = upsetPoint c run.upset (ecdsaPoint c (pointOf c (srcData a op 0)) ((srcData a op 1).take (digF c)) (srcNat a op 2 0 (curveF c)) (srcNat a op 2 (curveF c) (curveF c)))) ∧
    (∃ run : PressRun, ∃ s : State, ∃ a op c q, a = comeTo run.t s ∧ a.press.running = some op ∧ op.result = none ∧ op.vault = false ∧ 1 ≤ c ∧ c ≤ 3 ∧ op.func = 0x50 + c ∧ firstFail (validation a op) = 0 ∧ q = upsetPoint c run.upset (ecMul c (srcNat a op 1 0 (curveF c)) (pointOf c (srcData a op 0)))) ∧
    (∃ run : PressRun, ∃ s : State, ∃ a op c n z o, a = comeTo run.t s ∧ a.press.running = some op ∧ op.result = none ∧ op.vault = false ∧ 1 ≤ c ∧ c ≤ 3 ∧ op.func = 0x60 + c ∧ n = modF c ∧ firstFail (validation a op) = 0 ∧ z = beBytes n (powMod (srcNat a op 2 0 n) (8 * n) (srcNat a op 0 0 n) (srcNat a op 1 0 n)) ∧ o = upsetOctets run.upset z) ∧
    (∃ run : PressRun, ∃ s : State, ∃ a op c n z o, a = comeTo run.t s ∧ a.press.running = some op ∧ op.result = none ∧ op.vault = false ∧ 2 ≤ c ∧ c ≤ 3 ∧ op.func = 0x70 + c ∧ n = modF c ∧ firstFail (validation a op) = 0 ∧ z = beBytes n (powMod (srcNat a op 0 0 n) 32 (srcNat a op 2 0 n) (srcNat a op 0 n 4)) ∧ o = upsetOctets run.upset z) ∧
    (∃ run : PressRun, ∃ s : State, ∃ a op c n z o, a = comeTo run.t s ∧ a.press.running = some op ∧ op.result = none ∧ op.vault = false ∧ 2 ≤ c ∧ c ≤ 3 ∧ op.func = 0x80 + c ∧ n = modF c ∧ firstFail (validation a op) = 0 ∧ z = beBytes n (powMod (srcNat a op 0 0 n) 32 (srcNat a op 2 0 n) (srcNat a op 0 n 4)) ∧ o = upsetOctets run.upset z) ∧
    (∃ run : PressRun, ∃ s : State, ∃ a op v z o, a = comeTo run.t s ∧ a.press.running = some op ∧ op.result = none ∧ op.vault = false ∧ op.func = 0xA3 ∧ v = dsaVerify ((srcData a op 0).take 2592) (srcCounted a op 1 2) (srcCounted a op 2 1) ((srcData a op 3).take 4627) ∧ z = beBytes 1 (bn v) ∧ o = upsetOctets run.upset z) ∧
    (∃ op : PressOp, ∃ a : State, ∃ st : Nat, op.vault = false ∧ op.func ≠ 0xA2 ∧ firstFail (validation a op) = st ∧ st ≠ 0) ∧
    (∃ run : PressRun, ∃ s : State, ∃ a b op c q, a = comeTo run.t s ∧ a.press.running = some op ∧ op.result = none ∧ b = (internalRandom 8 a).2 ∧ op.vault = true ∧ 1 ≤ c ∧ c ≤ 3 ∧ op.func = 0x10 + c ∧ q = upsetPoint c run.upset (ecMul c (secretScalar c op.secret) (curveG c))) ∧
    (∃ run : PressRun, ∃ s : State, ∃ a b op c d dg r z o, a = comeTo run.t s ∧ a.press.running = some op ∧ op.result = none ∧ b = (internalRandom 48 a).2 ∧ op.vault = true ∧ 1 ≤ c ∧ c ≤ 3 ∧ op.func = 0x20 + c ∧ d = secretScalar c op.secret ∧ dg = (srcData a op 0).take (digF c) ∧ r = ecdsaSig c d (signNonce c op dg (internalRandom 48 a).1) dg ∧ z = beBytes (curveF c) r.2 ∧ o = upsetOctets run.upset z) ∧
    (∃ run : PressRun, ∃ s : State, ∃ a b op c q, a = comeTo run.t s ∧ a.press.running = some op ∧ op.result = none ∧ b = (internalRandom 8 a).2 ∧ op.vault = true ∧ 1 ≤ c ∧ c ≤ 3 ∧ op.func = 0x40 + c ∧ firstFail (validation a op) = 0 ∧ q = upsetPoint c run.upset (ecMul c (secretScalar c op.secret) (pointOf c (srcData a op 0)))) ∧
    (∃ run : PressRun, ∃ s : State, ∃ a b op z o, a = comeTo run.t s ∧ a.press.running = some op ∧ op.result = none ∧ b = (internalRandom 8 a).2 ∧ op.vault = true ∧ op.func = 0x91 ∧ z = fit 1568 (kemPub op.secret) ∧ o = upsetOctets run.upset z) ∧
    (∃ run : PressRun, ∃ s : State, ∃ a b op z o, a = comeTo run.t s ∧ a.press.running = some op ∧ op.result = none ∧ b = (internalRandom 8 a).2 ∧ op.vault = true ∧ op.func = 0x93 ∧ z = pressMac (fit 32 (kemDecaps op.secret ((srcData a op 0).take 1568))) ((srcData a op 0).take 1568) (srcCounted a op 1 2) ∧ o = upsetOctets run.upset z) ∧
    (∃ run : PressRun, ∃ s : State, ∃ a b op z o, a = comeTo run.t s ∧ a.press.running = some op ∧ op.result = none ∧ b = (internalRandom 8 a).2 ∧ op.vault = true ∧ op.func = 0xA1 ∧ z = fit 2592 (dsaPub (op.secret.take 32)) ∧ o = upsetOctets run.upset z) ∧
    (∃ run : PressRun, ∃ s : State, ∃ a b op x z o m, a = comeTo run.t s ∧ a.press.running = some op ∧ op.result = none ∧ b = (internalRandom 32 a).2 ∧ op.vault = true ∧ op.func = 0xA2 ∧ x = dsaSign (op.secret.take 32) (srcCounted a op 0 2) (srcCounted a op 1 1) (internalRandom 32 a).1 ∧ z = (match x with | some sig => (fit 4627 sig).drop 64 | none => []) ∧ o = upsetOctets run.upset z ∧ m = decide (o ≠ z)) :=
  ⟨⟨0, { base with press := { base.press with running := some { func := 1, vault := false, slot := 0, imm := 0, cseq := 7 } } }, _, _, _, _, _, rfl, rfl, by decide +kernel, by decide +kernel, rfl, rfl, rfl⟩,
   ⟨⟨0, []⟩, { base with press := { base.press with running := some { func := 0x31, vault := false, slot := 0, imm := 1 * 2 ^ 10 + 2 * 2 ^ 20, cseq := 7 }, ops := [(0, { data := pointBytes 1 (some (curveG 1)) }), (2, { data := beBytes 32 1 ++ beBytes 32 1 })] } }, _, _, 1, _, rfl, rfl, by decide +kernel, by decide +kernel, by decide +kernel, by decide +kernel, by decide +kernel, by decide +kernel, rfl⟩,
   ⟨⟨0, []⟩, { base with press := { base.press with running := some { func := 0x53, vault := false, slot := 0, imm := 4 * 2 ^ 10, cseq := 7 }, ops := [(0, { k := 2, data := pointBytes 3 (some (curveG 3)) }), (4, { k := 1, data := beBytes 66 1 })] } }, _, _, 3, _, rfl, rfl, by decide +kernel, by decide +kernel, by decide +kernel, by decide +kernel, by decide +kernel, by decide +kernel, rfl⟩,
   ⟨⟨0, []⟩, { base with press := { base.press with running := some { func := 0x61, vault := false, slot := 0, imm := 4 * 2 ^ 10 + 8 * 2 ^ 20, cseq := 7 }, ops := [(0, { k := 2, data := beBytes 256 5 }), (4, { k := 2, data := beBytes 256 3 }), (8, { k := 2, data := List.replicate 256 255 })] } }, _, _, 1, _, _, _, rfl, rfl, by decide +kernel, by decide +kernel, by decide +kernel, by decide +kernel, by decide +kernel, rfl, by decide +kernel, rfl, rfl⟩,
   ⟨⟨0, []⟩, { base with press := { base.press with running := some { func := 0x72, vault := false, slot := 0, imm := 8 * 2 ^ 10 + 16 * 2 ^ 20, cseq := 7 }, ops := [(0, { k := 3, data := List.replicate 384 255 ++ beBytes 4 3 }), (16, { k := 3, data := beBytes 384 5 })] } }, _, _, 2, _, _, _, rfl, rfl, by decide +kernel, by decide +kernel, by decide +kernel, by decide +kernel, by decide +kernel, rfl, by decide +kernel, rfl, rfl⟩,
   ⟨⟨0, []⟩, { base with press := { base.press with running := some { func := 0x82, vault := false, slot := 0, imm := 8 * 2 ^ 10 + 16 * 2 ^ 20, cseq := 7 }, ops := [(0, { k := 3, data := List.replicate 384 255 ++ beBytes 4 3 }), (16, { k := 3, data := beBytes 384 5 })] } }, _, _, 2, _, _, _, rfl, rfl, by decide +kernel, by decide +kernel, by decide +kernel, by decide +kernel, by decide +kernel, rfl, by decide +kernel, rfl, rfl⟩,
   ⟨⟨0, []⟩, { base with press := { base.press with running := some { func := 0xA3, vault := false, slot := 0, imm := 0, cseq := 7 }, ops := [] } }, _, _, _, _, _, rfl, rfl, by decide +kernel, by decide +kernel, by decide +kernel, rfl, rfl, rfl⟩,
   ⟨{ func := 0x31, vault := false, slot := 0, imm := 0, cseq := 7 }, base, 64, by decide +kernel, by decide +kernel, by decide +kernel, by decide +kernel⟩,
   ⟨⟨0, []⟩, { base with press := { base.press with running := some { func := 0x11, vault := true, slot := 0, imm := 0, cseq := 7 } } }, _, _, _, 1, _, rfl, rfl, by decide +kernel, rfl, by decide +kernel, by decide +kernel, by decide +kernel, by decide +kernel, rfl⟩,
   ⟨⟨0, []⟩, { base with press := { base.press with running := some { func := 0x23, vault := true, slot := 0, imm := 0, cseq := 7 } } }, _, _, _, 3, _, _, _, _, _, rfl, rfl, by decide +kernel, rfl, by decide +kernel, by decide +kernel, by decide +kernel, by decide +kernel, rfl, rfl, rfl, rfl, rfl⟩,
   ⟨⟨0, []⟩, { base with press := { base.press with running := some { func := 0x42, vault := true, slot := 0, imm := 0, cseq := 7 }, ops := [(0, { k := 1, data := pointBytes 2 (some (curveG 2)) })] } }, _, _, _, 2, _, rfl, rfl, by decide +kernel, rfl, by decide +kernel, by decide +kernel, by decide +kernel, by decide +kernel, by decide +kernel, rfl⟩,
   ⟨⟨0, []⟩, { base with press := { base.press with running := some { func := 0x91, vault := true, slot := 0, imm := 0, cseq := 7 }, ops := [] } }, _, _, _, _, _, rfl, rfl, by decide +kernel, rfl, by decide +kernel, by decide +kernel, rfl, rfl⟩,
   ⟨⟨0, []⟩, { base with press := { base.press with running := some { func := 0x93, vault := true, slot := 0, imm := 0, cseq := 7 }, ops := [] } }, _, _, _, _, _, rfl, rfl, by decide +kernel, rfl, by decide +kernel, by decide +kernel, rfl, rfl⟩,
   ⟨⟨0, []⟩, { base with press := { base.press with running := some { func := 0xA1, vault := true, slot := 0, imm := 0, cseq := 7 }, ops := [] } }, _, _, _, _, _, rfl, rfl, by decide +kernel, rfl, by decide +kernel, by decide +kernel, rfl, rfl⟩,
   ⟨⟨0, []⟩, signs, _, _, signing, _, _, _, _, rfl, by decide +kernel, by decide +kernel, rfl, by decide +kernel, by decide +kernel, rfl, rfl, rfl, rfl⟩⟩

/-- Values that meet the hypotheses of Regions, one for each clause that has some. -/
theorem wit_Regions :
    (∃ w, ∃ s : State, ∃ k e a b v, runs mgRegionCreateCmd w s k = true ∧ e = envAt w s k ∧ a = (mgKeySlot 254 e (atBlock s k)).elim (atBlock s k) (fun i => committedFor i (atBlock s k)) ∧ v = beNat (readMem a e.imm 32) ∧ b = loadKey (nf v 251 246) (if nb v 254 then some (nf v 245 238) else none) (freshPages (nf v 225 202) (nf v 201 178) (dropQuarantine (nf v 225 202) (nf v 201 178) a))) ∧
    (∃ w, ∃ s : State, ∃ k e a, runs mgRegionRemoveCmd w s k = true ∧ e = envAt w s k ∧ a = atBlock s k ∧ getRegion a e.a = none) ∧
    (∃ w, ∃ s : State, ∃ k e a b g, runs mgRegionRemoveCmd w s k = true ∧ e = envAt w s k ∧ a = atBlock s k ∧ getRegion a e.a = some g ∧ b = dropKey g.keyid (g.alias_.elim (endRegionOps g stAborted a) (fun o => dropKey o (endRegionOps g stAborted a))) ∧ a.cls.spillArea = false ∧ b.cls.spillArea = false) ∧
    (∃ w, ∃ s : State, ∃ k e a g, runs mgRightsCmd w s k = true ∧ e = envAt w s k ∧ a = atBlock s k ∧ getRegion a e.a = some g) ∧
    (∃ w, ∃ s : State, ∃ k e a g, runs mgScrubStartCmd w s k = true ∧ e = envAt w s k ∧ a = atBlock s k ∧ getRegion a e.a = some g) ∧
    (∃ w, ∃ s : State, ∃ k e a, runs mgScrubStopCmd w s k = true ∧ e = envAt w s k ∧ a = atBlock s k ∧ ((∀ g, getRegion a e.a = some g → g.scrubbing = none))) ∧
    (∃ w, ∃ s : State, ∃ k e a b g v, runs mgRotateCmd w s k = true ∧ e = envAt w s k ∧ a = (mgKeySlot 252 e (atBlock s k)).elim (atBlock s k) (fun i => committedFor i (atBlock s k)) ∧ getRegion a e.a = some g ∧ v = beNat (readMem a e.imm 32) ∧ b = g.alias_.elim a (fun o => dropKey o a)) ∧
    (∃ w, ∃ s : State, ∃ k e a g, runs mgRebuildCmd w s k = true ∧ e = envAt w s k ∧ a = (mgKeySlot 252 e (atBlock s k)).elim (atBlock s k) (fun i => committedFor i (atBlock s k)) ∧ getRegion a e.a = some g ∧ g.revoked = false) ∧
    (∃ t r, ∃ l : List (Nat × DramFault), ∃ s : State, ∃ a b g, a = comeTo t s ∧ getRegion a r = some g ∧ g.rotating = true ∧ b = (pagesToMove a g).foldl (fun s p => repage r p g.keyid none l s) a) ∧
    (∃ t r, ∃ s : State, ∃ a g q, a = comeTo t s ∧ getRegion a r = some g ∧ g.rebuilding = some q) ∧
    (∃ t, ∃ pass : ScrubPass, ∃ s : State, ∃ a b g q l mended bad, a = comeTo t s ∧ getRegion a pass.region = some g ∧ g.scrubbing = some q ∧ l = liveLines a g ∧ b = l.zipIdx.foldl (fun s x => scrubLine pass.region x.1 (pass.found.getD x.2 .none) s) a ∧ mended = ((l.zipIdx).filter (fun x => !linePoisoned (getLine a x.1.1 x.1.2) && lineMended (pass.found.getD x.2 .none))).length ∧ bad = (l.filter (fun x => linePoisoned (getLine b x.1 x.2))).length) :=
  ⟨⟨word 0 0 0x78000, creating 16, 1, _, _, _, _, by decide +kernel, rfl, rfl, rfl, rfl⟩,
   ⟨word 0 0 0x78000, inWin 32 0 { base with mg := { base.mg with ready := .ready 8388608 } }, 1, _, _, by decide +kernel, rfl, rfl, by decide +kernel⟩,
   ⟨word 0 0 0x78000, inWin 32 0 (withRegion region base), 1, _, _, _, region, by decide +kernel, rfl, rfl, by decide +kernel, rfl, by decide +kernel, by decide +kernel⟩,
   ⟨word 0 0 0x155, withRegion region base, 1, _, _, region, by decide +kernel, rfl, rfl, by decide +kernel⟩,
   ⟨word 0 0 0, withRegion region base, 1, _, _, region, by decide +kernel, rfl, rfl, by decide +kernel⟩,
   ⟨word 0 1 0, withRegion region base, 1, _, _, by decide +kernel, rfl, rfl, fun g h => by rw [show g = region from (Option.some.inj h).symm]; rfl⟩,
   ⟨word 0 0 0x78000, inWin 32 (2 ^ 254 + 2 ^ 253 + 7 * 2 ^ 246) (withRegion region base), 1, _, _, _, region, _, by decide +kernel, rfl, rfl, by decide +kernel, rfl, rfl⟩,
   ⟨word 0 0 0x78000, inWin 32 (2 * 2 ^ 254) (withRegion region base), 1, _, _, region, by decide +kernel, rfl, rfl, by decide +kernel, by decide +kernel⟩,
   ⟨0, 0, [], withRegion { region with rotating := true } base, _, _, { region with rotating := true }, rfl, by decide +kernel, by decide +kernel, rfl⟩,
   ⟨0, 0, withRegion { region with rebuilding := some 7 } base, _, { region with rebuilding := some 7 }, 7, rfl, by decide +kernel, by decide +kernel⟩,
   ⟨0, ⟨0, []⟩, withRegion { region with scrubbing := some 7 } base, _, _, { region with scrubbing := some 7 }, 7, _, _, _, rfl, by decide +kernel, by decide +kernel, rfl, rfl, rfl, rfl⟩⟩

/-- Values that meet the hypotheses of MemoryAccesses, one for each clause that has some. -/
theorem wit_MemoryAccesses :
    (∃ t, ∃ s : State, ∃ a n, a = comeTo t s ∧ a.mg.ready = .training ∧ n = installedPages a.mg.setting) ∧
    (∃ t, ∃ s : State, ∃ a, a = comeTo t s ∧ mgNotReady a ≠ 0) ∧
    (∃ t m, ∃ x : MgAccess, ∃ s : State, ∃ a, a = comeTo t s ∧ mgNotReady a = 0 ∧ accessFail a m x.write x.addr ≠ 0) ∧
    (∃ t m, ∃ x : MgAccess, ∃ s : State, ∃ a b r g, a = comeTo t s ∧ mgNotReady a = 0 ∧ accessFail a m x.write x.addr = 0 ∧ regionOf a (pageOf x.addr) = some (r, g) ∧ loadPath (pageOf x.addr) x.fault a = (true, b) ∧ x.write = false ∧ tabGet 0 (getBlock b (pageOf x.addr)).minors (lineIn x.addr) = 0) ∧
    (∃ t m, ∃ x : MgAccess, ∃ s : State, ∃ a b r g, a = comeTo t s ∧ mgNotReady a = 0 ∧ accessFail a m x.write x.addr = 0 ∧ regionOf a (pageOf x.addr) = some (r, g) ∧ loadPath (pageOf x.addr) x.fault a = (true, b) ∧ x.write = true ∧ x.mask = 2 ^ 64 - 1) ∧
    (∃ t, ∃ s : State, ∃ a x v, a = comeTo t s ∧ a.seq.active.isSome = true ∧ activeNow a = some x ∧ beNat (readMem a 0x6FFEF 1) = 1 ∧ v = beNat (readMem a 0x6FFE0 32) ∧ fieldFail (portDescChecks v) ≠ 0) ∧
    (∃ t, ∃ l : List DramFault, ∃ o : List (Nat × DramFault), ∃ s : State, ∃ a b x v st, a = comeTo t s ∧ a.seq.active.isSome = true ∧ activeNow a = some x ∧ beNat (readMem a 0x6FFEF 1) = 1 ∧ v = beNat (readMem a 0x6FFE0 32) ∧ fieldFail (portDescChecks v) = 0 ∧ (List.range (nf v 159 144)).foldl (fun r i => portLine x v i (l.getD i .none) o r) (0, a) = (st, b)) ∧
    (∃ t n, ∃ s : State, ∃ a p, a = comeTo t s ∧ a.mg.ready = .ready p ∧ patrolled a n = true) :=
  ⟨⟨0, { base with mg := { base.mg with ready := .training } }, _, _, rfl, by decide +kernel, rfl⟩,
   ⟨0, base, _, rfl, by decide +kernel⟩,
   ⟨0, .pcieDma, (⟨false, 0, 0, [], .none, []⟩ : MgAccess), withRegion region base, _, rfl, by decide +kernel, by decide +kernel⟩,
   ⟨0, .pcieDma, (⟨false, 5 * 2 ^ 40 + 16 * 4096, 2 ^ 64 - 1, [], .none, []⟩ : MgAccess), withRegion region base, _, _, 0, region, rfl, by decide +kernel, by decide +kernel, by decide +kernel, pair_first (by decide +kernel), by decide +kernel, by decide +kernel⟩,
   ⟨0, .pcieDma, (⟨true, 5 * 2 ^ 40 + 16 * 4096, 2 ^ 64 - 1, [], .none, []⟩ : MgAccess), withRegion region base, _, _, 0, region, rfl, by decide +kernel, by decide +kernel, by decide +kernel, pair_first (by decide +kernel), by decide +kernel, by decide +kernel⟩,
   ⟨0, writeMem base 0x6FFEF [1], _, 0, _, rfl, by decide +kernel, by decide +kernel, by decide +kernel, rfl, by decide +kernel⟩,
   ⟨0, [], [], writeMem base 0x6FFE0 (beBytes 32 (5 * 2 ^ 232 + 16 * 2 ^ 204 + 0x60000 * 2 ^ 160 + 2 ^ 144 + 2 ^ 128)), _, _, 0, _, _, rfl, by decide +kernel, by decide +kernel, by decide +kernel, rfl, by decide +kernel, Prod.mk.eta.symm⟩,
   ⟨0, 1024, (setBlock 16 ⟨1, [(0, 1)], 5⟩ (withRegion region base)), _, 8388608, rfl, by decide +kernel, by decide +kernel⟩⟩

/-- Values that meet the hypotheses of BookInstructions, one for each clause that has some. -/
theorem wit_BookInstructions :
    (∃ w, ∃ s : State, ∃ k e a, runs logWriteCmd w s k = true ∧ e = envAt w s k ∧ a = atBlock s k) ∧
    (∃ w, ∃ s : State, ∃ k a b, runs logFreezeCmd w s k = true ∧ a = atBlock s k ∧ a.book.frozen = false ∧ b = recordNew (nowEv 0xB000 0 (recordAll a)) (recordAll a)) ∧
    (∃ w, ∃ s : State, ∃ k a, runs logFreezeCmd w s k = true ∧ a = atBlock s k ∧ a.book.frozen = true) ∧
    (∃ w, ∃ s : State, ∃ k a b, runs logThawCmd w s k = true ∧ a = atBlock s k ∧ a.book.frozen = true ∧ b = recordAll a) ∧
    (∃ w, ∃ s : State, ∃ k a, runs logThawCmd w s k = true ∧ a = atBlock s k ∧ a.book.frozen = false) ∧
    (∃ w, ∃ s : State, ∃ k a b, runs logClearCmd w s k = true ∧ a = atBlock s k ∧ b = recordMany (a.book.staged.filter (fun e => decide (e.at_ < a.clk.root))).length a) ∧
    (∃ t, ∃ s : State, ∃ a l, a = comeTo t s ∧ a.power.powerGood = true ∧ l = recordBytes a a.book.cursor) ∧
    (∃ t, ∃ s : State, ∃ a, a = comeTo t s ∧ a.power.powerGood = true ∧ a.book.autoinc = true ∧ a.book.cursorAt ≠ some (pclkEdge a)) ∧
    (∃ t n, ∃ s : State, ∃ a, a = comeTo t s ∧ a.power.powerGood = true ∧ 1 ≤ n ∧ n < 8 ∧ ((n = 7 → a.book.autoinc = false))) :=
  ⟨⟨word 0xB900 0 77, base, 1, _, _, by decide +kernel, rfl, rfl⟩,
   ⟨word 0 0 0, base, 1, _, _, by decide +kernel, rfl, by decide +kernel, rfl⟩,
   ⟨word 0 0 0, { base with book := { base.book with frozen := true } }, 1, _, by decide +kernel, rfl, by decide +kernel⟩,
   ⟨word 0 0 0, { base with book := { base.book with frozen := true, missed := 3 } }, 1, _, _, by decide +kernel, rfl, by decide +kernel, rfl⟩,
   ⟨word 0 0 0, base, 1, _, by decide +kernel, rfl, by decide +kernel⟩,
   ⟨word 0 0 0, base, 1, _, _, by decide +kernel, rfl, rfl⟩,
   ⟨0, base, _, _, rfl, by decide +kernel, rfl⟩,
   ⟨0, { base with book := { base.book with autoinc := true } }, _, rfl, by decide +kernel, by decide +kernel, by decide +kernel⟩,
   ⟨0, 7, base, _, rfl, by decide +kernel, by decide +kernel, by decide +kernel, by decide +kernel⟩⟩

/-- Values that meet the hypotheses of HandlersAndWaits, one for each clause that has some. -/
theorem wit_HandlersAndWaits :
    (∃ w, ∃ s : State, ∃ k e a i, ∃ b : Binding, runs evBindCmd w s k = true ∧ e = envAt w s k ∧ a = atBlock s k ∧ b = ⟨e.a, e.b % 2 ^ 16, nf e.b 19 16, nf e.b 22 21, e.imm⟩ ∧ boundEntry a e.a (e.b % 2 ^ 16) = some i) ∧
    (∃ w, ∃ s : State, ∃ k e a i, ∃ b : Binding, runs evBindCmd w s k = true ∧ e = envAt w s k ∧ a = atBlock s k ∧ b = ⟨e.a, e.b % 2 ^ 16, nf e.b 19 16, nf e.b 22 21, e.imm⟩ ∧ boundEntry a e.a (e.b % 2 ^ 16) = none ∧ freeBinding a = some i) ∧
    (∃ w, ∃ s : State, ∃ k e a i, runs evUnbindCmd w s k = true ∧ e = envAt w s k ∧ a = atBlock s k ∧ boundEntry a e.a (e.b % 2 ^ 16) = some i) ∧
    (∃ t, ∃ s : State, ∃ a e, a = comeTo t s ∧ firstEv (a.book.staged.filter (fun e => decide (e.at_ ≤ a.clk.root))) = some e) ∧
    (∃ t n, ∃ s : State, ∃ a b e, a = comeTo t s ∧ firstEv (a.book.staged.filter (fun e => decide (e.at_ ≤ a.clk.root))) = some e ∧ 0 < n ∧ b = codewordRead (40960 + a.book.staged.idxOf e % 1024) 0 n a) ∧
    (∃ t l, ∃ s : State, ∃ a b en g r rest, a = comeTo t s ∧ l < 16 ∧ executing a = true ∧ (getCtx a (2 * l)).run = .idle ∧ tabGet [] a.seq.activations l = (en, g, r) :: rest ∧ b = { a with seq := { a.seq with activations := tabSet [] a.seq.activations l rest } }) ∧
    (∃ t k, ∃ s : State, ∃ a c m u, a = comeTo t s ∧ executing a = true ∧ (getCtx a k).run = .waitEv c m (some u) ∧ u < a.clk.root) ∧
    (∃ t k, ∃ s : State, ∃ a q u, a = comeTo t s ∧ executing a = true ∧ (getCtx a k).run = .waitSeq q (some u) ∧ u < a.clk.root) ∧
    (∃ t k, ∃ s : State, ∃ a u, a = comeTo t s ∧ executing a = true ∧ (getCtx a k).run = .waitQ u ∧ u ≤ a.clk.root) ∧
    (∃ t k, ∃ s : State, ∃ a u, a = comeTo t s ∧ executing a = true ∧ (getCtx a k).run = .waitAbs u ∧ u ≤ a.clk.tod) ∧
    (∃ t k, ∃ s : State, ∃ a x q c, a = comeTo t s ∧ a.seq.active = some x ∧ (getCtx a k).run = .waitStatus q c ∧ ((executing a = true ∨ a.seq.goOwed = true)) ∧ c + 1000000 < a.clk.root) ∧
    (∃ t q, ∃ s : State, ∃ a p st x d, a = comeTo t s ∧ a.seq.pendOps.find? (fun p => p.cseq == q) = some p ∧ p.ended = some (st, x, d) ∧ p.event ≠ 0x7001) ∧
    (∃ t q, ∃ s : State, ∃ a p st x d, a = comeTo t s ∧ a.seq.pendOps.find? (fun p => p.cseq == q) = some p ∧ p.ended = some (st, x, d) ∧ p.event = 0x7001) :=
  ⟨⟨word 0x1001 0x1FFFF 0x40, { base with seq := { base.seq with bindings := [(9, ⟨0x1001, 0xFFFF, 2, 0, 0x80⟩)] } }, 1, _, _, 9, _, by decide +kernel, rfl, rfl, rfl, by decide +kernel⟩,
   ⟨word 0x1001 0x1FFFF 0x40, base, 1, _, _, 0, _, by decide +kernel, rfl, rfl, rfl, by decide +kernel, by decide +kernel⟩,
   ⟨word 0x1001 0xFFFF 0, { base with seq := { base.seq with bindings := [(9, ⟨0x1001, 0xFFFF, 2, 0, 0x80⟩)] } }, 1, _, _, 9, by decide +kernel, rfl, rfl, by decide +kernel⟩,
   ⟨0, { base with book := { base.book with staged := [{ code := 0x1001 }] } }, _, { code := 0x1001 }, rfl, by decide +kernel⟩,
   ⟨0, 1, { base with book := { base.book with staged := [{ code := 0x1001 }] } }, _, _, { code := 0x1001 }, rfl, by decide +kernel, by decide +kernel, rfl⟩,
   ⟨0, 3, { base with seq := { base.seq with activations := [(3, [(0x40, 0, 2)])] } }, _, _, 0x40, 0, 2, [], rfl, by decide +kernel, by decide +kernel, by decide +kernel, by decide +kernel, rfl⟩,
   ⟨late, 1, { base with seq := { base.seq with ctxs := [(1, { run := .waitEv 0x1001 0xFFFF (some 5) })] } }, _, 0x1001, 0xFFFF, 5, rfl, by decide +kernel, by decide +kernel, by decide +kernel⟩,
   ⟨late, 1, { base with seq := { base.seq with ctxs := [(1, { run := .waitSeq 7 (some 5) })] } }, _, 7, 5, rfl, by decide +kernel, by decide +kernel, by decide +kernel⟩,
   ⟨late, 1, { base with seq := { base.seq with ctxs := [(1, { run := .waitQ 5 })] } }, _, 5, rfl, by decide +kernel, by decide +kernel, by decide +kernel⟩,
   ⟨late, 1, { base with seq := { base.seq with ctxs := [(1, { run := .waitAbs 5 })] } }, _, 5, rfl, by decide +kernel, by decide +kernel, by decide +kernel⟩,
   ⟨late, 1, { base with seq := { base.seq with ctxs := [(1, { run := .waitStatus 7 5 })] } }, _, 0, 7, 5, rfl, by decide +kernel, by decide +kernel, by decide +kernel, by decide +kernel⟩,
   ⟨0, 7, { base with seq := { base.seq with pendOps := [{ cseq := 7, ctx := 1, event := 0x8001, ended := some (0x15, 0, 0) }] } }, _, { cseq := 7, ctx := 1, event := 0x8001, ended := some (0x15, 0, 0) }, 0x15, 0, 0, rfl, by decide +kernel, by decide +kernel, by decide +kernel⟩,
   ⟨0, 7, { base with seq := { base.seq with pendOps := [{ cseq := 7, ctx := 1, event := 0x7001, ended := some (0x15, 0, 0) }] } }, _, { cseq := 7, ctx := 1, event := 0x7001, ended := some (0x15, 0, 0) }, 0x15, 0, 0, rfl, by decide +kernel, by decide +kernel, by decide +kernel⟩⟩

/-- Values that meet the hypotheses of ProgramFlow, one for each clause that has some. -/
theorem wit_ProgramFlow :
    (∃ t q d, ∃ s : State, ∃ a b p, a = comeTo t s ∧ q < 16 ∧ executing a = true ∧ a.hostIf.linkUp = true ∧ (getQueue a q).enabled = true ∧ (getQueue a q).prog = none ∧ (getQueue a q).fetched = none ∧ forwardedQueue a q = false ∧ (getQueue a q).producer ≠ (getQueue a q).consumer ∧ fenceOpen a d = true ∧ fieldFail (descChecks (beNat (fit 64 d))) = 0 ∧ p = progOf a.clk.root (beNat (fit 64 d)) ∧ b = setCtx (setQueue a q { getQueue a q with fetched := none }) (2 * q + 1) { getCtx (setQueue a q { getQueue a q with fetched := none }) (2 * q + 1) with switched := false, last := 0 }) ∧
    (∃ t q, ∃ s : State, ∃ a p, a = comeTo t s ∧ q < 16 ∧ a.hostIf.linkUp = true ∧ (getQueue a q).enabled = true ∧ forwardedQueue a q = false ∧ (getQueue a q).prog = some p ∧ p.cut = none ∧ p.relay = none ∧ (getQueue a q).fetched = none ∧ (getQueue a q).producer ≠ ((getQueue a q).consumer + 1) % 2 ^ 16) ∧
    (∃ t q, ∃ s : State, ∃ a c p, a = comeTo t s ∧ executing a = true ∧ (getCtx a (2 * q + 1)).run = .copying c ∧ c + 1000000 < a.clk.root ∧ (getQueue a q).prog = some p) ∧
    (∃ t q, ∃ s : State, ∃ a p, a = comeTo t s ∧ executing a = true ∧ (getCtx a (2 * q + 1)).run = .ready ∧ (getCtx a (2 * q + 1)).due = none ∧ (getQueue a q).prog = some p ∧ p.expiry < a.clk.root) :=
  ⟨⟨0, 0, beBytes 64 (0x4000 * 2 ^ 448 + 8 * 2 ^ 376), { base with seq := { base.seq with ctxs := [], queues := [(0, { qd := 0x1000, qc := 0x2000, size := 4, enabled := true, producer := 1 })] } }, _, _, _, rfl, by decide +kernel, by decide +kernel, by decide +kernel, by decide +kernel, by decide +kernel, by decide +kernel, by decide +kernel, by decide +kernel, by decide +kernel, by decide +kernel, rfl, rfl⟩,
   ⟨0, 0, { base with seq := { base.seq with queues := base.seq.queues.map (fun q => (q.1, { q.2 with producer := 2 })) } }, _, _, rfl, by decide +kernel, by decide +kernel, by decide +kernel, by decide +kernel, rfl, by decide +kernel, by decide +kernel, by decide +kernel, by decide +kernel⟩,
   ⟨late, 0, { base with seq := { base.seq with ctxs := [(1, { run := .copying 5 })] } }, _, 5, ⟨8, 128, false, false, false, 7, 0x3000, 100000000, none, none⟩, rfl, by decide +kernel, by decide +kernel, by decide +kernel, by decide +kernel⟩,
   ⟨late, 0, base, _, ⟨8, 128, false, false, false, 7, 0x3000, 100000000, none, none⟩, rfl, by decide +kernel, by decide +kernel, by decide +kernel, by decide +kernel, by decide +kernel⟩⟩

/-- Values that meet the hypotheses of Complexes, one for each clause that has some. -/
theorem wit_Complexes :
    (∃ w, ∃ s : State, ∃ k a, runs sysCkptCmd w s k = true ∧ a = atBlock s k) ∧
    (∃ w, ∃ s : State, ∃ k a b, runs sysSwitchGoCmd w s k = true ∧ a = atBlock s k ∧ b = tryGo (answered sysSwitchGoCmd w s k { s := { a with seq := { a.seq with goOwed := true } } })) ∧
    (∃ w, ∃ s : State, ∃ k e a, runs sysSwitchStageCmd w s k = true ∧ e = envAt w s k ∧ a = atBlock s k) ∧
    (∃ w, ∃ s : State, ∃ k e a, runs sysSwitchHoldoffCmd w s k = true ∧ e = envAt w s k ∧ a = atBlock s k) ∧
    (∃ s : State, ∃ x b, s.seq.goOwed = true ∧ outstanding s = 0 ∧ s.seq.active = some x ∧ health s (1 - x) = .standby ∧ b = baseImage s) ∧
    (∃ s : State, s.seq.goOwed = false) ∧
    (∃ t x l, ∃ s : State, ∃ a b, a = comeTo t s ∧ x < 2 ∧ (health a x = .active ∨ health a x = .standby) ∧ a.seq.active = some x ∧ b = readCkpt l a ∧ b.seq.active = some x) ∧
    (∃ t x, ∃ s : State, ∃ a y b, a = comeTo t s ∧ x < 2 ∧ (health a x = .active ∨ health a x = .standby) ∧ a.seq.active = some y ∧ y ≠ x ∧ b = noteFault x a) ∧
    (∃ t k, ∃ s : State, ∃ a x q c, a = comeTo t s ∧ a.seq.active = some x ∧ (getCtx a k).run = .waitStatus q c ∧ c + 2000000 < a.clk.root) ∧
    (∃ t, ∃ s : State, ∃ a b x, a = comeTo t s ∧ a.seq.active = some x ∧ health a (1 - x) = .untested ∧ b = { a with seq := { a.seq with testedAt := a.clk.root } }) ∧
    (∃ t, ∃ s : State, ∃ a b x, a = comeTo t s ∧ a.seq.active = some x ∧ health a (1 - x) = .standby ∧ a.seq.testedAt + 10000000000 ≤ a.clk.root ∧ b = { a with seq := { a.seq with testedAt := a.clk.root } }) ∧
    (∃ t, ∃ s : State, ∃ a b x, a = comeTo t s ∧ a.seq.active = some x ∧ health a (1 - x) = .repairing ∧ a.seq.repairFrom + 20000000 ≤ a.clk.root ∧ a.seq.repairBack = true ∧ a.seq.holdoff ≠ 0 ∧ x < 2 ∧ b = setHealth (1 - x) .standby a) ∧
    (∃ t, ∃ s : State, ∃ a u, a = comeTo t s ∧ readyToSwitch a = true ∧ a.seq.holdoffEnd = some u ∧ u ≤ a.clk.root) ∧
    (∃ x, ∃ s : State, ∃ b c, c = abandonStaging (raiseComplex 0x6001 x s) ∧ b = { c with seq := { c.seq with repairBack := decide (c.seq.active = some x), repairFrom := c.clk.root, going := none, goOwed := false, holdoffEnd := none, faulted := if c.seq.faulted.contains x then c.seq.faulted else x :: c.seq.faulted, returnedAt := tabDel c.seq.returnedAt x, faults := c.seq.faults + 1 } }) ∧
    (∃ x, ∃ s : State, ∃ b, b = noteFault x s) :=
  ⟨⟨word 0 0 0, base, 1, _, by decide +kernel, rfl⟩,
   ⟨word 0 0 0, { base with seq := { base.seq with staged := some (0, []), image := base.seq.image } }, 1, _, _, by decide +kernel, rfl, rfl⟩,
   ⟨word 0 0 0x100000, base, 1, _, _, stage_runs, rfl, rfl⟩,
   ⟨word 0 0 9, base, 1, _, _, by decide +kernel, rfl, rfl⟩,
   ⟨{ base with seq := { base.seq with goOwed := true } }, 0, _, by decide +kernel, by decide +kernel, by decide +kernel, by decide +kernel, rfl⟩,
   ⟨base, by decide +kernel⟩,
   ⟨0, 0, [], base, _, _, rfl, by decide +kernel, by decide +kernel, by decide +kernel, rfl, by decide +kernel⟩,
   ⟨0, 1, base, _, 0, _, rfl, by decide +kernel, by decide +kernel, by decide +kernel, by decide +kernel, rfl⟩,
   ⟨late, 1, { base with seq := { base.seq with ctxs := [(1, { run := .waitStatus 7 5 })] } }, _, 0, 7, 5, rfl, by decide +kernel, by decide +kernel, by decide +kernel⟩,
   ⟨0, { base with seq := { base.seq with healthB := .untested } }, _, _, 0, rfl, by decide +kernel, by decide +kernel, rfl⟩,
   ⟨late, base, _, _, 0, rfl, by decide +kernel, by decide +kernel, by decide +kernel, rfl⟩,
   ⟨late, { base with seq := { base.seq with healthB := .repairing, repairBack := true } }, _, _, 0, rfl, by decide +kernel, by decide +kernel, by decide +kernel, by decide +kernel, by decide +kernel, by decide +kernel, rfl⟩,
   ⟨5, { base with seq := { base.seq with holdoffEnd := some 5 } }, _, 5, rfl, by decide +kernel, by decide +kernel, by decide +kernel⟩,
   ⟨1, base, _, _, rfl, rfl⟩,
   ⟨1, base, _, rfl⟩⟩

/-- Values that meet the hypotheses of CrustCommands, one for each clause that has some. -/
theorem wit_CrustCommands :
    (∃ w, ∃ s : State, ∃ k e a c, runs crustCfgCmd w s k = true ∧ e = envAt w s k ∧ a = atBlock s k ∧ c = writeWord (1 + e.a) (writeWord (32 + e.a) (keepBefore a))) ∧
    (∃ w, ∃ s : State, ∃ k e a b, runs crustArmCmd w s k = true ∧ e = envAt w s k ∧ a = atBlock s k ∧ a.crust.mode = .disarmed ∧ b = drawSeeds (measureArm 1 e a)) ∧
    (∃ w, ∃ s : State, ∃ k e a, runs crustArmCmd w s k = true ∧ e = envAt w s k ∧ a = atBlock s k ∧ a.crust.mode = .armed) ∧
    (∃ w, ∃ s : State, ∃ k e a, runs crustDisarmCmd w s k = true ∧ e = envAt w s k ∧ a = atBlock s k ∧ a.crust.mode ≠ .disarmed) ∧
    (∃ w, ∃ s : State, ∃ k e a, runs crustTestCmd w s k = true ∧ e = envAt w s k ∧ a = atBlock s k ∧ a.crust.mode = .disarmed) ∧
    (∃ w, ∃ s : State, ∃ k e a b, runs crustInjectCmd w s k = true ∧ e = envAt w s k ∧ a = atBlock s k ∧ b = measureArm 4 e a) ∧
    (∃ w, ∃ s : State, ∃ k e a b, runs crustClearCmd w s k = true ∧ e = envAt w s k ∧ a = atBlock s k ∧ b = writeWord 64 (writeWord 65 (measureArm 5 e a))) ∧
    (∃ w, ∃ s : State, ∃ k e a b, runs crustLogclearCmd w s k = true ∧ e = envAt w s k ∧ a = atBlock s k ∧ b = measureArm 6 e a) ∧
    (∃ t, ∃ s : State, ∃ a m q c, a = comeTo t s ∧ a.crust.injecting = some (m, q, c) ∧ c + 400000000 < a.clk.root) ∧
    (∃ t, ∃ s : State, ∃ a, a = comeTo t s ∧ a.crust.charged = false ∧ a.crust.chargeAt ≤ a.clk.root) ∧
    (∃ t, ∃ s : State, ∃ a, a = comeTo t s ∧ a.power.powerGood = false) :=
  ⟨⟨word 0 0 (4 * 2 ^ 55), base, 1, _, _, _, by decide +kernel, rfl, rfl, rfl⟩,
   ⟨word 0 0 0, { base with crust := { base.crust with charged := true } }, 1, _, _, _, by decide +kernel, rfl, rfl, by decide +kernel, rfl⟩,
   ⟨word 0 0 0, { base with crust := { base.crust with mode := .armed } }, 1, _, _, by decide +kernel, rfl, rfl, by decide +kernel⟩,
   ⟨word 0 0 0, { base with crust := { base.crust with mode := .test } }, 1, _, _, by decide +kernel, rfl, rfl, by decide +kernel⟩,
   ⟨word 0 0 0, base, 1, _, _, by decide +kernel, rfl, rfl, by decide +kernel⟩,
   ⟨word 0 0 (3 * 2 ^ 55), { base with crust := { base.crust with mode := .test } }, 1, _, _, _, by decide +kernel, rfl, rfl, rfl⟩,
   ⟨word 0 0 0, base, 1, _, _, _, by decide +kernel, rfl, rfl, rfl⟩,
   ⟨word 0 0 0, base, 1, _, _, _, by decide +kernel, rfl, rfl, rfl⟩,
   ⟨late, { base with crust := { base.crust with injecting := some (21, 7, 5) } }, _, 21, 7, 5, rfl, by decide +kernel, by decide +kernel⟩,
   ⟨late, base, _, rfl, by decide +kernel, by decide +kernel⟩,
   ⟨0, { base with power := { base.power with powerGood := false } }, _, rfl, by decide +kernel⟩⟩

/-- Values that meet the hypotheses of CrustSamples, one for each clause that has some. -/
theorem wit_CrustSamples :
    (∃ t x, ∃ s : State, ∃ a c m p n since b, a = comeTo t s ∧ a.crust.before.1 ≠ pclkEdge a ∧ m = sightMonitor x ∧ m < 21 ∧ injected a m = false ∧ (settledSight x a) = (x, a) ∧ c = { a with crust := { a.crust with vbat := match x with | .rail 18 mv _ _ => mv | _ => a.crust.vbat } } ∧ p = periodOf c m c.clk.root ∧ ((∀ w, tabFind c.crust.watches m = some w → w.period ≠ p)) ∧ since = tabGet 0 c.crust.filterFrom m ∧ n = (if shows c m c.clk.root since x then nextCount c m p x (tabFind c.crust.watches m) else 0) ∧ b = { c with crust := { c.crust with watches := tabPut c.crust.watches m { sight := x, at_ := c.clk.root, period := p, count := n, since := since } } }) ∧
    (∃ t, ∃ s : State, ∃ a, a = comeTo t s) ∧
    (∃ x : CrustAlarm, ∃ a u, u = executed a x.monitor (crustLevel a x.monitor)) ∧
    (∃ s : State, ∃ m, injected s m = false) ∧
    (∃ s : State, s.crust.onVbat = false) ∧
    (∃ s : State, s.crust.onVbat = true) ∧
    (∃ id mask, ∃ s : State, ∃ w i, w = storedWord s id ^^^ mask % 2 ^ 16 ∧ (wordCodes id).getD i 0 ≠ w ∧ s.power.powerGood = true ∧ (wordCodes id).findIdx? (fun c => decide (distance c w ≤ 3)) = some i) :=
  ⟨⟨late, .case 0 true, base, _, _, _, _, _, _, _, rfl, by decide +kernel, rfl, by decide +kernel, by decide +kernel, by decide +kernel, rfl, rfl, by decide +kernel, rfl, rfl, rfl⟩,
   ⟨0, base, _, rfl⟩,
   ⟨⟨21, 0⟩, base, _, rfl⟩,
   ⟨{ base with crust := { base.crust with settings := [(20, 2 ^ 63 + 4 * 2 ^ 60)] } }, 20, by decide +kernel⟩,
   ⟨{ base with seq := { base.seq with goOwed := true } }, by decide +kernel⟩,
   ⟨{ base with crust := { base.crust with onVbat := true } }, by decide +kernel⟩,
   ⟨1, 1, base, _, 0, rfl, by decide +kernel, by decide +kernel, by decide +kernel⟩⟩

/-- Values that meet the hypotheses of CrustLevels, one for each clause that has some. -/
theorem wit_CrustLevels :
    (∃ s : State, ∃ m, m < 21 ∧ s.crust.mode = .disarmed ∧ 1 < crustLevel s m) ∧
    (∃ s : State, ∃ m, m < 21 ∧ s.crust.mode = .disarmed ∧ crustLevel s m ≤ 1) ∧
    (∃ s : State, ∃ m, m < 21 ∧ s.crust.mode = .test) :=
  ⟨⟨{ base with crust := { base.crust with settings := [(20, 2 ^ 63 + 4 * 2 ^ 60)] } }, 20, by decide +kernel, by decide +kernel, by decide +kernel⟩,
   ⟨{ base with crust := { base.crust with settings := [(20, 2 ^ 63 + 1 * 2 ^ 60)] } }, 20, by decide +kernel, by decide +kernel, by decide +kernel⟩,
   ⟨{ base with crust := { base.crust with mode := .test } }, 20, by decide +kernel, by decide +kernel⟩⟩

/-- Values that meet the hypotheses of CrustLogCirculates, one for each clause that has some. -/
theorem wit_CrustLogCirculates :
    (∃ x : Nat, ∃ y : Nat, ∃ s : State, ∃ r : CrustRec, s.crust.log.getLast? = some r ∧ x % 32 < 22 ∧ r.source = x ∧ r.levels = y) ∧
    (∃ x : Nat, ∃ y : Nat, ∃ s : State, ((∀ r, s.crust.log.getLast? = some r → ¬(x % 32 < 22 ∧ r.source = x ∧ r.levels = y))) ∧ s.crust.log.length < 64 ∧ s.crust.kept = min 8 s.crust.log.length) ∧
    (∃ x : Nat, ∃ y : Nat, ∃ s : State, ((∀ r, s.crust.log.getLast? = some r → ¬(x % 32 < 22 ∧ r.source = x ∧ r.levels = y))) ∧ s.crust.log.length = 64 ∧ s.crust.kept = 8) :=
  ⟨⟨3, 2, { base with crust := { base.crust with log := [⟨0, 3, 2, 1, 8, 5⟩] } }, ⟨0, 3, 2, 1, 8, 5⟩, by decide +kernel, by decide +kernel, by decide +kernel, by decide +kernel⟩,
   ⟨3, 2, base, fun r h => by rw [← Option.some.inj (h : some _ = some r)]; decide, by decide +kernel, by decide +kernel⟩,
   ⟨3, 2, fullLog, fun r h => by rw [← Option.some.inj (h : some _ = some r)]; decide, by decide +kernel, by decide +kernel⟩⟩

/-- Values that meet the hypotheses of FramesArrive, one for each clause that has some. -/
theorem wit_FramesArrive :
    (∃ t p, ∃ x : MacRx, ∃ s : State, ∃ a b, a = settle (comeTo t s) ∧ p / 32 = 1 ∧ b = countSeen p x.mark x.seen a ∧ receives b p = true) ∧
    (∃ t p, ∃ x : MacRx, ∃ s : State, ∃ a b, a = settle (comeTo t s) ∧ p / 32 = 1 ∧ b = countSeen p x.mark x.seen a ∧ receives b p = false) ∧
    (∃ p l m, ∃ s : State, ∃ n b, macFault s p l m = some n ∧ b = countFault p n s ∧ ((lateFault n = false ∨ etherType l = 0x8808))) ∧
    (∃ p l m, ∃ s : State, ∃ n b, macFault s p l m = some n ∧ b = countFault p n s ∧ lateFault n = true ∧ etherType l ≠ 0x8808 ∧ nb (getPort b p).stamp 63 = false) ∧
    (∃ p l m, ∃ s : State, ∃ b, macFault s p l m = none ∧ etherType l ≠ 0x8808 ∧ nb (getPort s p).stamp 63 = false ∧ b = bump 1 p 2 64 l.length (bump 1 p 0 48 1 s)) ∧
    (∃ p l m, ∃ s : State, macFault s p l m = none ∧ etherType l = 0x8808) ∧
    (∃ x : Arrival, isTagged x.octets = true ∧ frameVid x.octets = 4095) ∧
    (∃ x : Arrival, ∃ s : State, ∃ i v, ¬(isTagged x.octets = true ∧ frameVid x.octets = 4095) ∧ firstRule (lookupView s) x.port x.octets = some (i, v)) ∧
    (∃ x : Arrival, ∃ s : State, ∃ v, ¬(isTagged x.octets = true ∧ frameVid x.octets = 4095) ∧ firstRule (lookupView s) x.port x.octets = none ∧ v = tabGet 0 (lookupView s).cls.map (x.port * 4096 + frameVid x.octets) ∧ nb v 63 = true) ∧
    (∃ x : Arrival, ∃ s : State, ∃ b, ¬(isTagged x.octets = true ∧ frameVid x.octets = 4095) ∧ firstRule (lookupView s) x.port x.octets = none ∧ nb (tabGet 0 (lookupView s).cls.map (x.port * 4096 + frameVid x.octets)) 63 = false ∧ b = (if x.stomp then s else bump 3 x.port (if x.port / 32 = 0 then 14 else 0) 48 1 s)) ∧
    (∃ t p l, ∃ x : MacRx, ∃ s : State, ∃ a c b, a = settle (comeTo t s) ∧ p / 32 = 0 ∧ c = countSeen p x.mark x.seen a ∧ receives c p = true ∧ b = rxInterrupt p l.length c ∧ etherType l ≠ 0x88E5) ∧
    (∃ t p l, ∃ x : MacRx, ∃ s : State, ∃ a d b c, a = settle (comeTo t s) ∧ p / 32 = 0 ∧ d = countSeen p x.mark x.seen a ∧ receives d p = true ∧ b = rxInterrupt p l.length d ∧ etherType l = 0x88E5 ∧ macFault b p l x.mark = none ∧ badTag l = true ∧ c = bump 1 p 2 64 l.length (bump 1 p 0 48 1 b)) ∧
    (∃ t p l, ∃ x : MacRx, ∃ s : State, ∃ a d b n, a = settle (comeTo t s) ∧ p / 32 = 0 ∧ d = countSeen p x.mark x.seen a ∧ receives d p = true ∧ b = rxInterrupt p l.length d ∧ etherType l = 0x88E5 ∧ macFault b p l x.mark = some n ∧ lateFault n = false) ∧
    (∃ t p l, ∃ x : MacRx, ∃ s : State, ∃ a d b c, a = settle (comeTo t s) ∧ p / 32 = 0 ∧ d = countSeen p x.mark x.seen a ∧ receives d p = true ∧ b = rxInterrupt p l.length d ∧ etherType l = 0x88E5 ∧ macFault b p l x.mark = none ∧ badTag l = false ∧ c = bump 1 p 2 64 l.length (bump 1 p 0 48 1 b)) ∧
    (∃ k : Parked, ∃ s : State, ∃ v set i x, s.cls.flush = none ∧ v = lookupView s ∧ set = peerSet s k.port k.sci ∧ s.cls.spillPath.any (fun f => f.port == k.port && f.sci == k.sci) = false ∧ findWay v 4 set k.port k.sci = some i ∧ peerAt v set i = some x) ∧
    (∃ k : Parked, ∃ s : State, ∃ v set, s.cls.flush = none ∧ v = lookupView s ∧ set = peerSet s k.port k.sci ∧ s.cls.spillPath.any (fun f => f.port == k.port && f.sci == k.sci) = false ∧ findWay v 4 set k.port k.sci = none ∧ spillCount v set ≠ 0) ∧
    (∃ k : Parked, ∃ s : State, ∃ v set, s.cls.flush = none ∧ v = lookupView s ∧ set = peerSet s k.port k.sci ∧ s.cls.spillPath.any (fun f => f.port == k.port && f.sci == k.sci) = false ∧ findWay v 4 set k.port k.sci = none ∧ spillCount v set = 0) ∧
    (∃ x : Peer, x.bound = true) ∧
    (∃ x : Peer, x.bound = false) ∧
    (∃ k : Parked, ∃ s : State, ∃ b pol, k.mark = .clean ∧ b = bump 3 k.port 1 48 1 s ∧ pol = nf (tabGet 0 (lookupView b).cls.map (k.port * 4096 + 4095)) 61 60) :=
  ⟨⟨0, 33, {}, inPort 33 { setting := 1518 * 2 ^ 29, state := .up } base, _, _, rfl, by decide +kernel, rfl, by decide +kernel⟩,
   ⟨0, 33, {}, base, _, _, rfl, by decide +kernel, rfl, by decide +kernel⟩,
   ⟨33, [], .clean, inPort 33 { setting := 1518 * 2 ^ 29, state := .up } base, 8, _, by decide +kernel, rfl, by decide +kernel⟩,
   ⟨33, (frame 0x800 zeros).dropLast ++ [0], .clean, { inPort 33 { setting := 1518 * 2 ^ 29, state := .up } base with cls := { base.cls with map := [(33 * 4096, 2 ^ 63 + 2 ^ 60 + 7 * 2 ^ 36)] } }, 4, _, by decide +kernel, rfl, by decide +kernel, by decide +kernel, by decide +kernel⟩,
   ⟨33, frame 0x800 zeros, .clean, inPort 33 { setting := 1518 * 2 ^ 29, state := .up } base, _, by decide +kernel, by decide +kernel, by decide +kernel, rfl⟩,
   ⟨33, frame 0x8808 zeros, .clean, inPort 33 { setting := 1518 * 2 ^ 29, state := .up } base, by decide +kernel, by decide +kernel⟩,
   ⟨⟨33, frame 0x8100 (beBytes 2 4095 ++ zeros), 0, 0, false, false, false⟩, by decide +kernel, by decide +kernel⟩,
   ⟨⟨33, frame 0x800 zeros, 0, 0, false, false, false⟩, { base with cls := { base.cls with rules := [(0, 2 ^ 255 + 2 ^ 254 + (2 ^ 32 - 1) * 2 ^ 182)] } }, 0, 2 ^ 255 + 2 ^ 254 + (2 ^ 32 - 1) * 2 ^ 182, by decide +kernel, by decide +kernel⟩,
   ⟨⟨33, frame 0x800 zeros, 0, 0, false, false, false⟩, { base with cls := { base.cls with map := [(33 * 4096, 2 ^ 63)] } }, 2 ^ 63, by decide +kernel, by decide +kernel, by decide +kernel, by decide +kernel⟩,
   ⟨⟨33, frame 0x800 zeros, 0, 0, false, false, false⟩, base, _, by decide +kernel, by decide +kernel, by decide +kernel, rfl⟩,
   ⟨0, 1, frame 0x800 zeros, {}, inPort 1 { setting := 1518 * 2 ^ 29, state := .up } base, _, _, _, rfl, by decide +kernel, rfl, by decide +kernel, rfl, by decide +kernel⟩,
   ⟨0, 1, frame 0x88E5 ([0x80] ++ zeros), {}, inPort 1 { setting := 1518 * 2 ^ 29, state := .up } base, _, _, _, _, rfl, by decide +kernel, rfl, by decide +kernel, rfl, by decide +kernel, by decide +kernel, by decide +kernel, rfl⟩,
   ⟨0, 1, frame 0x88E5 [], {}, inPort 1 { setting := 1518 * 2 ^ 29, state := .up } base, _, _, _, 8, rfl, by decide +kernel, rfl, by decide +kernel, rfl, by decide +kernel, by decide +kernel, by decide +kernel⟩,
   ⟨0, 1, frame 0x88E5 (zeros ++ zeros), {}, inPort 1 { setting := 1518 * 2 ^ 29, state := .up } base, _, _, _, _, rfl, by decide +kernel, rfl, by decide +kernel, rfl, by decide +kernel, by decide +kernel, by decide +kernel, rfl⟩,
   ⟨⟨[], 0, 0, 5, 0, 0, none, 0, .clean⟩, withPeer ⟨5, 0, true, 0, 0⟩ base, _, _, 0, ⟨5, 0, true, 0, 0⟩, by decide +kernel, rfl, rfl, by decide +kernel, by decide +kernel, by decide +kernel⟩,
   ⟨⟨[], 0, 0, 5, 0, 0, none, 0, .clean⟩, { base with cls := { base.cls with peers := [(peerSet base 0 5 * 16 + 4, ⟨5, 0, true, 0, 0⟩)] } }, _, _, by decide +kernel, rfl, rfl, by decide +kernel, by decide +kernel, by decide +kernel⟩,
   ⟨⟨[], 0, 0, 5, 0, 0, none, 0, .clean⟩, base, _, _, by decide +kernel, rfl, rfl, by decide +kernel, by decide +kernel, by decide +kernel⟩,
   ⟨⟨5, 0, true, 0, 0⟩, by decide +kernel⟩,
   ⟨⟨5, 0, false, 0, 0⟩, by decide +kernel⟩,
   ⟨⟨[], 0, 0, 5, 0, 0, none, 0, .clean⟩, base, _, _, by decide +kernel, rfl, rfl⟩⟩

/-- Values that meet the hypotheses of FramesChecked, one for each clause that has some. -/
theorem wit_FramesChecked :
    (∃ t i, ∃ s : State, ∃ a b k v set j x, a = settle (comeTo t s) ∧ a.cls.flush = none ∧ firstOfKey a i = true ∧ a.cls.spillPath[i]? = some k ∧ a.clk.root ≤ k.since + 100000 ∧ b = { a with cls := { a.cls with spillPath := a.cls.spillPath.eraseIdx i } } ∧ v = lookupView b ∧ set = peerSet b k.port k.sci ∧ findWay v 16 set k.port k.sci = some j ∧ peerAt v set j = some x) ∧
    (∃ t, ∃ i : Nat, ∃ s : State, ∃ a : State, ∃ k : Parked, a = comeTo t s ∧ a.cls.spillPath[i]? = some k ∧ k.since + 100000 < a.clk.root) ∧
    (∃ t c r, ∃ s : State, ∃ a b i l st, a = settle (comeTo t s) ∧ lineOf a c .filling = some i ∧ tabFind a.assoc.lines i = some l ∧ a.clk.root ≤ l.since + 500000 ∧ fillAnswer c r a = (st, b)) ∧
    (∃ t c, ∃ s : State, ∃ a, a = settle (comeTo t s) ∧ lineOf a c .filling = none ∧ (getChan a c).resident = true ∧ a.assoc.missBuf.any (fun k => k.channel == c) = true) ∧
    (∃ t c, ∃ s : State, ∃ a b i l, a = settle (comeTo t s) ∧ lineOf a c .filling = some i ∧ tabFind a.assoc.lines i = some l ∧ l.since + 500000 < a.clk.root ∧ b = raise 0x3005 c 0 (freeLine i (drainMiss c (fun _ s => countCh c 11 1 s) (dropWaiting c a))) ∧ (getChan b c).pinning = none) ∧
    (∃ t p, ∃ s : State, ∃ a f, a = settle (comeTo t s) ∧ dueCheck a (getRx a p) a.clk.root = some f) ∧
    (∃ f, ∃ s : State, ∃ b, (openFrame f).2 = false ∧ f.lost = false ∧ f.flow = false ∧ b = releaseSlot f.channel f.slot (rxVerdict f false (openFrame f).1.length s)) ∧
    (∃ f, ∃ s : State, ∃ b, (openFrame f).2 = true ∧ f.mark = .clean ∧ f.lost = false ∧ f.flow = false ∧ b = releaseSlot f.channel f.slot (rxVerdict f true (openFrame f).1.length s)) ∧
    (∃ f, ∃ s : State, ∃ b, (openFrame f).2 = true ∧ f.mark = .clean ∧ f.lost = false ∧ f.flow = true ∧ b = releaseSlot f.channel f.slot (rxVerdict f true (openFrame f).1.length s)) ∧
    (∃ f, ∃ s : State, ∃ b c, (openFrame f).2 = false ∧ f.lost = false ∧ f.flow = true ∧ b = releaseSlot f.channel f.slot (rxVerdict f false (openFrame f).1.length s) ∧ c = (if tailWaits b (32 + f.port) f.num = true then countCh f.channel 15 1 b else b)) ∧
    (∃ f, ∃ s : State, sameLoad s f = true) ∧
    (∃ f, ∃ s : State, sameLoad s f = false) ∧
    (∃ u : Sub, (u.state = .empty ∨ u.state = .retired ∨ u.state = .exhausted)) ∧
    (∃ h : Nat, ∃ u : Sub, ∃ l : Bytes, (u.state = .active ∨ u.state = .loaded ∨ u.state = .draining) ∧ tciEnc l ≠ hConf h) ∧
    (∃ h : Nat, ∃ u : Sub, ∃ l : Bytes, (u.state = .active ∨ u.state = .loaded ∨ u.state = .draining) ∧ tciEnc l = hConf h ∧ hXpn h = false) :=
  ⟨⟨0, 0, { base with cls := { base.cls with peers := [(peerSet base 0 5 * 16 + 4, ⟨5, 0, true, 0, 0⟩)], spillPath := [⟨[], 0, 0, 5, 0, 0, none, 0, .clean⟩] } }, _, _, ⟨[], 0, 0, 5, 0, 0, none, 0, .clean⟩, _, _, 4, ⟨5, 0, true, 0, 0⟩, rfl, by decide +kernel, by decide +kernel, by decide +kernel, by decide +kernel, rfl, rfl, rfl, by decide +kernel, by decide +kernel⟩,
   ⟨late, 0, { base with cls := { base.cls with spillPath := [⟨[], 0, 0, 5, 0, 0, none, 0, .clean⟩] } }, _, ⟨[], 0, 0, 5, 0, 0, none, 0, .clean⟩, rfl, by decide +kernel, by decide +kernel⟩,
   ⟨0, 0, .ok, { base with assoc := { base.assoc with chans := [(0, { header := rxHead })], lines := [(0, ⟨0, .filling, true, true, 0, none, 0, []⟩)] } }, _, _, 0, ⟨0, .filling, true, true, 0, none, 0, []⟩, _, rfl, by decide +kernel, by decide +kernel, by decide +kernel, Prod.mk.eta.symm⟩,
   ⟨0, 0, { base with assoc := { base.assoc with chans := [(0, { resident := true, header := rxHead })], missBuf := [⟨[], 0, 0, 5, 0, 0, none, 0, .clean⟩] } }, _, rfl, by decide +kernel, by decide +kernel, by decide +kernel⟩,
   ⟨late, 0, { base with assoc := { base.assoc with chans := [(0, { header := rxHead })], lines := [(0, ⟨0, .filling, true, true, 0, none, 0, []⟩)] } }, _, _, 0, ⟨0, .filling, true, true, 0, none, 0, []⟩, rfl, by decide +kernel, by decide +kernel, by decide +kernel, rfl, by decide +kernel⟩,
   ⟨late, 0, { base with cipher := { base.cipher with rx := [(0, { checks := [received []] })] } }, _, received [], rfl, by decide +kernel⟩,
   ⟨received [], base, _, by decide +kernel, by decide +kernel, by decide +kernel, rfl⟩,
   ⟨received sealed, base, _, by decide +kernel, by decide +kernel, by decide +kernel, by decide +kernel, rfl⟩,
   ⟨received sealed true, base, _, by decide +kernel, by decide +kernel, by decide +kernel, by decide +kernel, rfl⟩,
   ⟨received [] true, base, _, _, by decide +kernel, by decide +kernel, by decide +kernel, rfl, rfl⟩,
   ⟨received [], inChan { header := rxHead, subs := [(0, { state := .active, loadGen := 3, inFlight := [9] })] } base, by decide +kernel⟩,
   ⟨received [], base, by decide +kernel⟩,
   ⟨{}, by decide +kernel⟩,
   ⟨2 ^ 435, { state := .active }, [], by decide +kernel, by decide +kernel⟩,
   ⟨2 ^ 437, { state := .active }, [], by decide +kernel, by decide +kernel, by decide +kernel⟩⟩

/-- Values that meet the hypotheses of FramesLeave, one for each clause that has some. -/
theorem wit_FramesLeave :
    (∃ t p, ∃ s : State, ∃ a, a = settle (comeTo t s) ∧ p < 64 ∧ (getPort a p).decisionAt = none) ∧
    (∃ t p, ∃ s : State, ∃ a d, a = settle (comeTo t s) ∧ p < 64 ∧ (getPort a p).decisionAt = some d ∧ d / 3 < a.clk.root / 3) ∧
    (∃ t p, ∃ s : State, ∃ a d, a = settle (comeTo t s) ∧ (getPort a p).decisionAt = some d ∧ a.clk.root / 3 ≤ d / 3) ∧
    (∃ t, ∃ x : EgressPort, ∃ s : State, ∃ a f, a = settle (comeTo t s) ∧ nextOut a x.port = some f ∧ portSends a x.port = true ∧ f.due = none ∧ mayStart a x.port f = true ∧ wireFree a x.port f = true ∧ ((f.commit.isSome = true ∨ firstStart a x.port f ≤ a.clk.root))) ∧
    (∃ t, ∃ x : EgressPort, ∃ s : State, ∃ a f, a = settle (comeTo t s) ∧ nextOut a x.port = some f ∧ portSends a x.port = false) ∧
    (∃ p, ∃ f : TxFrame, ∃ r, ∃ s : State, ∃ b g bad, f.commit = none ∧ readCells f.frame.chain r (setTx s p (mapLane (cutFrame s p) (getTx s p))) = (bad, b) ∧ g = (if bad then { f with frame := { f.frame with stomp := true } } else f)) ∧
    (∃ t p c, ∃ s : State, ∃ a, a = settle (comeTo t s) ∧ psPgen (getPort a p).setting = true ∧ c < 6 ∧ nb (getPort a p).xoff c = true ∧ psFc (getPort a p).setting = 2 ∧ xonOf a p < classCharge a p c ∧ tabGet 0 (getPort a p).xoffAt c + halfPause a p ≤ a.clk.root) ∧
    (∃ t p c, ∃ s : State, ∃ a, a = settle (comeTo t s) ∧ psPgen (getPort a p).setting = true ∧ c < 6 ∧ nb (getPort a p).xoff 6 = true ∧ psFc (getPort a p).setting ≠ 2 ∧ allBelowXon a p = false ∧ tabGet 0 (getPort a p).xoffAt 6 + halfPause a p ≤ a.clk.root) ∧
    (∃ t, ∃ s : State, ∃ a b, a = settle (comeTo t s) ∧ a.cask.ageAt + 10000000 ≤ a.clk.root ∧ b = { a with cask := { a.cask with ageAt := a.clk.root } }) :=
  ⟨⟨0, 0, base, _, rfl, by decide +kernel, by decide +kernel⟩,
   ⟨late, 0, inPort 0 { decisionAt := some 5 } base, _, 5, rfl, by decide +kernel, by decide +kernel, by decide +kernel⟩,
   ⟨0, 0, inPort 0 { decisionAt := some 5 } base, _, 5, rfl, by decide +kernel, by decide +kernel⟩,
   ⟨late, ⟨1, {}⟩, inPort 1 { setting := 1518 * 2 ^ 29, state := .up } ({ base with cipher := { base.cipher with tx := [(1, { mac := [{ frame := { octets := [], cls := 0, inPort := 0, outPort := 1, channel := none, account := .management, cells := 1, admitted := 0, stamp := 0, origin := .port, stomp := false, ptp := false } }] })] } }), _, { frame := { octets := [], cls := 0, inPort := 0, outPort := 1, channel := none, account := .management, cells := 1, admitted := 0, stamp := 0, origin := .port, stomp := false, ptp := false }, read := 1 }, rfl, by decide +kernel, by decide +kernel, by decide +kernel, by decide +kernel, by decide +kernel, by decide +kernel⟩,
   ⟨late, ⟨1, {}⟩, { base with cipher := { base.cipher with tx := [(1, { mac := [{ frame := { octets := [], cls := 0, inPort := 0, outPort := 1, channel := none, account := .management, cells := 1, admitted := 0, stamp := 0, origin := .port, stomp := false, ptp := false } }] })] } }, _, { frame := { octets := [], cls := 0, inPort := 0, outPort := 1, channel := none, account := .management, cells := 1, admitted := 0, stamp := 0, origin := .port, stomp := false, ptp := false }, read := 1 }, rfl, by decide +kernel, by decide +kernel⟩,
   ⟨1, { frame := { octets := [], cls := 0, inPort := 0, outPort := 1, channel := none, account := .management, cells := 1, chain := [5], admitted := 0, stamp := 0, origin := .port, stomp := false, ptp := false } }, {}, base, _, _, _, by decide +kernel, Prod.mk.eta.symm, rfl⟩,
   ⟨late, 0, 0, { inPort 0 { setting := 2 * 2 ^ 27 + 2 ^ 12, state := .up, xoff := 1 } base with cask := { base.cask with charge := [(0, 100000)] } }, _, rfl, by decide +kernel, by decide +kernel, by decide +kernel, by decide +kernel, by decide +kernel, by decide +kernel⟩,
   ⟨late, 0, 0, { inPort 0 { setting := 1 * 2 ^ 27 + 2 ^ 12, state := .up, xoff := 64 } base with cask := { base.cask with charge := [(0, 100000)] } }, _, rfl, by decide +kernel, by decide +kernel, by decide +kernel, by decide +kernel, by decide +kernel, by decide +kernel⟩,
   ⟨late, base, _, _, rfl, by decide +kernel, rfl⟩⟩

/-- Values that meet the hypotheses of CipherAndScrub, one for each clause that has some. -/
theorem wit_CipherAndScrub :
    (∃ t x g, ∃ s : State, ∃ a b, ∃ r : Refill, ∃ q, a = settle (comeTo t s) ∧ tabGet [] (getArray a x).refills g = r :: q ∧ b = setArray a x { getArray a x with refills := tabSet [] (getArray a x).refills g q }) ∧
    (∃ t x pos, ∃ gh : Bool, ∃ s : State, ∃ a b c bad n m, a = settle (comeTo t s) ∧ sliceIn (getArray a x) (.position pos) = some bad ∧ sparesLeft (getArray a x) = true ∧ b = bump 8 x 4 48 1 (bump 8 x (if gh then 1 else 0) 48 1 (setArray a x (placeSpare (getArray a x) pos bad))) ∧ n = Config.measured b.drawn % 17 ∧ m = Config.measured (b.drawn + 1) % (n + 1) ∧ c = raiseEv { code := 0x3010, obj := x, aux := bad } (bump 8 x 3 48 m (bump 8 x 2 48 n { b with drawn := b.drawn + 2 }))) ∧
    (∃ t x, ∃ s : State, ∃ a, a = comeTo t s ∧ (nextPlaced (getArray a x)).isSome = true ∧ (getArray a x).testSince + 10000000 ≤ a.clk.root) ∧
    (∃ t x, ∃ s : State, ∃ a v, a = comeTo t s ∧ sliceIn (getArray a x) .testSeat = some v ∧ (getArray a x).seatPassed = false) ∧
    (∃ t cell cw, ∃ s : State, ∃ a, a = settle (comeTo t s) ∧ cell < 524288 ∧ cw < 4 ∧ a.cask.scrubNext ≤ cell * 4 + cw) ∧
    (∃ t cell cw, ∃ s : State, ∃ a, a = settle (comeTo t s) ∧ cell < 524288 ∧ cw < 4 ∧ cell * 4 + cw < a.cask.scrubNext) ∧
    (∃ x, ∃ r : ScrubRes, ∃ s : State, r.errors = 0 ∧ r.again = false ∧ tabHas s.cask.retest x = false) ∧
    (∃ x, ∃ r : ScrubRes, ∃ s : State, 0 < r.errors ∧ r.errors ≤ 3 ∧ r.again = false ∧ tabHas s.cask.retest x = false) ∧
    (∃ x, ∃ r : ScrubRes, ∃ s : State, 3 < r.errors ∧ r.again = false ∧ tabHas s.cask.retest x = false) ∧
    (∃ x, ∃ r : ScrubRes, ∃ s : State, 3 < r.errors ∧ tabHas s.cask.retest x = true) :=
  ⟨⟨0, 0, 0, { base with cipher := { base.cipher with arrays := [(0, { refills := [(0, [⟨0, 0, false⟩])] })] } }, _, _, ⟨0, 0, false⟩, [], rfl, by decide +kernel, rfl⟩,
   ⟨0, 0, 3, false, base, _, _, _, 3, _, _, rfl, by decide +kernel, by decide +kernel, rfl, rfl, rfl, rfl⟩,
   ⟨late, 0, { base with cipher := { base.cipher with arrays := [(0, { seatPassed := true })] } }, _, rfl, by decide +kernel, by decide +kernel⟩,
   ⟨0, 0, base, _, 17, rfl, by decide +kernel, by decide +kernel⟩,
   ⟨0, 5, 2, base, _, rfl, by decide +kernel, by decide +kernel, by decide +kernel⟩,
   ⟨0, 5, 2, { base with cask := { base.cask with scrubNext := 100 } }, _, rfl, by decide +kernel, by decide +kernel, by decide +kernel⟩,
   ⟨5, ⟨0, false⟩, base, by decide +kernel, by decide +kernel, by decide +kernel⟩,
   ⟨5, ⟨3, false⟩, base, by decide +kernel, by decide +kernel, by decide +kernel, by decide +kernel⟩,
   ⟨5, ⟨4, false⟩, base, by decide +kernel, by decide +kernel, by decide +kernel⟩,
   ⟨5, ⟨4, true⟩, { base with cask := { base.cask with retest := [(5, 1)] } }, by decide +kernel, by decide +kernel⟩⟩

/-- Values that meet the hypotheses of HostQueues, one for each clause that has some. -/
theorem wit_HostQueues :
    (∃ t q, ∃ s : State, ∃ a n, a = comeTo t s ∧ q < 16 ∧ a.power.powerGood = true ∧ n = getQueue a q ∧ n.enabled = true ∧ forwardedQueue a q = false) ∧
    (∃ t q, ∃ s : State, ∃ a n, a = comeTo t s ∧ q < 16 ∧ a.power.powerGood = true ∧ n = getQueue a q ∧ n.enabled = false) ∧
    (∃ t q v, ∃ s : State, ∃ a n, a = comeTo t s ∧ q < 16 ∧ a.power.powerGood = true ∧ n = getQueue a q ∧ n.enabled = false ∧ nb v 31 = true) ∧
    (∃ t q v, ∃ s : State, ∃ a b n, a = comeTo t s ∧ q < 16 ∧ a.power.powerGood = true ∧ n = getQueue a q ∧ n.enabled = true ∧ nb v 31 = false ∧ b = bump 20 0 5 48 (if v % 16 = n.size then 0 else 1) a ∧ n.prog = none) ∧
    (∃ t q v, ∃ s : State, ∃ a b n p, a = comeTo t s ∧ q < 16 ∧ a.power.powerGood = true ∧ n = getQueue a q ∧ n.enabled = true ∧ nb v 31 = false ∧ b = bump 20 0 5 48 (if v % 16 = n.size then 0 else 1) a ∧ n.prog = some p ∧ atBoundary (getCtx a (queueCtx q)).run = true ∧ executing b = true ∧ (getCtx a (queueCtx q)).due = none) ∧
    (∃ t q v, ∃ s : State, ∃ a b n p, a = comeTo t s ∧ q < 16 ∧ a.power.powerGood = true ∧ n = getQueue a q ∧ n.enabled = true ∧ nb v 31 = false ∧ b = bump 20 0 5 48 (if v % 16 = n.size then 0 else 1) a ∧ n.prog = some p ∧ ((atBoundary (getCtx a (queueCtx q)).run = false ∨ executing b = false ∨ (getCtx a (queueCtx q)).due ≠ none)) ∧ isCopying (getCtx a (queueCtx q)).run = false) ∧
    (∃ t r, ∃ s : State, ∃ a n, a = comeTo t s ∧ r < 4 ∧ a.power.powerGood = true ∧ n = getRing a r ∧ n.enabled = true) ∧
    (∃ t r v, ∃ s : State, ∃ a n, a = comeTo t s ∧ r < 4 ∧ a.power.powerGood = true ∧ n = getRing a r ∧ n.enabled = false ∧ nb v 31 = true) ∧
    (∃ t r v, ∃ s : State, ∃ a n, a = settle (comeTo t s) ∧ 2 ≤ r ∧ r < 4 ∧ a.power.powerGood = true ∧ n = getRing a r ∧ n.enabled = true ∧ nb v 31 = false) ∧
    (∃ r, 2 ≤ r) ∧
    (∃ r, r < 2) ∧
    (∃ t n, ∃ x : PuntBuffer, ∃ s : State, ∃ a b c, ∃ f : PuntFrame, ∃ l v, a = settle (comeTo t s) ∧ n < 2 ∧ a.hostIf.linkUp = true ∧ (getRing a n).enabled = true ∧ (getRing a n).producer ≠ (getRing a n).consumer ∧ tabGet [] a.cask.punts n = f :: l ∧ v = beNat (fit 32 x.entry) ∧ puntStatus v = 0 ∧ f.octets.length ≤ nf v 191 178 ∧ readCells f.chain x.read a = (false, b) ∧ c = emit (.hostWrite (nf v 255 192) f.octets) (pushIngress f.inPort f.octets f.rxq f.stamp (puntGone n f l b))) ∧
    (∃ t n, ∃ x : PuntBuffer, ∃ s : State, ∃ a b, ∃ f : PuntFrame, ∃ l v, a = settle (comeTo t s) ∧ n < 2 ∧ a.hostIf.linkUp = true ∧ (getRing a n).enabled = true ∧ (getRing a n).producer ≠ (getRing a n).consumer ∧ tabGet [] a.cask.punts n = f :: l ∧ v = beNat (fit 32 x.entry) ∧ puntStatus v = 0 ∧ f.octets.length ≤ nf v 191 178 ∧ readCells f.chain x.read a = (true, b)) ∧
    (∃ t n, ∃ x : PuntBuffer, ∃ s : State, ∃ a, ∃ f : PuntFrame, ∃ l v, a = settle (comeTo t s) ∧ n < 2 ∧ a.hostIf.linkUp = true ∧ (getRing a n).enabled = true ∧ (getRing a n).producer ≠ (getRing a n).consumer ∧ tabGet [] a.cask.punts n = f :: l ∧ v = beNat (fit 32 x.entry) ∧ puntStatus v = 0 ∧ nf v 191 178 < f.octets.length) ∧
    (∃ t n, ∃ s : State, ∃ a, ∃ f : PuntFrame, ∃ l, a = settle (comeTo t s) ∧ n < 2 ∧ tabGet [] a.cask.punts n = f :: l ∧ f.since + 10000000 < a.clk.root) ∧
    (∃ t n x, ∃ s : State, ∃ a v, a = settle (comeTo t s) ∧ n < 2 ∧ a.hostIf.linkUp = true ∧ (getRing a (2 + n)).enabled = true ∧ (getRing a (2 + n)).producer ≠ (getRing a (2 + n)).consumer ∧ tabFind a.hostIf.injectRead n = none ∧ v = beNat (fit 32 x) ∧ injectStatus n v a ≠ 0) ∧
    (∃ t n x, ∃ s : State, ∃ a v, a = settle (comeTo t s) ∧ n < 2 ∧ a.hostIf.linkUp = true ∧ (getRing a (2 + n)).enabled = true ∧ (getRing a (2 + n)).producer ≠ (getRing a (2 + n)).consumer ∧ tabFind a.hostIf.injectRead n = none ∧ v = beNat (fit 32 x) ∧ injectStatus n v a = 0 ∧ injectFits n v a = true) ∧
    (∃ t k, ∃ s : State, ∃ a c, a = comeTo t s ∧ k < 32 ∧ executing a = true ∧ (getCtx a k).run = .waitHost c ∧ c + 1000000 < a.clk.root) ∧
    (∃ t n, ∃ s : State, ∃ a c l, a = comeTo t s ∧ tabFind a.hostIf.injectRead n = some (c, l) ∧ c + 1000000 < a.clk.root) :=
  ⟨⟨0, 0, base, _, _, rfl, by decide +kernel, by decide +kernel, rfl, by decide +kernel, by decide +kernel⟩,
   ⟨0, 15, base, _, _, rfl, by decide +kernel, by decide +kernel, rfl, by decide +kernel⟩,
   ⟨0, 15, 2 ^ 31 + 4, base, _, _, rfl, by decide +kernel, by decide +kernel, rfl, by decide +kernel, by decide +kernel⟩,
   ⟨0, 0, 4, { base with seq := { base.seq with ctxs := [], queues := [(0, { qd := 0x1000, qc := 0x2000, size := 4, enabled := true, producer := 1 })] } }, _, _, _, rfl, by decide +kernel, by decide +kernel, rfl, by decide +kernel, by decide +kernel, rfl, by decide +kernel⟩,
   ⟨0, 0, 4, base, _, _, _, _, rfl, by decide +kernel, by decide +kernel, rfl, by decide +kernel, by decide +kernel, rfl, rfl, by decide +kernel, by decide +kernel, by decide +kernel⟩,
   ⟨0, 0, 4, inCtx { run := .waitStatus 7 5 } base, _, _, _, _, rfl, by decide +kernel, by decide +kernel, rfl, by decide +kernel, by decide +kernel, rfl, rfl, by decide +kernel, by decide +kernel⟩,
   ⟨0, 0, { base with hostIf := { base.hostIf with rings := [(0, { enabled := true, size := 4 })] } }, _, _, rfl, by decide +kernel, by decide +kernel, rfl, by decide +kernel⟩,
   ⟨0, 3, 2 ^ 31 + 4, base, _, _, rfl, by decide +kernel, by decide +kernel, rfl, by decide +kernel, by decide +kernel⟩,
   ⟨0, 2, 4, { base with hostIf := { base.hostIf with rings := [(2, { enabled := true, size := 4 })] } }, _, _, rfl, by decide +kernel, by decide +kernel, by decide +kernel, rfl, by decide +kernel, by decide +kernel⟩,
   ⟨5, by decide +kernel⟩,
   ⟨0, by decide +kernel⟩,
   ⟨0, 0, ⟨beBytes 32 (0x1000 * 2 ^ 192 + 2048 * 2 ^ 178), {}⟩, { base with hostIf := { base.hostIf with rings := [(0, { enabled := true, size := 4, producer := 1 })] }, cask := { base.cask with punts := [(0, [⟨frame 0x800 zeros, 1, 2, 0, 0, 0, 0, 1, [3], false, false⟩])] } }, _, _, _, ⟨frame 0x800 zeros, 1, 2, 0, 0, 0, 0, 1, [3], false, false⟩, [], _, rfl, by decide +kernel, by decide +kernel, by decide +kernel, by decide +kernel, by decide +kernel, rfl, by decide +kernel, by decide +kernel, pair_first (by decide +kernel), rfl⟩,
   ⟨0, 0, ⟨beBytes 32 (0x1000 * 2 ^ 192 + 2048 * 2 ^ 178), ⟨[4]⟩⟩, { base with hostIf := { base.hostIf with rings := [(0, { enabled := true, size := 4, producer := 1 })] }, cask := { base.cask with punts := [(0, [⟨frame 0x800 zeros, 1, 2, 0, 0, 0, 0, 1, [3], false, false⟩])] } }, _, _, ⟨frame 0x800 zeros, 1, 2, 0, 0, 0, 0, 1, [3], false, false⟩, [], _, rfl, by decide +kernel, by decide +kernel, by decide +kernel, by decide +kernel, by decide +kernel, rfl, by decide +kernel, by decide +kernel, pair_first (by decide +kernel)⟩,
   ⟨0, 1, ⟨beBytes 32 (0x1000 * 2 ^ 192 + 65 * 2 ^ 178), {}⟩, { base with hostIf := { base.hostIf with rings := [(1, { enabled := true, size := 4, producer := 1 })] }, cask := { base.cask with punts := [(1, [{ octets := List.replicate 100 0, inPort := 33, reason := 2, rule := 0, cls := 0, stamp := 0, since := 0, cells := 1 }])] } }, _, { octets := List.replicate 100 0, inPort := 33, reason := 2, rule := 0, cls := 0, stamp := 0, since := 0, cells := 1 }, [], _, rfl, by decide +kernel, by decide +kernel, by decide +kernel, by decide +kernel, by decide +kernel, rfl, by decide +kernel, by decide +kernel⟩,
   ⟨late, 1, { base with hostIf := { base.hostIf with rings := [(1, { enabled := true, size := 4, producer := 1 })] }, cask := { base.cask with punts := [(1, [⟨frame 0x800 zeros, 1, 2, 0, 0, 0, 0, 1, [3], false, false⟩])] } }, _, ⟨frame 0x800 zeros, 1, 2, 0, 0, 0, 0, 1, [3], false, false⟩, [], rfl, by decide +kernel, by decide +kernel, by decide +kernel⟩,
   ⟨0, 0, beBytes 32 1, { base with hostIf := { base.hostIf with rings := [(2, { enabled := true, size := 4, producer := 1 })] }, cask := { base.cask with punts := [(0, [⟨frame 0x800 zeros, 1, 2, 0, 0, 0, 0, 1, [3], false, false⟩])] } }, _, _, rfl, by decide +kernel, by decide +kernel, by decide +kernel, by decide +kernel, by decide +kernel, rfl, by decide +kernel⟩,
   ⟨0, 0, beBytes 32 (0x1000 * 2 ^ 192 + 64 * 2 ^ 178 + 1 * 2 ^ 147), { (inPort 1 { setting := 2 ^ 63 + 1518 * 2 ^ 29, state := .up } base) with hostIf := { base.hostIf with rings := [(2, { enabled := true, size := 4, producer := 1 })] } }, _, _, rfl, by decide +kernel, by decide +kernel, by decide +kernel, by decide +kernel, by decide +kernel, rfl, by decide +kernel, by decide +kernel⟩,
   ⟨late, 1, { base with seq := { base.seq with ctxs := [(1, { run := .waitHost 5 })] } }, _, 5, rfl, by decide +kernel, by decide +kernel, by decide +kernel, by decide +kernel⟩,
   ⟨late, 0, { base with hostIf := { base.hostIf with injectRead := [(0, (5, []))] } }, _, 5, [], rfl, by decide +kernel, by decide +kernel⟩⟩

/-- Values that meet the hypotheses of HostWindows, one for each clause that has some. -/
theorem wit_HostWindows :
    (∃ t, ∃ s : State, ∃ a, a = comeTo t s ∧ a.power.powerGood = true) ∧
    (∃ k, ∃ s : State, nb s.hostIf.intCause k = false) ∧
    (∃ k, ∃ s : State, nb s.hostIf.intCause k = true ∧ ((∀ x, tabFind s.hostIf.causeAt k = some x → x.1 ≠ pclkEdge s))) ∧
    (∃ k, ∃ s : State, ∃ old, nb s.hostIf.intCause k = true ∧ tabFind s.hostIf.causeAt k = some (pclkEdge s, old)) ∧
    (∃ t, ∃ s : State, ∃ a, a = comeTo t s ∧ a.power.powerGood = true ∧ a.hostIf.intCause = 0) ∧
    (∃ t v, ∃ s : State, ∃ a b, a = comeTo t s ∧ a.power.powerGood = true ∧ nb v 0 = true ∧ b = advance ((a.clk.root + 10) / 10 * 10) a) ∧
    (∃ t, ∃ s : State, ∃ a, a = comeTo t s ∧ a.power.powerGood = true) ∧
    (∃ t n, ∃ s : State, ∃ a, a = comeTo t s ∧ a.power.powerGood = true ∧ (n = 1 ∨ n = 2)) ∧
    (∃ t, ∃ s : State, ∃ a, a = comeTo t s ∧ a.power.powerGood = true) ∧
    (∃ t, ∃ s : State, ∃ a, a = comeTo t s ∧ a.power.powerGood = true) ∧
    (∃ t, ∃ s : State, ∃ a b, a = comeTo t s ∧ a.power.powerGood = true ∧ b = bump 20 0 19 48 1 (disableAll a)) ∧
    (∃ q, q < 16) ∧
    (∃ r, r < 4) ∧
    (∃ o, o % 4 = 0) ∧
    (∃ t, ∃ s : State, ∃ a, a = comeTo t s ∧ a.power.powerGood = true ∧ a.hostIf.linkUp = false) ∧
    (∃ t, ∃ s : State, ∃ a, a = comeTo t s ∧ a.power.powerGood = true ∧ a.hostIf.linkUp = true) ∧
    (∃ t o f, ∃ s : State, ∃ a b st l x, a = comeTo t s ∧ o < 65536 ∧ o % 4 = 0 ∧ a.power.powerGood = true ∧ x = a.hostIf.mgBase + o ∧ mgAccess .pcieDma ⟨false, x - x % 64, 0, [], f, []⟩ a = ((st, l), b)) ∧
    (∃ t o v f g, ∃ s : State, ∃ a b st l x, a = comeTo t s ∧ o < 65536 ∧ o % 4 = 0 ∧ a.power.powerGood = true ∧ x = a.hostIf.mgBase + o ∧ mgAccess .pcieDma ⟨true, x - x % 64, 15 * 2 ^ (x % 64), List.replicate (x % 64) 0 ++ beBytes 4 v, f, g⟩ a = ((st, l), b)) ∧
    (∃ s : State, ∃ b, b = bump 20 0 17 48 1 s) ∧
    (∃ t, ∃ s : State, ∃ a, a = comeTo t s ∧ a.power.powerGood = true ∧ ((∀ x, a.hostIf.mgNew = some x → x.1 ≠ pclkEdge a))) ∧
    (∃ t, ∃ s : State, ∃ a st old, a = comeTo t s ∧ a.power.powerGood = true ∧ a.hostIf.mgNew = some (pclkEdge a, st, old)) :=
  ⟨⟨0, base, _, rfl, by decide +kernel⟩,
   ⟨0, base, by decide +kernel⟩,
   ⟨0, { base with hostIf := { base.hostIf with intCause := 1 } }, by decide +kernel, fun x h => nomatch (h : (none : Option (Nat × Bool)) = some _)⟩,
   ⟨0, { base with hostIf := { base.hostIf with intCause := 1, causeAt := [(0, (pclkEdge base, false))] } }, false, by decide +kernel, by decide +kernel⟩,
   ⟨0, base, _, rfl, by decide +kernel, by decide +kernel⟩,
   ⟨0, 1, base, _, _, rfl, by decide +kernel, by decide +kernel, rfl⟩,
   ⟨0, base, _, rfl, by decide +kernel⟩,
   ⟨0, 2, base, _, rfl, by decide +kernel, by decide +kernel⟩,
   ⟨0, base, _, rfl, by decide +kernel⟩,
   ⟨0, base, _, rfl, by decide +kernel⟩,
   ⟨0, base, _, _, rfl, by decide +kernel, rfl⟩,
   ⟨15, by decide +kernel⟩,
   ⟨3, by decide +kernel⟩,
   ⟨0x1C, by decide +kernel⟩,
   ⟨0, { base with hostIf := { base.hostIf with linkUp := false } }, _, rfl, by decide +kernel, by decide +kernel⟩,
   ⟨0, base, _, rfl, by decide +kernel, by decide +kernel⟩,
   ⟨0, 64, .none, { (withRegion region base) with hostIf := { base.hostIf with mgBase := 5 * 2 ^ 40 + 16 * 4096 } }, _, _, _, _, _, rfl, by decide +kernel, by decide +kernel, by decide +kernel, rfl, rfl⟩,
   ⟨0, 64, 5, .none, [], { (withRegion region base) with hostIf := { base.hostIf with mgBase := 5 * 2 ^ 40 + 16 * 4096 } }, _, _, _, _, _, rfl, by decide +kernel, by decide +kernel, by decide +kernel, rfl, rfl⟩,
   ⟨base, _, rfl⟩,
   ⟨0, base, _, rfl, by decide +kernel, by decide +kernel⟩,
   ⟨0, { base with hostIf := { base.hostIf with mgNew := some (pclkEdge base, 3, 4) } }, _, 3, 4, rfl, by decide +kernel, by decide +kernel⟩⟩

/-- Values that meet the hypotheses of BootAndVintage, one for each clause that has some. -/
theorem wit_BootAndVintage :
    (∃ t, ∃ s : State, ∃ a b c d, a = comeTo t s ∧ a.power.booting = true ∧ a.power.powerGood = true ∧ a.power.held = false ∧ a.boot.code = 0 ∧ b = { bootVault a with boot := { (bootVault a).boot with bootCount := ((bootVault a).boot.bootCount + 1) % 2 ^ 32, cells := tabSet 0 (bootVault a).boot.cells 2 ((tabGet 0 (bootVault a).boot.cells 2 + 1) % 64) } } ∧ c = drbgInstantiated b ∧ d = { b with vault := { b.vault with drbgStopped := true, drbgAttempts := 3 } }) ∧
    (∃ t m, ∃ s : State, ∃ a b c n l st, a = comeTo t s ∧ a.boot.reading = some n ∧ l = fit a.hostIf.recLen m ∧ st = imageStatus a a.hostIf.recLen l ∧ c = imageServed a.hostIf.recLen l a ∧ b = { c with boot := { c.boot with rstatus := 0, reading := none }, drawn := c.drawn + 1 }) ∧
    (∃ t, ∃ s : State, ∃ a n, a = comeTo t s ∧ a.boot.reading = some n) ∧
    (∃ t, ∃ s : State, ∃ a n, a = comeTo t s ∧ a.boot.reading = some n ∧ n + 1000000000 < a.clk.root) ∧
    (∃ t v, ∃ s : State, ∃ a, a = comeTo t s ∧ nb v 31 = true ∧ a.boot.rwait = true) ∧
    (∃ t m, ∃ s : State, ∃ a o q st, a = comeTo t s ∧ a.seq.staging = some (o, q) ∧ st = imageStatus a (Config.flashSize - o) m) ∧
    (∃ w, ∃ s : State, ∃ k e a, ∃ v : VintReq, runs sysVintageCmd w s k = true ∧ e = envAt w s k ∧ a = atBlock s k ∧ v = { nonce := [1, 2, 3, 4].flatMap (fun i => beBytes 8 (readReg (getCtx a k) i).toNat), len := e.b, addr := e.imm, cseq := e.cseq }) ∧
    (∃ s : State, ∃ v l, s.press.vintages = v :: l) ∧
    (∃ s : State, ∃ v l e x, s.press.vintages = v :: l ∧ v.began = some (e, x) ∧ v.snap = none) ∧
    (∃ r : PressRun, ∃ s : State, ∃ a v l m b, a = comeTo r.t s ∧ a.press.vintages = v :: l ∧ v.snap = some m ∧ (a.vault.drbgStopped = true ∨ a.hostIf.linkUp = false) ∧ b = { a with press := { a.press with vintages := l } }) ∧
    (∃ r : PressRun, ∃ s : State, ∃ a b v l m, a = comeTo r.t s ∧ a.press.vintages = v :: l ∧ v.snap = some m ∧ a.vault.drbgStopped = false ∧ a.hostIf.linkUp = true ∧ b = { a with press := { a.press with vintages := l } }) :=
  ⟨⟨0, State.reset, _, _, _, _, rfl, by decide +kernel, by decide +kernel, by decide +kernel, by decide +kernel, rfl, rfl, rfl⟩,
   ⟨0, [], { base with boot := { base.boot with reading := some 5 } }, _, _, _, 5, _, _, rfl, by decide +kernel, rfl, rfl, rfl, rfl⟩,
   ⟨0, { base with boot := { base.boot with reading := some 5 } }, _, 5, rfl, by decide +kernel⟩,
   ⟨late, { base with boot := { base.boot with reading := some 5 } }, _, 5, rfl, by decide +kernel, by decide +kernel⟩,
   ⟨0, 2 ^ 31, { base with boot := { base.boot with rwait := true } }, _, rfl, by decide +kernel, by decide +kernel⟩,
   ⟨0, [], { base with seq := { base.seq with staging := some (0, 7) } }, _, 0, 7, _, rfl, by decide +kernel, rfl⟩,
   ⟨word 0 60000 0x10000, base, 1, _, _, _, by decide +kernel, rfl, rfl, rfl⟩,
   ⟨{ base with press := { base.press with vintages := [(⟨[], 4096, 0x10000, 7, some (5, 5), none⟩ : VintReq)] } }, (⟨[], 4096, 0x10000, 7, some (5, 5), none⟩ : VintReq), [], by decide +kernel⟩,
   ⟨{ base with press := { base.press with vintages := [(⟨[], 4096, 0x10000, 7, some (5, 5), none⟩ : VintReq)] } }, (⟨[], 4096, 0x10000, 7, some (5, 5), none⟩ : VintReq), [], 5, 5, by decide +kernel, by decide +kernel, by decide +kernel⟩,
   ⟨⟨0, []⟩, { base with press := { base.press with vintages := [(⟨[], 4096, 0x10000, 7, some (5, 5), some []⟩ : VintReq)] }, vault := { base.vault with drbgStopped := true } }, _, (⟨[], 4096, 0x10000, 7, some (5, 5), some []⟩ : VintReq), [], [], _, rfl, by decide +kernel, by decide +kernel, by decide +kernel, rfl⟩,
   ⟨⟨0, []⟩, { base with press := { base.press with vintages := [(⟨[], 4096, 0x10000, 7, some (5, 5), some []⟩ : VintReq)] } }, _, _, (⟨[], 4096, 0x10000, 7, some (5, 5), some []⟩ : VintReq), [], [], rfl, by decide +kernel, by decide +kernel, by decide +kernel, by decide +kernel, rfl⟩⟩

/-- Values that meet the hypotheses of PowerAndClocks, one for each clause that has some. -/
theorem wit_PowerAndClocks :
    (∃ t, ∃ s : State, ∃ a b, a = comeTo t s ∧ exec (.npor t) s = .next b) ∧
    (∃ t, ∃ s : State, ∃ a, a = comeTo t s ∧ a.power.powerGood = false) ∧
    (∃ t, ∃ s : State, ∃ a, a = comeTo t s ∧ a.power.powerGood = false) ∧
    (∃ t, ∃ s : State, ∃ a b, a = comeTo t s ∧ a.power.powerGood = true ∧ b = resetMain a) ∧
    (∃ t r, ∃ s : State, ∃ a, a = comeTo t s ∧ r < 6 ∧ a.power.powerGood = false) ∧
    (∃ t r, ∃ s : State, ∃ a b, a = comeTo t s ∧ r < 6 ∧ a.power.powerGood = true ∧ a.power.warnings = [] ∧ b = resetCommon { a with crust := { a.crust with cause := a.crust.cause ||| 1 } }) ∧
    (∃ t r, ∃ s : State, ∃ a, a = comeTo t s ∧ a.power.powerGood = true ∧ r < 6 ∧ a.power.warnings.contains r = false) ∧
    (∃ t r, ∃ s : State, ∃ a, a = comeTo t s ∧ a.power.powerGood = true ∧ a.power.warnings.contains r = true) ∧
    (∃ t, ∃ s : State, ∃ a, a = comeTo t s ∧ a.power.powerGood = true ∧ a.power.refAGood = true ∧ a.power.selected = some 0) ∧
    (∃ t, ∃ s : State, ∃ a, a = comeTo t s ∧ a.power.powerGood = true ∧ a.power.refBGood = true ∧ a.power.selected = some 0) ∧
    (∃ t, ∃ s : State, ∃ a, a = comeTo t s ∧ a.power.powerGood = true ∧ a.power.refBGood = false ∧ a.power.refBFault + 1000000000 ≤ a.clk.root) ∧
    (∃ t, ∃ s : State, ∃ a, a = comeTo t s ∧ a.power.refBGood = false ∧ a.clk.root < a.power.refBFault + 1000000000) ∧
    (∃ t, ∃ s : State, ∃ a i, a = comeTo t s ∧ a.power.powerGood = true ∧ a.power.lanesOnRoot = true ∧ a.power.selected = some i) ∧
    (∃ t, ∃ s : State, ∃ a, a = comeTo t s ∧ a.power.powerGood = true ∧ a.power.onVco = false) ∧
    (∃ t, ∃ s : State, ∃ a u, a = comeTo t s ∧ a.power.powerGood = true ∧ a.power.spare = .relocking u ∧ a.clk.root ≤ u + 100000000) ∧
    (∃ t, ∃ s : State, ∃ a u, a = comeTo t s ∧ a.power.powerGood = true ∧ a.power.spare = .relocking u ∧ u + 100000000 < a.clk.root) :=
  ⟨⟨0, base, _, _, rfl, rfl⟩,
   ⟨0, { base with power := { base.power with powerGood := false, held := true } }, _, rfl, by decide +kernel⟩,
   ⟨0, { base with power := { base.power with powerGood := false, held := true } }, _, rfl, by decide +kernel⟩,
   ⟨0, base, _, _, rfl, by decide +kernel, rfl⟩,
   ⟨0, 5, { base with power := { base.power with powerGood := false } }, _, rfl, by decide +kernel, by decide +kernel⟩,
   ⟨0, 5, base, _, _, rfl, by decide +kernel, by decide +kernel, by decide +kernel, rfl⟩,
   ⟨0, 5, base, _, rfl, by decide +kernel, by decide +kernel, by decide +kernel⟩,
   ⟨0, 5, { base with power := { base.power with warnings := [5] } }, _, rfl, by decide +kernel, by decide +kernel⟩,
   ⟨0, base, _, rfl, by decide +kernel, by decide +kernel, by decide +kernel⟩,
   ⟨0, base, _, rfl, by decide +kernel, by decide +kernel, by decide +kernel⟩,
   ⟨late, { base with power := { base.power with refBGood := false } }, _, rfl, by decide +kernel, by decide +kernel, by decide +kernel⟩,
   ⟨0, { base with power := { base.power with refBGood := false } }, _, rfl, by decide +kernel, by decide +kernel⟩,
   ⟨0, { base with power := { base.power with lanesOnRoot := true } }, _, 0, rfl, by decide +kernel, by decide +kernel, by decide +kernel⟩,
   ⟨0, base, _, rfl, by decide +kernel, by decide +kernel⟩,
   ⟨0, { base with power := { base.power with spare := .relocking 5 } }, _, 5, rfl, by decide +kernel, by decide +kernel, by decide +kernel⟩,
   ⟨late, { base with power := { base.power with spare := .relocking 5 } }, _, 5, rfl, by decide +kernel, by decide +kernel, by decide +kernel⟩⟩

/-- Values that meet the hypotheses of TrellisLinks, one for each clause that has some. -/
theorem wit_TrellisLinks :
    (∃ w, ∃ s : State, ∃ k e a x, runs trSendCmd w s k = true ∧ e = envAt w s k ∧ a = atBlock s k ∧ mgmtFull e.b a = false ∧ x = trSendFrame 0x10 (if nb e.a 5 then 0x3F else e.a % 32) (addrRead e a e.b) a) ∧
    (∃ w, ∃ s : State, ∃ k e a, runs trSendCmd w s k = true ∧ e = envAt w s k ∧ a = atBlock s k ∧ mgmtFull e.b a = true) ∧
    (∃ w, ∃ s : State, ∃ k e a b x l rest, runs trRecvCmd w s k = true ∧ e = envAt w s k ∧ a = atBlock s k ∧ a.trellis.rxq = (x, l) :: rest ∧ w.x = 0 ∧ b = { a with trellis := { a.trellis with rxq := rest } }) ∧
    (∃ w, ∃ s : State, ∃ k a, runs trRecvCmd w s k = true ∧ a = atBlock s k ∧ a.trellis.rxq = []) ∧
    (∃ w, ∃ s : State, ∃ k e a b, runs trRoleCmd w s k = true ∧ e = envAt w s k ∧ a = atBlock s k ∧ b = takeSetting (beNat (readMem a 0x60040 64)) a) ∧
    (∃ t p, ∃ s : State, ∃ a, a = comeTo t s ∧ p < 2 ∧ (getTPort a p).step = .lock) ∧
    (∃ t p, ∃ s : State, ∃ a, a = comeTo t s ∧ p < 2 ∧ (getTPort a p).step = .hello ∧ (getTPort a p).lastTx + 1000000 ≤ a.clk.root) ∧
    (∃ t p, ∃ h : Hello, ∃ s : State, ∃ a b, a = comeTo t s ∧ p < 2 ∧ (getTPort a p).step = .hello ∧ (h.east = decide (p = 0)) ∧ h.version ≠ 0 ∧ b = bump 19 0 (8 * p + 4) 48 1 a) ∧
    (∃ t p, ∃ h : Hello, ∃ s : State, ∃ a, a = comeTo t s ∧ p < 2 ∧ (getTPort a p).step = .hello ∧ (h.east = decide (p = 1))) ∧
    (∃ t, ∃ s : State, ∃ a b, a = comeTo t s ∧ a.trellis.portW.step = .mode ∧ a.trellis.portW.heldFrom + 10000000 ≤ a.clk.root ∧ b = setTPort a 0 { a.trellis.portW with step := .session, since := a.clk.root }) ∧
    (∃ t, ∃ s : State, ∃ a b, a = comeTo t s ∧ a.trellis.portE.step = .mode ∧ a.trellis.portE.heldFrom + 10000000 ≤ a.clk.root ∧ b = setTPort a 1 { a.trellis.portE with step := .session, since := a.clk.root }) ∧
    (∃ t p, ∃ s : State, ∃ a, ∃ h : Hello, a = comeTo t s ∧ p < 2 ∧ (getTPort a p).step = .mode ∧ (getTPort a p).peer = some h) ∧
    (∃ t p, ∃ s : State, ∃ a, a = comeTo t s ∧ p < 2 ∧ (getTPort a p).step = .session ∧ (getTPort a p).since + 100000000 < a.clk.root) ∧
    (∃ t p, ∃ s : State, ∃ a, a = comeTo t s ∧ p < 2 ∧ (getTPort a p).step = .waiting ∧ (getTPort a p).since + 1000000000 ≤ a.clk.root) :=
  ⟨⟨word 3 8 0x78000, { base with trellis := { base.trellis with setting := 2 ^ 511, portE := { step := .up } } }, 1, _, _, _, by decide +kernel, rfl, rfl, by decide +kernel, rfl⟩,
   ⟨word 3 8 0x78000, { base with trellis := { base.trellis with setting := 2 ^ 511, portE := { step := .up } }, cask := { base.cask with mgmt := 8192 } }, 1, _, _, by decide +kernel, rfl, rfl, by decide +kernel⟩,
   ⟨word 0 8 0x78000, { base with trellis := { base.trellis with rxq := [(3, [1, 2])] } }, 1, _, _, _, 3, [1, 2], [], by decide +kernel, rfl, rfl, by decide +kernel, rfl, rfl⟩,
   ⟨word 0 8 0x78000, base, 1, _, by decide +kernel, rfl, by decide +kernel⟩,
   ⟨word 0 2 0, { base with vault := { base.vault with slots := [(0, { attr := 8 * 2 ^ 28 + 2 ^ 21 })] } }, 1, _, _, _, by decide +kernel, rfl, rfl, rfl⟩,
   ⟨0, 1, { base with trellis := { base.trellis with portE := { step := .lock } } }, _, rfl, by decide +kernel, by decide +kernel⟩,
   ⟨late, 1, { base with trellis := { base.trellis with portE := { step := .hello } } }, _, rfl, by decide +kernel, by decide +kernel, by decide +kernel⟩,
   ⟨0, 0, ⟨true, 1, false, false, true, 3, 4, 9⟩, { base with trellis := { base.trellis with portW := { step := .hello } } }, _, _, rfl, by decide +kernel, by decide +kernel, by decide +kernel, by decide +kernel, rfl⟩,
   ⟨0, 1, ⟨true, 1, false, false, true, 3, 4, 9⟩, { base with trellis := { base.trellis with portE := { step := .hello } } }, _, rfl, by decide +kernel, by decide +kernel, by decide +kernel⟩,
   ⟨late, { base with trellis := { base.trellis with portW := { step := .mode } } }, _, _, rfl, by decide +kernel, by decide +kernel, rfl⟩,
   ⟨late, { base with trellis := { base.trellis with portE := { step := .mode } } }, _, _, rfl, by decide +kernel, by decide +kernel, rfl⟩,
   ⟨0, 1, { base with trellis := { base.trellis with portE := { step := .mode, peer := some ⟨true, 1, false, false, true, 3, 4, 9⟩ } } }, _, ⟨true, 1, false, false, true, 3, 4, 9⟩, rfl, by decide +kernel, by decide +kernel, by decide +kernel⟩,
   ⟨late, 1, { base with trellis := { base.trellis with portE := { step := .session } } }, _, rfl, by decide +kernel, by decide +kernel, by decide +kernel⟩,
   ⟨late, 1, { base with trellis := { base.trellis with portE := { step := .waiting } } }, _, rfl, by decide +kernel, by decide +kernel, by decide +kernel⟩⟩

/-- Values that meet the hypotheses of TrellisSecurity, one for each clause that has some. -/
theorem wit_TrellisSecurity :
    (∃ r : PressRun, ∃ p, ∃ s : State, ∃ a b, a = comeTo r.t s ∧ p < 2 ∧ (getTPort a p).step = .session ∧ b = bump 19 0 (8 * p + 4) 48 1 a ∧ pressAtWork b = true) ∧
    (∃ r : PressRun, ∃ p, ∃ s : State, ∃ a b, a = comeTo r.t s ∧ p < 2 ∧ (getTPort a p).step = .session ∧ b = bump 19 0 (8 * p + 4) 48 1 a ∧ pressAtWork b = false ∧ (getTPort b 0).waits = [] ∧ (getTPort b 1).waits = []) ∧
    (∃ p, ∃ u : Bytes, ∃ s : State, p < 2 ∧ (getTPort s p).step = .session ∧ u.any (· != 0) = true) ∧
    (∃ u : Bytes, ∃ s : State, (getTPort s 0).step = .session ∧ u.any (· != 0) = false) ∧
    (∃ p, ∃ u : Bytes, ∃ s : State, p < 2 ∧ (getTPort s p).step = .session ∧ u.any (· != 0) = false ∧ (getTPort s p).offer.isSome = true ∧ (getTPort s p).answer.isSome = true) ∧
    (∃ t p l, ∃ s : State, ∃ a, a = comeTo t s ∧ p < 2 ∧ (getTPort a p).step = .up ∧ trOpen (getTPort a p) l = none) ∧
    (∃ p, ∃ s : State, ∃ b, p < 2 ∧ b = trCheckFails p (setTPort s p { getTPort s p with fails := (getTPort s p).fails + 1 })) ∧
    (∃ t p l, ∃ s : State, ∃ a f, a = comeTo t s ∧ p < 2 ∧ (getTPort a p).step = .up ∧ trOpen (getTPort a p) l = some f) ∧
    (∃ q l f, trOpen q l = some f) ∧
    (∃ t, ∃ s : State, ∃ a, a = comeTo t s ∧ a.trellis.portE.step = .up ∧ a.trellis.portE.keyedAt + 864000000000000 ≤ a.clk.root) ∧
    (∃ t p, ∃ s : State, ∃ a, a = comeTo t s ∧ p < 2 ∧ (getTPort a p).step = .up) :=
  ⟨⟨⟨0, []⟩, 0, { { base with trellis := { base.trellis with portW := { step := .session, offer := some (.offer [] [] []), answer := some (.answer [] [] []) } } } with press := { base.press with running := some signing } }, _, _, rfl, by decide +kernel, by decide +kernel, rfl, by decide +kernel⟩,
   ⟨⟨0, []⟩, 0, { base with trellis := { base.trellis with portW := { step := .session, offer := some (.offer [] [] []), answer := some (.answer [] [] []) } } }, _, _, rfl, by decide +kernel, by decide +kernel, rfl, by decide +kernel, by decide +kernel, by decide +kernel⟩,
   ⟨0, [1], { base with trellis := { base.trellis with portW := { step := .session, offer := some (.offer [] [] []), answer := some (.answer [] [] []) } } }, by decide +kernel, by decide +kernel, by decide +kernel⟩,
   ⟨[0], { base with trellis := { base.trellis with portW := { step := .session, offer := some (.offer [] [] []), answer := some (.answer [] [] []) } } }, by decide +kernel, by decide +kernel⟩,
   ⟨0, [], { base with trellis := { base.trellis with portW := { step := .session, offer := some (.offer [] [] []), answer := some (.answer [] [] []) } } }, by decide +kernel, by decide +kernel, by decide +kernel, by decide +kernel, by decide +kernel⟩,
   ⟨0, 1, [], { base with trellis := { base.trellis with portE := { step := .up } } }, _, rfl, by decide +kernel, by decide +kernel, by decide +kernel⟩,
   ⟨1, { base with trellis := { base.trellis with portE := { step := .up } } }, _, by decide +kernel, rfl⟩,
   ⟨0, 1, trWire linked (trHeader 0x10 3 4 32 0 1 0) [], { base with trellis := { base.trellis with portE := linked } }, _, { typ := 0x10, dst := 3, src := 4, ttl := 32, wrapped := false, phase := false, lseq := 1, payload := [] }, rfl, by decide +kernel, by decide +kernel, by decide +kernel⟩,
   ⟨linked, trWire linked (trHeader 0x10 3 4 32 0 1 0) [], { typ := 0x10, dst := 3, src := 4, ttl := 32, wrapped := false, phase := false, lseq := 1, payload := [] }, by decide +kernel⟩,
   ⟨late, { base with trellis := { base.trellis with portE := { step := .up } } }, _, rfl, by decide +kernel, by decide +kernel⟩,
   ⟨0, 1, { base with trellis := { base.trellis with portE := { step := .up } } }, _, rfl, by decide +kernel, by decide +kernel⟩⟩

/-- Values that meet the hypotheses of TrellisTraffic, one for each clause that has some. -/
theorem wit_TrellisTraffic :
    (∃ t, ∃ s : State, ∃ a f, a = comeTo t s ∧ a.trellis.taken.find? (fun f => !svcWaits a f.2) = some f) ∧
    (∃ t x y, ∃ s : State, ∃ a, ∃ f : Frags, a = comeTo t s ∧ a.trellis.frags.find? (fun f => f.src == x && f.relay == y) = some f ∧ f.since + 10000000 < a.clk.root) ∧
    (∃ t p l, ∃ s : State, ∃ a, a = comeTo t s ∧ p < 2 ∧ (getTPort a p).step = .up ∧ mf l 3 1 = 0x30) ∧
    (∃ t, ∃ s : State, ∃ a b, a = comeTo t s ∧ a.trellis.isManager = true ∧ nb a.trellis.setting 511 = true ∧ trAnyUp a = true ∧ a.trellis.tsyncAt + 125 * 10000 * nf a.trellis.setting 445 438 ≤ a.clk.root ∧ b = trSendFrame 0x30 0x3F (tsyncPayload (todForm (stampNow a)) 0 a.clk.incr a.trellis.tsyncSeq 0) a) ∧
    (∃ t p, ∃ s : State, ∃ a b, a = comeTo t s ∧ p < 2 ∧ (getTPort a p).step = .up ∧ b = trSent p (.dreq p) a) ∧
    (∃ t, ∃ s : State, ∃ a l, a = comeTo t s ∧ a.trellis.evBatch = l ∧ l ≠ [] ∧ a.trellis.isManager = false ∧ trAnyUp a = true ∧ a.book.frozen = false) ∧
    (∃ t, ∃ x : LinkLost, ∃ s : State, ∃ a b c, a = comeTo t s ∧ x.port < 2 ∧ (getTPort a x.port).step = .up ∧ ((x.locked = false ∨ (getTPort a x.port).lastRx + 100000 < a.clk.root)) ∧ c = setStep x.port .lock (bump 19 0 (8 * x.port + 6) 48 1 (sessionFails x.port a)) ∧ b = raise 0xA001 (nodeField c) 0 c) ∧
    (∃ t, ∃ x : LinkLost, ∃ s : State, ∃ a, a = comeTo t s ∧ x.locked = true ∧ a.clk.root ≤ (getTPort a x.port).lastRx + 100000) ∧
    (∃ p, p < 2) ∧
    (∃ t n, ∃ s : State, ∃ a, a = comeTo t s ∧ a.trellis.members.any (fun m => m.node == n) = true ∧ tabGet 0 a.trellis.lastHeard n + 10000000 < a.clk.root) ∧
    (∃ t p, ∃ s : State, ∃ a, a = comeTo t s ∧ p < 2 ∧ (getTPort a p).step = .up) :=
  ⟨⟨0, { base with trellis := { base.trellis with taken := [(3, [2])] } }, _, (3, [2]), rfl, by decide +kernel⟩,
   ⟨late, 3, 4, { base with trellis := { base.trellis with frags := [⟨3, 4, 2, [], 5⟩] } }, _, ⟨3, 4, 2, [], 5⟩, rfl, by decide +kernel, by decide +kernel⟩,
   ⟨0, 1, trHeader 0x30 0x3F 4 32 0 1 0, { base with trellis := { base.trellis with portE := { step := .up } } }, _, rfl, by decide +kernel, by decide +kernel, by decide +kernel⟩,
   ⟨late, { base with trellis := { base.trellis with isManager := true, setting := 2 ^ 511 + 2 ^ 438, portE := { step := .up } } }, _, _, rfl, by decide +kernel, by decide +kernel, by decide +kernel, by decide +kernel, rfl⟩,
   ⟨0, 1, { base with trellis := { base.trellis with portE := { step := .up } } }, _, _, rfl, by decide +kernel, by decide +kernel, rfl⟩,
   ⟨0, { base with trellis := { base.trellis with evBatch := [[1]], portE := { step := .up } } }, _, [[1]], rfl, by decide +kernel, by decide +kernel, by decide +kernel, by decide +kernel, by decide +kernel⟩,
   ⟨0, ⟨1, false⟩, { base with trellis := { base.trellis with portE := { step := .up } } }, _, _, _, rfl, by decide +kernel, by decide +kernel, by decide +kernel, rfl, rfl⟩,
   ⟨0, ⟨1, true⟩, base, _, rfl, by decide +kernel, by decide +kernel⟩,
   ⟨1, by decide +kernel⟩,
   ⟨late, 5, { base with trellis := { base.trellis with members := [⟨5, 9, 1, true⟩] } }, _, rfl, by decide +kernel, by decide +kernel⟩,
   ⟨0, 1, { base with trellis := { base.trellis with portE := { step := .up } } }, _, rfl, by decide +kernel, by decide +kernel⟩⟩

/-- Values that meet the hypotheses of CommandsComplete, one for each clause that has some. -/
theorem wit_CommandsComplete :
    (∃ w, ∃ s : State, ∃ k, runs laneCfgCmd w s k = true) ∧
    (∃ w, ∃ s : State, ∃ k, runs laneTestCmd w s k = true) ∧
    (∃ w, ∃ s : State, ∃ k, runs laneCalAdaptCmd w s k = true) ∧
    (∃ w, ∃ s : State, ∃ k, runs laneCalMarginCmd w s k = true) ∧
    (∃ w, ∃ s : State, ∃ k, runs laneCalFullCmd w s k = true) ∧
    (∃ w, ∃ s : State, ∃ k, runs portCfgCmd w s k = true) ∧
    (∃ w, ∃ s : State, ∃ k, runs portStateCmd w s k = true) ∧
    (∃ w, ∃ s : State, ∃ k, runs clsMapCmd w s k = true) ∧
    (∃ w, ∃ s : State, ∃ k, runs clsRuleCmd w s k = true) ∧
    (∃ w, ∃ s : State, ∃ k, runs peerAddCmd w s k = true) ∧
    (∃ w, ∃ s : State, ∃ k, runs peerDelCmd w s k = true) ∧
    (∃ w, ∃ s : State, ∃ k, runs peerSearchCmd w s k = true) ∧
    (∃ w, ∃ s : State, ∃ k, runs peerNextCmd w s k = true) ∧
    (∃ w, ∃ s : State, ∃ k, runs peerFlushCmd w s k = true) ∧
    (∃ w, ∃ s : State, ∃ k, runs chSetCmd w s k = true) ∧
    (∃ w, ∃ s : State, ∃ k, runs saLoadCmd w s k = true) ∧
    (∃ w, ∃ s : State, ∃ k, runs saArmCmd w s k = true) ∧
    (∃ w, ∃ s : State, ∃ k, runs saRollCmd w s k = true) ∧
    (∃ w, ∃ s : State, ∃ k, runs saRetireCmd w s k = true) ∧
    (∃ w, ∃ s : State, ∃ k, runs chPinCmd w s k = true) ∧
    (∃ w, ∃ s : State, ∃ k, runs chUnpinCmd w s k = true) ∧
    (∃ w, ∃ s : State, ∃ k, runs chReadCmd w s k = true) ∧
    (∃ w, ∃ s : State, ∃ k, runs cntReadCmd w s k = true) ∧
    (∃ w, ∃ s : State, ∃ k, runs cntClearCmd w s k = true) ∧
    (∃ w, ∃ s : State, ∃ k, runs classMapCmd w s k = true) ∧
    (∃ w, ∃ s : State, ∃ k, runs shapeSetCmd w s k = true) ∧
    (∃ w, ∃ s : State, ∃ k, runs policeSetCmd w s k = true) ∧
    (∃ w, ∃ s : State, ∃ k, runs gateLoadCmd w s k = true) ∧
    (∃ w, ∃ s : State, ∃ k, runs gateSwapCmd w s k = true) ∧
    (∃ w, ∃ s : State, ∃ k, runs gateSwapCancelCmd w s k = true) ∧
    (∃ w, ∃ s : State, ∃ k, runs preemptSetCmd w s k = true) ∧
    (∃ w, ∃ s : State, ∃ k, runs timeSetCmd w s k = true) ∧
    (∃ w, ∃ s : State, ∃ k, runs timeSetAtPpsCmd w s k = true) ∧
    (∃ w, ∃ s : State, ∃ k, runs timeAdjCmd w s k = true) ∧
    (∃ w, ∃ s : State, ∃ k, runs timeIncrCmd w s k = true) ∧
    (∃ w, ∃ s : State, ∃ k, runs trigArmCmd w s k = true) ∧
    (∃ w, ∃ s : State, ∃ k, runs captCfgCmd w s k = true) ∧
    (∃ w, ∃ s : State, ∃ k, runs probeSendCmd w s k = true) ∧
    (∃ w, ∃ s : State, ∃ k, runs probeResponderCmd w s k = true) ∧
    (∃ w, ∃ s : State, ∃ k, runs tsPopCmd w s k = true) :=
  ⟨match wit_Lanes.1 with | ⟨w, s, k, _, _, h, _⟩ => ⟨w, s, k, h⟩,
   match wit_Lanes.2.1 with | ⟨w, s, k, _, _, _, h, _⟩ => ⟨w, s, k, h⟩,
   match wit_Lanes.2.2.2.2.2.2.2.1 with | ⟨w, s, k, h⟩ => ⟨w, s, k, h⟩,
   match wit_Lanes.2.2.2.2.2.2.2.2.1 with | ⟨w, s, k, _, h, _⟩ => ⟨w, s, k, h⟩,
   match wit_Lanes.2.2.2.2.2.2.2.2.2.1 with | ⟨w, s, k, _, _, _, h, _⟩ => ⟨w, s, k, h⟩,
   match wit_PortSettings.1 with | ⟨w, s, k, _, _, _, h, _⟩ => ⟨w, s, k, h⟩,
   match wit_PortSettings.2.2 with | ⟨w, s, k, _, _, h, _⟩ => ⟨w, s, k, h⟩,
   match wit_ClassifierAndCounters.1 with | ⟨w, s, k, _, _, h, _⟩ => ⟨w, s, k, h⟩,
   match wit_ClassifierAndCounters.2.1 with | ⟨w, s, k, _, _, h, _⟩ => ⟨w, s, k, h⟩,
   match wit_PeerTable.1 with | ⟨w, s, k, _, _, _, _, _, _, _, _, h, _⟩ => ⟨w, s, k, h⟩,
   match wit_PeerTable.2.2.2.1 with | ⟨w, s, k, _, _, _, _, _, _, _, h, _⟩ => ⟨w, s, k, h⟩,
   match wit_PeerTable.2.2.2.2.1 with | ⟨w, s, k, _, _, _, _, _, _, _, _, h, _⟩ => ⟨w, s, k, h⟩,
   match wit_PeerTable.2.2.2.2.2.2.1 with | ⟨w, s, k, _, _, _, _, _, h, _⟩ => ⟨w, s, k, h⟩,
   match wit_PeerTable.2.2.2.2.2.2.2.1 with | ⟨w, s, k, _, _, _, h, _⟩ => ⟨w, s, k, h⟩,
   match wit_Channels.1 with | ⟨w, s, k, _, _, _, h, _⟩ => ⟨w, s, k, h⟩,
   match wit_Associations.1 with | ⟨w, s, k, _, _, _, _, _, _, _, h, _⟩ => ⟨w, s, k, h⟩,
   match wit_Associations.2.2.2.1 with | ⟨w, s, k, _, _, _, _, _, _, h, _⟩ => ⟨w, s, k, h⟩,
   match wit_Associations.2.2.2.2.1 with | ⟨w, s, k, _, _, _, _, _, h, _⟩ => ⟨w, s, k, h⟩,
   match wit_Associations.2.2.2.2.2.2.1 with | ⟨w, s, k, _, _, _, _, _, _, _, h, _⟩ => ⟨w, s, k, h⟩,
   match wit_Channels.2.2.2.2.1 with | ⟨w, s, k, _, _, _, _, h, _⟩ => ⟨w, s, k, h⟩,
   match wit_Channels.2.2.2.2.2.2.1 with | ⟨w, s, k, _, _, h, _⟩ => ⟨w, s, k, h⟩,
   match wit_Channels.2.2.2.2.2.2.2.1 with | ⟨w, s, k, _, _, h, _⟩ => ⟨w, s, k, h⟩,
   match wit_ClassifierAndCounters.2.2.2.1 with | ⟨w, s, k, _, _, _, h, _⟩ => ⟨w, s, k, h⟩,
   match wit_ClassifierAndCounters.2.2.2.2.2 with | ⟨w, s, k, _, _, h, _⟩ => ⟨w, s, k, h⟩,
   match wit_Scheduling.1 with | ⟨w, s, k, _, _, h, _⟩ => ⟨w, s, k, h⟩,
   match wit_Scheduling.2.2.2.1 with | ⟨w, s, k, _, _, h, _⟩ => ⟨w, s, k, h⟩,
   match wit_Scheduling.2.1 with | ⟨w, s, k, _, _, _, h, _⟩ => ⟨w, s, k, h⟩,
   match wit_Scheduling.2.2.2.2.2.1 with | ⟨w, s, k, _, _, _, _, h, _⟩ => ⟨w, s, k, h⟩,
   match wit_Scheduling.2.2.2.2.2.2.1 with | ⟨w, s, k, _, _, _, _, h, _⟩ => ⟨w, s, k, h⟩,
   match wit_Scheduling.2.2.2.2.2.2.2.1 with | ⟨w, s, k, _, _, _, h, _⟩ => ⟨w, s, k, h⟩,
   match wit_Scheduling.2.2.2.2.1 with | ⟨w, s, k, _, _, h, _⟩ => ⟨w, s, k, h⟩,
   match wit_NetworkTime.2.2.1 with | ⟨w, s, k, _, _, _, _, h, _⟩ => ⟨w, s, k, h⟩,
   match wit_NetworkTime.2.2.2.2.2.2.1 with | ⟨w, s, k, _, _, _, h, _⟩ => ⟨w, s, k, h⟩,
   match wit_NetworkTime.2.2.2.1 with | ⟨w, s, k, _, _, _, _, h, _⟩ => ⟨w, s, k, h⟩,
   match wit_NetworkTime.1 with | ⟨w, s, k, _, _, _, h, _⟩ => ⟨w, s, k, h⟩,
   match wit_NetworkTime.2.2.2.2.2.2.2.2.2.2.2.2.2.1 with | ⟨w, s, k, _, _, h, _⟩ => ⟨w, s, k, h⟩,
   match wit_NetworkTime.2.2.2.2.2.2.2.2.2.2.2.1 with | ⟨w, s, k, _, _, h, _⟩ => ⟨w, s, k, h⟩,
   match wit_StampQueuesAndProbes.2.1 with | ⟨w, s, k, _, _, _, _, _, _, h, _⟩ => ⟨w, s, k, h⟩,
   match wit_StampQueuesAndProbes.2.2.2.1 with | ⟨w, s, k, _, _, _, _, h, _⟩ => ⟨w, s, k, h⟩,
   match wit_StampQueuesAndProbes.1 with | ⟨w, s, k, _, _, _, _, _, _, _, h, _⟩ => ⟨w, s, k, h⟩⟩

/-- Values that meet the hypotheses of VaultCommandsComplete, one for each clause that has some. -/
theorem wit_VaultCommandsComplete :
    (∃ w, ∃ s : State, ∃ k, runs graftCmd w s k = true) ∧
    (∃ w, ∃ s : State, ∃ k, runs slotEraseCmd w s k = true) ∧
    (∃ w, ∃ s : State, ∃ k, runs slotInfoCmd w s k = true) ∧
    (∃ w, ∃ s : State, ∃ k, runs blkKeyCmd w s k = true) ∧
    (∃ w, ∃ s : State, ∃ k, runs blkOpCmd w s k = true) ∧
    (∃ w, ∃ s : State, ∃ k, runs blkCmpCmd w s k = true) ∧
    (∃ w, ∃ s : State, ∃ k, runs unwrapCmd w s k = true) ∧
    (∃ w, ∃ s : State, ∃ k, runs drbgGetCmd w s k = true) ∧
    (∃ w, ∃ s : State, ∃ k, runs pkLoadCmd w s k = true) ∧
    (∃ w, ∃ s : State, ∃ k, runs pkOpCmd w s k = true) ∧
    (∃ w, ∃ s : State, ∃ k, runs pkReadCmd w s k = true) ∧
    (∃ w, ∃ s : State, ∃ k, runs mgRegionCreateCmd w s k = true) ∧
    (∃ w, ∃ s : State, ∃ k, runs mgRegionRemoveCmd w s k = true) ∧
    (∃ w, ∃ s : State, ∃ k, runs mgRotateCmd w s k = true) ∧
    (∃ w, ∃ s : State, ∃ k, runs mgRebuildCmd w s k = true) ∧
    (∃ w, ∃ s : State, ∃ k, runs mgScrubStartCmd w s k = true) ∧
    (∃ w, ∃ s : State, ∃ k, runs mgScrubStopCmd w s k = true) ∧
    (∃ w, ∃ s : State, ∃ k, runs mgRightsCmd w s k = true) :=
  ⟨match wit_VaultEvents.1 with | ⟨w, s, k, _, _, h, _⟩ => ⟨w, s, k, h⟩,
   match wit_KeyVault.1 with | ⟨w, s, k, _, _, h, _⟩ => ⟨w, s, k, h⟩,
   match wit_KeyVault.2.1 with | ⟨w, s, k, _, _, h, _⟩ => ⟨w, s, k, h⟩,
   match wit_KeyVault.2.2.2.2.2.1 with | ⟨w, s, k, _, _, _, _, _, h, _⟩ => ⟨w, s, k, h⟩,
   match wit_KeyVault.2.2.2.2.2.2.1 with | ⟨w, s, k, _, _, _, h, _⟩ => ⟨w, s, k, h⟩,
   match wit_KeyVault.2.2.2.2.2.2.2.1 with | ⟨w, s, k, _, _, _, h, _⟩ => ⟨w, s, k, h⟩,
   match wit_KeyVault.2.2.2.2.1 with | ⟨w, s, k, _, _, _, _, _, _, h, _⟩ => ⟨w, s, k, h⟩,
   match wit_KeyVault.2.2.2.2.2.2.2.2 with | ⟨w, s, k, _, _, _, h, _⟩ => ⟨w, s, k, h⟩,
   match wit_PressOperations.1 with | ⟨w, s, k, _, _, _, h, _⟩ => ⟨w, s, k, h⟩,
   match wit_PressOperations.2.2.1 with | ⟨w, s, k, _, _, h, _⟩ => ⟨w, s, k, h⟩,
   match wit_PressOperations.2.1 with | ⟨w, s, k, _, _, _, h, _⟩ => ⟨w, s, k, h⟩,
   match wit_Regions.1 with | ⟨w, s, k, _, _, _, _, h, _⟩ => ⟨w, s, k, h⟩,
   match wit_Regions.2.1 with | ⟨w, s, k, _, _, h, _⟩ => ⟨w, s, k, h⟩,
   match wit_Regions.2.2.2.2.2.2.1 with | ⟨w, s, k, _, _, _, _, _, h, _⟩ => ⟨w, s, k, h⟩,
   match wit_Regions.2.2.2.2.2.2.2.1 with | ⟨w, s, k, _, _, _, h, _⟩ => ⟨w, s, k, h⟩,
   match wit_Regions.2.2.2.2.1 with | ⟨w, s, k, _, _, _, h, _⟩ => ⟨w, s, k, h⟩,
   match wit_Regions.2.2.2.2.2.1 with | ⟨w, s, k, _, _, h, _⟩ => ⟨w, s, k, h⟩,
   match wit_Regions.2.2.2.1 with | ⟨w, s, k, _, _, _, h, _⟩ => ⟨w, s, k, h⟩⟩

/-- Values that meet the hypotheses of SystemCommandsComplete, one for each clause that has some. -/
theorem wit_SystemCommandsComplete :
    (∃ w, ∃ s : State, ∃ k, runs logWriteCmd w s k = true) ∧
    (∃ w, ∃ s : State, ∃ k, runs logFreezeCmd w s k = true) ∧
    (∃ w, ∃ s : State, ∃ k, runs logThawCmd w s k = true) ∧
    (∃ w, ∃ s : State, ∃ k, runs logClearCmd w s k = true) ∧
    (∃ w, ∃ s : State, ∃ k, runs trSendCmd w s k = true) ∧
    (∃ w, ∃ s : State, ∃ k, runs trRecvCmd w s k = true) ∧
    (∃ w, ∃ s : State, ∃ k, runs trRoleCmd w s k = true) ∧
    (∃ w, ∃ s : State, ∃ k, runs sysCkptCmd w s k = true) ∧
    (∃ w, ∃ s : State, ∃ k, runs sysSwitchStageCmd w s k = true) ∧
    (∃ w, ∃ s : State, ∃ k, runs sysSwitchHoldoffCmd w s k = true) ∧
    (∃ w, ∃ s : State, ∃ k, runs sysVintageCmd w s k = true) ∧
    (∃ w, ∃ s : State, ∃ k, runs evBindCmd w s k = true) ∧
    (∃ w, ∃ s : State, ∃ k, runs evUnbindCmd w s k = true) ∧
    (∃ w, ∃ s : State, ∃ k, runs crustCfgCmd w s k = true) ∧
    (∃ w, ∃ s : State, ∃ k, runs crustArmCmd w s k = true) ∧
    (∃ w, ∃ s : State, ∃ k, runs crustDisarmCmd w s k = true) ∧
    (∃ w, ∃ s : State, ∃ k, runs crustTestCmd w s k = true) ∧
    (∃ w, ∃ s : State, ∃ k, runs crustInjectCmd w s k = true) ∧
    (∃ w, ∃ s : State, ∃ k, runs crustClearCmd w s k = true) ∧
    (∃ w, ∃ s : State, ∃ k, runs crustLogclearCmd w s k = true) :=
  ⟨match wit_BookInstructions.1 with | ⟨w, s, k, _, _, h, _⟩ => ⟨w, s, k, h⟩,
   match wit_BookInstructions.2.1 with | ⟨w, s, k, _, _, h, _⟩ => ⟨w, s, k, h⟩,
   match wit_BookInstructions.2.2.2.1 with | ⟨w, s, k, _, _, h, _⟩ => ⟨w, s, k, h⟩,
   match wit_BookInstructions.2.2.2.2.2.1 with | ⟨w, s, k, _, _, h, _⟩ => ⟨w, s, k, h⟩,
   match wit_TrellisLinks.1 with | ⟨w, s, k, _, _, _, h, _⟩ => ⟨w, s, k, h⟩,
   match wit_TrellisLinks.2.2.1 with | ⟨w, s, k, _, _, _, _, _, _, h, _⟩ => ⟨w, s, k, h⟩,
   match wit_TrellisLinks.2.2.2.2.1 with | ⟨w, s, k, _, _, _, h, _⟩ => ⟨w, s, k, h⟩,
   match wit_Complexes.1 with | ⟨w, s, k, _, h, _⟩ => ⟨w, s, k, h⟩,
   match wit_Complexes.2.2.1 with | ⟨w, s, k, _, _, h, _⟩ => ⟨w, s, k, h⟩,
   match wit_Complexes.2.2.2.1 with | ⟨w, s, k, _, _, h, _⟩ => ⟨w, s, k, h⟩,
   match wit_BootAndVintage.2.2.2.2.2.2.1 with | ⟨w, s, k, _, _, _, h, _⟩ => ⟨w, s, k, h⟩,
   match wit_HandlersAndWaits.1 with | ⟨w, s, k, _, _, _, _, h, _⟩ => ⟨w, s, k, h⟩,
   match wit_HandlersAndWaits.2.2.1 with | ⟨w, s, k, _, _, _, h, _⟩ => ⟨w, s, k, h⟩,
   match wit_CrustCommands.1 with | ⟨w, s, k, _, _, _, h, _⟩ => ⟨w, s, k, h⟩,
   match wit_CrustCommands.2.1 with | ⟨w, s, k, _, _, _, h, _⟩ => ⟨w, s, k, h⟩,
   match wit_CrustCommands.2.2.2.1 with | ⟨w, s, k, _, _, h, _⟩ => ⟨w, s, k, h⟩,
   match wit_CrustCommands.2.2.2.2.1 with | ⟨w, s, k, _, _, h, _⟩ => ⟨w, s, k, h⟩,
   match wit_CrustCommands.2.2.2.2.2.1 with | ⟨w, s, k, _, _, _, h, _⟩ => ⟨w, s, k, h⟩,
   match wit_CrustCommands.2.2.2.2.2.2.1 with | ⟨w, s, k, _, _, _, h, _⟩ => ⟨w, s, k, h⟩,
   match wit_CrustCommands.2.2.2.2.2.2.2.1 with | ⟨w, s, k, _, _, _, h, _⟩ => ⟨w, s, k, h⟩⟩

/-- Values that meet the hypotheses of PressEventsComplete, one for each clause that has some. -/
theorem wit_PressEventsComplete :
    (∃ t, ∃ s : State, ∃ a b op g n, a = comeTo t s ∧ a.press.running = some op ∧ op.func = 1 ∧ op.result = none ∧ g = nf op.imm 9 0 ∧ n = nf op.imm 19 10 ∧ b = shape g n a) ∧
    (∃ run : PressRun, ∃ s : State, ∃ a b op c q, a = comeTo run.t s ∧ a.press.running = some op ∧ op.result = none ∧ b = (internalRandom 8 a).2 ∧ op.vault = true ∧ 1 ≤ c ∧ c ≤ 3 ∧ op.func = 0x10 + c ∧ q = upsetPoint c run.upset (ecMul c (secretScalar c op.secret) (curveG c))) ∧
    (∃ run : PressRun, ∃ s : State, ∃ a b op c d dg r z o, a = comeTo run.t s ∧ a.press.running = some op ∧ op.result = none ∧ b = (internalRandom 48 a).2 ∧ op.vault = true ∧ 1 ≤ c ∧ c ≤ 3 ∧ op.func = 0x20 + c ∧ d = secretScalar c op.secret ∧ dg = (srcData a op 0).take (digF c) ∧ r = ecdsaSig c d (signNonce c op dg (internalRandom 48 a).1) dg ∧ z = beBytes (curveF c) r.2 ∧ o = upsetOctets run.upset z) ∧
    (∃ run : PressRun, ∃ s : State, ∃ a op c q, a = comeTo run.t s ∧ a.press.running = some op ∧ op.result = none ∧ op.vault = false ∧ 1 ≤ c ∧ c ≤ 3 ∧ op.func = 0x30 + c ∧ firstFail (validation a op) = 0 ∧ q = upsetPoint c run.upset (ecdsaPoint c (pointOf c (srcData a op 0)) ((srcData a op 1).take (digF c)) (srcNat a op 2 0 (curveF c)) (srcNat a op 2 (curveF c) (curveF c)))) ∧
    (∃ run : PressRun, ∃ s : State, ∃ a b op c q, a = comeTo run.t s ∧ a.press.running = some op ∧ op.result = none ∧ b = (internalRandom 8 a).2 ∧ op.vault = true ∧ 1 ≤ c ∧ c ≤ 3 ∧ op.func = 0x40 + c ∧ firstFail (validation a op) = 0 ∧ q = upsetPoint c run.upset (ecMul c (secretScalar c op.secret) (pointOf c (srcData a op 0)))) ∧
    (∃ run : PressRun, ∃ s : State, ∃ a op c q, a = comeTo run.t s ∧ a.press.running = some op ∧ op.result = none ∧ op.vault = false ∧ 1 ≤ c ∧ c ≤ 3 ∧ op.func = 0x50 + c ∧ firstFail (validation a op) = 0 ∧ q = upsetPoint c run.upset (ecMul c (srcNat a op 1 0 (curveF c)) (pointOf c (srcData a op 0)))) ∧
    (∃ run : PressRun, ∃ s : State, ∃ a op c n z o, a = comeTo run.t s ∧ a.press.running = some op ∧ op.result = none ∧ op.vault = false ∧ 1 ≤ c ∧ c ≤ 3 ∧ op.func = 0x60 + c ∧ n = modF c ∧ firstFail (validation a op) = 0 ∧ z = beBytes n (powMod (srcNat a op 2 0 n) (8 * n) (srcNat a op 0 0 n) (srcNat a op 1 0 n)) ∧ o = upsetOctets run.upset z) ∧
    (∃ run : PressRun, ∃ s : State, ∃ a op c n z o, a = comeTo run.t s ∧ a.press.running = some op ∧ op.result = none ∧ op.vault = false ∧ 2 ≤ c ∧ c ≤ 3 ∧ op.func = 0x70 + c ∧ n = modF c ∧ firstFail (validation a op) = 0 ∧ z = beBytes n (powMod (srcNat a op 0 0 n) 32 (srcNat a op 2 0 n) (srcNat a op 0 n 4)) ∧ o = upsetOctets run.upset z) ∧
    (∃ run : PressRun, ∃ s : State, ∃ a op c n z o, a = comeTo run.t s ∧ a.press.running = some op ∧ op.result = none ∧ op.vault = false ∧ 2 ≤ c ∧ c ≤ 3 ∧ op.func = 0x80 + c ∧ n = modF c ∧ firstFail (validation a op) = 0 ∧ z = beBytes n (powMod (srcNat a op 0 0 n) 32 (srcNat a op 2 0 n) (srcNat a op 0 n 4)) ∧ o = upsetOctets run.upset z) ∧
    (∃ run : PressRun, ∃ s : State, ∃ a b op z o, a = comeTo run.t s ∧ a.press.running = some op ∧ op.result = none ∧ b = (internalRandom 8 a).2 ∧ op.vault = true ∧ op.func = 0x91 ∧ z = fit 1568 (kemPub op.secret) ∧ o = upsetOctets run.upset z) ∧
    (∃ run : PressRun, ∃ s : State, ∃ a b op z o, a = comeTo run.t s ∧ a.press.running = some op ∧ op.result = none ∧ b = (internalRandom 8 a).2 ∧ op.vault = true ∧ op.func = 0x93 ∧ z = pressMac (fit 32 (kemDecaps op.secret ((srcData a op 0).take 1568))) ((srcData a op 0).take 1568) (srcCounted a op 1 2) ∧ o = upsetOctets run.upset z) ∧
    (∃ run : PressRun, ∃ s : State, ∃ a b op z o, a = comeTo run.t s ∧ a.press.running = some op ∧ op.result = none ∧ b = (internalRandom 8 a).2 ∧ op.vault = true ∧ op.func = 0xA1 ∧ z = fit 2592 (dsaPub (op.secret.take 32)) ∧ o = upsetOctets run.upset z) ∧
    (∃ run : PressRun, ∃ s : State, ∃ a b op x z o m, a = comeTo run.t s ∧ a.press.running = some op ∧ op.result = none ∧ b = (internalRandom 32 a).2 ∧ op.vault = true ∧ op.func = 0xA2 ∧ x = dsaSign (op.secret.take 32) (srcCounted a op 0 2) (srcCounted a op 1 1) (internalRandom 32 a).1 ∧ z = (match x with | some sig => (fit 4627 sig).drop 64 | none => []) ∧ o = upsetOctets run.upset z ∧ m = decide (o ≠ z)) ∧
    (∃ run : PressRun, ∃ s : State, ∃ a op v z o, a = comeTo run.t s ∧ a.press.running = some op ∧ op.result = none ∧ op.vault = false ∧ op.func = 0xA3 ∧ v = dsaVerify ((srcData a op 0).take 2592) (srcCounted a op 1 2) (srcCounted a op 2 1) ((srcData a op 3).take 4627) ∧ z = beBytes 1 (bn v) ∧ o = upsetOctets run.upset z) ∧
    (∃ t, ∃ s : State, ∃ a op l, a = comeTo t s ∧ pressIdle a = true ∧ internalWaits a = false ∧ a.press.queue = op :: l ∧ op.vault = false) ∧
    (∃ t, ∃ s : State, ∃ a b c op l, a = comeTo t s ∧ pressIdle a = true ∧ internalWaits a = false ∧ a.press.queue = op :: l ∧ op.vault = true ∧ c = committedFor op.slot a ∧ b = bump 17 1 0 48 1 { c with press := { c.press with queue := l, running := some { op with since := c.clk.root } } }) ∧
    (∃ t, ∃ s : State, ∃ a op n o out, a = comeTo t s ∧ a.press.running = some op ∧ op.result = some (0, out) ∧ op.mismatch = false ∧ op.since + 8 * opCycles a op 0 ≤ a.clk.root ∧ fnOutput op.func = some n ∧ slotAt a (nf op.imm 49 40) = some o ∧ op.func ≠ 0xA2) ∧
    (∃ run : GraftRun, ∃ s : State, ∃ a b v, a = comeTo run.t s ∧ a.vault.serving = some v ∧ v.phase = .armed ∧ run.bursts = [] ∧ run.upTo = .committed ∧ v.msg.relay = none ∧ b = bump 17 0 16 48 1 (extendReg 5 (sha384 (v.msg.octets.take (opsEnd v.msg.octets))) (v.ops.foldl (fun s o => applyOp o s) { a with vault := { a.vault with serving := none } }))) ∧
    (∃ run : RemaskRun, ∃ s : State, ∃ a b, a = comeTo run.t s ∧ a.vault.drbgStopped = false ∧ a.power.held = false ∧ a.vault.remaskRow = 0 ∧ a.vault.remaskAt + 10000000000 ≤ a.clk.root ∧ run.upTo = 256 ∧ b = readRows run 0 256 (beginRemask a)) ∧
    (∃ t, ∃ s : State, ∃ a b, a = comeTo t s ∧ a.vault.drbgStopped = false ∧ 65536 ≤ a.vault.drbgRequests ∧ b = drbgSeed (a.vault.drbgKey, a.vault.drbgV) a) ∧
    (∃ t raw, ∃ s : State, ∃ a, a = comeTo t s ∧ a.vault.drbgStopped = false ∧ a.power.held = false ∧ ((repetitionFails raw = true ∨ proportionFails raw = true))) ∧
    (∃ t, ∃ s : State, ∃ a, a = comeTo t s ∧ a.vault.drbgStopped = true ∧ a.vault.drbgErased = false ∧ a.vault.drbgAttempts < 3 ∧ a.vault.drbgFailedAt + 100000000 * a.vault.drbgAttempts ≤ a.clk.root) ∧
    (∃ t, ∃ s : State, ∃ a, a = comeTo t s ∧ a.vault.drbgStopped = true ∧ a.vault.drbgErased = true) :=
  ⟨wit_PressAlgorithms.1,
   wit_PressAlgorithms.2.2.2.2.2.2.2.2.1,
   wit_PressAlgorithms.2.2.2.2.2.2.2.2.2.1,
   wit_PressAlgorithms.2.1,
   wit_PressAlgorithms.2.2.2.2.2.2.2.2.2.2.1,
   wit_PressAlgorithms.2.2.1,
   wit_PressAlgorithms.2.2.2.1,
   wit_PressAlgorithms.2.2.2.2.1,
   wit_PressAlgorithms.2.2.2.2.2.1,
   wit_PressAlgorithms.2.2.2.2.2.2.2.2.2.2.2.1,
   wit_PressAlgorithms.2.2.2.2.2.2.2.2.2.2.2.2.1,
   wit_PressAlgorithms.2.2.2.2.2.2.2.2.2.2.2.2.2.1,
   wit_PressAlgorithms.2.2.2.2.2.2.2.2.2.2.2.2.2.2,
   wit_PressAlgorithms.2.2.2.2.2.2.1,
   wit_PressOperations.2.2.2.2.2.1,
   wit_PressOperations.2.2.2.2.2.2.1,
   wit_PressOperations.2.2.2.2.2.2.2.1,
   wit_VaultEvents.2.2.2.2.2.1,
   wit_VaultEvents.2.2.2.2.2.2.2.2.2.2,
   wit_VaultEvents.2.2.2.2.2.2.1,
   wit_VaultEvents.2.2.2.2.2.2.2.1,
   wit_VaultEvents.2.2.2.2.2.2.2.2.1,
   wit_VaultEvents.2.2.2.2.2.2.2.2.2.1⟩

/-- Values that meet the hypotheses of FrameEventsComplete, one for each clause that has some. -/
theorem wit_FrameEventsComplete :
    (∃ t p, ∃ x : MacRx, ∃ s : State, ∃ a b, a = settle (comeTo t s) ∧ p / 32 = 1 ∧ b = countSeen p x.mark x.seen a ∧ receives b p = true) ∧
    (∃ t p l, ∃ x : MacRx, ∃ s : State, ∃ a c b, a = settle (comeTo t s) ∧ p / 32 = 0 ∧ c = countSeen p x.mark x.seen a ∧ receives c p = true ∧ b = rxInterrupt p l.length c ∧ etherType l ≠ 0x88E5) ∧
    (∃ t i, ∃ s : State, ∃ a b k v set j x, a = settle (comeTo t s) ∧ a.cls.flush = none ∧ firstOfKey a i = true ∧ a.cls.spillPath[i]? = some k ∧ a.clk.root ≤ k.since + 100000 ∧ b = { a with cls := { a.cls with spillPath := a.cls.spillPath.eraseIdx i } } ∧ v = lookupView b ∧ set = peerSet b k.port k.sci ∧ findWay v 16 set k.port k.sci = some j ∧ peerAt v set j = some x) ∧
    (∃ t, ∃ i : Nat, ∃ s : State, ∃ a : State, ∃ k : Parked, a = comeTo t s ∧ a.cls.spillPath[i]? = some k ∧ k.since + 100000 < a.clk.root) ∧
    (∃ t set way, ∃ s : State, ∃ a x, a = comeTo t s ∧ a.cls.flush = none ∧ peerAt a set way = some x ∧ x.bound = false ∧ x.expires < a.clk.root) ∧
    (∃ t, ∃ s : State, ∃ a f, a = comeTo t s ∧ a.cls.flush = some f ∧ f.since + 4096 * 12 ≤ a.clk.root) ∧
    (∃ t p, ∃ s : State, ∃ a, a = settle (comeTo t s) ∧ p < 64 ∧ (getPort a p).decisionAt = none) ∧
    (∃ t, ∃ x : EgressPort, ∃ s : State, ∃ a f, a = settle (comeTo t s) ∧ nextOut a x.port = some f ∧ portSends a x.port = true ∧ f.due = none ∧ mayStart a x.port f = true ∧ wireFree a x.port f = true ∧ ((f.commit.isSome = true ∨ firstStart a x.port f ≤ a.clk.root))) ∧
    (∃ t p, ∃ s : State, ∃ a f, a = settle (comeTo t s) ∧ dueCheck a (getRx a p) a.clk.root = some f) ∧
    (∃ t c r, ∃ s : State, ∃ a b i l st, a = settle (comeTo t s) ∧ lineOf a c .filling = some i ∧ tabFind a.assoc.lines i = some l ∧ a.clk.root ≤ l.since + 500000 ∧ fillAnswer c r a = (st, b)) ∧
    (∃ t c, ∃ s : State, ∃ a b i l, a = settle (comeTo t s) ∧ lineOf a c .filling = some i ∧ tabFind a.assoc.lines i = some l ∧ l.since + 500000 < a.clk.root ∧ b = raise 0x3005 c 0 (freeLine i (drainMiss c (fun _ s => countCh c 11 1 s) (dropWaiting c a))) ∧ (getChan b c).pinning = none) ∧
    (∃ t, ∃ s : State, ∃ a b i, a = settle (comeTo t s) ∧ freeLines a < 32 ∧ turnClock (2 * 2048 + 1) a = (b, some i)) ∧
    (∃ t c res, ∃ s : State, ∃ a b i st, a = settle (comeTo t s) ∧ lineOf a c .writeBack = some i ∧ backAnswer c ((tabFind a.assoc.lines i).map (·.back) |>.getD 0) res a = (st, b)) ∧
    (∃ t x g, ∃ s : State, ∃ a b, ∃ r : Refill, ∃ q, a = settle (comeTo t s) ∧ tabGet [] (getArray a x).refills g = r :: q ∧ b = setArray a x { getArray a x with refills := tabSet [] (getArray a x).refills g q }) ∧
    (∃ t x pos, ∃ gh : Bool, ∃ s : State, ∃ a b c bad n m, a = settle (comeTo t s) ∧ sliceIn (getArray a x) (.position pos) = some bad ∧ sparesLeft (getArray a x) = true ∧ b = bump 8 x 4 48 1 (bump 8 x (if gh then 1 else 0) 48 1 (setArray a x (placeSpare (getArray a x) pos bad))) ∧ n = Config.measured b.drawn % 17 ∧ m = Config.measured (b.drawn + 1) % (n + 1) ∧ c = raiseEv { code := 0x3010, obj := x, aux := bad } (bump 8 x 3 48 m (bump 8 x 2 48 n { b with drawn := b.drawn + 2 }))) ∧
    (∃ t x, ∃ s : State, ∃ a, a = comeTo t s ∧ (nextPlaced (getArray a x)).isSome = true ∧ (getArray a x).testSince + 10000000 ≤ a.clk.root) ∧
    (∃ t x, ∃ s : State, ∃ a v, a = comeTo t s ∧ sliceIn (getArray a x) .testSeat = some v ∧ (getArray a x).seatPassed = false) ∧
    (∃ t c n, ∃ s : State, ∃ a u, a = settle (comeTo t s) ∧ u = getSub (getChan a c) n ∧ u.state = .draining ∧ rollTime u ≤ a.clk.tod) ∧
    (∃ t c, ∃ s : State, ∃ a n, a = settle (comeTo t s) ∧ (getChan a c).pinned = true ∧ armedAn (getChan a c) = some n ∧ (getSub (getChan a c) n).rollMode = 2 ∧ rollTime (getSub (getChan a c) n) ≤ a.clk.tod + 2000 * 2 ^ 32) ∧
    (∃ t cell cw, ∃ s : State, ∃ a, a = settle (comeTo t s) ∧ cell < 524288 ∧ cw < 4 ∧ a.cask.scrubNext ≤ cell * 4 + cw) ∧
    (∃ t, ∃ s : State, ∃ a b, a = settle (comeTo t s) ∧ a.cask.ageAt + 10000000 ≤ a.clk.root ∧ b = { a with cask := { a.cask with ageAt := a.clk.root } }) ∧
    (∃ t n, ∃ x : PuntBuffer, ∃ s : State, ∃ a b c, ∃ f : PuntFrame, ∃ l v, a = settle (comeTo t s) ∧ n < 2 ∧ a.hostIf.linkUp = true ∧ (getRing a n).enabled = true ∧ (getRing a n).producer ≠ (getRing a n).consumer ∧ tabGet [] a.cask.punts n = f :: l ∧ v = beNat (fit 32 x.entry) ∧ puntStatus v = 0 ∧ f.octets.length ≤ nf v 191 178 ∧ readCells f.chain x.read a = (false, b) ∧ c = emit (.hostWrite (nf v 255 192) f.octets) (pushIngress f.inPort f.octets f.rxq f.stamp (puntGone n f l b))) ∧
    (∃ t n, ∃ s : State, ∃ a, ∃ f : PuntFrame, ∃ l, a = settle (comeTo t s) ∧ n < 2 ∧ tabGet [] a.cask.punts n = f :: l ∧ f.since + 10000000 < a.clk.root) ∧
    (∃ t n x, ∃ s : State, ∃ a v, a = settle (comeTo t s) ∧ n < 2 ∧ a.hostIf.linkUp = true ∧ (getRing a (2 + n)).enabled = true ∧ (getRing a (2 + n)).producer ≠ (getRing a (2 + n)).consumer ∧ tabFind a.hostIf.injectRead n = none ∧ v = beNat (fit 32 x) ∧ injectStatus n v a = 0 ∧ injectFits n v a = true) ∧
    (∃ t k, ∃ s : State, ∃ a c, a = comeTo t s ∧ k < 32 ∧ executing a = true ∧ (getCtx a k).run = .waitHost c ∧ c + 1000000 < a.clk.root) ∧
    (∃ w, ∃ s : State, ∃ k e a, runs sysReconcileCmd w s k = true ∧ w.via = .answered ∧ e = envAt w s k ∧ a = trafficFirst (opChan e) (atBlock s k) ∧ e.imm = 1) :=
  ⟨wit_FramesArrive.1,
   wit_FramesArrive.2.2.2.2.2.2.2.2.2.2.1,
   wit_FramesChecked.1,
   wit_FramesChecked.2.1,
   wit_PeerTable.2.2.2.2.2.2.2.2.2,
   wit_PeerTable.2.2.2.2.2.2.2.2.1,
   wit_FramesLeave.1,
   wit_FramesLeave.2.2.2.1,
   wit_FramesChecked.2.2.2.2.2.1,
   wit_FramesChecked.2.2.1,
   wit_FramesChecked.2.2.2.2.1,
   wit_Channels.2.2.2.2.2.2.2.2.2.2.2.1,
   wit_Channels.2.2.2.2.2.2.2.2.2.2.1,
   wit_CipherAndScrub.1,
   wit_CipherAndScrub.2.1,
   wit_CipherAndScrub.2.2.1,
   wit_CipherAndScrub.2.2.2.1,
   wit_Associations.2.2.2.2.2.2.2.2.2.2.1,
   wit_Associations.2.2.2.2.2.2.2.2.2.2.2,
   wit_CipherAndScrub.2.2.2.2.1,
   wit_FramesLeave.2.2.2.2.2.2.2.2,
   wit_HostQueues.2.2.2.2.2.2.2.2.2.2.2.1,
   wit_HostQueues.2.2.2.2.2.2.2.2.2.2.2.2.2.2.1,
   wit_HostQueues.2.2.2.2.2.2.2.2.2.2.2.2.2.2.2.2.1,
   wit_HostQueues.2.2.2.2.2.2.2.2.2.2.2.2.2.2.2.2.2.1,
   wit_Channels.2.2.2.2.2.2.2.2.1⟩

/-- Values that meet the hypotheses of PortEventsComplete, one for each clause that has some. -/
theorem wit_PortEventsComplete :
    (∃ t p l, ∃ x : MacRx, ∃ s : State, ∃ a b, a = settleControl p (comeTo t s) ∧ p < 64 ∧ etherType l = 0x8808 ∧ b = countSeen p x.mark x.seen a ∧ receives b p = true ∧ macFault b p l x.mark = none ∧ mf l 14 2 = 0x0001 ∧ 18 ≤ l.length) ∧
    (∃ t p c, ∃ s : State, ∃ a u, a = settleControl p (comeTo t s) ∧ (getPause a p c).until_ = some u ∧ u < a.clk.root) ∧
    (∃ t p c, ∃ s : State, ∃ a u, a = settleControl p (comeTo t s) ∧ (getPause a p c).until_ = some u ∧ a.clk.root < u ∧ c < 6 ∧ (getPause a p c).since + nf (getPort a p).setting 20 13 * 100000 ≤ a.clk.root) ∧
    (∃ t p c, ∃ s : State, ∃ a, a = settle (comeTo t s) ∧ psPgen (getPort a p).setting = true ∧ c < 6 ∧ nb (getPort a p).xoff c = true ∧ psFc (getPort a p).setting = 2 ∧ xonOf a p < classCharge a p c ∧ tabGet 0 (getPort a p).xoffAt c + halfPause a p ≤ a.clk.root) ∧
    (∃ t p c, ∃ s : State, ∃ a u, a = comeTo t s ∧ (shaperAt a p c a.clk.root).wheel = some u ∧ u ≤ a.clk.root) ∧
    (∃ t p, ∃ s : State, ∃ a b n, a = comeTo t s ∧ (getGates a p).oper.enable = true ∧ n = cycleStart (getGates a p) a.clk.tod ∧ b = (if n = (getGates a p).cycleSeen then a else bump 11 p 40 48 1 (setGates a p { getGates a p with cycleSeen := n }))) ∧
    (∃ t p, ∃ s : State, ∃ a c, a = comeTo t s ∧ (getGates a p).change = some c ∧ c ≤ a.clk.tod) ∧
    (∃ t, ∃ s : State, ∃ a, a = comeTo t s) ∧
    (∃ t, ∃ s : State, ∃ a, a = comeTo t s ∧ a.clk.wrapped = true) ∧
    (∃ t r n, ∃ s : State, ∃ a q v, a = comeTo t s ∧ a.clk.ppsSet = some q ∧ v = (getPin a 8).setting ∧ selects v r = true ∧ nf v 59 52 * 40 ≤ n ∧ confirmAt (nf v 59 52) t ≤ q.expiry) ∧
    (∃ t, ∃ s : State, ∃ a q, a = comeTo t s ∧ a.clk.ppsSet = some q ∧ q.expiry < a.clk.root) ∧
    (∃ t i n, ∃ s : State, ∃ a b v, a = comeTo t s ∧ i < 9 ∧ v = (getPin a i).setting ∧ nb v 63 = true ∧ nf v 59 52 * 40 ≤ n ∧ b = bump 14 0 (24 + i) 48 1 (comeTo (confirmAt (nf v 59 52) t) a)) ∧
    (∃ t o, ∃ s : State, ∃ a, a = comeTo t s ∧ (getTrig a o).endAt = none ∧ trigDone (getTrig a o) = false ∧ pulseTime (getTrig a o) (getTrig a o).k ≤ exactNow a) ∧
    (∃ t i, ∃ s : State, ∃ a p, a = comeTo t s ∧ tabFind a.timeFn.probes i = some p ∧ p.expiry < a.clk.root) ∧
    (∃ t p, ∃ s : State, ∃ a, a = comeTo t s ∧ (getPort a p).state = .up ∧ (getPort a p).preempt = .verifying ∧ (getPort a p).verifyAt + (nf (getPort a p).setting 7 1 + 1) * 10000000 < a.clk.root) ∧
    (∃ t p, ∃ s : State, ∃ a, a = comeTo t s ∧ (getPort a p).state = .up ∧ (getPort a p).preempt = .verifying) ∧
    (∃ t p, ∃ x : Partner, ∃ s : State, ∃ a n, a = comeTo t s ∧ (getPort a p).state = .negotiating ∧ (getPort a p).waitUntil = none ∧ n = topAbility 8 ((getPort a p).advert &&& x.ability) ∧ n ≠ 0) ∧
    (∃ t p, ∃ s : State, ∃ a, a = comeTo t s ∧ (getPort a p).state = .training) ∧
    (∃ t p, ∃ s : State, ∃ a, a = comeTo t s ∧ (getPort a p).state = .training ∧ (getPort a p).since + (if portRate a p ≤ 2 then 5000000000 else 30000000000) < a.clk.root) ∧
    (∃ t p, ∃ s : State, ∃ a b, a = comeTo t s ∧ (getPort a p).state = .aligning ∧ (getPort a p).since + 100000000 ≤ a.clk.root ∧ b = portTo p .up (locksHeld p a)) ∧
    (∃ t p, ∃ s : State, ∃ a, a = comeTo t s ∧ (getPort a p).state = .aligning ∧ (getPort a p).since + 1000000000 < a.clk.root) ∧
    (∃ t p, ∃ s : State, ∃ a u, a = comeTo t s ∧ (getPort a p).state = .negotiating ∧ (getPort a p).waitUntil = some u ∧ u ≤ a.clk.root) ∧
    (∃ t, ∃ x : LaneLoss, ∃ s : State, ∃ a b, a = comeTo t s ∧ x.lane < 68 ∧ ((x.cause = .signal ∨ x.cause = .cdrLock)) ∧ b = squelchOutputs x.lane (setLane a x.lane { getLane a x.lane with cdrLock := false, lockSince := a.clk.root })) ∧
    (∃ t p, ∃ s : State, ∃ a, a = comeTo t s ∧ (getPort a p).state = .up) ∧
    (∃ t, ∃ x : LockHeld, ∃ s : State, ∃ a y l, a = comeTo t s ∧ y = tabGet {} a.synce x.output ∧ y.source = some l ∧ y.squelched = true ∧ heldSince (getLane a l) x.since + 100000000 ≤ a.clk.root) ∧
    (∃ t l before, ∃ s : State, ∃ a, a = comeTo t s ∧ before * 100 < 60 * (getLane a l).recorded) ∧
    (∃ t g, ∃ s : State, ∃ a x l, a = comeTo t s ∧ (getCal a g).running = none ∧ (getCal a g).waiting = x :: l) ∧
    (∃ t g, ∃ s : State, ∃ a l q, a = comeTo t s ∧ (getCal a g).running = some (l, q)) ∧
    (∃ t, ∃ x : LaneBits, ∃ s : State, ∃ a b, a = comeTo t s ∧ nf (getLane a x.lane).test 56 53 ≠ 0 ∧ b = bitsSeen a x.lane x.received ∧ (laneChecks a x.lane b).1.lock = true) ∧
    (∃ t l before window behind, ∃ s : State, ∃ a b, a = comeTo t s ∧ nf (getLane a l).test 56 53 ≠ 0 ∧ b = bitsSeen a l (before ++ window ++ behind) ∧ (laneChecks a l b).2.losses ≠ 0) ∧
    (∃ t l, ∃ s : State, ∃ a, a = comeTo t s ∧ nf (getLane a l).test 50 48 = 3 ∧ injectionDue a l = true) :=
  ⟨wit_PortsAndPause.2.2.2.2.2.2.1,
   wit_PortsAndPause.2.2.2.2.2.2.2.2.1,
   wit_PortsAndPause.2.2.2.2.2.2.2.2.2,
   wit_FramesLeave.2.2.2.2.2.2.1,
   wit_Scheduling.2.2.2.2.2.2.2.2.2.2.2,
   wit_Scheduling.2.2.2.2.2.2.2.2.2.2.1,
   wit_Scheduling.2.2.2.2.2.2.2.2.2.1,
   wit_NetworkTime.2.2.2.2.1,
   wit_NetworkTime.2.2.2.2.2.1,
   wit_NetworkTime.2.2.2.2.2.2.2.1,
   wit_NetworkTime.2.2.2.2.2.2.2.2.1,
   wit_NetworkTime.2.2.2.2.2.2.2.2.2.2.1,
   wit_NetworkTime.2.2.2.2.2.2.2.2.2.2.2.2.2.2.2,
   wit_StampQueuesAndProbes.2.2.2.2.2,
   wit_PortsAndPause.2.2.2.1,
   wit_PortsAndPause.2.2.2.2.1,
   wit_PortBringUp.1,
   wit_PortBringUp.2.1,
   wit_PortBringUp.2.2.1,
   wit_PortBringUp.2.2.2.1,
   wit_PortBringUp.2.2.2.2.1,
   wit_PortBringUp.2.2.2.2.2,
   wit_PortsAndPause.1,
   wit_PortsAndPause.2.2.1,
   wit_Lanes.2.2.2.2.2.2.2.2.2.2.2.2.1,
   wit_Lanes.2.2.2.2.2.2.2.2.2.2.2.2.2,
   wit_Lanes.2.2.2.2.2.2.2.2.2.2.1,
   wit_Lanes.2.2.2.2.2.2.2.2.2.2.2.1,
   wit_Lanes.2.2.2.1,
   wit_Lanes.2.2.2.2.1,
   wit_Lanes.2.2.2.2.2.1⟩

/-- Values that meet the hypotheses of SystemEventsComplete, one for each clause that has some. -/
theorem wit_SystemEventsComplete :
    (∃ w, ∃ s : State, ∃ k a b, runs sysSwitchGoCmd w s k = true ∧ a = atBlock s k ∧ b = tryGo (answered sysSwitchGoCmd w s k { s := { a with seq := { a.seq with goOwed := true } } })) ∧
    (∃ t q d, ∃ s : State, ∃ a b p, a = comeTo t s ∧ q < 16 ∧ executing a = true ∧ a.hostIf.linkUp = true ∧ (getQueue a q).enabled = true ∧ (getQueue a q).prog = none ∧ (getQueue a q).fetched = none ∧ forwardedQueue a q = false ∧ (getQueue a q).producer ≠ (getQueue a q).consumer ∧ fenceOpen a d = true ∧ fieldFail (descChecks (beNat (fit 64 d))) = 0 ∧ p = progOf a.clk.root (beNat (fit 64 d)) ∧ b = setCtx (setQueue a q { getQueue a q with fetched := none }) (2 * q + 1) { getCtx (setQueue a q { getQueue a q with fetched := none }) (2 * q + 1) with switched := false, last := 0 }) ∧
    (∃ t q, ∃ s : State, ∃ a c p, a = comeTo t s ∧ executing a = true ∧ (getCtx a (2 * q + 1)).run = .copying c ∧ c + 1000000 < a.clk.root ∧ (getQueue a q).prog = some p) ∧
    (∃ t q, ∃ s : State, ∃ a p, a = comeTo t s ∧ executing a = true ∧ (getCtx a (2 * q + 1)).run = .ready ∧ (getCtx a (2 * q + 1)).due = none ∧ (getQueue a q).prog = some p ∧ p.expiry < a.clk.root) ∧
    (∃ t k, ∃ s : State, ∃ a c m u, a = comeTo t s ∧ executing a = true ∧ (getCtx a k).run = .waitEv c m (some u) ∧ u < a.clk.root) ∧
    (∃ t k, ∃ s : State, ∃ a u, a = comeTo t s ∧ executing a = true ∧ (getCtx a k).run = .waitQ u ∧ u ≤ a.clk.root) ∧
    (∃ t k, ∃ s : State, ∃ a x q c, a = comeTo t s ∧ a.seq.active = some x ∧ (getCtx a k).run = .waitStatus q c ∧ ((executing a = true ∨ a.seq.goOwed = true)) ∧ c + 1000000 < a.clk.root) ∧
    (∃ t q, ∃ s : State, ∃ a p st x d, a = comeTo t s ∧ a.seq.pendOps.find? (fun p => p.cseq == q) = some p ∧ p.ended = some (st, x, d) ∧ p.event ≠ 0x7001) ∧
    (∃ t k, ∃ s : State, ∃ a x q c, a = comeTo t s ∧ a.seq.active = some x ∧ (getCtx a k).run = .waitStatus q c ∧ c + 2000000 < a.clk.root) ∧
    (∃ t x l, ∃ s : State, ∃ a b, a = comeTo t s ∧ x < 2 ∧ (health a x = .active ∨ health a x = .standby) ∧ a.seq.active = some x ∧ b = readCkpt l a ∧ b.seq.active = some x) ∧
    (∃ t, ∃ s : State, ∃ a b x, a = comeTo t s ∧ a.seq.active = some x ∧ health a (1 - x) = .untested ∧ b = { a with seq := { a.seq with testedAt := a.clk.root } }) ∧
    (∃ t, ∃ s : State, ∃ a b x, a = comeTo t s ∧ a.seq.active = some x ∧ health a (1 - x) = .repairing ∧ a.seq.repairFrom + 20000000 ≤ a.clk.root ∧ a.seq.repairBack = true ∧ a.seq.holdoff ≠ 0 ∧ x < 2 ∧ b = setHealth (1 - x) .standby a) ∧
    (∃ t, ∃ s : State, ∃ a u, a = comeTo t s ∧ readyToSwitch a = true ∧ a.seq.holdoffEnd = some u ∧ u ≤ a.clk.root) ∧
    (∃ t m, ∃ s : State, ∃ a o q st, a = comeTo t s ∧ a.seq.staging = some (o, q) ∧ st = imageStatus a (Config.flashSize - o) m) ∧
    (∃ t, ∃ s : State, ∃ a e, a = comeTo t s ∧ firstEv (a.book.staged.filter (fun e => decide (e.at_ ≤ a.clk.root))) = some e) ∧
    (∃ t l, ∃ s : State, ∃ a b en g r rest, a = comeTo t s ∧ l < 16 ∧ executing a = true ∧ (getCtx a (2 * l)).run = .idle ∧ tabGet [] a.seq.activations l = (en, g, r) :: rest ∧ b = { a with seq := { a.seq with activations := tabSet [] a.seq.activations l rest } }) ∧
    (∃ t, ∃ s : State, ∃ a b c d, a = comeTo t s ∧ a.power.booting = true ∧ a.power.powerGood = true ∧ a.power.held = false ∧ a.boot.code = 0 ∧ b = { bootVault a with boot := { (bootVault a).boot with bootCount := ((bootVault a).boot.bootCount + 1) % 2 ^ 32, cells := tabSet 0 (bootVault a).boot.cells 2 ((tabGet 0 (bootVault a).boot.cells 2 + 1) % 64) } } ∧ c = drbgInstantiated b ∧ d = { b with vault := { b.vault with drbgStopped := true, drbgAttempts := 3 } }) ∧
    (∃ t m, ∃ s : State, ∃ a b c n l st, a = comeTo t s ∧ a.boot.reading = some n ∧ l = fit a.hostIf.recLen m ∧ st = imageStatus a a.hostIf.recLen l ∧ c = imageServed a.hostIf.recLen l a ∧ b = { c with boot := { c.boot with rstatus := 0, reading := none }, drawn := c.drawn + 1 }) ∧
    (∃ t, ∃ s : State, ∃ a n, a = comeTo t s ∧ a.boot.reading = some n ∧ n + 1000000000 < a.clk.root) ∧
    (∃ t v, ∃ s : State, ∃ a, a = comeTo t s ∧ nb v 31 = true ∧ a.boot.rwait = true) ∧
    (∃ r : PressRun, ∃ s : State, ∃ a b v l m, a = comeTo r.t s ∧ a.press.vintages = v :: l ∧ v.snap = some m ∧ a.vault.drbgStopped = false ∧ a.hostIf.linkUp = true ∧ b = { a with press := { a.press with vintages := l } }) ∧
    (∃ t, ∃ s : State, ∃ a, a = comeTo t s ∧ a.power.powerGood = false) ∧
    (∃ t, ∃ s : State, ∃ a b, a = comeTo t s ∧ a.power.powerGood = true ∧ b = resetMain a) ∧
    (∃ t r, ∃ s : State, ∃ a, a = comeTo t s ∧ a.power.powerGood = true ∧ r < 6 ∧ a.power.warnings.contains r = false) ∧
    (∃ t r, ∃ s : State, ∃ a, a = comeTo t s ∧ a.power.powerGood = true ∧ a.power.warnings.contains r = true) ∧
    (∃ t r, ∃ s : State, ∃ a b, a = comeTo t s ∧ r < 6 ∧ a.power.powerGood = true ∧ a.power.warnings = [] ∧ b = resetCommon { a with crust := { a.crust with cause := a.crust.cause ||| 1 } }) ∧
    (∃ t, ∃ s : State, ∃ a, a = comeTo t s ∧ a.power.powerGood = true ∧ a.power.refAGood = true ∧ a.power.selected = some 0) ∧
    (∃ t, ∃ s : State, ∃ a, a = comeTo t s ∧ a.power.powerGood = true ∧ a.power.refBGood = false ∧ a.power.refBFault + 1000000000 ≤ a.clk.root) ∧
    (∃ t, ∃ s : State, ∃ a, a = comeTo t s ∧ a.power.powerGood = true ∧ a.power.onVco = false) ∧
    (∃ t, ∃ s : State, ∃ a u, a = comeTo t s ∧ a.power.powerGood = true ∧ a.power.spare = .relocking u ∧ a.clk.root ≤ u + 100000000) ∧
    (∃ t, ∃ s : State, ∃ a i, a = comeTo t s ∧ a.power.powerGood = true ∧ a.power.lanesOnRoot = true ∧ a.power.selected = some i) ∧
    (∃ t, ∃ s : State, ∃ a, a = comeTo t s ∧ a.crust.charged = false ∧ a.crust.chargeAt ≤ a.clk.root) ∧
    (∃ t x, ∃ s : State, ∃ a c m p n since b, a = comeTo t s ∧ a.crust.before.1 ≠ pclkEdge a ∧ m = sightMonitor x ∧ m < 21 ∧ injected a m = false ∧ (settledSight x a) = (x, a) ∧ c = { a with crust := { a.crust with vbat := match x with | .rail 18 mv _ _ => mv | _ => a.crust.vbat } } ∧ p = periodOf c m c.clk.root ∧ ((∀ w, tabFind c.crust.watches m = some w → w.period ≠ p)) ∧ since = tabGet 0 c.crust.filterFrom m ∧ n = (if shows c m c.clk.root since x then nextCount c m p x (tabFind c.crust.watches m) else 0) ∧ b = { c with crust := { c.crust with watches := tabPut c.crust.watches m { sight := x, at_ := c.clk.root, period := p, count := n, since := since } } }) ∧
    (∃ t, ∃ s : State, ∃ a m q c, a = comeTo t s ∧ a.crust.injecting = some (m, q, c) ∧ c + 400000000 < a.clk.root) ∧
    (∃ t, ∃ s : State, ∃ a, a = comeTo t s ∧ a.power.powerGood = false) ∧
    (∃ t, ∃ s : State, ∃ a n, a = comeTo t s ∧ a.mg.ready = .training ∧ n = installedPages a.mg.setting) ∧
    (∃ t m, ∃ x : MgAccess, ∃ s : State, ∃ a b r g, a = comeTo t s ∧ mgNotReady a = 0 ∧ accessFail a m x.write x.addr = 0 ∧ regionOf a (pageOf x.addr) = some (r, g) ∧ loadPath (pageOf x.addr) x.fault a = (true, b) ∧ x.write = false ∧ tabGet 0 (getBlock b (pageOf x.addr)).minors (lineIn x.addr) = 0) ∧
    (∃ t m, ∃ x : MgAccess, ∃ s : State, ∃ a b r g, a = comeTo t s ∧ mgNotReady a = 0 ∧ accessFail a m x.write x.addr = 0 ∧ regionOf a (pageOf x.addr) = some (r, g) ∧ loadPath (pageOf x.addr) x.fault a = (true, b) ∧ x.write = true ∧ x.mask = 2 ^ 64 - 1) ∧
    (∃ t, ∃ l : List DramFault, ∃ o : List (Nat × DramFault), ∃ s : State, ∃ a b x v st, a = comeTo t s ∧ a.seq.active.isSome = true ∧ activeNow a = some x ∧ beNat (readMem a 0x6FFEF 1) = 1 ∧ v = beNat (readMem a 0x6FFE0 32) ∧ fieldFail (portDescChecks v) = 0 ∧ (List.range (nf v 159 144)).foldl (fun r i => portLine x v i (l.getD i .none) o r) (0, a) = (st, b)) ∧
    (∃ t r, ∃ l : List (Nat × DramFault), ∃ s : State, ∃ a b g, a = comeTo t s ∧ getRegion a r = some g ∧ g.rotating = true ∧ b = (pagesToMove a g).foldl (fun s p => repage r p g.keyid none l s) a) ∧
    (∃ t r, ∃ s : State, ∃ a g q, a = comeTo t s ∧ getRegion a r = some g ∧ g.rebuilding = some q) ∧
    (∃ t, ∃ pass : ScrubPass, ∃ s : State, ∃ a b g q l mended bad, a = comeTo t s ∧ getRegion a pass.region = some g ∧ g.scrubbing = some q ∧ l = liveLines a g ∧ b = l.zipIdx.foldl (fun s x => scrubLine pass.region x.1 (pass.found.getD x.2 .none) s) a ∧ mended = ((l.zipIdx).filter (fun x => !linePoisoned (getLine a x.1.1 x.1.2) && lineMended (pass.found.getD x.2 .none))).length ∧ bad = (l.filter (fun x => linePoisoned (getLine b x.1 x.2))).length) ∧
    (∃ t n, ∃ s : State, ∃ a p, a = comeTo t s ∧ a.mg.ready = .ready p ∧ patrolled a n = true) :=
  ⟨wit_Complexes.2.1,
   wit_ProgramFlow.1,
   wit_ProgramFlow.2.2.1,
   wit_ProgramFlow.2.2.2,
   wit_HandlersAndWaits.2.2.2.2.2.2.1,
   wit_HandlersAndWaits.2.2.2.2.2.2.2.2.1,
   wit_HandlersAndWaits.2.2.2.2.2.2.2.2.2.2.1,
   wit_HandlersAndWaits.2.2.2.2.2.2.2.2.2.2.2.1,
   wit_Complexes.2.2.2.2.2.2.2.2.1,
   wit_Complexes.2.2.2.2.2.2.1,
   wit_Complexes.2.2.2.2.2.2.2.2.2.1,
   wit_Complexes.2.2.2.2.2.2.2.2.2.2.2.1,
   wit_Complexes.2.2.2.2.2.2.2.2.2.2.2.2.1,
   wit_BootAndVintage.2.2.2.2.2.1,
   wit_HandlersAndWaits.2.2.2.1,
   wit_HandlersAndWaits.2.2.2.2.2.1,
   wit_BootAndVintage.1,
   wit_BootAndVintage.2.1,
   wit_BootAndVintage.2.2.2.1,
   wit_BootAndVintage.2.2.2.2.1,
   wit_BootAndVintage.2.2.2.2.2.2.2.2.2.2,
   wit_PowerAndClocks.2.2.1,
   wit_PowerAndClocks.2.2.2.1,
   wit_PowerAndClocks.2.2.2.2.2.2.1,
   wit_PowerAndClocks.2.2.2.2.2.2.2.1,
   wit_PowerAndClocks.2.2.2.2.2.1,
   wit_PowerAndClocks.2.2.2.2.2.2.2.2.1,
   wit_PowerAndClocks.2.2.2.2.2.2.2.2.2.2.1,
   wit_PowerAndClocks.2.2.2.2.2.2.2.2.2.2.2.2.2.1,
   wit_PowerAndClocks.2.2.2.2.2.2.2.2.2.2.2.2.2.2.1,
   wit_PowerAndClocks.2.2.2.2.2.2.2.2.2.2.2.2.1,
   wit_CrustCommands.2.2.2.2.2.2.2.2.2.1,
   wit_CrustSamples.1,
   wit_CrustCommands.2.2.2.2.2.2.2.2.1,
   wit_CrustCommands.2.2.2.2.2.2.2.2.2.2,
   wit_MemoryAccesses.1,
   wit_MemoryAccesses.2.2.2.1,
   wit_MemoryAccesses.2.2.2.2.1,
   wit_MemoryAccesses.2.2.2.2.2.2.1,
   wit_Regions.2.2.2.2.2.2.2.2.1,
   wit_Regions.2.2.2.2.2.2.2.2.2.1,
   wit_Regions.2.2.2.2.2.2.2.2.2.2,
   wit_MemoryAccesses.2.2.2.2.2.2.2⟩

/-- Values that meet the hypotheses of LinkEventsComplete, one for each clause that has some. -/
theorem wit_LinkEventsComplete :
    (∃ w, ∃ s : State, ∃ k a, runs pkAbortCmd w s k = true ∧ a = atBlock s k ∧ a.press.running = none) ∧
    (∃ t p, ∃ s : State, ∃ a, a = comeTo t s ∧ p < 2 ∧ (getTPort a p).step = .lock) ∧
    (∃ t p, ∃ h : Hello, ∃ s : State, ∃ a b, a = comeTo t s ∧ p < 2 ∧ (getTPort a p).step = .hello ∧ (h.east = decide (p = 0)) ∧ h.version ≠ 0 ∧ b = bump 19 0 (8 * p + 4) 48 1 a) ∧
    (∃ t, ∃ s : State, ∃ a b, a = comeTo t s ∧ a.trellis.portW.step = .mode ∧ a.trellis.portW.heldFrom + 10000000 ≤ a.clk.root ∧ b = setTPort a 0 { a.trellis.portW with step := .session, since := a.clk.root }) ∧
    (∃ t, ∃ s : State, ∃ a b, a = comeTo t s ∧ a.trellis.portE.step = .mode ∧ a.trellis.portE.heldFrom + 10000000 ≤ a.clk.root ∧ b = setTPort a 1 { a.trellis.portE with step := .session, since := a.clk.root }) ∧
    (∃ r : PressRun, ∃ p, ∃ s : State, ∃ a b, a = comeTo r.t s ∧ p < 2 ∧ (getTPort a p).step = .session ∧ b = bump 19 0 (8 * p + 4) 48 1 a ∧ pressAtWork b = false ∧ (getTPort b 0).waits = [] ∧ (getTPort b 1).waits = []) ∧
    (∃ t p, ∃ s : State, ∃ a, a = comeTo t s ∧ p < 2 ∧ (getTPort a p).step = .session ∧ (getTPort a p).since + 100000000 < a.clk.root) ∧
    (∃ t p l, ∃ s : State, ∃ a f, a = comeTo t s ∧ p < 2 ∧ (getTPort a p).step = .up ∧ trOpen (getTPort a p) l = some f) ∧
    (∃ t, ∃ s : State, ∃ a f, a = comeTo t s ∧ a.trellis.taken.find? (fun f => !svcWaits a f.2) = some f) ∧
    (∃ t x y, ∃ s : State, ∃ a, ∃ f : Frags, a = comeTo t s ∧ a.trellis.frags.find? (fun f => f.src == x && f.relay == y) = some f ∧ f.since + 10000000 < a.clk.root) ∧
    (∃ t p l, ∃ s : State, ∃ a, a = comeTo t s ∧ p < 2 ∧ (getTPort a p).step = .up ∧ mf l 3 1 = 0x30) ∧
    (∃ t, ∃ s : State, ∃ a b, a = comeTo t s ∧ a.trellis.isManager = true ∧ nb a.trellis.setting 511 = true ∧ trAnyUp a = true ∧ a.trellis.tsyncAt + 125 * 10000 * nf a.trellis.setting 445 438 ≤ a.clk.root ∧ b = trSendFrame 0x30 0x3F (tsyncPayload (todForm (stampNow a)) 0 a.clk.incr a.trellis.tsyncSeq 0) a) ∧
    (∃ t p, ∃ s : State, ∃ a b, a = comeTo t s ∧ p < 2 ∧ (getTPort a p).step = .up ∧ b = trSent p (.dreq p) a) ∧
    (∃ t p, ∃ s : State, ∃ a, a = comeTo t s ∧ p < 2 ∧ (getTPort a p).step = .up) ∧
    (∃ t p, ∃ s : State, ∃ a, a = comeTo t s ∧ p < 2 ∧ (getTPort a p).step = .up) ∧
    (∃ t, ∃ x : LinkLost, ∃ s : State, ∃ a b c, a = comeTo t s ∧ x.port < 2 ∧ (getTPort a x.port).step = .up ∧ ((x.locked = false ∨ (getTPort a x.port).lastRx + 100000 < a.clk.root)) ∧ c = setStep x.port .lock (bump 19 0 (8 * x.port + 6) 48 1 (sessionFails x.port a)) ∧ b = raise 0xA001 (nodeField c) 0 c) ∧
    (∃ t n, ∃ s : State, ∃ a, a = comeTo t s ∧ a.trellis.members.any (fun m => m.node == n) = true ∧ tabGet 0 a.trellis.lastHeard n + 10000000 < a.clk.root) ∧
    (∃ t, ∃ s : State, ∃ a, a = comeTo t s ∧ a.trellis.portE.step = .up ∧ a.trellis.portE.keyedAt + 864000000000000 ≤ a.clk.root) ∧
    (∃ t, ∃ s : State, ∃ a l, a = comeTo t s ∧ a.trellis.evBatch = l ∧ l ≠ [] ∧ a.trellis.isManager = false ∧ trAnyUp a = true ∧ a.book.frozen = false) ∧
    (∃ t, ∃ s : State, ∃ a b, a = comeTo t s ∧ a.power.powerGood = true ∧ b = bump 20 0 19 48 1 (disableAll a)) ∧
    (∃ t, ∃ s : State, ∃ a, a = comeTo t s ∧ a.power.powerGood = true ∧ a.hostIf.linkUp = false) ∧
    (∃ t q, ∃ s : State, ∃ a n, a = comeTo t s ∧ q < 16 ∧ a.power.powerGood = true ∧ n = getQueue a q ∧ n.enabled = true ∧ forwardedQueue a q = false) ∧
    (∃ t q v, ∃ s : State, ∃ a n, a = comeTo t s ∧ q < 16 ∧ a.power.powerGood = true ∧ n = getQueue a q ∧ n.enabled = false ∧ nb v 31 = true) ∧
    (∃ t q v, ∃ s : State, ∃ a b n, a = comeTo t s ∧ q < 16 ∧ a.power.powerGood = true ∧ n = getQueue a q ∧ n.enabled = true ∧ nb v 31 = false ∧ b = bump 20 0 5 48 (if v % 16 = n.size then 0 else 1) a ∧ n.prog = none) ∧
    (∃ t r v, ∃ s : State, ∃ a n, a = comeTo t s ∧ r < 4 ∧ a.power.powerGood = true ∧ n = getRing a r ∧ n.enabled = false ∧ nb v 31 = true) ∧
    (∃ t r v, ∃ s : State, ∃ a n, a = settle (comeTo t s) ∧ 2 ≤ r ∧ r < 4 ∧ a.power.powerGood = true ∧ n = getRing a r ∧ n.enabled = true ∧ nb v 31 = false) ∧
    (∃ t r, ∃ s : State, ∃ a n, a = comeTo t s ∧ r < 4 ∧ a.power.powerGood = true ∧ n = getRing a r ∧ n.enabled = true) ∧
    (∃ t, ∃ s : State, ∃ a, a = comeTo t s ∧ a.power.powerGood = true) ∧
    (∃ t, ∃ s : State, ∃ a, a = comeTo t s ∧ a.power.powerGood = true ∧ a.hostIf.intCause = 0) ∧
    (∃ t v, ∃ s : State, ∃ a b, a = comeTo t s ∧ a.power.powerGood = true ∧ nb v 0 = true ∧ b = advance ((a.clk.root + 10) / 10 * 10) a) ∧
    (∃ t, ∃ s : State, ∃ a, a = comeTo t s ∧ a.power.powerGood = true ∧ a.book.autoinc = true ∧ a.book.cursorAt ≠ some (pclkEdge a)) ∧
    (∃ t n, ∃ s : State, ∃ a, a = comeTo t s ∧ a.power.powerGood = true ∧ 1 ≤ n ∧ n < 8 ∧ ((n = 7 → a.book.autoinc = false))) ∧
    (∃ t, ∃ s : State, ∃ a, a = comeTo t s ∧ a.power.powerGood = true) ∧
    (∃ t o f, ∃ s : State, ∃ a b st l x, a = comeTo t s ∧ o < 65536 ∧ o % 4 = 0 ∧ a.power.powerGood = true ∧ x = a.hostIf.mgBase + o ∧ mgAccess .pcieDma ⟨false, x - x % 64, 0, [], f, []⟩ a = ((st, l), b)) ∧
    (∃ t o v f g, ∃ s : State, ∃ a b st l x, a = comeTo t s ∧ o < 65536 ∧ o % 4 = 0 ∧ a.power.powerGood = true ∧ x = a.hostIf.mgBase + o ∧ mgAccess .pcieDma ⟨true, x - x % 64, 15 * 2 ^ (x % 64), List.replicate (x % 64) 0 ++ beBytes 4 v, f, g⟩ a = ((st, l), b)) ∧
    (∃ t, ∃ s : State, ∃ a, a = comeTo t s ∧ a.power.powerGood = true ∧ ((∀ x, a.hostIf.mgNew = some x → x.1 ≠ pclkEdge a))) ∧
    (∃ t, ∃ s : State, ∃ a, a = comeTo t s ∧ a.power.powerGood = true) ∧
    (∃ t p, ∃ s : State, ∃ a, a = comeTo t s ∧ p < 2 ∧ (getTPort a p).step = .hello ∧ (getTPort a p).lastTx + 1000000 ≤ a.clk.root) :=
  ⟨wit_PressOperations.2.2.2.1,
   wit_TrellisLinks.2.2.2.2.2.1,
   wit_TrellisLinks.2.2.2.2.2.2.2.1,
   wit_TrellisLinks.2.2.2.2.2.2.2.2.2.1,
   wit_TrellisLinks.2.2.2.2.2.2.2.2.2.2.1,
   wit_TrellisSecurity.2.1,
   wit_TrellisLinks.2.2.2.2.2.2.2.2.2.2.2.2.1,
   wit_TrellisSecurity.2.2.2.2.2.2.2.1,
   wit_TrellisTraffic.1,
   wit_TrellisTraffic.2.1,
   wit_TrellisTraffic.2.2.1,
   wit_TrellisTraffic.2.2.2.1,
   wit_TrellisTraffic.2.2.2.2.1,
   wit_TrellisTraffic.2.2.2.2.2.2.2.2.2.2,
   wit_TrellisSecurity.2.2.2.2.2.2.2.2.2.2,
   wit_TrellisTraffic.2.2.2.2.2.2.1,
   wit_TrellisTraffic.2.2.2.2.2.2.2.2.2.1,
   wit_TrellisSecurity.2.2.2.2.2.2.2.2.2.1,
   wit_TrellisTraffic.2.2.2.2.2.1,
   wit_HostWindows.2.2.2.2.2.2.2.2.2.2.1,
   wit_HostWindows.2.2.2.2.2.2.2.2.2.2.2.2.2.2.1,
   wit_HostQueues.1,
   wit_HostQueues.2.2.1,
   wit_HostQueues.2.2.2.1,
   wit_HostQueues.2.2.2.2.2.2.2.1,
   wit_HostQueues.2.2.2.2.2.2.2.2.1,
   wit_HostQueues.2.2.2.2.2.2.1,
   wit_HostWindows.1,
   wit_HostWindows.2.2.2.2.1,
   wit_HostWindows.2.2.2.2.2.1,
   wit_BookInstructions.2.2.2.2.2.2.2.1,
   wit_BookInstructions.2.2.2.2.2.2.2.2,
   wit_HostWindows.2.2.2.2.2.2.1,
   wit_HostWindows.2.2.2.2.2.2.2.2.2.2.2.2.2.2.2.2.1,
   wit_HostWindows.2.2.2.2.2.2.2.2.2.2.2.2.2.2.2.2.2.1,
   wit_HostWindows.2.2.2.2.2.2.2.2.2.2.2.2.2.2.2.2.2.2.2.1,
   wit_HostWindows.2.2.2.2.2.2.2.2.1,
   wit_TrellisLinks.2.2.2.2.2.2.1⟩

/-- A state and operands that meet the hypotheses of StepRunsFront. -/
theorem wit_StepRunsFront : ∃ (c : Instr) (l : List Instr) (s : State), s.pending = c :: l := ⟨.nop (word 0 0 0), [], { base with pending := [.nop (word 0 0 0)] }, rfl⟩

/-- A state and operands that meet the hypotheses of IdleCountsTime. -/
theorem wit_IdleCountsTime : ∃ s : State, s.pending = [] := ⟨base, rfl⟩

/-- A state and operands that meet the hypotheses of StepKeepsLegal. -/
theorem wit_StepKeepsLegal : ∃ s t, Legal s ∧ step s = .next t := by
  refine ⟨{ base with pending := [.sysCkpt (word 0 0 0)] }, _, ?_, rfl⟩
  unfold Legal LegalTabs LegalSeq LegalBook LegalCrust
  decide +kernel

/-- Checks of three statuses, of which none fails, and one that does. -/
def passing : List Check := [(false, stRange), (false, stLength), (false, stReserved)]

/-- A state and operands that meet the hypotheses of ChecksComeFirst. -/
theorem wit_ChecksComeFirst :
    (∃ l : List Check, ∀ p ∈ l, p.2 ∈ [stRange, stLength, stAlign, stReserved]) ∧
    (∃ l : List Check, ∀ p ∈ l, p.1 = false) ∧
    (∃ (c : Cmd) (w : IWord) (s : State) (k st : Nat), readyCtx (toBoundary s) = some k ∧
      st = cmdFieldStatus c w (resolve (issued s) k w) (issued s) ∧ st ≠ 0) ∧
    (∃ (c : Cmd) (w : IWord) (s : State) (k : Nat), readyCtx (toBoundary s) = some k ∧
      fieldFail (wordChecks c.xm w ++ c.fmt (resolve (issued s) k w) (issued s)) = 0 ∧
      nb (ctxMask (issued s) k) (groupOf c.op) = false) ∧
    (∃ (c : Cmd) (w : IWord) (s : State) (k st : Nat), readyCtx (toBoundary s) = some k ∧
      cmdFieldStatus c w (resolve (issued s) k w) (issued s) = 0 ∧
      outstanding (issued s) < 4 ∧ w.via = .answered ∧ c.host (envAt w s k) = false ∧
      c.host (resolve (issued s) k w) = false ∧ w.burst = 0 ∧
      tabGet 0 (issued s).seq.applied (groupOf c.op) < (envAt w s k).cseq ∧
      st = firstFail (c.own (envAt w s k) (atBlock s k)) ∧ st ≠ 0) ∧
    (∃ (v : BitVec 128) (s : State) (k : Nat) (i : Instr), readyCtx (toBoundary s) = some k ∧
      readWord v (resolve (begun s) k (wordOf v)) (begun s) = some i) ∧
    (∃ (v : BitVec 128) (s : State) (k : Nat), readyCtx (toBoundary s) = some k ∧
      readWord v (resolve (begun s) k (wordOf v)) (begun s) = none) :=
  ⟨⟨passing, by decide⟩, ⟨passing, by decide⟩,
   ⟨sysCkptCmd, word 1 0 0, base, 1, stReserved, by decide +kernel, by decide +kernel, by decide⟩,
   ⟨sysCkptCmd, word 0 0 0, masked, 1, by decide +kernel, by decide +kernel, by decide +kernel⟩,
   ⟨crustClearCmd, word 0 0 0, alarmed, 1, stBusy, by decide +kernel, by decide +kernel, by decide +kernel, rfl,
    by decide +kernel, by decide +kernel, rfl, by decide +kernel, by decide +kernel, by decide⟩,
   ⟨0, base, 1, .nop (wordOf 0), by decide +kernel, rfl⟩, ⟨0xFF#8 ++ 0#120, base, 1, by decide +kernel, by decide +kernel⟩⟩

/-- A state and operands that meet the hypotheses of CommandsOnce. -/
theorem wit_CommandsOnce :
    (∃ (c : Cmd) (e : Env) (s : State) (k : Kept), e.cseq ≤ tabGet 0 s.seq.applied (groupOf c.op) ∧
      (tabGet [] s.seq.kept (groupOf c.op)).find? (fun k => k.cseq == e.cseq) = some k ∧ k.digest = digestOf c.op e) ∧
    (∃ (c : Cmd) (e : Env) (s : State) (k : Kept), e.cseq ≤ tabGet 0 s.seq.applied (groupOf c.op) ∧
      (tabGet [] s.seq.kept (groupOf c.op)).find? (fun k => k.cseq == e.cseq) = some k ∧ k.digest ≠ digestOf c.op e) ∧
    (∃ (c : Cmd) (e : Env) (s : State), e.cseq ≤ tabGet 0 s.seq.applied (groupOf c.op) ∧
      (tabGet [] s.seq.kept (groupOf c.op)).find? (fun k => k.cseq == e.cseq) = none) ∧
    (∃ (c : Cmd) (w : IWord) (s : State) (k : Nat), readyCtx (toBoundary s) = some k ∧
      cmdFieldStatus c w (resolve (issued s) k w) (issued s) = 0 ∧
      4 ≤ outstanding (issued s)) :=
  ⟨⟨sysCkptCmd, envAt (word 0 0 0) base 1, took (digestOf 0xC0 (envAt (word 0 0 0) base 1)), ⟨1, digestOf 0xC0 (envAt (word 0 0 0) base 1), 0⟩,
    by decide +kernel, by decide +kernel, by decide +kernel⟩,
   ⟨sysCkptCmd, envAt (word 0 0 0) base 1, took [], ⟨1, [], 0⟩, by decide +kernel, by decide +kernel, by decide +kernel⟩,
   ⟨sysCkptCmd, envAt (word 0 0 0) base 1, { base with seq := { base.seq with applied := [(groupOf 0xC0, 40)] } },
    by decide +kernel, by decide +kernel⟩,
   ⟨sysCkptCmd, word 0 0 0, full, 1, by decide +kernel, by decide +kernel, by decide +kernel⟩⟩

/-- A state and operands that meet the hypotheses of StatusReported. -/
theorem wit_StatusReported : ∃ k s, tabWf {} s.seq.ctxs = true ∧ atLast s k = false ∧ stopsOnErr s k = false ∧
    ∀ p, (getQueue s (ctxNum k)).prog = some p → p.cut = none :=
  ⟨1, base, by decide +kernel, by decide +kernel, by decide +kernel,
    fun p h => by rw [← Option.some.inj (h : some _ = some p)]⟩

/-- A state and operands that meet the hypotheses of CountersSaturate. -/
theorem wit_CountersSaturate : ∃ s : State, tabWf 0 s.cnt = true := ⟨base, by decide +kernel⟩

/-- A state and operands that meet the hypotheses of MemoryReadsBack. -/
theorem wit_MemoryReadsBack : ∃ s : State, Memory.wf s.seq.mem = true := ⟨inWin 32 5 base, by decide +kernel⟩

/-- A state and operands that meet the hypotheses of TimeAddsUp. -/
theorem wit_TimeAddsUp :
    (∃ c : Clk, c.tod < todWrap) ∧ (∃ (t u : Nat) (c : Clk), c.tod < todWrap ∧ t ≤ u) ∧ (∃ c : Clk, c.temp = none) ∧
    (∃ (c : Clk) (i : Nat), c.temp = some (i, 1)) ∧ (∃ (c : Clk) (i n : Nat), c.temp = some (i, n + 2)) :=
  ⟨⟨{}, by decide +kernel⟩, ⟨5, 5, {}, by decide +kernel, Nat.le_refl 5⟩, ⟨{}, rfl⟩, ⟨{ temp := some (7, 1) }, 7, rfl⟩,
   ⟨{ temp := some (7, 2) }, 7, 0, rfl⟩⟩

/-- A state and operands that meet the hypotheses of BookFreezesAtTop. -/
theorem wit_BookFreezesAtTop : ∃ s : State, s.book.count = 0x7FFFFFFF :=
  ⟨{ base with book := { base.book with count := 0x7FFFFFFF } }, rfl⟩

end Sys2Proof.Tests
end

section
/-! SUPPORT. The response level of a Crust alarm and the SOURCE of its record (R462 to R465), the room in the Crust log
(R473, R474), and the statements O27 and O28 settled from them. -/

namespace Sys2Proof.Machine

/-! ### The level of a monitor and the level carried out -/

@[simp] theorem crustLevel_21 (s : State) : crustLevel s 21 = 4 := rfl

/-- Monitor 21 hangs on no setting and no power supply (R452, R462). -/
@[simp] theorem monitorLive_21 (s : State) : monitorLive s 21 = true := by simp [monitorLive]

@[simp] theorem executed_21 (s : State) (l : Nat) : executed s 21 l = 4 := rfl

/-- The cap of R465 is below ERASE_WORKING, so the VBAT escalation to ERASE_ALL does not apply to a capped level. -/
theorem executed_disarmed {s : State} {m : Nat} (hm : m ≠ 21) (h : s.crust.mode = .disarmed) (l : Nat) :
    executed s m l = min l 1 := by
  have hcap : min l 1 ≠ 3 := by omega
  simp [executed, hm, h, hcap]

theorem executed_test {s : State} {m : Nat} (hm : m ≠ 21) (h : s.crust.mode = .test) (l : Nat) : executed s m l = 0 := by
  simp [executed, hm, h]

/-! ### CAPPED, bit 5 of SOURCE -/

/-- Bit 5 of a word made of a field of five bits, a bit at 5 and a bit at 6. -/
theorem nb_five_of_fields {m : Nat} (hm : m < 32) (p q : Bool) : nb (m + bn p * 32 + bn q * 64) 5 = p := by
  cases p <;> cases q <;> simp [nb, bn] <;> omega

/-- CAPPED stands in SOURCE exactly where the DISARMED mode lowers the level (R463, R465). -/
theorem nb_alarmSource_five (s : State) {m : Nat} (hm : m < 32) :
    nb (alarmSource s m) 5 = decide (m ≠ 21 ∧ s.crust.mode = .disarmed ∧ 1 < crustLevel s m) :=
  nb_five_of_fields hm _ _

/-- Settles O27: monitor 21 is outside both caps, and below it the mode alone decides the level and CAPPED. -/
theorem crustLevels : Obligations.CrustLevels := by
  unfold Obligations.CrustLevels
  refine ⟨fun s l => ?_, fun s m hm hmode hl => ?_, fun s m hm hmode hl => ?_, fun s m l hm hmode => ?_⟩
  · simp [nb_alarmSource_five]
  all_goals rw [nb_alarmSource_five s (by omega)]
  · rw [executed_disarmed hm.ne hmode]
    exact ⟨by omega, decide_eq_true ⟨hm.ne, hmode, hl⟩⟩
  · rw [executed_disarmed hm.ne hmode]
    exact ⟨by omega, decide_eq_false fun ⟨_, _, h⟩ => by omega⟩
  · exact ⟨executed_test hm.ne hmode l, by simp [hmode]⟩

/-! ### The room in the Crust log -/

theorem logRoom_of_lt {kept : Nat} {l : List CrustRec} (h : l.length < kept + 56) : logRoom kept l = l :=
  if_neg (by omega)

theorem logRoom_of_le {kept : Nat} {l : List CrustRec} (h : kept + 56 ≤ l.length) :
    logRoom kept l = l.take kept ++ l.drop (kept + 1) :=
  if_pos h

/-! ### What a confirmation writes -/

/-- The newest record tells what the confirmation with SOURCE `x` and LEVELS `y` tells (R474). -/
def confirms (x y : Nat) (r : CrustRec) : Prop := x % 32 < 22 ∧ r.source = x ∧ r.levels = y

/-- A confirmation that the newest record tells already adds one to its REPEAT, which stops at 65 535 (R473, R474). -/
theorem logCrust_repeats {x y : Nat} {s : State} {r : CrustRec} (hr : s.crust.log.getLast? = some r)
    (h : confirms x y r) (d : Nat) :
    logCrust x y d s = { s with crust := { s.crust with
      log := s.crust.log.dropLast ++ [{ r with repeat_ := min (r.repeat_ + 1) 65535 }] } } := by
  obtain ⟨hx, hs, hl⟩ := h
  simp [logCrust, hr, hx, hs, hl]

/-- Any other one writes a record. -/
theorem logCrust_adds {x y : Nat} {s : State} (h : ∀ r, s.crust.log.getLast? = some r → ¬confirms x y r) (d : Nat) :
    logCrust x y d s = logCrust.addRec x y d s := by
  unfold logCrust
  split
  case h_1 r hr => exact if_neg fun hc => h r hr (by simpa [confirms, and_assoc] using hc)
  case h_2 => rfl

theorem addRec_log (x y d : Nat) (s : State) :
    (logCrust.addRec x y d s).crust.log =
      logRoom s.crust.kept s.crust.log ++ [⟨crustTime s, x, y, 0, d, s.crust.seq⟩] := rfl

theorem addRec_kept (x y d : Nat) (s : State) : (logCrust.addRec x y d s).crust.kept = min 8 (s.crust.kept + 1) := rfl

/-- Settles O28: the newest record repeats, or a record is added to a log that has room, or to one that made it. -/
theorem crustLogCirculates : Obligations.CrustLogCirculates := by
  unfold Obligations.CrustLogCirculates
  refine ⟨fun x y d s r hr hx hs hl => ?_, fun x y d s hnew hlen hkept => ?_, fun x y d s hnew hlen hkept => ?_⟩
  · rw [logCrust_repeats hr ⟨hx, hs, hl⟩]
  all_goals rw [logCrust_adds hnew, addRec_log, addRec_kept]
  · rw [logRoom_of_lt (by omega)]
    exact ⟨rfl, by omega⟩
  · rw [logRoom_of_le (by omega), hkept]
    exact ⟨rfl, rfl⟩

end Sys2Proof.Machine
end

section
/-! SUPPORT. A new event that comes to the Cellar Book at its highest COUNT (R480, R483, R484), and the statement O60 settled
from it. -/

namespace Sys2Proof.Machine

/-- A missed event changes MISSED alone in the book. -/
theorem missEv_book (e : Ev) (s : State) :
    (missEv e s).book = { s.book with missed := min (s.book.missed + 1 + e.more) (2 ^ 32 - 1) } := rfl

/-- An event that R489 marks (repeat) opens record `n`; at most 64 records stay open (R480). -/
def openAs (e : Ev) (n : Nat) (s : State) : State :=
  if isRepeat e.code then { s with book := { s.book with
    opens := (s.book.opens ++ [(e.code, e.obj, n)]).drop (s.book.opens.length - 63) } } else s

/-- Opening a record changes the open records alone in the book. -/
theorem openAs_book (e : Ev) (n : Nat) (s : State) :
    (openAs e n s).book = { s.book with opens := (openAs e n s).book.opens } := by
  unfold openAs; split <;> rfl

/-- The Cellar Book freezes, without a record of it (R483). -/
def freezeBook (s : State) : State := { s with book := { s.book with frozen := true } }

/-- At its highest COUNT the book freezes before the event comes to it, so the event is missed, opens a record that has no
number, and is dispatched (R483, R484). -/
theorem recordNew_of_top {s : State} (h : 0x7FFFFFFF ≤ s.book.count) (e : Ev) :
    recordNew e s = dispatch e (openAs e noRec (missEv e (freezeBook s))) := by
  simp only [recordNew, h, decide_true, if_true]
  rfl

/-- Settles O60: what the dispatcher takes is the frozen book with the event missed. -/
theorem bookFreezesAtTop : Obligations.BookFreezesAtTop := by
  unfold Obligations.BookFreezesAtTop
  intro e s h
  refine ⟨_, recordNew_of_top h.ge e, ?_⟩
  rw [openAs_book, missEv_book]
  exact ⟨rfl, rfl, rfl, rfl, rfl⟩

end Sys2Proof.Machine
end

section
/-! SUPPORT. Every step keeps the state legal, and every command answers: both follow from `keeps_exec`. -/

namespace Sys2Proof.Machine

/-- Whatever command runs, what it answers keeps the queue, the bounds of time, draws and outputs, and legality. -/
theorem keeps_exec {c : Instr} {s u : State} (h : exec c s = .next u) : Keeps s u := by
  cases c with
  | nop a0 => exact keeps_execNop a0 s h
  | halt a0 => exact keeps_execHalt a0 s h
  | jmp a0 => exact keeps_execJmp a0 s h
  | brCc a0 => exact keeps_execBrCc a0 s h
  | call a0 => exact keeps_execCall a0 s h
  | ret a0 => exact keeps_execRet a0 s h
  | waitEv a0 => exact keeps_execWaitEv a0 s h
  | waitT a0 => exact keeps_execWaitT a0 s h
  | fence a0 => exact keeps_execFence a0 s h
  | yield a0 => exact keeps_execYield a0 s h
  | movi a0 => exact keeps_execMovi a0 s h
  | mov a0 => exact keeps_execMov a0 s h
  | add a0 => exact keeps_execAdd a0 s h
  | sub a0 => exact keeps_execSub a0 s h
  | andW a0 => exact keeps_execAndW a0 s h
  | orW a0 => exact keeps_execOrW a0 s h
  | xorW a0 => exact keeps_execXorW a0 s h
  | shl a0 => exact keeps_execShl a0 s h
  | shr a0 => exact keeps_execShr a0 s h
  | cmp a0 => exact keeps_execCmp a0 s h
  | ld a0 => exact keeps_execLd a0 s h
  | st a0 => exact keeps_execSt a0 s h
  | laneCfg a0 => exact keeps_execLaneCfg a0 s h
  | laneTest a0 => exact keeps_execLaneTest a0 s h
  | laneCalAdapt a0 => exact keeps_execLaneCalAdapt a0 s h
  | laneCalMargin a0 => exact keeps_execLaneCalMargin a0 s h
  | laneCalFull a0 => exact keeps_execLaneCalFull a0 s h
  | portCfg a0 => exact keeps_execPortCfg a0 s h
  | portState a0 => exact keeps_execPortState a0 s h
  | clsMap a0 => exact keeps_execClsMap a0 s h
  | clsRule a0 => exact keeps_execClsRule a0 s h
  | peerAdd a0 => exact keeps_execPeerAdd a0 s h
  | peerDel a0 => exact keeps_execPeerDel a0 s h
  | peerSearch a0 => exact keeps_execPeerSearch a0 s h
  | peerNext a0 => exact keeps_execPeerNext a0 s h
  | peerFlush a0 => exact keeps_execPeerFlush a0 s h
  | chSet a0 => exact keeps_execChSet a0 s h
  | saLoad a0 => exact keeps_execSaLoad a0 s h
  | saArm a0 => exact keeps_execSaArm a0 s h
  | saRoll a0 => exact keeps_execSaRoll a0 s h
  | saRetire a0 => exact keeps_execSaRetire a0 s h
  | chPin a0 => exact keeps_execChPin a0 s h
  | chUnpin a0 => exact keeps_execChUnpin a0 s h
  | chRead a0 => exact keeps_execChRead a0 s h
  | cntRead a0 => exact keeps_execCntRead a0 s h
  | cntClear a0 => exact keeps_execCntClear a0 s h
  | classMap a0 => exact keeps_execClassMap a0 s h
  | shapeSet a0 => exact keeps_execShapeSet a0 s h
  | policeSet a0 => exact keeps_execPoliceSet a0 s h
  | gateLoad a0 => exact keeps_execGateLoad a0 s h
  | gateSwap a0 => exact keeps_execGateSwap a0 s h
  | gateSwapCancel a0 => exact keeps_execGateSwapCancel a0 s h
  | preemptSet a0 => exact keeps_execPreemptSet a0 s h
  | timeSet a0 => exact keeps_execTimeSet a0 s h
  | timeSetAtPps a0 => exact keeps_execTimeSetAtPps a0 s h
  | timeAdj a0 => exact keeps_execTimeAdj a0 s h
  | timeIncr a0 => exact keeps_execTimeIncr a0 s h
  | trigArm a0 => exact keeps_execTrigArm a0 s h
  | captCfg a0 => exact keeps_execCaptCfg a0 s h
  | probeSend a0 => exact keeps_execProbeSend a0 s h
  | probeResponderWrite a0 => exact keeps_execProbeResponderWrite a0 s h
  | tsPop a0 => exact keeps_execTsPop a0 s h
  | graft a0 => exact keeps_execGraft a0 s h
  | slotErase a0 => exact keeps_execSlotErase a0 s h
  | slotInfo a0 => exact keeps_execSlotInfo a0 s h
  | blkKey a0 => exact keeps_execBlkKey a0 s h
  | blkOp a0 => exact keeps_execBlkOp a0 s h
  | blkCmp a0 => exact keeps_execBlkCmp a0 s h
  | unwrap a0 => exact keeps_execUnwrap a0 s h
  | drbgGet a0 => exact keeps_execDrbgGet a0 s h
  | pkLoad a0 => exact keeps_execPkLoad a0 s h
  | pkOp a0 => exact keeps_execPkOp a0 s h
  | pkShape a0 => exact keeps_execPkShape a0 s h
  | ecPub a0 => exact keeps_execEcPub a0 s h
  | ecdsaSign a0 => exact keeps_execEcdsaSign a0 s h
  | ecdsaVerify a0 => exact keeps_execEcdsaVerify a0 s h
  | ecdhMac a0 => exact keeps_execEcdhMac a0 s h
  | ecMul a0 => exact keeps_execEcMul a0 s h
  | modexp a0 => exact keeps_execModexp a0 s h
  | rsaPkcs1 a0 => exact keeps_execRsaPkcs1 a0 s h
  | rsaPss a0 => exact keeps_execRsaPss a0 s h
  | kemPub a0 => exact keeps_execKemPub a0 s h
  | kemMac a0 => exact keeps_execKemMac a0 s h
  | dsaPub a0 => exact keeps_execDsaPub a0 s h
  | dsaSign a0 => exact keeps_execDsaSign a0 s h
  | dsaVerify a0 => exact keeps_execDsaVerify a0 s h
  | pkRead a0 => exact keeps_execPkRead a0 s h
  | pkAbort a0 => exact keeps_execPkAbort a0 s h
  | mgRegionCreate a0 => exact keeps_execMgRegionCreate a0 s h
  | mgRegionRemove a0 => exact keeps_execMgRegionRemove a0 s h
  | mgRekeyRotate a0 => exact keeps_execMgRekeyRotate a0 s h
  | mgRekeyRebuild a0 => exact keeps_execMgRekeyRebuild a0 s h
  | mgScrubStart a0 => exact keeps_execMgScrubStart a0 s h
  | mgScrubStop a0 => exact keeps_execMgScrubStop a0 s h
  | mgRights a0 => exact keeps_execMgRights a0 s h
  | logWrite a0 => exact keeps_execLogWrite a0 s h
  | logFreeze a0 => exact keeps_execLogFreeze a0 s h
  | logThaw a0 => exact keeps_execLogThaw a0 s h
  | logClear a0 => exact keeps_execLogClear a0 s h
  | trSend a0 => exact keeps_execTrSend a0 s h
  | trRecv a0 => exact keeps_execTrRecv a0 s h
  | trRole a0 => exact keeps_execTrRole a0 s h
  | sysCkpt a0 => exact keeps_execSysCkpt a0 s h
  | sysSwitchGo a0 => exact keeps_execSysSwitchGo a0 s h
  | sysSwitchStage a0 => exact keeps_execSysSwitchStage a0 s h
  | sysSwitchHoldoff a0 => exact keeps_execSysSwitchHoldoff a0 s h
  | sysReconcile a0 => exact keeps_execSysReconcile a0 s h
  | sysVintage a0 => exact keeps_execSysVintage a0 s h
  | evBind a0 => exact keeps_execEvBind a0 s h
  | evUnbind a0 => exact keeps_execEvUnbind a0 s h
  | crustCfg a0 => exact keeps_execCrustCfg a0 s h
  | crustArm a0 => exact keeps_execCrustArm a0 s h
  | crustDisarm a0 => exact keeps_execCrustDisarm a0 s h
  | crustTest a0 => exact keeps_execCrustTest a0 s h
  | crustInject a0 => exact keeps_execCrustInject a0 s h
  | crustClear a0 => exact keeps_execCrustClear a0 s h
  | crustLogclear a0 => exact keeps_execCrustLogclear a0 s h
  | hostFrameReceive a0 a1 a2 a3 => exact keeps_execHostFrameReceive a0 a1 a2 a3 s h
  | lineFrameReceive a0 a1 a2 a3 => exact keeps_execLineFrameReceive a0 a1 a2 a3 s h
  | spillReadComplete a0 a1 => exact keeps_execSpillReadComplete a0 a1 s h
  | spillTimeout a0 a1 => exact keeps_execSpillTimeout a0 a1 s h
  | pendingAgeExpiry a0 a1 a2 => exact keeps_execPendingAgeExpiry a0 a1 a2 s h
  | peerFlushComplete a0 => exact keeps_execPeerFlushComplete a0 s h
  | pauseFrameReceive a0 a1 a2 a3 => exact keeps_execPauseFrameReceive a0 a1 a2 a3 s h
  | pauseTimeExpiry a0 a1 a2 => exact keeps_execPauseTimeExpiry a0 a1 a2 s h
  | pauseLimitRelease a0 a1 a2 => exact keeps_execPauseLimitRelease a0 a1 a2 s h
  | pauseRefresh a0 a1 a2 => exact keeps_execPauseRefresh a0 a1 a2 s h
  | egressSelect a0 a1 => exact keeps_execEgressSelect a0 a1 s h
  | calendarSlotReached a0 a1 a2 => exact keeps_execCalendarSlotReached a0 a1 a2 s h
  | frameTransmit a0 a1 => exact keeps_execFrameTransmit a0 a1 s h
  | icvCheck a0 a1 => exact keeps_execIcvCheck a0 a1 s h
  | probeTimeout a0 a1 => exact keeps_execProbeTimeout a0 a1 s h
  | fillComplete a0 a1 a2 => exact keeps_execFillComplete a0 a1 a2 s h
  | fillTimeout a0 a1 => exact keeps_execFillTimeout a0 a1 s h
  | cacheEvict a0 => exact keeps_execCacheEvict a0 s h
  | writeBackComplete a0 a1 a2 => exact keeps_execWriteBackComplete a0 a1 a2 s h
  | proofRefill a0 a1 a2 => exact keeps_execProofRefill a0 a1 a2 s h
  | sliceFault a0 a1 a2 a3 => exact keeps_execSliceFault a0 a1 a2 a3 s h
  | rotationStep a0 a1 => exact keeps_execRotationStep a0 a1 s h
  | sliceTestComplete a0 a1 a2 => exact keeps_execSliceTestComplete a0 a1 a2 s h
  | retireTimeReached a0 a1 a2 => exact keeps_execRetireTimeReached a0 a1 a2 s h
  | caskScrub a0 a1 a2 a3 => exact keeps_execCaskScrub a0 a1 a2 a3 s h
  | ageCheck a0 => exact keeps_execAgeCheck a0 s h
  | puntDeliver a0 a1 a2 => exact keeps_execPuntDeliver a0 a1 a2 s h
  | puntWaitExpiry a0 a1 => exact keeps_execPuntWaitExpiry a0 a1 s h
  | injectTake a0 a1 a2 a3 => exact keeps_execInjectTake a0 a1 a2 a3 s h
  | gateEntryChange a0 a1 => exact keeps_execGateEntryChange a0 a1 s h
  | gateSwapChange a0 a1 => exact keeps_execGateSwapChange a0 a1 s h
  | temporaryIncrementEnd a0 => exact keeps_execTemporaryIncrementEnd a0 s h
  | secondsWrap a0 => exact keeps_execSecondsWrap a0 s h
  | ppsSetEdge a0 a1 a2 => exact keeps_execPpsSetEdge a0 a1 a2 s h
  | ppsSetTimeout a0 => exact keeps_execPpsSetTimeout a0 s h
  | captureEdge a0 a1 a2 a3 => exact keeps_execCaptureEdge a0 a1 a2 a3 s h
  | triggerPulse a0 a1 => exact keeps_execTriggerPulse a0 a1 s h
  | verifyTimeout a0 a1 => exact keeps_execVerifyTimeout a0 a1 s h
  | verifyRespondReceive a0 a1 => exact keeps_execVerifyRespondReceive a0 a1 s h
  | anResolved a0 a1 a2 => exact keeps_execAnResolved a0 a1 a2 s h
  | trainingComplete a0 a1 => exact keeps_execTrainingComplete a0 a1 s h
  | trainingTimeout a0 a1 => exact keeps_execTrainingTimeout a0 a1 s h
  | alignmentHeld a0 a1 => exact keeps_execAlignmentHeld a0 a1 s h
  | alignmentTimeout a0 a1 => exact keeps_execAlignmentTimeout a0 a1 s h
  | negotiationRestartWait a0 a1 => exact keeps_execNegotiationRestartWait a0 a1 s h
  | linkLoss a0 a1 => exact keeps_execLinkLoss a0 a1 s h
  | synceUnsquelch a0 a1 => exact keeps_execSynceUnsquelch a0 a1 s h
  | eyeMarginCheck a0 a1 a2 a3 => exact keeps_execEyeMarginCheck a0 a1 a2 a3 s h
  | calibrationStart a0 a1 => exact keeps_execCalibrationStart a0 a1 s h
  | calibrationComplete a0 a1 a2 => exact keeps_execCalibrationComplete a0 a1 a2 s h
  | referenceLoss a0 a1 => exact keeps_execReferenceLoss a0 a1 s h
  | referenceGood a0 a1 => exact keeps_execReferenceGood a0 a1 s h
  | rootPllLockLoss a0 => exact keeps_execRootPllLockLoss a0 s h
  | rootPllRelock a0 a1 => exact keeps_execRootPllRelock a0 a1 s h
  | programStart a0 a1 a2 a3 a4 => exact keeps_execProgramStart a0 a1 a2 a3 a4 s h
  | programCopyTimeout a0 a1 => exact keeps_execProgramCopyTimeout a0 a1 s h
  | programTimeLimit a0 a1 => exact keeps_execProgramTimeLimit a0 a1 s h
  | commandTimeout a0 a1 => exact keeps_execCommandTimeout a0 a1 s h
  | commandCompletion a0 a1 => exact keeps_execCommandCompletion a0 a1 s h
  | instructionWatchdog a0 a1 => exact keeps_execInstructionWatchdog a0 a1 s h
  | complexFault a0 a1 => exact keeps_execComplexFault a0 a1 s h
  | standbySelfTest a0 a1 => exact keeps_execStandbySelfTest a0 a1 s h
  | repairSelfTest a0 a1 => exact keeps_execRepairSelfTest a0 a1 s h
  | holdoffExpiry a0 => exact keeps_execHoldoffExpiry a0 s h
  | stageComplete a0 a1 => exact keeps_execStageComplete a0 a1 s h
  | eventRecord a0 => exact keeps_execEventRecord a0 s h
  | handlerStart a0 a1 => exact keeps_execHandlerStart a0 a1 s h
  | graftProcess a0 => exact keeps_execGraftProcess a0 s h
  | remaskPass a0 => exact keeps_execRemaskPass a0 s h
  | drbgReseed a0 => exact keeps_execDrbgReseed a0 s h
  | healthTestFailure a0 => exact keeps_execHealthTestFailure a0 s h
  | drbgReinstantiate a0 a1 => exact keeps_execDrbgReinstantiate a0 a1 s h
  | drbgPostEraseInstantiate a0 a1 => exact keeps_execDrbgPostEraseInstantiate a0 a1 s h
  | pressOpStart a0 => exact keeps_execPressOpStart a0 s h
  | pressOpComplete a0 => exact keeps_execPressOpComplete a0 s h
  | vintageComplete a0 => exact keeps_execVintageComplete a0 s h
  | powerGood a0 a1 a2 a3 => exact keeps_execPowerGood a0 a1 a2 a3 s h
  | bootRom a0 a1 a2 a3 a4 a5 => exact keeps_execBootRom a0 a1 a2 a3 a4 a5 s h
  | recoveryReadComplete a0 a1 => exact keeps_execRecoveryReadComplete a0 a1 s h
  | npor a0 => exact keeps_execNpor a0 s h
  | nreset a0 => exact keeps_execNreset a0 s h
  | railWarning a0 a1 => exact keeps_execRailWarning a0 a1 s h
  | railWarningClear a0 a1 => exact keeps_execRailWarningClear a0 a1 s h
  | brownOut a0 a1 => exact keeps_execBrownOut a0 a1 s h
  | mgTrainingComplete a0 a1 a2 => exact keeps_execMgTrainingComplete a0 a1 a2 s h
  | mgAccess a0 a1 a2 => exact keeps_execMgAccess a0 a1 a2 s h
  | memoryPortCopy a0 a1 => exact keeps_execMemoryPortCopy a0 a1 s h
  | mgRotationComplete a0 a1 => exact keeps_execMgRotationComplete a0 a1 s h
  | mgRebuildComplete a0 a1 => exact keeps_execMgRebuildComplete a0 a1 s h
  | mgScrubComplete a0 a1 => exact keeps_execMgScrubComplete a0 a1 s h
  | patrolScrub a0 a1 a2 => exact keeps_execPatrolScrub a0 a1 a2 s h
  | crustAlarm a0 a1 => exact keeps_execCrustAlarm a0 a1 s h
  | crustInjectTimeout a0 => exact keeps_execCrustInjectTimeout a0 s h
  | crustColdStart a0 => exact keeps_execCrustColdStart a0 s h
  | trellisLinkLock a0 a1 => exact keeps_execTrellisLinkLock a0 a1 s h
  | helloReceive a0 a1 a2 => exact keeps_execHelloReceive a0 a1 a2 s h
  | linkModeHeld a0 a1 a2 => exact keeps_execLinkModeHeld a0 a1 a2 s h
  | keyxReceive a0 a1 a2 => exact keeps_execKeyxReceive a0 a1 a2 s h
  | trellisStepTimeout a0 a1 => exact keeps_execTrellisStepTimeout a0 a1 s h
  | trellisFrameReceive a0 a1 a2 => exact keeps_execTrellisFrameReceive a0 a1 a2 s h
  | serviceReceive a0 => exact keeps_execServiceReceive a0 s h
  | graftFragmentTimeout a0 a1 a2 => exact keeps_execGraftFragmentTimeout a0 a1 a2 s h
  | tsyncReceive a0 a1 a2 => exact keeps_execTsyncReceive a0 a1 a2 s h
  | tsyncSend a0 => exact keeps_execTsyncSend a0 s h
  | delayRequest a0 a1 a2 a3 a4 a5 => exact keeps_execDelayRequest a0 a1 a2 a3 a4 a5 s h
  | topoReceive a0 a1 a2 => exact keeps_execTopoReceive a0 a1 a2 s h
  | keepaliveSend a0 a1 => exact keeps_execKeepaliveSend a0 a1 s h
  | trellisLinkDown a0 a1 => exact keeps_execTrellisLinkDown a0 a1 s h
  | nodeLost a0 a1 => exact keeps_execNodeLost a0 a1 s h
  | linkRekey a0 a1 => exact keeps_execLinkRekey a0 a1 s h
  | eventBatchSend a0 => exact keeps_execEventBatchSend a0 s h
  | pcieFunctionReset a0 => exact keeps_execPcieFunctionReset a0 s h
  | pcieLinkChange a0 a1 => exact keeps_execPcieLinkChange a0 a1 s h
  | qdoorWrite a0 a1 a2 => exact keeps_execQdoorWrite a0 a1 a2 s h
  | queueEnable a0 a1 a2 => exact keeps_execQueueEnable a0 a1 a2 s h
  | queueDisable a0 a1 a2 => exact keeps_execQueueDisable a0 a1 a2 s h
  | ringEnable a0 a1 a2 => exact keeps_execRingEnable a0 a1 a2 s h
  | ringDisable a0 a1 a2 => exact keeps_execRingDisable a0 a1 a2 s h
  | rdoorWrite a0 a1 a2 => exact keeps_execRdoorWrite a0 a1 a2 s h
  | recCtlGo a0 a1 => exact keeps_execRecCtlGo a0 a1 s h
  | intCauseWrite a0 a1 => exact keeps_execIntCauseWrite a0 a1 s h
  | intEnableWrite a0 a1 => exact keeps_execIntEnableWrite a0 a1 s h
  | todLatch a0 a1 => exact keeps_execTodLatch a0 a1 s h
  | cbWindowRead a0 a1 => exact keeps_execCbWindowRead a0 a1 s h
  | crustWindowRead a0 a1 => exact keeps_execCrustWindowRead a0 a1 s h
  | mgwinRead a0 a1 a2 => exact keeps_execMgwinRead a0 a1 a2 s h
  | mgwinWrite a0 a1 a2 a3 => exact keeps_execMgwinWrite a0 a1 a2 a3 s h
  | mgwinStatRead a0 => exact keeps_execMgwinStatRead a0 s h
  | registerWrite a0 a1 a2 a3 a4 => exact keeps_execRegisterWrite a0 a1 a2 a3 a4 s h
  | faultSequenceChange a0 a1 a2 a3 => exact keeps_execFaultSequenceChange a0 a1 a2 a3 s h
  | checkerLock a0 a1 => exact keeps_execCheckerLock a0 a1 s h
  | checkerLossOfLock a0 a1 a2 a3 a4 => exact keeps_execCheckerLossOfLock a0 a1 a2 a3 a4 s h
  | rateInjection a0 a1 => exact keeps_execRateInjection a0 a1 s h
  | waitEvTimeout a0 a1 => exact keeps_execWaitEvTimeout a0 a1 s h
  | waitTExpiry a0 a1 => exact keeps_execWaitTExpiry a0 a1 s h
  | hostTransferTimeout a0 a1 => exact keeps_execHostTransferTimeout a0 a1 s h
  | recoveryReadTimeout a0 => exact keeps_execRecoveryReadTimeout a0 s h
  | reservoirCharged a0 => exact keeps_execReservoirCharged a0 s h
  | helloSend a0 a1 => exact keeps_execHelloSend a0 a1 s h
  | pullInComplete a0 => exact keeps_execPullInComplete a0 s h
  | rollStraddleWindow a0 a1 => exact keeps_execRollStraddleWindow a0 a1 s h

theorem exec_answers (c : Instr) (s : State) : ∃ t, exec c s = .next t := by
  cases c <;> exact ⟨_, rfl⟩

theorem keeps_idle (s : State) : Keeps s (idle s) := keeps_advance _ s (Keeps.refl s)

/-- Taking the front command off the queue touches nothing that `Legal` speaks of. -/
theorem legal_pending {s : State} {l : List Instr} : Legal { s with pending := l } ↔ Legal s := Iff.rfl

theorem step_idle {s : State} (h : s.pending = []) : step s = .next (idle s) := by
  simp only [step, h]

theorem step_front {s : State} {c : Instr} {l : List Instr} (h : s.pending = c :: l) :
    step s = exec c { s with pending := l } := by
  simp only [step, h]

/-- Settles O52, from what an idle step and every command keep. -/
theorem stepKeepsLegal : Obligations.StepKeepsLegal := by
  unfold Obligations.StepKeepsLegal
  intro s t hs h
  cases hp : s.pending with
  | nil =>
    rw [step_idle hp] at h
    cases h
    exact (keeps_idle s).legal hs
  | cons c l =>
    rw [step_front hp] at h
    exact (keeps_exec h).legal (legal_pending.mpr hs)

/-- Settles O53, from what every command keeps. -/
theorem everyCommandAnswers : Obligations.EveryCommandAnswers := by
  unfold Obligations.EveryCommandAnswers
  intro c s
  obtain ⟨t, h⟩ := exec_answers c s
  obtain ⟨hp, hr, hd, ho, -⟩ := keeps_exec h
  exact ⟨t, h, hp, hr, hd, ho⟩

/-- Settles O48. -/
theorem stepRunsFront : Obligations.StepRunsFront := by
  unfold Obligations.StepRunsFront
  exact fun _ _ _ => step_front

/-- Settles O49. -/
theorem idleCountsTime : Obligations.IdleCountsTime := by
  unfold Obligations.IdleCountsTime
  exact fun _ => step_idle

/-- Settles O51: the tables of the reset state are empty, and its bounds are numbers. -/
theorem resetLegal : Obligations.ResetLegal := by
  unfold Obligations.ResetLegal
  refine ⟨⟨rfl, rfl, rfl, rfl, rfl, rfl, rfl, rfl⟩, ⟨rfl, rfl, rfl, rfl, nofun, nofun, nofun⟩, ⟨?_, ?_, ?_⟩, ⟨?_, ?_⟩, ?_⟩
  all_goals decide

end Sys2Proof.Machine
end


section
/-! SUPPORT. The first failure among the checks of fields and among a command's own checks (R37). -/

namespace Sys2Proof.Machine

theorem le_fieldFail {l : List Check} {st : Nat} (h : (true, st) ∈ l) : st ≤ fieldFail l := by
  induction l with
  | nil => cases h
  | cons p l ih =>
    obtain ⟨b, n⟩ := p
    rcases List.mem_cons.mp h with hp | hl
    · cases hp; exact Nat.le_max_left ..
    · cases b
      · exact ih hl
      · exact (ih hl).trans (Nat.le_max_right ..)

theorem fieldFail_mem (l : List Check) : fieldFail l = stOk ∨ (true, fieldFail l) ∈ l := by
  induction l with
  | nil => exact .inl rfl
  | cons p l ih =>
    obtain ⟨_ | _, n⟩ := p
    · exact ih.imp id (List.mem_cons_of_mem _)
    · rw [fieldFail]
      rcases Nat.le_total n (fieldFail l) with h | h
      · rw [max_eq_right h]; exact ih.imp id (List.mem_cons_of_mem _)
      · rw [max_eq_left h]; exact .inr (List.mem_cons_self ..)

/-- Checks that all hold give ST_OK, and only they do where no check carries ST_OK itself. -/
theorem fieldFail_eq_ok {l : List Check} (hl : ∀ p ∈ l, p.2 ≠ stOk) : fieldFail l = stOk ↔ ∀ p ∈ l, p.1 = false := by
  refine ⟨fun h p hp => ?_, fun h => ?_⟩
  · obtain ⟨_ | _, n⟩ := p
    · rfl
    · exact absurd (Nat.le_zero.mp ((le_fieldFail hp).trans h.le)) (hl _ hp)
  · rcases fieldFail_mem l with h0 | h0
    · exact h0
    · exact absurd (h _ h0) (by simp)

/-- A status above ST_OK is the answer exactly where a check fails with it and none fails with a higher one. -/
theorem fieldFail_eq {l : List Check} {st : Nat} (h0 : st ≠ stOk) :
    fieldFail l = st ↔ (true, st) ∈ l ∧ ∀ n, (true, n) ∈ l → n ≤ st := by
  refine ⟨?_, fun ⟨hm, hle⟩ => ?_⟩
  · rintro rfl
    exact ⟨(fieldFail_mem l).resolve_left h0, fun _ => le_fieldFail⟩
  · rcases fieldFail_mem l with h | h
    · exact absurd (Nat.le_zero.mp ((le_fieldFail hm).trans h.le)) h0
    · exact le_antisymm (hle _ h) (le_fieldFail hm)

theorem firstFail_pass {l m : List Check} (h : ∀ p ∈ l, p.1 = false) : firstFail (l ++ m) = firstFail m := by
  induction l with
  | nil => rfl
  | cons p l ih =>
    obtain ⟨b, n⟩ := p
    obtain rfl : b = false := h _ (List.mem_cons_self ..)
    exact ih fun q hq => h q (List.mem_cons_of_mem _ hq)

/-- An instruction whose fields fail, or whose group is masked, ends in its context. -/
theorem runCmd_fieldFail {c : Cmd} {w : IWord} {s : State} {k st : Nat} (hr : readyCtx (toBoundary s) = some k)
    (hst : cmdFieldStatus c w (resolve (issued s) k w) (issued s) = st) (h : st ≠ 0) :
    runCmd c w s = finish k (some st) (issued s) := by
  unfold runCmd
  rw [hr]
  show runCmdIn c w k (issued s) = _
  unfold runCmdIn
  simp only [hst]
  exact if_pos h

/-- Where fewer than four commands are outstanding and the transfer is not late, a command whose fields pass leaves for its
block. -/
theorem runCmd_launch {c : Cmd} {w : IWord} {s : State} {k : Nat} (hr : readyCtx (toBoundary s) = some k)
    (hf : cmdFieldStatus c w (resolve (issued s) k w) (issued s) = 0) (ho : outstanding (issued s) < 4)
    (hh : c.host (resolve (issued s) k w) = false) (hv : w.via = .answered) :
    runCmd c w s = returnStatus (envAt w s k) (deliver c (envAt w s k) (atBlock s k)) := by
  unfold runCmd
  rw [hr]
  show runCmdIn c w k (issued s) = _
  unfold runCmdIn
  simp only [hf, hh, ne_eq, not_true_eq_false, if_false, Bool.false_and, Bool.false_eq_true, Nat.not_le.mpr ho]
  unfold launch
  rw [hv]
  rfl

/-- A command that asks for no transfer and meets no burst, and whose own checks fail, leaves its block as it is. -/
theorem applyCmd_ownFail {c : Cmd} {e : Env} {s : State} (hh : c.host e = false) (hb : e.burst = 0)
    (h : firstFail (c.own e s) ≠ 0) : applyCmd c e s = { s := s, st := firstFail (c.own e s) } := by
  simp [applyCmd, hh, hb, sramRead, h]


/-- The order of the four statuses of field checks (R37). -/
theorem fieldFail_order {l : List Check} (hl : ∀ p ∈ l, p.2 ∈ [stRange, stLength, stAlign, stReserved]) :
    (fieldFail l = stReserved ↔ (true, stReserved) ∈ l) ∧
    (fieldFail l = stAlign ↔ (true, stAlign) ∈ l ∧ (true, stReserved) ∉ l) ∧
    (fieldFail l = stLength ↔ (true, stLength) ∈ l ∧ (true, stAlign) ∉ l ∧ (true, stReserved) ∉ l) ∧
    (fieldFail l = stRange ↔ (true, stRange) ∈ l ∧ (true, stLength) ∉ l ∧ (true, stAlign) ∉ l ∧ (true, stReserved) ∉ l) ∧
    (fieldFail l = stOk ↔ ∀ p ∈ l, p.1 = false) := by
  have hcode : ∀ n, (true, n) ∈ l → n = stRange ∨ n = stLength ∨ n = stAlign ∨ n = stReserved := fun n hn => by
    simpa using hl _ hn
  have hdown : ∀ st, (∀ n, (true, n) ∈ l → n ≤ st) ↔
      ∀ n, (n = stRange ∨ n = stLength ∨ n = stAlign ∨ n = stReserved) → st < n → (true, n) ∉ l := fun st =>
    ⟨fun h n _ hn hm => absurd (h n hm) (Nat.not_le.mpr hn), fun h n hm => by
      by_contra hn
      exact h n (hcode n hm) (Nat.not_le.mp hn) hm⟩
  refine ⟨?_, ?_, ?_, ?_, fieldFail_eq_ok fun p hp h0 => absurd (hl p hp) (by rw [h0]; decide)⟩
  all_goals
    rw [fieldFail_eq (by decide), hdown]
    simp [stRange, stLength, stAlign, stReserved]

/-- The word of the context that runs next is the command it spells, or a bad one. -/
theorem runWord_ready {v : BitVec 128} {s : State} {k : Nat} (hr : readyCtx (toBoundary s) = some k) :
    runWord v s = (readWord v (resolve (begun s) k (wordOf v)) (begun s)).elim (.next (badWord v s)) (exec · s) := by
  unfold runWord
  rw [hr]
  unfold begun
  dsimp only
  generalize readWord v _ _ = o
  cases o <;> rfl

/-- The word that spells no command costs 1 QCLK and ends with ST_RESERVED (R336). -/
theorem badWord_runs {v : BitVec 128} {s : State} {k : Nat} (hr : readyCtx (toBoundary s) = some k) :
    badWord v s = finish k (some stReserved) (local_ 1 s) := by
  unfold badWord runLoc
  rw [hr]
  dsimp only
  exact if_pos (by decide)

/-- Settles O54. -/
theorem checksComeFirst : Obligations.ChecksComeFirst := by
  unfold Obligations.ChecksComeFirst
  refine ⟨fun l hl => ?_, fun l m n hl => ?_, fun c w s k st hr hst h => ?_, fun c w s k hr hf hm => ?_,
    fun c w s k st hr hf ho hv hh hh' hb hc hst h => ?_, fun v s k i hr hi => ?_, fun v s k hr hi => ?_⟩
  · exact fieldFail_order hl
  · exact firstFail_pass hl
  · exact runCmd_fieldFail hr hst.symm h
  · refine runCmd_fieldFail hr ?_ (by decide)
    have hk : (resolve (issued s) k w).k = k := rfl
    simp [cmdFieldStatus, hf, hm, hk]
  · subst hst
    rw [runCmd_launch hr hf ho hh' hv]
    unfold deliver
    rw [if_pos (by simpa using hc), applyCmd_ownFail hh hb h]
    rfl
  · rw [runWord_ready hr, hi, Option.elim_some]
  · rw [runWord_ready hr, hi, Option.elim_none, badWord_runs hr]

end Sys2Proof.Machine
end

section
/-! SUPPORT. Counters, local memory, the rows of the slots, and TCLK edges. -/

namespace Sys2Proof.Machine

/-- The places of two counters whose numbers are in range differ (R346). -/
theorem cntKey_inj {a b c x y z : Nat} (hb : b < 2 ^ 28) (hc : c < 2 ^ 12) (hy : y < 2 ^ 28) (hz : z < 2 ^ 12)
    (h : cntKey x y z = cntKey a b c) : (x, y, z) = (a, b, c) := by
  simp only [cntKey] at h
  obtain rfl : x = a := by omega
  obtain rfl : y = b := by omega
  obtain rfl : z = c := by omega
  rfl

/-- Settles O57. -/
theorem countersSaturate : Obligations.CountersSaturate := by
  unfold Obligations.CountersSaturate
  intro s a b c w n h
  refine ⟨?_, fun x y z hy hz hb hc hne => ?_⟩ <;> rw [bump, getCnt_setCnt h]
  · exact if_pos rfl
  · exact if_neg fun he => hne (cntKey_inj hb hc hy hz he)

/-- The octets written are read back. -/
theorem readMem_writeMem {s : State} (h : Memory.wf s.seq.mem = true) (a : Nat) (l : Bytes) :
    readMem (writeMem s a l) a l.length = l := by
  refine List.ext_getElem (by simp [readMem]) fun i h1 h2 => ?_
  simp only [readMem, writeMem, List.getElem_map, List.getElem_range, tabGet_memWrite h]
  rw [if_pos (by omega), Nat.add_sub_cancel_left, List.getD_eq_getElem _ _ h2]

/-- An octet outside what is written reads as before. -/
theorem readMem_writeMem_outside {s : State} (h : Memory.wf s.seq.mem = true) {a x : Nat} {l : Bytes}
    (hx : x < a ∨ a + l.length ≤ x) : readMem (writeMem s a l) x 1 = readMem s x 1 := by
  simp only [readMem, writeMem, List.range_one, List.map_cons, List.map_nil, Nat.add_zero, tabGet_memWrite h]
  rw [if_neg (by omega)]

/-- Settles O58. -/
theorem memoryReadsBack : Obligations.MemoryReadsBack := by
  unfold Obligations.MemoryReadsBack
  exact fun s a l h => ⟨readMem_writeMem h a l, memWrite_wf h, fun x hx => readMem_writeMem_outside h hx⟩

/-- A round of π can be undone: its two outputs give back its two inputs (R358). -/
theorem feistel_injective (key n : Nat) : Function.Injective (feistel key n) := by
  induction n with
  | zero => exact Function.injective_id
  | succ n ih =>
    rintro ⟨l, r⟩ ⟨l', r'⟩ h
    obtain ⟨hr, hl⟩ := Prod.mk.inj (ih h)
    subst hr
    exact congrArg (·, r) ((BitVec.xor_left_inj _).mp hl)

/-- Two rows with the same number have the same halves. -/
theorem halves_inj {h h' : BitVec 4 × BitVec 4} (he : h.1 ++ h.2 = h'.1 ++ h'.2) : h = h' := by
  have hl := congrArg (BitVec.extractLsb' 4 4) he
  have hr := congrArg (BitVec.extractLsb' 0 4) he
  rw [BitVec.extractLsb'_append_eq_left, BitVec.extractLsb'_append_eq_left] at hl
  rw [BitVec.extractLsb'_append_eq_right, BitVec.extractLsb'_append_eq_right] at hr
  exact Prod.ext hl hr

/-- Settles O15: π is the split into halves, four rounds that can be undone, and the halves put together. -/
theorem rowsArePermuted : Obligations.RowsArePermuted := by
  unfold Obligations.RowsArePermuted
  intro key i j h
  obtain ⟨hl, hr⟩ := Prod.mk.inj (feistel_injective key 4 (halves_inj h))
  calc i = i.extractLsb' 4 4 ++ i.extractLsb' 0 4 := (BitVec.extractLsb'_append_extractLsb' (w := 4) (len := 4)).symm
    _ = j.extractLsb' 4 4 ++ j.extractLsb' 0 4 := by rw [hl, hr]
    _ = j := BitVec.extractLsb'_append_extractLsb' (w := 4) (len := 4)

end Sys2Proof.Machine
end

section
/-! SUPPORT. TCLK edges add up (R273 to R275). -/

namespace Sys2Proof.Machine

/-- Adding to a time that has wrapped wraps to the same time. -/
theorem wrap_add (x y : Nat) : (x % todWrap + y) % todWrap = (x + y) % todWrap := Nat.mod_add_mod ..

/-- A sum carries out of SEC where its first part does or what is left of it does with the second. -/
theorem wrap_carry (x y : Nat) : (todWrap ≤ x ∨ todWrap ≤ x % todWrap + y) ↔ todWrap ≤ x + y := by
  rcases Nat.lt_or_ge x todWrap with h | h
  · rw [Nat.mod_eq_of_lt h]; omega
  · omega

/-- How far `n` TCLK edges move network time: the temporary increment applies to the edges it has left, the permanent one to
the rest. -/
def ticksBy (n : Nat) (c : Clk) : Nat :=
  match c.temp with
  | some (i, left) => min n left * i + (n - min n left) * c.incr
  | none => n * c.incr

/-- The temporary increment after `n` TCLK edges. -/
def tempAfter (n : Nat) : Option (Nat × Nat) → Option (Nat × Nat)
  | some (i, left) => if left ≤ n then none else some (i, left - n)
  | none => none

theorem ticks_eq (n : Nat) (c : Clk) : ticks n c =
    { c with tod := (c.tod + ticksBy n c) % todWrap, wrapped := c.wrapped || decide (todWrap ≤ c.tod + ticksBy n c)
             temp := tempAfter n c.temp } := by
  rcases ht : c.temp with _ | ⟨i, left⟩
  · have hsum : c.tod + 0 * 0 + (n - 0) * c.incr = c.tod + ticksBy n c := by simp [ticksBy, ht]
    simp only [ticks, ht, hsum]
    rfl
  · have hsum : c.tod + min n left * i + (n - min n left) * c.incr = c.tod + ticksBy n c := by
      simp [ticksBy, ht, Nat.add_assoc]
    simp only [ticks, ht, hsum]
    rfl

theorem tempAfter_add (m n : Nat) (o : Option (Nat × Nat)) : tempAfter n (tempAfter m o) = tempAfter (m + n) o := by
  rcases o with _ | ⟨i, left⟩
  · rfl
  · unfold tempAfter
    grind

theorem ticksBy_add (m n : Nat) (c : Clk) : ticksBy m c + ticksBy n (ticks m c) = ticksBy (m + n) c := by
  rw [ticks_eq]
  rcases ht : c.temp with _ | ⟨i, left⟩
  · simp only [ticksBy, ht, tempAfter, Nat.add_mul]
  · rcases le_or_gt left m with h | h
    · have hm : min m left = left := by omega
      have hmn : min (m + n) left = left := by omega
      simp only [ticksBy, ht, tempAfter, if_pos h]
      rw [hm, hmn, Nat.add_assoc, ← Nat.add_mul]
      congr 2
      omega
    · have hm : min m left = m := by omega
      have hmn : min (m + n) left = m + min n (left - m) := by omega
      simp only [ticksBy, ht, tempAfter, if_neg (Nat.not_le.mpr h)]
      rw [hm, hmn, Nat.sub_self, Nat.zero_mul, Nat.add_zero, ← Nat.add_assoc, ← Nat.add_mul]
      congr 2
      omega

theorem ticks_ticks (m n : Nat) (c : Clk) : ticks n (ticks m c) = ticks (m + n) c := by
  have hby := ticksBy_add m n c
  rw [ticks_eq n (ticks m c), ticks_eq (m + n) c, ← hby]
  generalize ticksBy n (ticks m c) = y
  rw [ticks_eq m c]
  simp only [tempAfter_add, wrap_add, ← Nat.add_assoc, Bool.or_assoc, ← Bool.decide_or, wrap_carry]

/-- Only the root cycle of the clocks is not counted by TCLK edges. -/
theorem ticks_root (n t : Nat) (c : Clk) : ticks n { c with root := t } = { ticks n c with root := t } := rfl

theorem clkTo_clkTo {t u : Nat} (c : Clk) (h : t ≤ u) : clkTo u (clkTo t c) = clkTo u c := by
  by_cases ht : t ≤ c.root
  · rw [clkTo, clkTo, if_pos ht, clkTo]
  · have hd : t / 10 - c.root / 10 + (u / 10 - t / 10) = u / 10 - c.root / 10 := by omega
    rw [clkTo, clkTo, if_neg ht, clkTo, if_neg (by omega : ¬u ≤ c.root)]
    dsimp only
    split
    · next hu =>
      obtain rfl : u = t := by omega
      rfl
    · rw [ticks_root, ticks_ticks, hd]

/-- Settles O59. -/
theorem timeAddsUp : Obligations.TimeAddsUp := by
  unfold Obligations.TimeAddsUp
  refine ⟨fun m n c _ => ticks_ticks m n c, fun t u c _ => clkTo_clkTo c, fun c h => ?_, fun c i h => ?_, fun c i n h => ?_⟩
  · rw [ticks_eq]
    simp [ticksBy, h]
  · rw [ticks_eq]
    simp [ticksBy, h, tempAfter]
  · rw [ticks_eq]
    simp [ticksBy, h, tempAfter]

end Sys2Proof.Machine
end
section
/-! SUPPORT. A status in its context, and a command applied once. -/

namespace Sys2Proof.Machine

/-- An instruction that ends no program, in a program that is not to be cut, only steps over. -/
theorem finish_stepOver {k st : Nat} {s : State} (hl : atLast s k = false) (he : stopsOnErr s k = false)
    (hc : ∀ p, (getQueue s (ctxNum k)).prog = some p → p.cut = none) :
    finish k (some st) s = stepOver k (some st) s := by
  have hend : endOf k (some st) s = none := by simp [endOf, hl, he]
  have hq : getQueue (stepOver k (some st) s) (ctxNum k) = getQueue s (ctxNum k) := rfl
  unfold finish
  rw [hend]
  dsimp only
  unfold cutAtBoundary
  rw [hq]
  cases hp : (getQueue s (ctxNum k)).prog with
  | none => rfl
  | some p => simp [hc p hp]

/-- Settles O56. -/
theorem statusReported : Obligations.StatusReported := by
  unfold Obligations.StatusReported
  refine ⟨fun st c => ⟨rfl, by simp [reportStatus, statusSetsE], rfl, rfl⟩, ?_⟩
  rintro k st s c hw hl he hc rfl
  rw [finish_stepOver hl he hc]
  unfold stepOver
  exact ⟨by rw [getCtx_setCtx hw, if_pos rfl]; rfl, fun j hj => by rw [getCtx_setCtx hw, if_neg hj]⟩

/-- Settles O55. -/
theorem commandsOnce : Obligations.CommandsOnce := by
  unfold Obligations.CommandsOnce
  refine ⟨fun c e s k hq hk hd => ?_, fun c e s k hq hk hd => ?_, fun c e s hq hk => ?_, fun c w s k hr hf ho => ?_⟩
  · unfold deliver
    rw [if_neg (Nat.not_lt.mpr hq), hk]
    dsimp only
    rw [if_pos hd]
    exact ⟨rfl, _, rfl⟩
  · unfold deliver
    rw [if_neg (Nat.not_lt.mpr hq), hk]
    dsimp only
    rw [if_neg hd]
  · unfold deliver
    rw [if_neg (Nat.not_lt.mpr hq), hk]
  · unfold runCmd
    rw [hr]
    show runCmdIn c w k (issued s) = _
    unfold runCmdIn
    dsimp only
    rw [if_neg (by simp [hf]), if_pos ho]

theorem nb_zero (i : Nat) : nb 0 i = false := by simp [nb]

/-- Settles O50. -/
theorem resetLeaves : Obligations.ResetLeaves := by
  unfold Obligations.ResetLeaves
  refine ⟨rfl, rfl, rfl, fun p => ⟨rfl, rfl⟩, fun i j k => rfl, fun c => ?_, fun k => rfl, ?_, rfl, rfl, rfl, rfl, rfl, rfl, rfl,
    rfl, rfl, fun i j => rfl, fun a n => ?_, rfl⟩
  · exact nb_zero 447
  · exact if_pos (.inl rfl)
  · have hz : readMem State.reset a n = (List.range n).map (fun _ => (0 : Byte)) := rfl
    rw [hz, List.map_const', List.length_range]

end Sys2Proof.Machine
end

section
/-! SUPPORT. A command instruction that runs and a hardware event whose condition holds, as `exec` answers them; the field
checks of lists put together; and a legal state at the begin of an instruction. -/

namespace Sys2Proof.Machine

theorem fieldFail_append (l m : List Check) : fieldFail (l ++ m) = max (fieldFail l) (fieldFail m) := by
  induction l with
  | nil => exact (Nat.zero_max _).symm
  | cons p l ih =>
    obtain ⟨_ | _, n⟩ := p
    · exact ih
    · rw [List.cons_append, fieldFail, fieldFail, ih, Nat.max_assoc]

theorem fieldFail_append_eq_zero {l m : List Check} : fieldFail (l ++ m) = 0 ↔ fieldFail l = 0 ∧ fieldFail m = 0 := by
  rw [fieldFail_append]; omega

/-- Checks that hold give ST_OK. -/
theorem fieldFail_cons_eq_zero {b : Bool} {n : Nat} {l : List Check} (hn : n ≠ 0) :
    fieldFail ((b, n) :: l) = 0 ↔ b = false ∧ fieldFail l = 0 := by
  cases b
  · simp [fieldFail]
  · have h := Nat.le_max_left n (fieldFail l)
    simp only [fieldFail, reduceCtorEq, false_and, iff_false]
    omega

@[simp] theorem fieldFail_nil : fieldFail [] = 0 := rfl
@[simp] theorem fieldFail_range {b : Bool} {l : List Check} :
    fieldFail ((b, stRange) :: l) = 0 ↔ b = false ∧ fieldFail l = 0 := fieldFail_cons_eq_zero (by decide)
@[simp] theorem fieldFail_length {b : Bool} {l : List Check} :
    fieldFail ((b, stLength) :: l) = 0 ↔ b = false ∧ fieldFail l = 0 := fieldFail_cons_eq_zero (by decide)
@[simp] theorem fieldFail_align {b : Bool} {l : List Check} :
    fieldFail ((b, stAlign) :: l) = 0 ↔ b = false ∧ fieldFail l = 0 := fieldFail_cons_eq_zero (by decide)
@[simp] theorem fieldFail_reserved {b : Bool} {l : List Check} :
    fieldFail ((b, stReserved) :: l) = 0 ↔ b = false ∧ fieldFail l = 0 := fieldFail_cons_eq_zero (by decide)

/-- What a command instruction answers that reaches its effect `r`. -/
theorem exec_cmd {c : Cmd} {w : IWord} {s a : State} {k : Nat} {e : Env} {r : Res} (h : runs c w s k = true)
    (he : e = envAt w s k) (ha : a = atBlock s k) (hr : c.eff e a = r) :
    (.next (runCmd c w s) : Host.Outcome State Fault Refusal) = .next (answered c w s k r) := by
  subst he ha hr
  exact congrArg _ (runCmd_runs h)

/-- The same where the statement speaks of the state `a` that the effect makes of the block's state first. -/
theorem exec_cmd_on {c : Cmd} {w : IWord} {s a : State} {k : Nat} {e : Env} {r : Res} {f : State → State}
    (h : runs c w s k = true) (he : e = envAt w s k) (ha : a = f (atBlock s k)) (hr : ∀ b, a = f b → c.eff e b = r) :
    (.next (runCmd c w s) : Host.Outcome State Fault Refusal) = .next (answered c w s k r) :=
  exec_cmd h he rfl (hr _ ha)

/-- What a hardware event answers whose condition holds, with effect `u`. -/
theorem exec_event {t : Nat} {g : State → Bool} {f : State → State} {s a u : State} (ha : a = comeTo t s) (hg : g a = true)
    (hf : f a = u) : (.next (event t g f s) : Host.Outcome State Fault Refusal) = .next u :=
  congrArg _ ((event_of ha hg).trans hf)

/-- What a flow or data instruction answers that reaches its effect `u`. -/
theorem exec_loc {c : Loc} {w : IWord} {s a u : State} {k g n : Nat} {e : Env} (h : mayRun g s k = true)
    (hg : groupOf c.op = g) (ha : a = local_ n s) (he : e = resolve (begun s) k w) (hn : c.cost e (begun s) = n)
    (hf : fieldFail (c.fmt w e a) = 0) (ho : firstFail (c.own e a) = 0) (hu : c.eff e a = u) :
    (.next (runLoc c w s) : Host.Outcome State Fault Refusal) = .next u := by
  subst ha
  exact congrArg _ ((runLoc_ok n h hg he hn hf ho).trans hu)

theorem keeps_local (n : Nat) (s : State) : Keeps s (local_ n s) :=
  keeps_issue _ _ (keeps_boundary _ (keeps_toBoundary _ (Keeps.refl s)))

/-- The contexts of a legal state are in canonical form. -/
theorem Legal.ctxs {s : State} (h : Legal s) : tabWf {} s.seq.ctxs = true := by
  obtain ⟨-, ⟨-, -, hc, -⟩, -⟩ := h
  exact hc

end Sys2Proof.Machine
end

section
/-! SUPPORT. The flow group and the data group: each instruction whose checks pass takes its effect. -/

namespace Sys2Proof.Machine

/-- Whether BR.cc is taken is what its condition code says of the flags of its context (R342). -/
theorem brTaken_resolve {w : IWord} {s a : State} {k : Nat} {b : Bool} (hcc : w.a.toNat < 8)
    (hb : branchTaken w.a.toNat (getCtx a k).z (getCtx a k).c (getCtx a k).e = some b) :
    brTaken (resolve s k w) a = b := by
  have hm : w.a.toNat % 16 = w.a.toNat := Nat.mod_eq_of_lt (by omega)
  simp [brTaken, resolve, hm, hb]

/-- The expiry of a WAIT.EV timeout that fits its field. -/
theorem evExpiry_of_lt {e : Env} {s : State} (h : e.imm < 2 ^ 32) :
    evExpiry e s = if e.imm = 0 then none else some (s.clk.root + e.imm * 10000) := by
  rw [evExpiry, Nat.mod_eq_of_lt h]

/-- A pointer that passes fails none of its checks (R312, R337). -/
theorem ptrChecks_pass {k : Nat} {write : Bool} {align a len : Nat} (h : ptrOk k write align a len = true) :
    fieldFail (ptrChecks k write align a len) = 0 := by
  simp only [ptrOk, Bool.and_eq_true, decide_eq_true_eq] at h
  obtain ⟨ha, ho⟩ := h
  have hs : (dataArea k write a).isNone = false := by
    cases hd : dataArea k write a with
    | none => simp [areaOk, hd] at ho
    | some p => rfl
  simp [ptrChecks, ha, ho, hs]

/-- Settles O1, instruction by instruction. -/
theorem sequencerFlow : Obligations.SequencerFlow := by
  unfold Obligations.SequencerFlow
  refine ⟨fun w s k h hf => ?_, fun w s k h hf => ?_, fun w s k a e tgt h ha he ht hf => ?_,
    fun w s k a e tgt h ha he hcc ht hf hb => ?_, fun w s k a e h ha he hcc hf hb => ?_,
    fun w s k a e tgt hs h ha he ht hf => ?_, fun w s k a tgt h ha ht hf => ?_, fun w s k a h ha hf => ?_,
    fun w s k a e h ha he hf hx hb hi => ?_, fun w s k a e q h ha he hf hx hea heb hi hq => ?_,
    fun w s k a e h ha he hf hx hea heb hi hq => ?_, fun w s k a e h ha he hf hx hea heb h0 hi => ?_,
    fun w s k a e tm h ha he hf hx hea heb hp htm ht => ?_, fun w s k a h ha hf => ?_⟩
  · exact exec_loc h rfl rfl rfl rfl hf rfl rfl
  · exact exec_loc h rfl rfl rfl rfl hf rfl rfl
  · subst ht
    exact exec_loc h rfl ha he rfl (by subst he; exact hf) rfl (by subst he; rfl)
  · subst ht he
    have hbr : brTaken (resolve (begun s) k w) a = true := brTaken_resolve hcc hb
    have hbr' : brTaken (resolve (begun s) k w) (begun s) = true := brTaken_resolve hcc (by rw [← getCtx_local 3, ← ha]; exact hb)
    refine exec_loc h rfl ha rfl (if_pos hbr') ?_ rfl (if_pos hbr)
    simp only [fieldFail_append_eq_zero, zeroB, fieldFail_reserved] at hf ⊢
    exact ⟨⟨hf.1.1, decide_eq_false (Nat.not_le.mpr hcc), hf.1.2⟩, hf.2⟩
  · subst he
    have hbr : brTaken (resolve (begun s) k w) a = false := brTaken_resolve hcc hb
    have hbr' : brTaken (resolve (begun s) k w) (begun s) = false := brTaken_resolve hcc (by rw [← getCtx_local 1, ← ha]; exact hb)
    refine exec_loc h rfl ha rfl (if_neg (by simp [hbr'])) ?_ rfl (if_neg (by simp [hbr]))
    simp only [fieldFail_append_eq_zero, zeroB, fieldFail_reserved] at hf ⊢
    exact ⟨⟨hf.1.1, decide_eq_false (Nat.not_le.mpr hcc), hf.1.2⟩, hf.2⟩
  · subst ht he
    have hw : tabWf {} a.seq.ctxs = true := by rw [ha]; exact ((keeps_local 3 s).legal hs).ctxs
    refine exec_loc h rfl ha rfl rfl hf rfl ?_
    dsimp only
    rw [jumpTo, getCtx_setCtx hw, if_pos rfl, setCtx_setCtx hw]
    rfl
  · subst ht
    exact exec_loc h rfl ha rfl rfl (by exact hf) rfl rfl
  · exact exec_loc h rfl ha rfl rfl hf rfl rfl
  · have hk : e.k = k := by rw [he]; rfl
    refine exec_loc h rfl ha he rfl ?_ rfl ?_
    · simp [fieldFail_append_eq_zero, hf, highI, hx]
      omega
    · simp only [hx, hk, evExpiry_of_lt hi, Nat.mod_eq_of_lt hb, Nat.zero_mod, if_true]
  · have hk : e.k = k := by rw [he]; rfl
    refine exec_loc h rfl ha he rfl ?_ rfl ?_
    · simp [fieldFail_append_eq_zero, hf, highI, hx, hea, heb]
      omega
    · simp only [hx, hk, evExpiry_of_lt hi, hq, Nat.mod_succ, Nat.one_ne_zero, if_false]
      rfl
  · have hk : e.k = k := by rw [he]; rfl
    refine exec_loc h rfl ha he rfl ?_ rfl ?_
    · simp [fieldFail_append_eq_zero, hf, highI, hx, hea, heb]
      omega
    · simp only [hx, hk, hq, Nat.mod_succ, Nat.one_ne_zero, if_false]
      rfl
  · have hk : e.k = k := by rw [he]; rfl
    refine exec_loc h rfl ha he rfl ?_ rfl ?_
    · simp [fieldFail_append_eq_zero, hf, highI, zeroA, zeroB, hx, hea, heb]
      omega
    · simp only [hx, hk, Nat.zero_mod, if_true]
  · have hk : e.k = k := by rw [he]; rfl
    subst htm
    refine exec_loc h rfl ha he rfl ?_ rfl ?_
    · simp [fieldFail_append_eq_zero, hf, zeroA, zeroB, hx, hea, heb, hk, hp, ht, ptrChecks_pass]
    · simp only [hx, hk, Nat.mod_succ, Nat.one_ne_zero, if_false, timeReached, decide_eq_true_eq]
  · exact exec_loc h rfl ha rfl rfl hf rfl rfl

end Sys2Proof.Machine
end

section
/-! SUPPORT. Commands that stand behind the traffic of their edge (R126), commands that read the row of a slot (R360, R367), and
events that meet frames. -/

namespace Sys2Proof.Machine

/-- What a command answers that stands behind the traffic of its edge. -/
theorem exec_after {c : Cmd} {w : IWord} {s a : State} {k : Nat} {e : Env} {r : Res}
    (h : runs (afterTraffic c) w s k = true) (he : e = envAt w s k) (ha : a = trafficFirst (opChan e) (atBlock s k))
    (hr : c.eff e a = r) :
    (.next (runCmd (afterTraffic c) w s) : Host.Outcome State Fault Refusal) = .next (answered (afterTraffic c) w s k r) := by
  refine exec_cmd_on h he ha fun b hb => ?_
  rw [← hr, hb]
  rfl

/-- A command that runs meets no burst (R32). -/
theorem burst_of_runs {c : Cmd} {w : IWord} {s : State} {k : Nat} {e : Env} (h : runs c w s k = true) (he : e = envAt w s k) :
    e.burst = 0 := by
  subst he
  simp only [runs, Bool.and_eq_true, decide_eq_true_eq] at h
  exact h.2

/-- The effect of a command that reads the row of slot `i` and meets no burst. -/
theorem readingSlot_eff {slot : Env → State → Option Nat} {lost : Env → State → State} {c : Cmd} {e : Env} {s : State} {i : Nat}
    (hb : e.burst = 0) (hi : slot e s = some i) : (readingSlot slot lost c).eff e s = c.eff e (committedFor i s) := by
  simp only [readingSlot, hi, hb, if_true]

/-- The effect of such a command where it names no slot. -/
theorem readingSlot_eff_none {slot : Env → State → Option Nat} {lost : Env → State → State} {c : Cmd} {e : Env} {s : State}
    (hb : e.burst = 0) (hi : slot e s = none) : (readingSlot slot lost c).eff e s = c.eff e s := by
  simp only [readingSlot, hi, hb, if_true]

/-- What a command answers that reads the row of slot `i`. -/
theorem exec_reading {slot : Env → State → Option Nat} {lost : Env → State → State} {c : Cmd} {w : IWord} {s a : State}
    {k i : Nat} {e : Env} {r : Res} (h : runs (readingSlot slot lost c) w s k = true) (he : e = envAt w s k)
    (hi : slot e (atBlock s k) = some i) (ha : a = committedFor i (atBlock s k)) (hr : c.eff e a = r) :
    (.next (runCmd (readingSlot slot lost c) w s) : Host.Outcome State Fault Refusal) =
      .next (answered (readingSlot slot lost c) w s k r) := by
  refine exec_cmd h he rfl ?_
  rw [readingSlot_eff (burst_of_runs h he) hi, ← ha, hr]

/-- What an event answers that meets frames or charges, and whose condition holds. -/
theorem exec_frameEvent {t : Nat} {g : State → Bool} {f : State → State} {s a u : State} (ha : a = settle (comeTo t s))
    (hg : g a = true) (hf : f a = u) : (.next (frameEvent t g f s) : Host.Outcome State Fault Refusal) = .next u := by
  unfold frameEvent
  rw [← ha]
  exact congrArg _ ((if_pos hg).trans hf)

end Sys2Proof.Machine
end

section
/-! SUPPORT. The data group: each instruction whose checks pass writes its result and flags. -/

namespace Sys2Proof.Machine

/-- The shared checks of the data group exclude the substitution of IMM or B by a register (R335). -/
theorem src_of_dataChecks {w : IWord} {e : Env} (h : fieldFail (dataChecks w e) = 0) : w.src = 0 := by
  simp only [dataChecks, fieldFail_reserved, decide_eq_false_iff_not, not_or, not_not] at h
  exact h.1.1

/-- Without substitution IMM is the one of the word (R335). -/
theorem resolve_imm {w : IWord} {s : State} {k : Nat} (h : w.src = 0) : (resolve s k w).imm = w.imm.toNat := by
  simp [resolve, h]

theorem dataChecks_of_op2 {w : IWord} {e : Env} {s : State} (h : fieldFail (op2Checks w e s) = 0) :
    fieldFail (dataChecks w e) = 0 := (fieldFail_append_eq_zero.mp h).1

/-- Two words of X with the same number are the same. -/
theorem x_eq_one {w : IWord} {s : State} {k : Nat} : (resolve s k w).x = 1 ↔ w.x = 1 := by
  simp [resolve, BitVec.toNat_eq]

/-- The second operand of an instruction with op2. -/
theorem op2Of_resolve {w : IWord} {s a : State} {k : Nat} (h : fieldFail (dataChecks w (resolve s k w)) = 0) :
    op2Of (resolve s k w) a = if w.x = 1 then w.imm else readReg (getCtx a k) (opRt (resolve s k w)) := by
  have hi := resolve_imm (s := s) (k := k) (src_of_dataChecks h)
  simp only [op2Of, x_eq_one, hi, BitVec.ofNat_toNat, BitVec.setWidth_eq]
  rfl

/-- An instruction with op2 whose checks pass writes the result of its operation and its flags. -/
theorem runAlu_ok {op : Nat} {f : Word64 → Word64 → Alu} {w : IWord} {s a : State} {k : Nat} {e : Env} {x y v : Word64} {z b : Bool}
    (hop : groupOf op = 1) (h : mayRun 1 s k = true) (ha : a = local_ 1 s) (he : e = resolve (begun s) k w)
    (hf : fieldFail (op2Checks w e s) = 0) (hx : x = readReg (getCtx a k) (opRs e))
    (hy : y = if w.x = 1 then w.imm else readReg (getCtx a k) (opRt e)) (hr : f x y = ⟨v, z, b⟩) :
    runAlu op f w s =
      .next (finish k none (setCtx a k { writeReg (getCtx a k) (opRd e) v with z := z, c := b })) := by
  subst he
  rw [← op2Of_resolve (dataChecks_of_op2 hf)] at hy
  subst hx hy
  refine exec_loc h hop ha rfl rfl hf rfl ?_
  exact (congrArg (aluWrite · (resolve (begun s) k w) a) hr).trans rfl

theorem aluAdd_eq (x y : Word64) : aluAdd x y = ⟨x + y, decide (x + y = 0), decide (2 ^ 64 ≤ x.toNat + y.toNat)⟩ := by
  simp only [aluAdd, beq_eq_decide]

theorem aluSub_eq (x y : Word64) : aluSub x y = ⟨x - y, decide (x = y), decide (x.toNat < y.toNat)⟩ := by
  simp only [aluSub, beq_eq_decide, sub_eq_zero]

theorem aluLogic_eq (r : Word64) : aluLogic r = ⟨r, decide (r = 0), false⟩ := by
  simp only [aluLogic, beq_eq_decide]

theorem aluXor_eq (x y : Word64) : aluLogic (x ^^^ y) = ⟨x ^^^ y, decide (x = y), false⟩ := by
  have hz : x ^^^ y = 0 ↔ x = y := BitVec.xor_eq_zero_iff
  simp only [aluLogic, beq_eq_decide, hz]

theorem aluShl_eq (x y : Word64) : aluShl x y = ⟨x <<< (y.toNat % 64), decide (x <<< (y.toNat % 64) = 0),
    if y.toNat % 64 = 0 then false else x.getLsbD (64 - y.toNat % 64)⟩ := by
  simp only [aluShl, beq_eq_decide]
  split <;> simp [*]

theorem aluShr_eq (x y : Word64) : aluShr x y = ⟨x >>> (y.toNat % 64), decide (x >>> (y.toNat % 64) = 0),
    if y.toNat % 64 = 0 then false else x.getLsbD (y.toNat % 64 - 1)⟩ := by
  simp only [aluShr, beq_eq_decide]
  split <;> simp [*]

theorem accessWidth_resolve {w : IWord} {s : State} {k : Nat} {e : Env} (he : e = resolve s k w) :
    accessWidth e.x = 2 ^ (3 - w.x.toNat) := by
  subst he
  have hx : w.x.toNat % 4 = w.x.toNat := Nat.mod_eq_of_lt w.x.isLt
  show 2 ^ (3 - w.x.toNat % 4) = _
  rw [hx]

theorem accessAddr_resolve {w : IWord} {s a : State} {k : Nat} {e : Env} (he : e = resolve s k w)
    (hf : fieldFail (dataChecks w e) = 0) :
    accessAddr e a = ((readReg (getCtx a k) (opRs e)).toNat + w.imm.toNat) % 2 ^ 64 := by
  subst he
  rw [accessAddr, resolve_imm (src_of_dataChecks hf)]
  rfl

/-- Settles O2, instruction by instruction. -/
theorem dataInstructions : Obligations.DataInstructions := by
  unfold Obligations.DataInstructions
  refine ⟨fun w s k a e h ha he hf hx hs ht => ?_, fun w s k a e h ha he hf hx ht hi => ?_,
    fun w s k a e h ha he hf hx hs ht hi => ?_, fun w s k a e x y h ha he hf hx hy => ?_,
    fun w s k a e x n h ha he hf hx hn => ?_, fun w s k a e x y h ha he hf hd hx hy => ?_,
    fun w s k a e n ad h ha he hf ht hn had hal hok => ?_, fun w s k a e n ad h ha he hf hd hn had hal hok => ?_⟩
  · have hi : e.imm = w.imm.toNat := by rw [he]; exact resolve_imm (src_of_dataChecks hf)
    have hk : e.k = k := by rw [he]; rfl
    have hxe : e.x = 0 := by rw [he]; simp [resolve, hx]
    refine exec_loc h rfl ha he rfl ?_ rfl ?_
    · simp [fieldFail_append_eq_zero, hf, hxe, hs, ht]
    · simp only [hk, hi, BitVec.ofNat_toNat, BitVec.setWidth_eq]
  · have hi : e.imm = 0 := by rw [he, resolve_imm (src_of_dataChecks hf), hi]; rfl
    have hk : e.k = k := by rw [he]; rfl
    have hxe : e.x = 0 := by rw [he]; simp [resolve, hx]
    refine exec_loc h rfl ha he rfl ?_ rfl ?_
    · simp [fieldFail_append_eq_zero, hf, hxe, hi, ht]
    · simp only [hk, hxe, Nat.zero_ne_one, if_false]
  · have hi : e.imm = 0 := by rw [he, resolve_imm (src_of_dataChecks hf), hi]; rfl
    have hk : e.k = k := by rw [he]; rfl
    have hxe : e.x = 1 := by rw [he]; exact x_eq_one.mpr hx
    refine exec_loc h rfl ha he rfl ?_ rfl ?_
    · simp [fieldFail_append_eq_zero, hf, hxe, hi, ht, hs]
    · simp only [hk, hxe, if_true]
  · have hand := aluLogic_eq (x &&& y)
    have hor := aluLogic_eq (x ||| y)
    exact ⟨runAlu_ok rfl h ha he hf hx hy (aluAdd_eq x y), runAlu_ok rfl h ha he hf hx hy (aluSub_eq x y),
      runAlu_ok (f := fun a b => aluLogic (a &&& b)) rfl h ha he hf hx hy hand,
      runAlu_ok (f := fun a b => aluLogic (a ||| b)) rfl h ha he hf hx hy hor,
      runAlu_ok (f := fun a b => aluLogic (a ^^^ b)) rfl h ha he hf hx hy (aluXor_eq x y)⟩
  · generalize hy : (if w.x = 1 then w.imm else readReg (getCtx a k) (opRt e)) = y at hn
    subst hn
    exact ⟨runAlu_ok rfl h ha he hf hx hy.symm (aluShl_eq x y), runAlu_ok rfl h ha he hf hx hy.symm (aluShr_eq x y)⟩
  · have hk : e.k = k := by rw [he]; rfl
    have hy' : op2Of e a = y := by rw [hy, he]; exact op2Of_resolve (by rw [← he]; exact dataChecks_of_op2 hf)
    have hx' : op1Of e a = x := by rw [hx, he]; rfl
    refine exec_loc h rfl ha he rfl ?_ rfl ?_
    · simp [fieldFail_append_eq_zero, hd]
      exact hf
    · simp only [hk, hx', hy', aluSub_eq]
  · have hk : e.k = k := by rw [he]; rfl
    have hwd : accessWidth e.x = n := by rw [hn, accessWidth_resolve he]
    have had' : accessAddr e a = ad := by rw [had, accessAddr_resolve he hf]
    refine exec_loc h rfl ha he rfl ?_ rfl ?_
    · simp [fieldFail_append_eq_zero, hf, ht, accessChecks, hwd, had', hk, hal, hok]
    · simp only [hk, hwd, had']
  · have hk : e.k = k := by rw [he]; rfl
    have hwd : accessWidth e.x = n := by rw [hn, accessWidth_resolve he]
    have had' : accessAddr e a = ad := by rw [had, accessAddr_resolve he hf]
    refine exec_loc h rfl ha he rfl ?_ rfl ?_
    · simp [fieldFail_append_eq_zero, hf, hd, accessChecks, hwd, had', hk, hal, hok]
    · simp only [hk, hwd, had']

end Sys2Proof.Machine
end

section
/-! SUPPORT. The lane commands and events (R66 to R79). -/

namespace Sys2Proof.Machine

/-- Settles O3, clause by clause. -/
theorem lanes : Obligations.Lanes := by
  unfold Obligations.Lanes
  refine ⟨fun w s k e a h he ha => ?_, fun w s k e a b h he ha hb h1 => ?_, fun w s k e a b h he ha hb h1 h2 h3 => ?_,
    fun t x s a b ha h1 hb h2 => ?_, fun t l before window behind s a b ha h1 hb h2 => ?_, fun t l s a ha h1 h2 => ?_,
    fun l n s h1 h2 => ?_, fun w s k h => ?_, fun w s k a h ha => ?_, fun w s k e a g h he ha hg => ?_,
    fun t g s a x l ha h1 h2 => ?_, fun t g m s a l q ha h1 => ?_, fun t x s a y l ha hy h1 h2 h3 => ?_,
    fun t l before after s a ha h1 => ?_⟩
  · exact exec_cmd h he ha rfl
  · subst hb
    refine exec_cmd h he ha ?_
    have hst : stillTesting (getLane a e.a).testing e.imm = true := by simp [stillTesting, h1]
    simp only [laneTestCmd, laneTestEff, hst, if_true]
  · subst hb
    refine exec_cmd h he ha ?_
    have hst : stillTesting true e.imm = false := by simp [stillTesting, h1, h2]
    have hin : injectedNow e.imm = 0 := by simp [injectedNow, h2]
    simp only [laneTestCmd, laneTestEff, h3, hst, injectNow, hin, if_true, Bool.false_eq_true, if_false]
  · subst hb
    exact exec_event ha (by simp [h1, h2]) rfl
  · subst hb
    exact exec_event ha (by simp only [h1, h2, ne_eq, not_false_eq_true, decide_true, Bool.and_self]) rfl
  · exact exec_event ha (by simp [h1, h2]) rfl
  · have hsees : laneSees (emit (.inverted l n) s) l ≠ .own := h2
    simp only [invertBits, h1, hsees, if_true, if_false]
  · exact exec_cmd h rfl rfl rfl
  · exact exec_cmd h rfl ha rfl
  · subst hg
    exact exec_cmd h he ha rfl
  · refine exec_event ha (by simp [h1, h2]) ?_
    simp only [h2]
    rfl
  · refine exec_event ha (by simp [h1]) ?_
    simp only [h1]
    rfl
  · subst hy
    refine exec_event ha (by simp [h1, h2, h3, msec]) ?_
    simp only [h1]
  · refine exec_event ha (by simp [h1]) ?_
    simp

end Sys2Proof.Machine
end

section
/-! SUPPORT. PORT.CFG and PORT.STATE (R48 to R51). -/

namespace Sys2Proof.Machine

/-- Settles O4, clause by clause. -/
theorem portSettings : Obligations.PortSettings := by
  unfold Obligations.PortSettings
  refine ⟨fun w s k e a b h he h1 ha hb => ?_, fun w s k e a b h he h1 ha hb => ?_, fun w s k e a h he ha => ?_⟩
  · refine exec_cmd h he ha ?_
    have hp : (if psEn e.imm && !psPreempt e.imm then Preempt.off else (getPort b e.a).preempt) =
        if nb e.imm 11 then (getPort b e.a).preempt else .off := by
      cases hq : nb e.imm 11 <;> simp [psEn, psPreempt, h1, hq]
    simp only [portCfgCmd, portCfgEff, ← hp]
    simp only [psEn, h1, if_true, ← hb]
  · subst hb
    refine exec_cmd h he ha ?_
    simp only [portCfgCmd, portCfgEff, psEn, h1, Bool.false_eq_true, if_false, Bool.false_and]
  · exact exec_cmd h he ha rfl

end Sys2Proof.Machine
end

section
/-! SUPPORT. The bring-up of a port (R51 to R53). -/

namespace Sys2Proof.Machine

/-- Settles O5, clause by clause. -/
theorem portBringUp : Obligations.PortBringUp := by
  unfold Obligations.PortBringUp
  refine ⟨fun t p x s a n ha h1 h2 hn h3 => ?_, fun t p s a ha h1 => ?_, fun t p s a ha h1 h2 => ?_,
    fun t p s a b ha h1 h2 hb => ?_, fun t p s a ha h1 h2 => ?_, fun t p s a u ha h1 h2 h3 => ?_⟩
  · subst hn
    exact exec_event ha (by simp [h1, h2, h3]) rfl
  · exact exec_event ha (by simp [h1]) rfl
  · have hx : expired a ((getPort a p).since + trainingTimer a p) = true := decide_eq_true h2
    exact exec_event ha (by simp [h1, hx]) rfl
  · subst hb
    exact exec_event ha (by simp [h1, h2, msec]) rfl
  · exact exec_event ha (by simp [h1, h2, expired, msec]) rfl
  · exact exec_event ha (by simp [h1, h2, h3]) rfl

end Sys2Proof.Machine
end

section
/-! SUPPORT. Link loss, fault sequences, verification and pause on a port (R51 to R63). -/

namespace Sys2Proof.Machine

/-- What a hardware event answers that meets the pause of a port and whose condition holds. -/
theorem exec_pauseEvent {t p : Nat} {g : State → Bool} {f : State → State} {s a u : State}
    (ha : a = settleControl p (comeTo t s)) (hg : g a = true) (hf : f a = u) :
    (.next (pauseEvent t p g f s) : Host.Outcome State Fault Refusal) = .next u := by
  subst ha
  exact congrArg _ ((if_pos hg).trans hf)

/-- Octets within a string, as a number. -/
theorem mf_of_le {l : Bytes} {o n : Nat} (h : o + n ≤ l.length) : mf l o n = beNat ((l.drop o).take n) := by
  rw [mf, fit, List.take_append_of_le_length (by rw [List.length_drop]; omega)]

/-- A loss on a lane takes its port out of UP (R51). -/
def leavesUp (l : Nat) (s : State) : State :=
  match portOfLane s l with
  | some p => if (getPort s p).state = .up then restartBringUp p s else s
  | none => s

theorem execLinkLoss_eq {t : Nat} {x : LaneLoss} {s a b : State} (ha : a = comeTo t s) (hl : x.lane < 68)
    (hb : (if losesLock x.cause then
      squelchOutputs x.lane (setLane a x.lane { getLane a x.lane with cdrLock := false, lockSince := a.clk.root })
      else a) = b) : execLinkLoss t x s = .next (leavesUp x.lane b) := by
  subst hb
  exact exec_event ha (decide_eq_true hl) rfl

/-- A MAC control frame that passes the checks of the MAC is taken at its last octet (R55, R57). -/
theorem execPauseFrameReceive_good {t p : Nat} {l : Bytes} {x : MacRx} {s a b u : State}
    (ha : a = settleControl p (comeTo t s)) (hp : p < 64) (hl : etherType l = 0x8808) (hb : b = countSeen p x.mark x.seen a)
    (hr : receives b p = true) (hm : macFault b p l x.mark = none) (hu : macControl p l b.clk.root b = u) :
    execPauseFrameReceive t p l x s = .next u := by
  subst hb
  refine exec_pauseEvent ha (by simp [hp, hl]) ?_
  rw [pauseFrame, hr, if_neg (by decide), hm]
  exact hu

/-- Settles O6, clause by clause. -/
theorem portsAndPause : Obligations.PortsAndPause := by
  unfold Obligations.PortsAndPause
  refine ⟨fun t x s a b ha h1 h2 hb => ?_, fun t x s a ha h1 h2 h3 => ?_, fun t p lf rf s a ha h1 => ?_,
    fun t p s a ha h1 h2 h3 => ?_, fun t p s a ha h1 h2 => ?_, fun t p l x s a b n ha h1 h2 hb h3 h4 => ?_,
    fun t p l x s a b ha h1 h2 hb h3 h4 h5 h6 => ?_, fun t p l x s a b ha h1 h2 hb h3 h4 h5 h6 => ?_,
    fun t p c s a u ha h1 h2 => ?_, fun t p c s a u ha h1 h2 h3 h4 => ?_⟩
  · subst hb
    exact execLinkLoss_eq ha h1 (if_pos (decide_eq_true h2))
  · exact execLinkLoss_eq ha h1 (if_neg (by simp [losesLock, h2, h3]))
  · exact exec_event ha (by simp [h1]) rfl
  · have hx : expired a ((getPort a p).verifyAt + (psVtime (getPort a p).setting + 1) * msec) = true := decide_eq_true h3
    exact exec_event ha (by simp [h1, h2, hx]) rfl
  · exact exec_event ha (by simp [h1, h2]) rfl
  · subst hb
    refine exec_pauseEvent ha (by simp [h1, h2]) ?_
    rw [pauseFrame, h3, if_neg (by decide), h4]
    rfl
  · refine execPauseFrameReceive_good ha h1 h2 hb h3 h4 ?_
    rw [mf_of_le (by omega)] at h5 ⊢
    simp only [macControl, h5, if_true]
  · refine execPauseFrameReceive_good ha h1 h2 hb h3 h4 ?_
    rw [mf_of_le (by omega)] at h5 ⊢
    simp only [macControl, h5, if_true]
    rfl
  · exact exec_pauseEvent ha (by simp [h1, expired, h2]) rfl
  · have hpaused : paused a p c = true := by simp [paused, h1, h2]
    have hlim : (getPause a p c).since + psPlimit (getPort a p).setting * 10 * usec ≤ a.clk.root := by
      rw [Nat.mul_assoc]
      exact h4
    exact exec_pauseEvent ha (by simp [hpaused, h3, hlim]) rfl

end Sys2Proof.Machine
end

section
/-! SUPPORT. Tables of the classifier and the counter blocks (R87 to R130, R346). -/

namespace Sys2Proof.Machine

/-- Settles O7, clause by clause. -/
theorem classifierAndCounters : Obligations.ClassifierAndCounters := by
  unfold Obligations.ClassifierAndCounters
  refine ⟨fun w s k e a h he ha => ?_, fun w s k e a h he ha => ?_, fun a b h1 h2 => ?_,
    fun w s k e a b h he ha h1 hb => ?_, fun w s k e a b h he ha h1 hb => ?_, fun w s k e a h he ha => ?_⟩
  · exact exec_cmd h he ha rfl
  · exact exec_cmd h he ha rfl
  · simp only [lookupView, h1, h2, if_true]
  · subst hb
    refine exec_cmd_on h he ha fun x hx => ?_
    have hex : e.x = 0 := by rw [he]; simp [envAt, resolve, h1]
    simp only [cntReadCmd, hex, ← hx, Nat.zero_ne_one, if_false]
  · subst hb
    refine exec_cmd_on h he ha fun x hx => ?_
    have hex : e.x = 1 := by rw [he]; simp [envAt, resolve, h1]
    simp only [cntReadCmd, hex, ← hx, if_true]
  · subst ha
    exact exec_cmd h he rfl rfl

end Sys2Proof.Machine
end

section
/-! SUPPORT. The Peer Table (R100 to R113). -/

namespace Sys2Proof.Machine

/-- With no flush running the table is as it stands (R113). -/
theorem syncFlush_of_none {s : State} (h : s.cls.flush = none) : syncFlush s = s := by
  simp only [syncFlush, h]

/-- Keeping the tables for the lookups of the edge changes nothing that a later look-up of the instruction sees. -/
theorem noteTables_of_none {s : State} (h : s.cls.flush = none) :
    ∃ b, noteTables s = { s with cls := { s.cls with before := b } } := by
  simp only [noteTables, syncFlush_of_none h]
  split
  · split
    · exact ⟨s.cls.before, rfl⟩
    · exact ⟨_, rfl⟩
  · exact ⟨_, rfl⟩

/-- Counting the instruction and keeping the tables leave every way of the Peer Table. -/
theorem counted_of_none {s : State} (h : s.cls.flush = none) (op : Nat) :
    ∃ b o, countOp op (noteTables s) = { s with cls := { s.cls with before := b, ops := o } } := by
  obtain ⟨b, hb⟩ := noteTables_of_none h
  exact ⟨b, _, congrArg (countOp op) hb⟩

/-- A key that no way holds has no channel. -/
theorem peerChannel_of_absent {s : State} {p c : Nat} (h : findWay s 16 (peerSet s p c) p c = none) :
    peerChannel s p c = none := by
  simp only [peerChannel, h]

/-- PEER.ADD that finds a place answers the table with the entry, where it does not change the channel of its key (R164). -/
theorem peerAddBare_eff {e : Env} {a t : State} {v p c ch : Nat} (hf : a.cls.flush = none)
    (hv : v = beNat (readMem a e.imm 16)) (hp : p = nf v 63 59) (hc : c = nf v 127 64) (hch : ch = nf v 55 40)
    (hold : ∀ x, peerChannel a p c = some x → x = ch) (ht : peerAdd (countOp 0x32 (noteTables a)) p c ch = some t) :
    peerAddBare.eff e a = { s := t } := by
  have hd : peerDesc e a = v := hv.symm
  have hp' : descPort v = p := hp.symm
  have hc' : descSci v = c := hc.symm
  simp only [peerAddBare, syncFlush_of_none hf, hd, hp', hc', ← hch, ht]
  split
  · next x hx => rw [if_pos (hold x hx)]
  · rfl

/-- Settles O8, clause by clause. -/
theorem peerTable : Obligations.PeerTable := by
  unfold Obligations.PeerTable
  refine ⟨fun w s k e a v p c ch set i h he ha h1 hv hp hc hch hset h2 h3 h4 => ?_,
    fun w s k e a v p c ch set i h he ha h1 hv hp hc hch hset h2 h3 => ?_,
    fun w s k e a v p c ch b h he ha h1 hv hp hc hch hb h2 => ?_,
    fun w s k e a v p c set i h he ha hv hp hc hset h1 => ?_,
    fun w s k e a v p c set i x h he ha h1 hv hp hc hset h2 h3 => ?_,
    fun w s k e a v p c set h he ha h1 hv hp hc hset h2 => ?_, fun w s k e a v i x h he ha h1 hv h2 => ?_,
    fun w s k e a b h he ha hb => ?_, fun t s a f ha h1 h2 => ?_, fun t set way s a x ha h1 h2 h3 h4 => ?_⟩
  · refine exec_after h he ha (peerAddBare_eff h1 hv hp hc hch h4 ?_)
    obtain ⟨b, o, hbo⟩ := counted_of_none h1 0x32
    have hw : findWay (countOp 0x32 (noteTables a)) 16 set p c = some i := by rw [hbo, ← h2]; rfl
    have hpin : chanPinned (countOp 0x32 (noteTables a)) ch = false := by rw [hbo, ← h3]; rfl
    have hs : peerSet (countOp 0x32 (noteTables a)) p c = set := by rw [hbo, hset]; rfl
    simp only [peerAdd, hs, hw, hpin, Bool.false_and, Bool.false_eq_true, if_false]
  · have habs : peerChannel a p c = none := peerChannel_of_absent (by rw [← hset, h2])
    refine exec_after h he ha (peerAddBare_eff h1 hv hp hc hch (by simp [habs]) ?_)
    obtain ⟨b, o, hbo⟩ := counted_of_none h1 0x32
    have hw : findWay (countOp 0x32 (noteTables a)) 16 set p c = none := by rw [hbo, ← h2]; rfl
    have hs : peerSet (countOp 0x32 (noteTables a)) p c = set := by rw [hbo, hset]; rfl
    have hfree : freeWay (countOp 0x32 (noteTables a)) set 0 4 = some i := by rw [hbo, ← h3]; rfl
    simp only [peerAdd, hs, hw, placePeer, hfree]
  · have hd : peerDesc e a = v := hv.symm
    have hp' : descPort v = p := hp.symm
    have hc' : descSci v = c := hc.symm
    refine exec_after h he ha ?_
    simp only [peerAddBare, syncFlush_of_none h1, hd, hp', hc', ← hch, ← hb, h2]
  · have hd : peerDesc e a = v := hv.symm
    have hp' : descPort v = p := hp.symm
    have hc' : descSci v = c := hc.symm
    refine exec_cmd h he ha ?_
    simp only [peerDelCmd, hd, hp', hc', ← hset, h1]
  · have hd : peerDesc e a = v := hv.symm
    have hp' : descPort v = p := hp.symm
    have hc' : descSci v = c := hc.symm
    refine exec_cmd h he ha ?_
    simp only [peerSearchCmd, syncFlush_of_none h1, searchWord, hd, hp', hc', ← hset, h2, h3]
  · have hd : peerDesc e a = v := hv.symm
    have hp' : descPort v = p := hp.symm
    have hc' : descSci v = c := hc.symm
    refine exec_cmd h he ha ?_
    simp only [peerSearchCmd, syncFlush_of_none h1, searchWord, hd, hp', hc', ← hset, h2]
  · have hd : peerDesc e a = v := hv.symm
    refine exec_cmd h he ha ?_
    simp only [peerNextCmd, syncFlush_of_none h1, hd, descPort, descSci, h2]
  · subst hb
    exact exec_cmd h he ha rfl
  · refine exec_event ha (by simp [h1, h2]) ?_
    simp only [h1]
  · have hx : expired a x.expires = true := decide_eq_true h4
    refine exec_event ha ?_ ?_
    · simp only [syncFlush_of_none h1, h2, h3, hx, Bool.not_false, Bool.and_self]
    · simp only [syncFlush_of_none h1, h2]
      rfl

end Sys2Proof.Machine
end

section
/-! SUPPORT. Channels and the association cache (R121 to R148). -/

namespace Sys2Proof.Machine

/-- An entry that is resident, or whose fill succeeds, takes the effect of its instruction (R138). -/
theorem onResident_ok {c : Nat} {e : Env} {f : State → Res} {a b : State} (h : fillNow c e.fill e.back a = (stOk, b)) :
    onResident c e f a = f b := by
  simp only [onResident, h, if_true]

/-- An entry whose fill fails is left as it is, and the instruction ends with the fill's status (R138). -/
theorem onResident_fails {c st : Nat} {e : Env} {f : State → Res} {a b : State} (h : fillNow c e.fill e.back a = (st, b))
    (hst : st ≠ stOk) : onResident c e f a = { s := b, st := st } := by
  simp only [onResident, h, hst, if_false]

/-- CH.SET of a channel that stays present goes on where its entry is resident (R123, R138). -/
theorem chSetEff_present {c v : Nat} {e : Env} {a : State} (hv : hChen v = true) (hp : present a c = true)
    (hc : (getChan a c).cold = false) :
    chSetEff c v e a = onResident c e (fun s => { s := setHeader c v s }) a := by
  have ho : hChen (getChan a c).header = true := hp
  simp [chSetEff, hv, ho, hc]

/-- An event that meets frames or charges, and whose condition does not hold, moves the clocks only. -/
theorem frameEvent_off {t : Nat} {g : State → Bool} {f : State → State} {s a : State} (ha : a = settle (comeTo t s))
    (hg : g a = false) : (.next (frameEvent t g f s) : Host.Outcome State Fault Refusal) = .next a := by
  unfold frameEvent
  rw [← ha]
  exact congrArg _ (if_neg (by simp [hg]))

/-- Settles O9, clause by clause. -/
theorem channels : Obligations.Channels := by
  unfold Obligations.Channels
  refine ⟨fun w s k e a v h he ha hv h1 h2 => ?_, fun w s k e a b v h he ha hv h1 h2 h3 h4 => ?_,
    fun w s k e a b v st h he ha hv h1 h2 h3 h4 h5 => ?_, fun w s k e a v h he ha hv h1 => ?_,
    fun w s k e a b c h he ha h1 h2 h3 hc h4 => ?_, fun w s k e a h he ha h1 => ?_, fun w s k e a h he ha h1 => ?_,
    fun w s k e a h he ha => ?_, fun w s k e a h h1 he ha h2 => ?_, fun c s a v x ha hv hx => ?_,
    fun t c res s a b i st ha h1 h2 => ?_, fun t s a b i ha h1 h2 => ?_, fun t s a ha h1 => ?_⟩
  · refine exec_after h he ha ?_
    have hfresh : (!hChen (getChan a e.b).header || (getChan a e.b).cold) = true := by
      rcases h2 with h2 | h2
      · simp [show hChen (getChan a e.b).header = false from h2]
      · simp [h2]
    simp only [chSetBare, ← hv, chSetEff, h1, hfresh, Bool.not_true, Bool.false_eq_true, if_false, if_true]
  · refine exec_after h he ha ?_
    simp only [chSetBare, ← hv, chSetEff_present h1 h2 h3, onResident_ok h4]
    rfl
  · refine exec_after h he ha ?_
    simp only [chSetBare, ← hv, chSetEff_present h1 h2 h3, onResident_fails h4 h5]
  · refine exec_after h he ha ?_
    simp only [chSetBare, ← hv, chSetEff, h1, Bool.not_false, if_true]
    rfl
  · refine exec_after h he ha ?_
    simp only [chPinBare, h1, chPinEff, h3, ← hc, h4, Bool.false_eq_true, if_false]
  · exact exec_after h he ha (if_pos h1)
  · exact exec_after h he ha (if_pos h1)
  · exact exec_after h he ha rfl
  · refine Eq.trans ?_ (exec_after h he ha ?_)
    · exact congrArg _ (if_pos h1)
    · simp only [sysReconcileBare, h2]
      rfl
  · subst hx hv ha
    rfl
  · refine exec_frameEvent ha (by simp [h1]) ?_
    simp only [h1, backDone, backEnds, h2]
  · refine exec_frameEvent ha (decide_eq_true h1) ?_
    rw [show turnClock (2 * cacheLines + 1) a = (b, some i) from h2]
  · exact frameEvent_off ha (decide_eq_false (Nat.not_lt.mpr h1))

end Sys2Proof.Machine
end

section
/-! SUPPORT. Associations (06 R195 to R207, 05 R166). -/

namespace Sys2Proof.Machine

/-- SA.RETIRE with something to do acts on the resident entry (R207). -/
theorem saRetireBare_eff {e : Env} {a b : State} (hi : retireIdle (getSub (getChan a (opChan e)) (opAn e)).state (nb e.b 18) = false)
    (hb : fillNow (opChan e) e.fill e.back a = (stOk, b)) :
    saRetireBare.eff e a = { s := saRetireEff (opChan e) (opAn e) e.imm (nb e.b 18) b } :=
  (if_neg (Bool.not_eq_true _ ▸ hi)).trans (onResident_ok hb)

/-- SA.ROLL on a transmit channel arms the successor at a number already reached (R203). -/
theorem saRollEff_tx {c n top : Nat} {b : State} (hd : hRx (getChan b c).header = false)
    (ht : top = (activeAn (getChan b c)).elim (lastPn (getChan b c).header) (fun x => (getSub (getChan b c) x).nextPn)) :
    saRollEff c n b = putChan c (setSub (getChan b c) n { getSub (getChan b c) n with
      rollMode := 1, rollPn := 1 + Config.measured b.drawn % max 1 top, rollSec := 0, rollNs := 0 })
      { b with drawn := b.drawn + 1 } := by
  refine (if_neg (by simp [hd])).trans ?_
  rw [ht]
  dsimp only
  cases activeAn (getChan b c) <;> rfl

/-- Settles O10, clause by clause. -/
theorem associations : Obligations.Associations := by
  unfold Obligations.Associations
  refine ⟨fun w s k e x a b c n v h he hx ha hc hn hv h1 => ?_, fun w s k e x a b st h he hx ha h1 h2 => ?_,
    fun w s k e a b st he ha h1 h2 => ?_, fun w s k e a b c n v h he ha hc hn hv h1 => ?_,
    fun w s k e a b c n h he ha hc hn h1 h2 => ?_, fun w s k e a b c n top h he ha hc hn h1 h2 htop => ?_,
    fun w s k e a b c n u h h he ha hc hn h1 h2 hu h3 hh => ?_, fun w s k e a b c n u h he ha hc hn h1 h2 hu h3 => ?_,
    fun w s k e a b c n u h he ha hc hn h1 h2 hu h3 h4 => ?_, fun w s k e a c n u h he ha hc hn hu h1 => ?_,
    fun t c n s a u ha hu h1 h2 => ?_, fun t c s a n ha h1 h2 h3 h4 => ?_⟩
  · obtain rfl : c = opChan e := hc
    obtain rfl : n = opAn e := hn
    refine exec_after h he hx ?_
    rw [readingSlot_eff (burst_of_runs h he) rfl, ← ha]
    simp only [saLoadBare]
    rw [onResident_ok h1, hv]
    rfl
  · replace h1 : fillNow (opChan e) e.fill e.back a = (st, b) := h1
    refine exec_after h he hx ?_
    rw [readingSlot_eff (burst_of_runs h he) rfl, ← ha]
    simp only [saLoadBare]
    rw [onResident_fails h1 h2]
  · replace h1 : fillNow (opChan e) e.fill e.back a = (st, b) := h1
    refine ⟨fun h => ?_, fun h => ?_, fun h hi => ?_⟩
    · refine exec_after h he ha ?_
      simp only [saArmBare]
      rw [onResident_fails h1 h2]
    · refine exec_after h he ha ?_
      simp only [saRollBare]
      rw [onResident_fails h1 h2]
    · refine exec_after h he ha ?_
      exact (if_neg (Bool.not_eq_true _ ▸ hi)).trans (onResident_fails h1 h2)
  · obtain rfl : c = opChan e := hc
    obtain rfl : n = opAn e := hn
    subst hv
    refine exec_after h he ha ?_
    simp only [saArmBare]
    rw [onResident_ok h1]
    rfl
  · obtain rfl : c = opChan e := hc
    obtain rfl : n = opAn e := hn
    refine exec_after h he ha ?_
    simp only [saRollBare]
    rw [onResident_ok h1]
    exact congrArg (fun x => ({ s := x } : Res)) (if_pos h2)
  · obtain rfl : c = opChan e := hc
    obtain rfl : n = opAn e := hn
    refine exec_after h he ha ?_
    simp only [saRollBare]
    rw [onResident_ok h1]
    rw [saRollEff_tx h2 htop]
  · obtain rfl : c = opChan e := hc
    obtain rfl : n = opAn e := hn
    refine exec_after h he ha ((saRetireBare_eff h1 h2).trans ?_)
    subst hh hu
    dsimp only at h3
    rcases h3 with h3 | h3
    · simp only [saRetireEff, h3]
    · simp only [saRetireEff, h3]
  · obtain rfl : c = opChan e := hc
    obtain rfl : n = opAn e := hn
    refine exec_after h he ha ((saRetireBare_eff h1 h2).trans ?_)
    subst hu
    dsimp only at h3
    simp only [saRetireEff, h3]
  · obtain rfl : c = opChan e := hc
    obtain rfl : n = opAn e := hn
    refine exec_after h he ha ((saRetireBare_eff h1 h2).trans ?_)
    subst hu
    rcases h3 with h3 | h3
    · simp only [saRetireEff, h3, h4, if_true]
      rfl
    · simp only [saRetireEff, h3, h4, if_true]
      rfl
  · obtain rfl : c = opChan e := hc
    obtain rfl : n = opAn e := hn
    subst hu
    refine exec_after h he ha (if_pos ?_)
    rcases h1 with h1 | ⟨h1 | h1, hw⟩
    · simp [retireIdle, opSub, h1]
    · simp [retireIdle, opSub, h1, hw]
    · simp [retireIdle, opSub, h1, hw]
  · subst hu
    exact exec_frameEvent ha (by simp [h1, timeReached, h2]) rfl
  · have hx : rollTime (getSub (getChan a c) n) ≤ a.clk.tod + nsUnits 2000 := h4
    exact exec_frameEvent ha (by simp [h1, h2, h3, hx]) rfl

end Sys2Proof.Machine
end

section
/-! SUPPORT. Scheduling, gates and shapers (08 R244 to R269). -/

namespace Sys2Proof.Machine

/-- Settles O11, clause by clause. -/
theorem scheduling : Obligations.Scheduling := by
  unfold Obligations.Scheduling
  refine ⟨fun w s k e a h he ha => ?_, fun w s k e a v h he ha hv h1 => ?_, fun w s k e a v h he ha hv h1 => ?_,
    fun w s k e a h he ha => ?_, fun w s k e a h he ha => ?_, fun w s k e a n l h he ha hn hl => ?_,
    fun w s k e a g t h he ha hg ht => ?_, fun w s k e a t h he ha h1 h2 => ?_, fun w s k e a h he ha h1 => ?_,
    fun t p s a c ha h1 h2 => ?_, fun t p s a b n ha h1 hn hb => ?_, fun t p c s a u ha h1 h2 => ?_⟩
  · exact exec_cmd h he ha rfl
  · subst hv
    refine exec_cmd h he ha ?_
    simp only [policeSetCmd, policeSetEff, h1, if_true]
    rfl
  · subst hv
    refine exec_cmd h he ha ?_
    simp only [policeSetCmd, policeSetEff, h1]
    rfl
  · exact exec_cmd h he ha rfl
  · exact exec_cmd h he ha rfl
  · subst hl hn
    exact exec_cmd h he ha rfl
  · subst ht hg
    exact exec_cmd h he ha rfl
  · refine exec_cmd h he ha ?_
    simp only [gateSwapCancelCmd, h1, h2]
    rfl
  · refine exec_cmd h he ha ((if_neg ?_).trans rfl)
    cases hc : (getGates a e.a).change with
    | none => exact Bool.false_ne_true
    | some t => exact Bool.not_eq_true _ ▸ decide_eq_false (Nat.not_lt.mpr (h1 t hc))
  · exact exec_event ha (by simp [h1, timeReached, h2]) (by simp only [h1])
  · subst hb hn
    refine exec_event ha (by simp [h1]) ?_
    simp
  · exact exec_event ha (by simp [h1, h2]) rfl

end Sys2Proof.Machine
end

section
/-! SUPPORT. Network time, its pins and trigger outputs (09 R273 to R297). -/

namespace Sys2Proof.Machine

/-- A step of network time below the wrap of SEC (R277): counted, raised with the time before, its users follow. -/
theorem stepTime_of_lt {n : Nat} {b : State} (h : n < todWrap) :
    stepTime n b = stepUsers b.clk.tod (raise 0x5002 (todForm b.clk.tod / 2 ^ 64) (todForm b.clk.tod % 2 ^ 64)
      (bump 14 0 69 48 1 { b with clk := { b.clk with
        tod := n
        jumps := (b.clk.root, (n : Int) - (b.clk.tod : Int)) ::
          b.clk.jumps.filter (fun j => decide (b.clk.root < j.1 + 20000)) } })) := by
  simp only [stepTime, Nat.mod_eq_of_lt h, decide_eq_false (Nat.not_le.mpr h), Bool.or_false]

/-- Settles O12, clause by clause. -/
theorem networkTime : Obligations.NetworkTime := by
  unfold Obligations.NetworkTime
  refine ⟨fun w s k e a b h he ha hb h1 => ?_, fun w s k e a b h he ha hb h1 => ?_,
    fun w s k e a b n h he ha hb hn h1 => ?_, fun w s k e a b n h he ha hb h1 h2 => ?_, fun t s a ha => ?_,
    fun t s a ha h1 => ?_, fun w s k e a q h he ha hq => ?_, fun t r n s a q v ha h1 hv h2 h3 h4 => ?_,
    fun t s a q ha h1 h2 => ?_, fun t i r n s a v ha h1 hv h2 h3 => ?_, fun t i r n s a b v ha h1 hv h2 h3 hb => ?_,
    fun w s k e a h he ha h1 => ?_, fun w s k e a h he ha h1 => ?_, fun w s k e a h he ha => ?_,
    fun t o s a x ha h1 h2 => ?_, fun t o s a ha h1 h2 h3 => ?_⟩
  · subst hb
    refine exec_cmd h he ha ?_
    simp only [timeIncrCmd, h1]
    rfl
  · subst hb
    refine exec_cmd h he ha ?_
    simp only [timeIncrCmd, h1]
    rfl
  · subst hb
    refine exec_cmd h he ha ?_
    rw [hn] at h1
    simp only [timeSetCmd, timeDesc, stepTime_of_lt h1, hn]
    rfl
  · subst hb
    have hadj : (adjusted e (atTick a)).toNat = n := by
      refine (congrArg Int.toNat ?_).trans (Int.toNat_natCast n)
      exact h1.symm
    refine exec_cmd h he ha ?_
    simp only [timeAdjCmd, hadj, stepTime_of_lt h2]
    rfl
  · exact exec_event ha rfl rfl
  · exact exec_event ha (by simp [h1]) rfl
  · subst hq
    exact exec_cmd h he ha rfl
  · refine exec_event ha ?_ rfl
    subst hv
    simp [h1, h2, confirmed, pinFilt, h3, h4]
  · refine exec_event ha (by simp [h1, h2, expired]) ?_
    simp only [h1]
  · subst hv
    refine exec_event ha (by simp [h1, pinEn, h2]) ?_
    have hc : confirmed (getPin a i).setting n = false := decide_eq_false (Nat.not_le.mpr h3)
    simp only [hc, Bool.not_false, if_true]
  · subst hv
    refine exec_event ha (by simp [h1, pinEn, h2]) ?_
    have hc : confirmed (getPin a i).setting n = true := decide_eq_true h3
    simp only [hc, Bool.not_true, Bool.false_eq_true, if_false, hb]
    rfl
  · exact exec_cmd h he ha (if_pos h1)
  · exact exec_cmd h he ha (if_neg (by simp [h1]))
  · exact exec_cmd h he ha rfl
  · have hf : fallDue a o = true := by simp [fallDue, h1, h2]
    exact exec_event ha (by simp [hf]) (if_pos hf)
  · have hf : fallDue a o = false := by simp [fallDue, h1]
    have hr : riseDue a o = true := by simp [riseDue, h2, h3]
    exact exec_event ha (by simp [hr]) (by simp [driveDue, hf, hr])

end Sys2Proof.Machine
end

section
/-! SUPPORT. Stamp queues and probes (09 R290 to R302). -/

namespace Sys2Proof.Machine

/-- Settles O13, clause by clause. -/
theorem stampQueuesAndProbes : Obligations.StampQueuesAndProbes := by
  unfold Obligations.StampQueuesAndProbes
  refine ⟨fun w s k e a b q n x got h he ha hq hn hx hgot hb h1 => ?_,
    fun w s k e a b v p r h he ha h1 hv hp hb hr => ?_, fun w s k e a h he ha h1 => ?_,
    fun w s k e a v r h he ha hv h1 hr => ?_, fun w s k e a v h he ha hv h1 => ?_, fun t i s a p ha h1 h2 => ?_⟩
  · subst hq hn
    have hd : (x.entries.drop (nf e.b 10 5)).isEmpty = false := by
      rw [List.isEmpty_eq_false_iff, ne_eq, List.drop_eq_nil_iff]
      exact Nat.not_le.mpr h1
    refine exec_cmd h he ha ?_
    simp only [tsPopCmd, ← hx, hd, Bool.and_false, Bool.false_eq_true, if_false]
    rw [hb, hgot]
    rfl
  · subst hr hb hp hv
    exact exec_cmd h he ha (if_neg (by simp [h1]))
  · refine exec_cmd h he ha ?_
    simp only [probeSendCmd, h1]
    rfl
  · subst hr hv
    refine exec_cmd h he ha ?_
    simp only [probeResponderCmd, probeDesc, h1, if_true]
  · subst hv
    refine exec_cmd h he ha ?_
    simp only [probeResponderCmd, probeDesc, h1, Bool.false_eq_true, if_false]
  · exact exec_event ha (by simp [h1, h2, expired]) rfl

end Sys2Proof.Machine
end

section
/-! SUPPORT. The Key Vault (12 R347 to R378). -/

namespace Sys2Proof.Machine

/-- The fields of an erased slot's ATTR word: DOMAIN kept, GENERATION given, TYPE empty, whatever LOCK is. -/
theorem nf_erased {lock d g : Nat} (hl : lock = 0 ∨ lock = 2 ^ 15) (hd : d < 16) (hg : g < 4096) :
    nf (lock + d * 2 ^ 16 + g) 19 16 = d ∧ nf (lock + d * 2 ^ 16 + g) 11 0 = g ∧ nf (lock + d * 2 ^ 16 + g) 31 28 = 0 := by
  simp only [nf]
  omega

/-- UNWRAP whose own checks pass does what the unwrapping of its descriptor says (R374). -/
theorem unwrapBare_eff {e : Env} {a : State} (h : firstFail (unwrapOwn e a) = 0) :
    unwrapBare.eff e a =
      if (unwrapResult e a).1 = 0 then
        { s := extendReg 5 (sha384 (unwrapDesc e a)) (bumpVault 28 1 (setSlot a (unwrapDst e)
            (rewritten (getSlot a (unwrapDst e)) (unwrapResult e a).2.2 (unwrapResult e a).2.1))) }
      else { s := bumpVault 29 1 a, st := (unwrapResult e a).1 } := by
  simp only [unwrapBare, h, stOk, ne_eq, not_true_eq_false, if_false]
  exact ite_not ..

/-- Settles O14, clause by clause. -/
theorem keyVault : Obligations.KeyVault := by
  unfold Obligations.KeyVault
  refine ⟨fun w s k e a h he ha => ?_, fun w s k e a h he ha => ?_, fun i k h1 => ?_, fun i k h1 h2 => ?_,
    fun w s k e a d src o st h he ha hd hsrc h1 ho hst => ?_, fun w s k e a x b r h he ha hx hb hr => ?_,
    fun w s k e a r h he ha h1 => ?_, fun w s k e a r h he ha h1 => ?_, fun w s k e a r h he ha hr => ?_⟩
  · exact exec_cmd h he ha rfl
  · refine exec_reading h he rfl ha ?_
    have hb : bn (decide (attrType (getSlot a e.b).attr ≠ 0)) * 2 ^ 32 =
        if nf (getSlot a e.b).attr 31 28 = 0 then 0 else 2 ^ 32 := by
      by_cases ht : nf (getSlot a e.b).attr 31 28 = 0
      · simp [bn, attrType, ht]
      · simp [bn, attrType, ht]
    simp only [slotInfoBare, hb]
  · have hl : (slotReset i).attr = 0 ∨ (slotReset i).attr = 2 ^ 15 := by
      by_cases hi : i < 16
      · exact .inr (if_pos hi)
      · exact .inl (if_neg hi)
    obtain ⟨hd, hg, ht⟩ := nf_erased hl (d := attrDomain k.attr) (g := nextGen k.attr) (Nat.mod_lt _ (by decide))
      (Nat.mod_lt _ (by decide))
    rw [emptied, if_neg h1]
    exact ⟨hd, hg, ht, rfl⟩
  · rw [emptied, if_pos ⟨h1, h2⟩, slotReset, if_pos h2]
  · refine exec_reading h he rfl ha ((unwrapBare_eff h1).trans ?_)
    subst hd hsrc
    have ho' : unwrapResult e a = unwrapOf (nf (getSlot a (e.b % 256)).attr 19 16) o := by rw [ho]; rfl
    rw [ho', hst]
    cases o with
    | none => rfl
    | some p => rfl
  · subst hr hb hx
    exact exec_reading h he rfl ha rfl
  · refine exec_cmd h he ha ?_
    simp only [blkOpCmd, blkReg, h1]
  · refine exec_cmd h he ha ?_
    simp only [blkCmpCmd, blkReg, h1]
  · subst hr
    exact exec_cmd h he ha rfl

end Sys2Proof.Machine
end

section
/-! SUPPORT. Operations of the Press (13 R386 to R402). -/

namespace Sys2Proof.Machine

/-- PK.ABORT that runs ends the running operation in its block (R401). -/
theorem exec_pkAbort {w : IWord} {s a b : State} {k : Nat} (h : runs pkAbortCmd w s k = true) (ha : a = atBlock s k)
    (hb : endRunning stAborted a = b) :
    exec (.pkAbort w) s = .next (serveKeyx (answered pkAbortCmd w s k { s := b })) := by
  subst ha hb
  exact congrArg (fun x => Host.Outcome.next (serveKeyx x)) (runCmd_runs h)

/-- An operation that has no result on which the redundant path disagrees ends with its status (R388). -/
theorem completeRunning_eq {op : PressOp} {st : Nat} {out : Bytes} {a : State} (hr : a.press.running = some op)
    (ho : op.result = some (st, out)) : completeRunning a = completeOp op st out a := by
  simp only [completeRunning, hr, ho]

/-- The running operation is due where its cycles have passed (R389). -/
theorem runningDue_of_le {op : PressOp} {r : Nat × Bytes} {a : State} (hr : a.press.running = some op)
    (ho : op.result = some r) (h : op.since + 8 * opCycles a op r.1 ≤ a.clk.root) : runningDue a = true := by
  simp only [runningDue, hr, opDue, ho]
  exact decide_eq_true h

/-- An operation starts when the Press is idle, no internal request waits and one is queued (R388). -/
theorem opStarts_of {op : PressOp} {l : List PressOp} {a : State} (hi : pressIdle a = true)
    (hw : internalWaits a = false) (hq : a.press.queue = op :: l) : opStarts a = true := by
  simp [opStarts, hi, hw, hq]

/-- Settles O17, clause by clause. -/
theorem pressOperations : Obligations.PressOperations := by
  unfold Obligations.PressOperations
  refine ⟨fun w s k e a o h he ha h1 => ?_, fun w s k e a o h he ha h1 => ?_, fun w s k e a h he ha => ?_,
    fun w s k a h ha h1 => ?_, fun w s k a op r h ha h1 h2 h3 => ?_, fun t n s a op l ha h1 h2 h3 h4 => ?_,
    fun t s a b c op l ha h1 h2 h3 h4 hc hb => ?_, fun t s a op n o out ha h1 h2 h3 h4 h5 h6 h7 => ?_,
    fun t s a op st ha h1 h2 h3 h4 h5 h6 => ?_, fun t s a op r ha h1 h2 h3 h4 => ?_⟩
  · refine exec_cmd h he ha ?_
    simp only [pkLoadCmd, h1]
    rfl
  · refine exec_cmd h he ha ?_
    simp only [pkReadCmd, h1]
  · exact exec_cmd h he ha rfl
  · exact exec_pkAbort h ha (by simp only [endRunning, h1])
  · exact exec_pkAbort h ha
      (by simp only [endRunning, h1, h2, Option.isNone_some, h3, Bool.false_and, Bool.false_eq_true, if_false])
  · refine exec_event ha (opStarts_of h1 h2 h3) ?_
    simp only [h3, startRead, startOp, h4, Bool.false_eq_true, if_false, Bool.not_false, if_true]
  · refine exec_event ha (opStarts_of h1 h2 h3) ?_
    simp only [h3, startRead, h4, if_true, ← hc]
    subst hb
    simp only [struckRow, startOp, h4, Bool.not_true, Bool.false_eq_true, if_false, if_true, Bool.not_eq_true']
    rfl
  · refine exec_event ha (runningDue_of_le h1 h2 h4) ?_
    rw [completeRunning_eq h1 h2]
    have hs : slotAt a (opDst op) = some o := h6
    simp only [completeOp, h3, Bool.false_eq_true, if_false, h5, hs, stOk, if_true, h7, decide_false, Bool.false_and]
    rfl
  · refine exec_event ha (runningDue_of_le h1 h2 h5) ?_
    rw [completeRunning_eq h1 h2]
    simp only [completeOp, h4, Bool.false_eq_true, if_false, stOk, h3, h6, decide_false, Bool.false_and]
    split <;> rfl
  · obtain ⟨st, out⟩ := r
    refine exec_event ha (runningDue_of_le h1 h2 h4) ?_
    rw [completeRunning_eq h1 h2, completeOp, if_pos h3]
    rfl

end Sys2Proof.Machine
end

section
/-! SUPPORT. The functions of the Press (13 R384 to R398). -/

namespace Sys2Proof.Machine

/-- A function row on the running operation, if it is one of its functions and has no result yet (R388). -/
theorem exec_runFn {run : PressRun} {fs : List Nat} {s a u : State} {op : PressOp} (ha : a = comeTo run.t s)
    (hr : a.press.running = some op) (hn : op.result = none) (hc : fs.contains op.func = true)
    (hp : perform run.upset op a = u) : (.next (runFn run fs s) : Host.Outcome State Fault Refusal) = .next u := by
  refine exec_event ha ?_ ?_
  · simp only [hr, hc, hn, Option.isNone_none, Bool.and_self]
  · simp only [hr, hp]

theorem contains_curve {m c f : Nat} (h1 : 1 ≤ c) (h3 : c ≤ 3) (hf : f = m + c) :
    [m + 1, m + 2, m + 3].contains f = true := by
  have hc : c = 1 ∨ c = 2 ∨ c = 3 := by omega
  rcases hc with rfl | rfl | rfl <;> simp [hf]

theorem contains_modulus {m c f : Nat} (h2 : 2 ≤ c) (h3 : c ≤ 3) (hf : f = m + c) : [m + 2, m + 3].contains f = true := by
  have hc : c = 2 ∨ c = 3 := by omega
  rcases hc with rfl | rfl <;> simp [hf]

/-- The class and the member of a function code. -/
theorem func_parts {f m c : Nat} (hc : c < 16) (hf : f = 16 * m + c) : f / 16 = m ∧ f % 16 = c := by omega

/-- Drawing from the DRBG leaves the operand slots (R386). -/
theorem srcData_internalRandom (n : Nat) (a : State) (op : PressOp) (i : Nat) :
    srcData (internalRandom n a).2 op i = srcData a op i := rfl

theorem srcCounted_internalRandom (n : Nat) (a : State) (op : PressOp) (i m : Nat) :
    srcCounted (internalRandom n a).2 op i m = srcCounted a op i m := rfl

/-- A function whose last step is a point: off the curve it is a fault and gives nothing out (R398). -/
theorem perform_point {up : Bytes} {op : PressOp} {a b : State} {rnd : Bytes} {q : Option (Nat × Nat)} {r : Nat × Bytes}
    (hv : firstFail (validation a op) = 0) (hb : (if op.vault then internalRandom (opRandom op) a else ([], a)) = (rnd, b))
    (hf : ecFn op.func = true) (hq : upsetPoint (op.func % 16) up (resultPoint b op) = q) (hr : ecOutput b op q = r) :
    perform up op a = { b with press := { b.press with running := some { op with
      result := some (if offCurve (op.func % 16) q then (stFault, []) else r)
      mismatch := offCurve (op.func % 16) q, work := 0 } } } := by
  have hs : op.func ≠ 0xA2 := fun h => by simp [h, ecFn] at hf
  simp only [perform, hv, hb, stOk, ne_eq, not_true_eq_false, if_false, decide_true, Bool.true_and, compute, redundant, hf,
    if_true, hq, hr, Bool.not_not, attempts, hs, not_false_eq_true]

/-- A function whose last step is octets: where the redundant path finds other ones it is a fault and gives nothing out
(R398). -/
theorem perform_octets {up : Bytes} {op : PressOp} {a b : State} {rnd z o : Bytes} {r : Nat × Bytes} {n : Nat}
    (hv : firstFail (validation a op) = 0) (hb : (if op.vault then internalRandom (opRandom op) a else ([], a)) = (rnd, b))
    (hf : ecFn op.func = false) (hz : finalStep b op rnd = z) (ho : o = upsetOctets up z) (hr : outputOf b op rnd z = r)
    (hn : attempts b op rnd (outputOf b op rnd o).1 = n) :
    perform up op a = { b with press := { b.press with running := some { op with
      result := some (if o = z then r else (stFault, []))
      mismatch := decide (o ≠ z), work := n } } } := by
  have hres : (if (!decide (o = z)) = true then (stFault, []) else outputOf b op rnd o) =
      if o = z then r else (stFault, []) := by
    by_cases h : o = z
    · simp [h, hr]
    · simp [h]
  simp only [perform, hv, hb, stOk, ne_eq, not_true_eq_false, if_false, decide_true, Bool.true_and, compute, redundant, hf,
    Bool.false_eq_true, hz, ← ho, hres, hn, decide_not]

/-- The DRBG request of an operation on a Key Vault key. -/
theorem blinded {op : PressOp} {a b : State} {n : Nat} (hv : op.vault = true) (hn : opRandom op = n)
    (hb : b = (internalRandom n a).2) :
    (if op.vault then internalRandom (opRandom op) a else ([], a)) = ((internalRandom n a).1, b) := by
  rw [if_pos hv, hn, hb]

/-- Without a Key Vault key nothing is drawn. -/
theorem unblinded {op : PressOp} {a : State} (hv : op.vault = false) :
    (if op.vault then internalRandom (opRandom op) a else ([], a)) = ([], a) :=
  if_neg (Bool.not_eq_true _ ▸ hv)

theorem attempts_of_ne {op : PressOp} {b : State} {rnd : Bytes} {st : Nat} (h : op.func ≠ 0xA2) :
    attempts b op rnd st = 0 := if_pos h

theorem opRandom_blinding {op : PressOp} (h2 : op.func / 16 ≠ 2) (hs : op.func ≠ 0xA2) : opRandom op = 8 := by
  rw [opRandom, if_neg h2, if_neg hs]

/-- Settles O18, clause by clause. -/
theorem pressAlgorithms : Obligations.PressAlgorithms := by
  unfold Obligations.PressAlgorithms
  refine ⟨fun t s a b op g n ha h1 h2 h3 hg hn hb => ?_, fun run s a op c q ha h1 h2 h3 h4 h5 h6 h7 hq => ?_,
    fun run s a op c q ha h1 h2 h3 h4 h5 h6 h7 hq => ?_,
    fun run s a op c n z o ha h1 h2 h3 h4 h5 h6 hn h7 hz ho => ?_,
    fun run s a op c n z o ha h1 h2 h3 h4 h5 h6 hn h7 hz ho => ?_,
    fun run s a op c n z o ha h1 h2 h3 h4 h5 h6 hn h7 hz ho => ?_, fun run s a op v z o ha h1 h2 h3 h4 hv hz ho => ?_,
    fun up op a st h1 h2 h3 h4 => ?_, fun run s a b op c q ha h1 h2 hb h3 h4 h5 h6 hq => ?_,
    fun run s a b op c d dg r z o ha h1 h2 hb h3 h4 h5 h6 hd hdg hr hz ho => ?_,
    fun run s a b op c q ha h1 h2 hb h3 h4 h5 h6 h7 hq => ?_, fun run s a b op z o ha h1 h2 hb h3 h4 hz ho => ?_,
    fun run s a b op z o ha h1 h2 hb h3 h4 hz ho => ?_, fun run s a b op z o ha h1 h2 hb h3 h4 hz ho => ?_,
    fun run s a b op x z o m ha h1 h2 hb h3 h4 hx hz ho hm => ?_⟩
  · subst hb hn hg
    refine exec_event ha (by simp [h1, h2, h3]) ?_
    simp only [h1, h2]
    rfl
  · obtain ⟨hd, hm⟩ := func_parts (m := 3) (by omega) h6
    refine exec_runFn ha h1 h2 (contains_curve h4 h5 h6)
      ((perform_point h7 (unblinded h3) (by simp [ecFn, hd]) (q := q) ?_ rfl).trans ?_)
    · simp only [hq, resultPoint, hd, hm]
    · simp only [ecOutput, hd, hm]
  · obtain ⟨hd, hm⟩ := func_parts (m := 5) (by omega) h6
    refine exec_runFn ha h1 h2 (contains_curve h4 h5 h6)
      ((perform_point h7 (unblinded h3) (by simp [ecFn, hd]) (q := q) ?_ rfl).trans ?_)
    · simp only [hq, resultPoint, hd, hm]
    · simp only [ecOutput, hd, hm]
      rfl
  · obtain ⟨hd, hm⟩ := func_parts (m := 6) (by omega) h6
    refine exec_runFn ha h1 h2 (contains_curve h4 h5 h6)
      ((perform_octets h7 (unblinded h3) (by simp [ecFn, hd]) ?_ ho rfl (attempts_of_ne (by omega))).trans ?_)
    · simp only [finalStep, hd, hm, hz, hn]
    · simp only [outputOf, hd]
      rfl
  · obtain ⟨hd, hm⟩ := func_parts (m := 7) (by omega) h6
    refine exec_runFn ha h1 h2 (contains_modulus h4 h5 h6)
      ((perform_octets h7 (unblinded h3) (by simp [ecFn, hd]) ?_ ho rfl (attempts_of_ne (by omega))).trans ?_)
    · simp only [finalStep, hd, hm, hz, hn]
    · simp only [outputOf, hd, hm, hn]
  · obtain ⟨hd, hm⟩ := func_parts (m := 8) (by omega) h6
    refine exec_runFn ha h1 h2 (contains_modulus h4 h5 h6)
      ((perform_octets h7 (unblinded h3) (by simp [ecFn, hd]) ?_ ho rfl (attempts_of_ne (by omega))).trans ?_)
    · simp only [finalStep, hd, hm, hz, hn]
    · simp only [outputOf, hd, hm, hn]
  · obtain ⟨hd, hm⟩ := func_parts (m := 10) (c := 3) (by omega) h4
    have hval : firstFail (validation a op) = 0 := by simp only [validation, hd]; rfl
    refine exec_runFn ha h1 h2 (by simp [h4])
      ((perform_octets hval (unblinded h3) (by simp [ecFn, hd]) (z := z) ?_ ho (r := verdict v) ?_
        (attempts_of_ne (by omega))).trans rfl)
    · simp only [finalStep, hd, hm, hz, hv]
      rfl
    · have hone : decide (z = beBytes 1 1) = v := by
        rw [hz]
        cases v <;> rfl
      simp only [outputOf, hd, hm, hone]
      rfl
  · have hb : (firstFail (validation a op) ≠ stOk) = True := by rw [h3]; exact eq_true h4
    simp only [perform, h1, Bool.false_eq_true, if_false, h3]
    simp [stOk, h4]
  · obtain ⟨hd, hm⟩ := func_parts (m := 1) (by omega) h6
    have hval : firstFail (validation a op) = 0 := by simp only [validation, hd]; rfl
    refine exec_runFn ha h1 h2 (contains_curve h4 h5 h6)
      ((perform_point hval (blinded h3 (opRandom_blinding (by omega) (by omega)) hb) (by simp [ecFn, hd]) (q := q) ?_ rfl).trans ?_)
    · simp only [hq, resultPoint, hd, hm]
    · simp only [ecOutput, hd, hm]
      rfl
  · obtain ⟨hdiv, hm⟩ := func_parts (m := 2) (by omega) h6
    have hval : firstFail (validation a op) = 0 := by simp only [validation, hdiv]; rfl
    refine exec_runFn ha h1 h2 (contains_curve h4 h5 h6)
      ((perform_octets hval (blinded h3 (if_pos hdiv) hb) (by simp [ecFn, hdiv]) ?_ ho rfl
        (attempts_of_ne (by omega))).trans ?_)
    · simp only [finalStep, hdiv, hm, hb, srcData_internalRandom, hz, hr, hd, hdg]
    · simp only [outputOf, hdiv, hm, hb, srcData_internalRandom, hr, hd, hdg]
      rfl
  · obtain ⟨hd, hm⟩ := func_parts (m := 4) (by omega) h6
    refine exec_runFn ha h1 h2 (contains_curve h4 h5 h6)
      ((perform_point h7 (blinded h3 (opRandom_blinding (by omega) (by omega)) hb) (by simp [ecFn, hd]) (q := q) ?_
        rfl).trans ?_)
    · simp only [hq, resultPoint, hd, hm, hb, srcData_internalRandom]
    · simp only [ecOutput, hd, hm, hb, srcData_internalRandom, srcCounted_internalRandom]
      rfl
  · obtain ⟨hd, hm⟩ := func_parts (m := 9) (c := 1) (by omega) h4
    have hval : firstFail (validation a op) = 0 := by simp only [validation, hd]; rfl
    refine exec_runFn ha h1 h2 (by simp [h4])
      ((perform_octets hval (blinded h3 (opRandom_blinding (by omega) (by omega)) hb) (by simp [ecFn, hd]) ?_ ho rfl
        (attempts_of_ne (by omega))).trans ?_)
    · simp only [finalStep, hd, hm, hz, if_true]
    · simp only [outputOf, hd]
      rfl
  · obtain ⟨hd, hm⟩ := func_parts (m := 9) (c := 3) (by omega) h4
    have hval : firstFail (validation a op) = 0 := by simp only [validation, hd]; rfl
    refine exec_runFn ha h1 h2 (by simp [h4])
      ((perform_octets hval (blinded h3 (opRandom_blinding (by omega) (by omega)) hb) (by simp [ecFn, hd]) ?_ ho rfl
        (attempts_of_ne (by omega))).trans ?_)
    · simp only [finalStep, hd, hm, hb, srcData_internalRandom, srcCounted_internalRandom, hz]
      rfl
    · simp only [outputOf, hd]
      rfl
  · obtain ⟨hd, hm⟩ := func_parts (m := 10) (c := 1) (by omega) h4
    have hval : firstFail (validation a op) = 0 := by simp only [validation, hd]; rfl
    refine exec_runFn ha h1 h2 (by simp [h4])
      ((perform_octets hval (blinded h3 (opRandom_blinding (by omega) (by omega)) hb) (by simp [ecFn, hd]) ?_ ho rfl
        (attempts_of_ne (by omega))).trans ?_)
    · simp only [finalStep, hd, hm, hz, if_true]
    · simp only [outputOf, hd, hm]
      rfl
  · subst hm
    obtain ⟨hd, hmod⟩ := func_parts (m := 10) (c := 2) (by omega) h4
    have hval : firstFail (validation a op) = 0 := by simp only [validation, hd]; rfl
    have hrnd : opRandom op = 32 := by simp [opRandom, h4]
    have hstep : finalStep b op (internalRandom 32 a).1 = z := by
      simp only [finalStep, hd, hmod, hb, srcCounted_internalRandom, ← hx, hz]
      rfl
    refine exec_runFn ha h1 h2 (by simp [h4])
      ((perform_octets hval (blinded h3 hrnd hb) (by simp [ecFn, hd]) hstep ho rfl rfl).trans ?_)
    simp only [outputOf, attempts, hb, srcCounted_internalRandom, ← hx, h4]
    cases x with
    | none => simp [stOk, stFault]
    | some sig => simp [stOk]

end Sys2Proof.Machine
end

section
/-! SUPPORT. Regions of the Memory Guard (15 R424 to R446). -/

namespace Sys2Proof.Machine

/-- What a command answers that reads the row of the slot it names, or none where it names none. -/
theorem exec_readingOpt {slot : Env → State → Option Nat} {lost : Env → State → State} {c : Cmd} {w : IWord} {s a : State}
    {k : Nat} {e : Env} {r : Res} (h : runs (readingSlot slot lost c) w s k = true) (he : e = envAt w s k)
    (ha : a = (slot e (atBlock s k)).elim (atBlock s k) (fun i => committedFor i (atBlock s k))) (hr : c.eff e a = r) :
    (.next (runCmd (readingSlot slot lost c) w s) : Host.Outcome State Fault Refusal) =
      .next (answered (readingSlot slot lost c) w s k r) := by
  refine exec_cmd h he rfl ?_
  subst hr
  cases hi : slot e (atBlock s k) with
  | none =>
    rw [hi] at ha
    exact (readingSlot_eff_none (burst_of_runs h he) hi).trans (by rw [ha]; rfl)
  | some i =>
    rw [hi] at ha
    exact (readingSlot_eff (burst_of_runs h he) hi).trans (by rw [ha]; rfl)

/-- A region that is removed (R424): its operations end, its keys and quarantine go. -/
theorem removeRegion_of_some {r st : Nat} {a b : State} {g : Region} (hg : getRegion a r = some g)
    (hb : b = dropKey g.keyid (g.alias_.elim (endRegionOps g st a) (fun o => dropKey o (endRegionOps g st a))))
    (hs : b.cls.spillArea = false) :
    removeRegion r st a = dropQuarantine g.base g.pages { b with mg := { b.mg with regions := tabDel b.mg.regions r } } := by
  have hn : ¬(holdsSpill g.base g.pages && b.cls.spillArea) = true := by simp [hs]
  cases hal : g.alias_ with
  | none =>
    rw [hal] at hb
    simp only [removeRegion, hg, hal]
    subst hb
    exact if_neg hn
  | some o =>
    rw [hal] at hb
    simp only [removeRegion, hg, hal]
    subst hb
    exact if_neg hn

/-- Settles O19, clause by clause. -/
theorem regions : Obligations.Regions := by
  unfold Obligations.Regions
  refine ⟨fun w s k e a b v h he ha hv hb => ?_, fun w s k e a h he ha h1 => ?_,
    fun w s k e a b g h he ha h1 hb h2 h3 => ?_, fun w s k e a g h he ha h1 => ?_, fun w s k e a g h he ha h1 => ?_,
    fun w s k e a h he ha h1 => ?_, fun w s k e a b g v h he ha h1 hv hb => ?_, fun w s k e a g h he ha h1 h2 => ?_,
    fun t r l s a b g ha h1 h2 hb => ?_, fun t r s a g q ha h1 h2 => ?_,
    fun t pass s a b g q l mended bad ha h1 h2 hl hb hmended hbad => ?_⟩
  · subst hv hb
    exact exec_readingOpt h he ha rfl
  · refine exec_cmd h he ha ?_
    simp only [mgRegionRemoveCmd, removeRegion, h1]
  · refine exec_cmd h he ha ?_
    simp only [mgRegionRemoveCmd, removeRegion_of_some h1 hb h3]
  · refine exec_cmd h he ha ?_
    simp only [mgRightsCmd, h1]
  · refine exec_cmd h he ha ?_
    simp only [mgScrubStartCmd, h1]
  · refine exec_cmd h he ha ?_
    cases hg : getRegion a e.a with
    | none => simp only [mgScrubStopCmd, hg]
    | some g => simp only [mgScrubStopCmd, hg, stopScrub, h1 g hg]
  · subst hv
    refine exec_readingOpt h he ha ?_
    simp only [mgRotateBare, h1, beginRotation]
    cases hal : g.alias_ with
    | none =>
      rw [hal] at hb
      rw [hb]
      rfl
    | some o =>
      rw [hal] at hb
      rw [hb]
      rfl
  · refine exec_readingOpt h he ha ?_
    simp only [mgRebuildBare, h1, h2, Bool.false_eq_true, if_false]
  · refine exec_event ha (by simp only [h1, h2]) ?_
    simp only [h1, finishRotation, ← hb]
    cases g.alias_ <;> cases g.rotCseq <;> rfl
  · refine exec_event ha (by simp [h1, h2]) ?_
    simp only [h1, h2]
  · refine exec_event ha (by simp only [h1, h2, Option.isSome_some]) ?_
    subst hl hbad hmended
    simp only [h1, finishScrub, ← hb, h2]
    cases getRegion b pass.region <;> rfl

end Sys2Proof.Machine
end

section
/-! SUPPORT. Accesses to guarded memory (15 R418 to R446). -/

namespace Sys2Proof.Machine

/-- Any access is answered with its status and octets, after its effect (R418). -/
theorem exec_mgAccess {t : Nat} {m : MgMaster} {x : MgAccess} {s a b : State} {st : Nat} {l : Bytes} (ha : a = comeTo t s)
    (h : mgAccess m x a = ((st, l), b)) : exec (.mgAccess t m x) s = .next (emit (.mgAnswer st l) b) := by
  refine exec_event ha rfl ?_
  simp only [h]

/-- An access whose checks pass and whose path is good reads or writes the line of its region (R418, R425). -/
theorem mgAccess_onPath {m : MgMaster} {x : MgAccess} {a b : State} {r : Nat} {g : Region} (h1 : mgNotReady a = 0)
    (h2 : accessFail a m x.write x.addr = 0) (h3 : regionOf a (pageOf x.addr) = some (r, g))
    (h4 : loadPath (pageOf x.addr) x.fault a = (true, b)) :
    mgAccess m x a = if x.write then writeAccess r (pageOf x.addr) (lineIn x.addr) g x b
      else readLine r (pageOf x.addr) (lineIn x.addr) x.fault b := by
  simp only [mgAccess, h1, h2, stOk, ne_eq, not_true_eq_false, if_false, h3, h4, Bool.not_true, Bool.false_eq_true]

/-- Settles O20, clause by clause. -/
theorem memoryAccesses : Obligations.MemoryAccesses := by
  unfold Obligations.MemoryAccesses
  refine ⟨fun t s a p n ha h1 hn => ?_, fun t m x s a ha h1 => ?_, fun t m x s a ha h1 h2 => ?_,
    fun t m x s a b r g ha h1 h2 h3 h4 h5 h6 => ?_, fun t m x s a b r g ha h1 h2 h3 h4 h5 h6 => ?_,
    fun t l o s a x v ha h1 h2 h3 hv h4 => ?_, fun t l o s a b x v st ha h1 h2 h3 hv h4 h5 => ?_,
    fun t n f s a p ha h1 h2 => ?_⟩
  · subst hn
    exact ⟨exec_event ha (decide_eq_true h1) rfl, exec_event ha (decide_eq_true h1) rfl⟩
  · exact exec_mgAccess ha (if_pos h1)
  · exact exec_mgAccess ha ((if_neg (not_not_intro h1)).trans (if_pos h2))
  · refine exec_mgAccess ha ((mgAccess_onPath h1 h2 h3 h4).trans ?_)
    exact (if_neg (Bool.not_eq_true _ ▸ h5)).trans (if_pos h6)
  · refine exec_mgAccess ha ((mgAccess_onPath h1 h2 h3 h4).trans ?_)
    rw [if_pos h5, writeAccess, if_pos (by simp [h6])]
    rfl
  · subst hv
    refine exec_event ha (by simp [h1, h3]) ?_
    simp only [portCopy, h2, ne_eq, h4, not_false_eq_true, if_true]
  · subst hv
    refine exec_event ha (by simp [h1, h3]) ?_
    simp only [portCopy, h2, ne_eq, h4, not_true_eq_false, if_false, stOk, h5]
  · exact exec_event ha (by simp [mgPages, h1, h2]) rfl

end Sys2Proof.Machine
end

section
/-! SUPPORT. The Cellar Book (17 R481 to R488). -/

namespace Sys2Proof.Machine

/-- Settles O21, clause by clause. -/
theorem bookInstructions : Obligations.BookInstructions := by
  unfold Obligations.BookInstructions
  refine ⟨fun w s k e a h he ha => ?_, fun w s k a b h ha h1 hb => ?_, fun w s k a h ha h1 => ?_,
    fun w s k a b h ha h1 hb => ?_, fun w s k a h ha h1 => ?_, fun w s k a b h ha hb => ?_,
    fun t s a l ha h1 hl => ?_, fun t s a ha h1 h2 h3 => ?_, fun t n s a ha h1 h2 h3 h4 => ?_⟩
  · have hk : e.k = k := congrArg Env.k he
    refine exec_cmd h he ha ?_
    simp only [logWriteCmd, ctxObj, hk, isQueueCtx, ctxNum, beq_iff_eq]
  · refine exec_cmd h rfl ha ?_
    have hf : freeze a = { b with book := { b.book with frozen := true } } := by
      rw [freeze, if_neg (by simp [h1]), hb]
    simp only [logFreezeCmd, hf]
  · exact exec_cmd h rfl ha (congrArg (fun x => ({ s := x } : Res)) (if_pos h1))
  · subst hb
    exact exec_cmd h rfl ha (congrArg (fun x => ({ s := x } : Res)) (if_pos h1))
  · exact exec_cmd h rfl ha (congrArg (fun x => ({ s := x } : Res)) (if_neg (by simp [h1])))
  · subst hb
    exact exec_cmd h rfl ha rfl
  · subst hl
    exact exec_event ha (by simp [h1]) rfl
  · refine exec_event ha (by simp [h1]) (if_pos ?_)
    rw [Bool.and_eq_true]
    exact ⟨h2, decide_eq_true h3⟩
  · refine exec_event ha (by simp [h1, h3]) ?_
    have h0 : n ≠ 0 := by omega
    simp only [cbRead, h0, if_false]
    refine if_neg ?_
    by_cases h7 : n = 7
    · simp [emit, h4 h7]
    · simp [h7]

end Sys2Proof.Machine
end

section
/-! SUPPORT. Event bindings, handlers and waits (10 R309 to R344). -/

namespace Sys2Proof.Machine

/-- The event that is recorded next, and the codeword that holds it (R220, R478). -/
theorem recordFirst_of {n : Nat} {a : State} {e : Ev}
    (h : firstEv (a.book.staged.filter (fun e => decide (e.at_ ≤ a.clk.root))) = some e) :
    recordFirst n a =
      let b := codewordRead (stagingBase + a.book.staged.idxOf e % stagingCells) 0 n a
      if codewordLost n then b else recordEv e { b with book := { b.book with staged := b.book.staged.erase e } } := by
  simp only [recordFirst, h]

/-- An event that is due stands in staging. -/
theorem staged_of_firstEv {a : State} {e : Ev}
    (h : firstEv (a.book.staged.filter (fun e => decide (e.at_ ≤ a.clk.root))) = some e) :
    (!a.book.staged.isEmpty) = true := by
  cases hs : a.book.staged with
  | nil => simp [hs, firstEv] at h
  | cons x l => rfl

/-- An operation that has ended has its completion due (R309). -/
theorem ended_of_find {a : State} {q : Nat} {p : PendOp} {r : Nat × Nat × Nat}
    (h : a.seq.pendOps.find? (fun p => p.cseq == q) = some p) (he : p.ended = some r) :
    a.seq.pendOps.any (fun p => p.cseq == q && p.ended.isSome) = true :=
  List.any_eq_true.mpr ⟨p, List.mem_of_find?_eq_some h, by simp [List.find?_some h, he]⟩

/-- Settles O22, clause by clause. -/
theorem handlersAndWaits : Obligations.HandlersAndWaits := by
  unfold Obligations.HandlersAndWaits
  refine ⟨fun w s k e a i b h he ha hb h1 => ?_, fun w s k e a i b h he ha hb h1 h2 => ?_,
    fun w s k e a i h he ha h1 => ?_, fun t s a e ha h1 => ?_, fun t n s a b e ha h1 h2 hb => ?_,
    fun t l s a b en g r rest ha h1 h2 h3 h4 hb => ?_, fun t k s a c m u ha h1 h2 h3 => ?_,
    fun t k s a q u ha h1 h2 h3 => ?_, fun t k s a u ha h1 h2 h3 => ?_, fun t k s a u ha h1 h2 h3 => ?_,
    fun t k s a x q c ha h1 h2 h3 h4 => ?_, fun t q s a p st x d ha h1 h2 h3 => ?_,
    fun t q s a p st x d ha h1 h2 h3 => ?_⟩
  · subst hb
    refine exec_cmd h he ha ?_
    simp only [evBindCmd, h1]
    rfl
  · subst hb
    refine exec_cmd h he ha ?_
    simp only [evBindCmd, h1, h2]
    rfl
  · refine exec_cmd h he ha ?_
    simp only [evUnbindCmd, h1]
    rfl
  · exact exec_event ha (staged_of_firstEv h1) ((recordFirst_of h1).trans rfl)
  · refine exec_event ha (staged_of_firstEv h1) ((recordFirst_of h1).trans ?_)
    rw [hb]
    simp only [codewordLost, decide_eq_true_eq]
    rfl
  · subst hb
    refine exec_event ha (by simp [h1, h2, h3, h4, handlerCtx]) ?_
    simp only [startHandler, h4]
    rfl
  · exact exec_event ha (by simp [h1, h2, h3, expired]) rfl
  · exact exec_event ha (by simp [h1, h2, h3, expired]) rfl
  · exact exec_event ha (by simp [h1, h2, h3]) rfl
  · exact exec_event ha (by simp [h1, h2, timeReached, h3]) rfl
  · exact exec_event ha (by simp [h2, h3, h4, expired, usec]) rfl
  · refine exec_event ha (ended_of_find h1 h2) ?_
    simp only [h1, h2, h3, if_false]
  · refine exec_event ha (ended_of_find h1 h2) ?_
    simp only [h1, h2, h3, if_true]

end Sys2Proof.Machine
end

section
/-! SUPPORT. Programs (10 R307 to R316). -/

namespace Sys2Proof.Machine

/-- A queue without a program and without a fetched descriptor starts the one that the host gives (R314). -/
theorem takeDescriptor_of_none {q : Nat} {d : Bytes} {code data : HostXfer} {a : State}
    (hp : (getQueue a q).prog = none) (hf : (getQueue a q).fetched = none) :
    takeDescriptor q d code data a = startNext q d code data (setQueue a q { getQueue a q with fetched := none }) := by
  simp only [takeDescriptor, hp, descOf, hf, Option.isSome_none, Bool.false_eq_true, if_false, Option.getD_none]

/-- A good descriptor: its copies decide how the program starts (R315). -/
theorem startNext_good {q : Nat} {d : Bytes} {code data : HostXfer} {a b : State} {p : Prog}
    (hd : fieldFail (descChecks (beNat (fit 64 d))) = 0) (hp : p = progOf a.clk.root (beNat (fit 64 d)))
    (hb : b = setCtx a (2 * q + 1) { getCtx a (2 * q + 1) with switched := false, last := 0 }) :
    startNext q d code data a =
      match code, if p.dlen = 0 then .bytes [] else data with
      | .error, _ => copyFails q p stFault (bump 20 0 1 48 1 b)
      | _, .error => copyFails q p stFault (bump 20 0 1 48 1 b)
      | .bytes code, .bytes x => startProgram q p code x b
      | _, _ => commit (setCtx (setQueue b q { getQueue b q with prog := some p }) (2 * q + 1)
          { getCtx b (2 * q + 1) with run := .copying b.clk.root }) := by
  subst hp hb
  refine (if_neg (not_not_intro hd)).trans ?_
  cases code <;> rfl

/-- Local memory holds no queue (R312). -/
theorem getQueue_storeMem (s : State) (a q : Nat) (l : Bytes) : getQueue (storeMem s a l) q = getQueue s q := rfl

/-- Settles O23, clause by clause. -/
theorem programFlow : Obligations.ProgramFlow := by
  unfold Obligations.ProgramFlow
  refine ⟨fun t q d code data s a b p ha h1 h2 h3 h4 h5 h6 h7 h8 h9 h10 hp hb => ?_,
    fun t q d code data s a p ha h1 h2 h3 h4 h5 h6 h7 h8 h9 => ?_, fun t q s a c p ha h1 h2 h3 h4 => ?_,
    fun t q s a p ha h1 h2 h3 h4 h5 => ?_, fun q p code data s => ?_⟩
  · have hg : (decide (q < 16) && a.hostIf.linkUp && (getQueue a q).enabled && !forwardedQueue a q &&
        (fetches a q || (executing a && (getQueue a q).prog.isNone && fenceOpen a (descOf q d a) &&
          decide ((getQueue a q).producer ≠ (getQueue a q).consumer)))) = true := by
      simp [h1, h2, h3, h4, h5, descOf, h6, h7, h8, h9]
    have hs (x y : HostXfer) := (takeDescriptor_of_none h5 h6).trans (startNext_good (code := x) (data := y) h10 hp hb)
    refine ⟨exec_event ha hg ((hs _ _).trans ?_), exec_event ha hg ((hs _ _).trans ?_), exec_event ha hg ((hs _ _).trans ?_)⟩
    · by_cases h0 : p.dlen = 0
      · simp only [h0, if_true]
      · simp only [h0, if_false]
    · rfl
    · by_cases h0 : p.dlen = 0
      · simp only [h0, if_true]
      · simp only [h0, if_false]
  · refine exec_event ha ?_ (if_pos (by simp [h5]))
    have h9' := decide_eq_true h9
    simp only [h1, h2, h3, h4, fetches, h9', h8, h5, h6, h7, Option.isNone_none, Bool.and_self, Bool.not_false, decide_true,
      Bool.true_or]
  · exact exec_event ha (by simp [h1, queueCtx, h2, expired, usec, h3]) (by simp only [h4])
  · exact exec_event ha (by simp [h1, queueCtx, h2, h3, h4, atBoundary, expired, h5]) rfl
  · simp only [startProgram, getQueue_storeMem, bufBase, winBase, queueCtx]

end Sys2Proof.Machine
end

section
/-! SUPPORT. Complexes (10 R305 to R332). -/

namespace Sys2Proof.Machine

/-- The complex that an active one is not (R305). -/
theorem otherComplex_of {s : State} {x : Nat} (h : s.seq.active = some x) : otherComplex s = 1 - x := by
  simp only [otherComplex, h]

/-- With a complex active, the other one may be under repair (R330). -/
theorem underRepair_of {s : State} {x : Nat} (ha : s.seq.active = some x) (hh : health s (1 - x) = .repairing) :
    underRepair s = some (1 - x) := by
  simp only [underRepair, ha, hh, if_true]

/-- A complex's health is all that changes. -/
theorem setHealth_seq (x : Nat) (h : Health) (s : State) :
    (setHealth x h s).seq.repairBack = s.seq.repairBack ∧ (setHealth x h s).seq.holdoff = s.seq.holdoff ∧
      (setHealth x h s).seq.active = s.seq.active := by
  simp only [setHealth]
  split <;> exact ⟨rfl, rfl, rfl⟩

/-- Settles O24, clause by clause. -/
theorem complexes : Obligations.Complexes := by
  unfold Obligations.Complexes
  refine ⟨fun w s k a h ha => ?_, fun w s k a b h ha hb => ?_, fun w s k e a h he ha => ?_,
    fun w s k e a h he ha => ?_, fun s x b h1 h2 h3 h4 hb => ?_, fun s h1 => ?_,
    fun t x l s a b ha h1 h2 h3 hb h4 => ?_, fun t x l s a y b ha h1 h2 h3 h4 hb => ?_,
    fun t k s a x q c ha h1 h2 h3 => ?_, fun t s a b x ha h1 h2 hb => ?_, fun t s a b x ha h1 h2 h3 hb => ?_,
    fun t s a b x ha h1 h2 h3 h4 h5 h6 hb => ?_, fun t s a u ha h1 h2 h3 => ?_, fun x s b c hc hb => ?_,
    fun x s b hb => ?_⟩
  · exact exec_cmd h rfl ha rfl
  · have hr : tryGo (runCmd sysSwitchGoCmd w s) = b := by
      rw [hb, runCmd_runs h, ha]
      rfl
    refine congrArg Host.Outcome.next ?_
    simp only [hr, Bool.and_eq_true, Option.isNone_iff_eq_none]
  · exact exec_cmd h he ha rfl
  · exact exec_cmd h he ha rfl
  · subst hb
    simp only [tryGo, h1, h2, decide_true, Bool.and_self, if_true, planned, h3, h4]
  · simp only [tryGo, h1, Bool.false_and, Bool.false_eq_true, if_false]
  · subst hb
    refine exec_event ha (by simp [h1, h2, h3]) ?_
    simp only [complexFaultEff, h3, h4, if_true]
  · subst hb
    refine exec_event ha (by simp [h1, h2, h3]) ?_
    simp [complexFaultEff, h3, h4]
    rfl
  · refine exec_event ha (by simp [h1, h2, h3, expired, usec]) ?_
    simp only [h1]
  · have hg : (a.seq.active.isSome && (decide (health a (otherComplex a) = .untested) ||
        (decide (health a (otherComplex a) = .standby) && waited a a.seq.testedAt (1000 * msec)))) = true := by
      simp [h1, otherComplex_of h1, h2]
    have hh : health b (1 - x) ≠ .standby := by
      rw [hb]
      exact fun hs => Health.noConfusion (h2.symm.trans hs)
    refine ⟨exec_event ha hg ?_, exec_event ha hg ?_⟩
    · simp only [otherComplex_of h1, ← hb, if_true]
    · simp only [otherComplex_of h1, ← hb, Bool.false_eq_true, if_false, hh]
  · have hg : (a.seq.active.isSome && (decide (health a (otherComplex a) = .untested) ||
        (decide (health a (otherComplex a) = .standby) && waited a a.seq.testedAt (1000 * msec)))) = true := by
      simp [h1, otherComplex_of h1, h2, waited, msec, h3]
    have hh : health b (1 - x) = .standby := by
      rw [hb]
      exact h2
    refine ⟨exec_event ha hg ?_, exec_event ha hg ?_⟩
    · simp only [otherComplex_of h1, ← hb, if_true]
    · simp only [otherComplex_of h1, ← hb, Bool.false_eq_true, if_false, hh, if_true]
  · have hg : ((underRepair a).isSome && waited a a.seq.repairFrom (2 * msec)) = true := by
      simp [underRepair_of h1 h2, waited, msec, h3]
    refine ⟨exec_event ha hg ?_, exec_event ha hg ?_⟩
    · obtain ⟨hr, hd, hc⟩ := setHealth_seq (1 - x) .standby a
      rw [← hb] at hr hd hc
      simp only [underRepair_of h1 h2, if_true, ← hb, hr, h4, hd, h5, hc, h1, ne_eq, not_false_eq_true, decide_true,
        Option.isSome_some, Bool.and_self, msec, Nat.mul_assoc, Nat.reduceMul]
    · simp only [underRepair_of h1 h2, Bool.false_eq_true, if_false]
  · exact exec_event ha (by simp [h1, h2, h3]) rfl
  · simp only [noteFault, ← hc, ← hb, secondFault]
    cases tabFind s.seq.returnedAt x with
    | none => rfl
    | some u =>
      simp only [decide_eq_true_eq]
      rfl
  · simp only [activeFault, ← hb]
    rfl

end Sys2Proof.Machine
end

section
/-! SUPPORT. Commands of the Crust (16 R450 to R472). -/

namespace Sys2Proof.Machine

/-- Extending M4 leaves the mode (R454). -/
theorem measureArm_mode (n : Nat) (e : Env) (a : State) : (measureArm n e a).crust.mode = a.crust.mode := rfl

/-- Settles O25, clause by clause. -/
theorem crustCommands : Obligations.CrustCommands := by
  unfold Obligations.CrustCommands
  refine ⟨fun w s k e a c h he ha hc => ?_, fun w s k e a b h he ha h1 hb => ?_, fun w s k e a h he ha h1 => ?_,
    fun w s k e a h he ha h1 => ?_, fun w s k e a h he ha h1 => ?_, fun w s k e a b h he ha hb => ?_,
    fun w s k e a b h he ha hb => ?_, fun w s k e a b h he ha hb => ?_, fun t s a m q c ha h1 h2 => ?_,
    fun t s a ha h1 h2 => ?_, fun t s a ha h1 => ?_⟩
  · refine exec_cmd h he ha ?_
    simp only [crustCfgCmd, setMonitor, ← hc]
    cases tabFind c.crust.watches e.a <;> rfl
  · refine exec_cmd h he ha ?_
    simp only [crustArmCmd, measureArm_mode, h1, ← hb]
    rfl
  · refine exec_cmd h he ha ?_
    simp only [crustArmCmd, measureArm_mode, h1, if_true]
  · refine exec_cmd h he ha ?_
    simp only [crustDisarmCmd, measureArm_mode, h1, if_false]
  · refine exec_cmd h he ha ?_
    simp only [crustTestCmd, measureArm_mode, h1]
    rfl
  · subst hb
    exact exec_cmd h he ha rfl
  · subst hb
    exact exec_cmd h he ha rfl
  · subst hb
    exact exec_cmd h he ha rfl
  · refine exec_event ha (by simp [h1, h2, expired, msec]) ?_
    simp only [h1]
    rfl
  · exact exec_event ha (by simp [h1, h2]) rfl
  · exact exec_event ha (by simp [h1]) rfl

end Sys2Proof.Machine
end

section
/-! SUPPORT. Samples of the Crust (16 R452 to R464). -/

namespace Sys2Proof.Machine

/-- A fold whose step changes nothing at the members of a list leaves its start. -/
theorem foldl_of_fixed {α β : Type} {f : β → α → β} {l : List α} (h : ∀ n ∈ l, ∀ r, f r n = r) (r : β) :
    l.foldl f r = r := by
  induction l with
  | nil => rfl
  | cons x l ih =>
    rw [List.foldl_cons, h x (List.mem_cons_self ..)]
    exact ih fun n hn => h n (List.mem_cons_of_mem _ hn)

/-- A fold whose step changes something at one member only takes that step. -/
theorem foldl_of_single {α β : Type} {f : β → α → β} {l : List α} {m : α} (hl : l.Nodup) (hm : m ∈ l)
    (h : ∀ n ≠ m, ∀ r, f r n = r) (r : β) : l.foldl f r = f r m := by
  induction l with
  | nil => cases hm
  | cons x l ih =>
    obtain ⟨hx, hl⟩ := List.nodup_cons.mp hl
    rw [List.foldl_cons]
    rcases List.mem_cons.mp hm with rfl | hm
    · exact foldl_of_fixed (fun n hn => h n fun e => hx (e ▸ hn)) _
    · rw [h x fun e => hx (e ▸ hm)]
      exact ih hl hm

/-- One sight at an edge is taken by its monitor alone (R452). -/
theorem takeSights_single {x : CrustSight} (a : State) (hm : sightMonitor x < 22) :
    takeSights [x] a = ((watch (sightMonitor x) x a).1, (watch (sightMonitor x) x a).2.toList) := by
  refine (foldl_of_single List.nodup_range (List.mem_range.mpr hm) (fun n hn r => ?_) (a, [])).trans ?_
  · have hf : [x].filter (fun x => sightMonitor x == n) = [] := by simp [Ne.symm hn]
    rw [hf]
    rfl
  · have hf : [x].filter (fun y => sightMonitor y == sightMonitor x) = [x] := by simp
    rw [hf]
    rfl

/-- What a sight of a monitor other than the one of stored words leaves: the reading of VBAT (R452). -/
theorem sawWords_of_lt {x : CrustSight} {a : State} : sightMonitor x < 21 →
    sawWords x a = { a with crust := { a.crust with
      vbat := match x with | .rail 18 mv _ _ => mv | _ => a.crust.vbat } } := by
  intro hm
  cases x with
  | words l => exact absurd hm (Nat.lt_irrefl _)
  | osc n => exact absurd hm (Nat.lt_irrefl _)
  | rail m mv o p =>
    by_cases h : m = 18
    · subst h
      rfl
    · simp only [sawWords]
      split <;> simp_all
  | _ => rfl

/-- The first sample of a monitor in a sampling period (R452). -/
theorem watch_of {x : CrustSight} {a c : State} {m p n since : Nat} (hl : m < 21) (hi : injected a m = false)
    (hs : settledSight x a = (x, a)) (hc : sawWords x a = c) (hp : p = periodOf c m c.clk.root)
    (hf : ∀ w, tabFind c.crust.watches m = some w → w.period ≠ p) (hsince : since = tabGet 0 c.crust.filterFrom m)
    (hn : n = (if shows c m c.clk.root since x then nextCount c m p x (tabFind c.crust.watches m) else 0)) :
    watch m x a =
      let b : State := { c with crust := { c.crust with
        watches := tabPut c.crust.watches m { sight := x, at_ := c.clk.root, period := p, count := n, since := since } } }
      (b, if n = filterCount b m && monitorLive b m then some ⟨m, sightDetail b n x⟩ else none) := by
  have hr : (match tabFind c.crust.watches m with
      | some w => decide (m < 12 ∨ m = 19 ∨ m = 20) && decide (w.period = p ∧ w.count ≠ 0)
      | none => false) = false := by
    cases hw : tabFind c.crust.watches m with
    | none => rfl
    | some w => simp [hf w hw]
  have h21 : m ≠ 21 := Nat.ne_of_lt hl
  simp only [watch, hi, Bool.false_eq_true, if_false, hs, hc, ← hp, ← hsince, h21, ← hn]
  exact if_neg (by rw [Bool.not_eq_true]; exact hr)

/-- Settles O26, clause by clause. -/
theorem crustSamples : Obligations.CrustSamples := by
  unfold Obligations.CrustSamples
  refine ⟨fun t x s a c m p n since b ha h1 hm h2 h3 h4 hc hp h5 hsince hn hb => ?_, fun t s a ha => ?_,
    fun x a u hu => ?_, fun s n root since h => ?_, fun s n root since a b => ?_,
    fun s m root since mv outside past h1 => ?_, fun s root since die c h1 => ?_, fun s root since die c h1 => ?_,
    fun s n phase root since => ?_, fun id mask s w i hw h1 h2 h3 => ?_⟩
  · subst hm
    refine exec_event ha rfl ?_
    have hc' : sawWords x a = c := (sawWords_of_lt h2).trans hc.symm
    have hw := watch_of h2 h3 h4 hc' hp h5 hsince hn
    have hb' : asBefore a = a := if_neg h1
    simp only [alarmEdge, hb', h1, if_false, takeSights_single a (Nat.lt_succ_of_lt h2), hw, ← hb, apply_ite Option.toList,
      Option.toList_some, Option.toList_none]
  · refine exec_event ha rfl ?_
    by_cases hb : a.crust.before.1 = pclkEdge a
    · simp only [alarmEdge, asBefore, hb, if_true]
      rfl
    · simp only [alarmEdge, asBefore, hb, if_false]
      rfl
  · simp only [raiseAlarms, List.isEmpty_cons, Bool.false_eq_true, if_false, List.map_cons, List.map_nil, List.foldl_cons,
      List.foldl_nil, Nat.zero_max, ← hu]
  · simp only [shows, bne, ne_eq, decide_not, Bool.beq_eq_decide_eq]
  · rw [Bool.eq_iff_iff]
    simp [shows]
  · simp only [shows, h1, Bool.false_or]
  · simp only [shows, tempReadings, h1, Bool.false_eq_true, if_false]
  · simp only [shows, tempReadings, h1, if_true, List.any_cons, List.any_nil, Bool.or_false]
  · rfl
  · have hb : bumpCrust 22 1 s = bump 18 0 22 48 1 s := rfl
    simp only [turnOver, ← hw, h3, h1, if_false, h2, if_true, hb]

end Sys2Proof.Machine
end

section
/-! SUPPORT. Arriving frames (02 R55, 03 R83 to R116). -/

namespace Sys2Proof.Machine

/-- On a port whose stamping is off a frame arrives without one (R281). -/
theorem arrivalOf_unstamped {p : Nat} {l : Bytes} {st : Bool} {s : State} (h : nb (getPort s p).stamp 63 = false) :
    arrivalOf p l st s = ({ port := p, octets := l, ends := s.clk.root + octTime s p (l.length - 1)
                            stamp := ingressStamp s p, stomp := st }, s) := by
  have ht : tsPtpen s p = false := h
  have hr : recognise p l s = (false, s) := by simp [recognise, ht]
  simp only [arrivalOf, hr, Bool.false_and]

/-- A frame whose VID is not the reserved one takes the lowest matching rule, else the entry of its VLAN, else the miss action
(R83 to R86). -/
theorem decide83_of_vid {s : State} {p : Nat} {l : Bytes} (h : ¬(isTagged l = true ∧ frameVid l = 4095)) :
    decide83 s p l = match firstRule s p l with
      | some (i, v) => .rule i (ruleDecision v)
      | none =>
        let v := mapEntry s p (frameVid l)
        if nb v 63 then .map (mapDecision v) else .miss (nf (mapEntry s p 4095) 63 62 == 1) :=
  if_neg (by simpa using h)

/-- The peer that a lookup on a table without a flush finds decides how the frame goes on (R103, R106). -/
theorem lookupPeer_of_absent {k : Parked} {s v : State} {set : Nat} (hf : s.cls.flush = none) (hv : v = lookupView s)
    (hset : set = peerSet s k.port k.sci)
    (hp : s.cls.spillPath.any (fun f => f.port == k.port && f.sci == k.sci) = false) :
    lookupPeer k s = match findWay v 4 set k.port k.sci with
      | some w => match peerAt v set w with
        | some p => meetPeer toCycle4 p k s
        | none => s
      | none => if spillCount v set ≠ 0 then enterSpill k s else unknownSci false k s := by
  subst hv hset
  simp only [lookupPeer, syncFlush_of_none hf, hp, Bool.false_eq_true, if_false] <;> rfl

/-- A line frame with a SecTAG on a port that receives takes the path of protected frames (R95). -/
theorem exec_lineFrame {t p : Nat} {l : Bytes} {x : MacRx} {s a b d u : State} (ha : a = settle (comeTo t s))
    (hp : p / 32 = 0) (hd : d = countSeen p x.mark x.seen a) (hr : receives d p = true) (hb : b = rxInterrupt p l.length d)
    (hu : lineFrame p l x.mark b = u) : exec (.lineFrameReceive t p l x) s = .next u := by
  subst hb hd
  exact exec_frameEvent ha (by simp [isLine, hp]) ((if_pos hr).trans hu)

/-- Settles O29, clause by clause. -/
theorem framesArrive : Obligations.FramesArrive := by
  unfold Obligations.FramesArrive
  refine ⟨fun t p l x s a b ha h1 hb h2 => ?_, fun t p l x s a b ha h1 hb h2 => ?_, fun s p => ?_,
    fun p l m s n b h1 hb h2 => ?_, fun p l m s n b h1 hb h2 h3 h4 => ?_, fun p l m s b h1 h2 h3 hb => ?_,
    fun p l m s h1 h2 => ?_, fun x s h1 h2 => ?_, fun x s i v h1 h2 => ?_, fun x s v h1 h2 hv h3 => ?_,
    fun x s b h1 h2 h3 hb => ?_, fun t p l x s a c b ha h1 hc h2 hb h3 => ?_,
    fun t p l x s a d b c ha h1 hd h2 hb h3 h4 h5 hc => ?_, fun t p l x s a d b n ha h1 hd h2 hb h3 h4 h5 => ?_,
    fun t p l x s a d b c ha h1 hd h2 hb h3 h4 h5 hc => ?_, fun k s v set i x h1 hv hset h2 h3 h4 => ?_,
    fun k s v set h1 hv hset h2 h3 h4 => ?_, fun k s v set h1 hv hset h2 h3 h4 => ?_, fun f x k s h1 => ?_,
    fun f x k s h1 => ?_, fun c k s => ?_, fun new k s b pol h1 hb hpol => ?_⟩
  · subst hb
    exact exec_frameEvent ha (by simp [h1]) (if_pos h2)
  · subst hb
    exact exec_frameEvent ha (by simp [h1]) (if_neg (by simp [h2]))
  · rfl
  · have hl : (lateFault n && decide (etherType l ≠ 0x8808)) = false := by
      rcases h2 with h | h
      · simp [h]
      · simp [h]
    simp only [clearFrame, h1, hl, Bool.false_eq_true, if_false]
    rfl
  · have hl : (lateFault n && decide (etherType l ≠ 0x8808)) = true := by simp [h2, h3]
    simp only [clearFrame, h1, hl, if_true, ← hb, arrivalOf_unstamped h4]
  · have hc : countGood p l s = b := hb.symm
    have hn : nb (getPort b p).stamp 63 = false := by
      rw [hb]
      exact h3
    simp only [clearFrame, h1, h2, if_false, hc, arrivalOf_unstamped hn]
  · simp only [clearFrame, h1, h2, if_true]
  · simp only [decideClear, decide83, h1, h2, beq_self_eq_true, Bool.and_self, if_true, countCls, bumpCls, clsPlace, isLine,
      beq_iff_eq]
  · simp only [decideClear, decide83_of_vid h1, h2]
  · subst hv
    have hb : nb (mapEntry (lookupView s) x.port (frameVid x.octets)) 63 = true := h3
    simp only [decideClear, decide83_of_vid h1, h2, hb, if_true]
    rfl
  · have hn : nb (mapEntry (lookupView s) x.port (frameVid x.octets)) 63 = false := h3
    have hc : countCls x (clsPlace x.port 0 14) s = b := by
      rw [hb, countCls, clsPlace, isLine]
      simp only [beq_iff_eq]
      rfl
    simp only [decideClear, decide83_of_vid h1, h2, hn, Bool.false_eq_true, if_false, hc, beq_iff_eq]
    rfl
  · exact exec_lineFrame ha h1 hc h2 hb (if_neg h3)
  · refine exec_lineFrame ha h1 hd h2 hb ((if_pos h3).trans ?_)
    simp only [macsecFrame, h4, h5, Bool.not_true, Bool.false_eq_true, if_false, if_true, Option.isNone_none, hc]
    rfl
  · refine exec_lineFrame ha h1 hd h2 hb ((if_pos h3).trans ?_)
    simp only [macsecFrame, h4, h5, Bool.not_false, if_true]
  · have hc' : countGood p l b = c := hc.symm
    refine exec_lineFrame ha h1 hd h2 hb ((if_pos h3).trans ?_)
    simp only [macsecFrame, h4, h5, Bool.not_true, Bool.false_eq_true, if_false, if_true, Option.isNone_none, hc']
  · simp only [lookupPeer_of_absent h1 hv hset h2, h3, h4]
  · simp only [lookupPeer_of_absent h1 hv hset h2, h3, h4, ne_eq, not_false_eq_true, if_true]
    rfl
  · simp only [lookupPeer_of_absent h1 hv hset h2, h3, h4, ne_eq, not_true_eq_false, if_false]
  · exact if_pos h1
  · exact if_neg (by simp [h1])
  · rfl
  · have hc : bumpCls k.port 1 1 s = b := hb.symm
    simp only [unknownSci, h1, ne_eq, not_true_eq_false, if_false, hc, hpol]
    rfl

end Sys2Proof.Machine
end

section
/-! SUPPORT. Frames that wait and frames that are checked (03 R103, 04 R136, 05 R156, 06 R212). -/

namespace Sys2Proof.Machine

/-- The frame and its end as the check of its ICV finds them (R156): what happens with the frame once its slot is free. -/
theorem icvCheck_of {f : RxFrame} {s b : State} {ok : Bool} (ho : (openFrame f).2 = ok) (hl : f.lost = false)
    (hb : b = releaseSlot f.channel f.slot (rxVerdict f ok (openFrame f).1.length s)) :
    icvCheck f s =
      if f.flow then
        settleWire (32 + f.port) (releaseTail (32 + f.port) f.num (!(ok && decide (f.mark = .clean)))
          (if !(ok && decide (f.mark = .clean)) && tailWaits b (32 + f.port) f.num then countCh f.channel 15 1 b else b))
      else if ok && decide (f.mark = .clean) then deliverRx f (f.octets.take 12 ++ (openFrame f).1) b
      else freeFrame f.account f.cells f.chain b := by
  subst hb ho
  simp only [icvCheck, hl, Bool.false_eq_true, if_false]

/-- Whether an association receives frames (R212). -/
theorem receiving_of {u : Sub} (h : u.state = .active ∨ u.state = .loaded ∨ u.state = .draining) :
    (!(u.state == .loaded || u.state == .active || u.state == .draining)) = false := by
  rcases h with h | h | h <;> simp [h]

/-- Settles O30, clause by clause. -/
theorem framesChecked : Obligations.FramesChecked := by
  unfold Obligations.FramesChecked
  refine ⟨fun t i s a b k v set j x ha h1 h2 h3 h4 hb hv hset h5 h6 => ?_, fun t i s a k ha h1 h2 => ?_,
    fun t c r s a b i l st ha h1 h2 h3 h4 => ?_, fun c s => ?_, fun t c r s a ha h1 h2 h3 => ?_,
    fun t c s a b i l ha h1 h2 h3 hb h4 => ?_, fun t p s a f ha h1 => ?_, fun s f => ?_, fun f s b h1 h2 h3 hb => ?_,
    fun f s b h1 h2 h3 h4 hb => ?_, fun f s b h1 h2 h3 h4 hb => ?_, fun f s b c h1 h2 h3 hb hc => ?_,
    fun f n s h1 => ?_, fun f n s h1 => ?_, fun h u l h1 => ?_, fun h u l h1 h2 => ?_, fun h u l h1 h2 h3 => ?_⟩
  · have hf : syncFlush b = b := syncFlush_of_none (by rw [hb]; exact h1)
    refine exec_frameEvent ha (by simp [h2, h3, usec, h4]) ?_
    simp only [h3, ← hb, hf, ← hv, ← hset, h5, h6]
  · refine exec_event ha (by simp [h1, h2, expired, usec]) ?_
    simp only [h1]
    rfl
  · refine exec_frameEvent ha (by simp [h1, h2, usec, h3]) ?_
    simp only [h1, h4, fillLost, decide_eq_true_eq]
    rfl
  · exact ⟨rfl, rfl, fun h => if_neg (by simp [h])⟩
  · exact exec_frameEvent ha (by simp [h1, filledMeanwhile, h2, h3]) (by simp only [h1])
  · refine exec_frameEvent ha (by simp [h1, h2, expired, usec, h3]) ?_
    simp only [h1, ← hb, h4]
  · refine exec_frameEvent ha (by simp [h1]) ?_
    simp only [h1]
    rfl
  · rfl
  · rw [icvCheck_of h1 h2 hb, if_neg (by simp [h3]), if_neg (by simp)]
  · rw [icvCheck_of h1 h3 hb, if_neg (by simp [h4]), if_pos (by simp [h2])]
  · rw [icvCheck_of h1 h3 hb, if_pos h4]
    simp only [h2, decide_true, Bool.and_self, Bool.not_true, Bool.false_and, Bool.false_eq_true, if_false]
  · rw [icvCheck_of h1 h2 hb, if_pos h3]
    simp only [Bool.false_and, Bool.not_false, Bool.true_and, hc]
  · simp only [rxVerdict, Bool.false_eq_true, if_false, h1, if_true]
  · simp only [rxVerdict, h1, Bool.false_eq_true, if_false]
  · rcases h1 with h | h | h <;> simp [judge, h]
  · simp only [judge, receiving_of h1, bne_iff_ne, ne_eq, h2, not_false_eq_true, if_true, Bool.false_eq_true, if_false]
  · have ha : (tagPn l = lastPn h ∧ u.inFlight.contains (tagPn l) = true ∧ hRwin h = 0) ↔
        (tagPn l = lastPn h ∧ u.inFlight.contains (lastPn h) = true ∧ hRwin h = 0) := and_congr_right fun e => by rw [e]
    simp only [judge, receiving_of h1, h2, bne_self_eq_false, h3, Bool.false_eq_true, if_false, Bool.and_eq_true,
      decide_eq_true_eq, and_assoc, ha]

end Sys2Proof.Machine
end

section
/-! SUPPORT. Frames that leave (02 R54, 05 R171, 08 R236, 09 R281). -/

namespace Sys2Proof.Machine

/-- Settles O31, clause by clause. -/
theorem framesLeave : Obligations.FramesLeave := by
  unfold Obligations.FramesLeave
  refine ⟨fun t p s a ha h1 h2 => ?_, fun t p s a d ha h1 h2 h3 => ?_, fun t p s a d ha h1 h2 => ?_,
    fun t x s a f ha h1 h2 h3 h4 h5 h6 => ?_, fun t x s a f ha h1 h2 => ?_, fun p f r s b g bad h1 h2 hg => ?_,
    fun t p c s a ha h1 h2 h3 h4 h5 h6 => ?_, fun t p c s a ha h1 h2 h3 h4 h5 h6 => ?_, fun t s a b ha h1 hb => ?_⟩
  · exact exec_frameEvent ha (by simp [h1, h2]) rfl
  · exact exec_frameEvent ha (by simp [h1, h2, h3]) rfl
  · exact frameEvent_off ha (by simp [h1, Nat.not_lt.mpr h2])
  · refine exec_frameEvent ha ?_ (by simp only [h1, h2, if_true])
    have hs : (f.commit.isSome || decide (firstStart a x.port f ≤ a.clk.root)) = true := by simpa using h6
    simp only [startsNow, h1, h2, h3, h4, h5, hs, Option.isNone_none, Bool.and_self, Bool.or_true]
  · refine exec_frameEvent ha ?_ (by simp only [h1, h2, Bool.false_eq_true, if_false])
    simp only [startsNow, h1, h2, Bool.not_false, Bool.true_or]
  · have hf : (if bad then hurtLeaving f else f) = g := hg.symm
    have hc : g.commit = none := by
      rw [hg]
      cases bad <;> exact h1
    simp only [startFrame, h2, hf, hc]
    rfl
  · exact exec_frameEvent ha (by simp [h1, h2, h3, h4, h5, h6]) (by simp only [h4, if_true, pauseVector])
  · exact exec_frameEvent ha (by simp [h1, h2, h3, h4, h5, h6]) (by simp only [h4, if_false, pauseVector])
  · subst hb
    exact exec_frameEvent ha (by simp [h1, msec]) rfl

end Sys2Proof.Machine
end

section
/-! SUPPORT. Cipher slices and the Cask scrubber (05 R163 to R188, 07 R218 to R222). -/

namespace Sys2Proof.Machine

/-- Settles O32, clause by clause. -/
theorem cipherAndScrub : Obligations.CipherAndScrub := by
  unfold Obligations.CipherAndScrub
  refine ⟨fun t x g s a b r q ha h1 hb => ?_, fun t x pos gh s a b c bad n m ha h1 h2 hb hn hm hc => ?_,
    fun t x s a ha h1 h2 => ?_, fun t x s a v ha h1 h2 => ?_, fun t cell cw r s a ha h1 h2 h3 => ?_,
    fun t cell cw r s a ha h1 h2 h3 => ?_, fun x cw r s h1 h2 h3 => ?_, fun x cw r s h1 h2 h3 h4 => ?_,
    fun x cw r s h1 h2 h3 => ?_, fun x cw r s h1 h2 => ?_⟩
  · subst hb
    refine exec_frameEvent ha (by simp [h1]) ?_
    simp only [h1]
    rfl
  · subst hc hm hn hb
    refine exec_frameEvent ha (by simp [h1]) ?_
    simp only [h1, h2]
    rfl
  · exact exec_event ha (by simp [h1, h2, msec]) rfl
  · have hg : ((sliceIn (getArray a x) .testSeat).isSome && !(getArray a x).seatPassed) = true := by simp [h1, h2]
    refine ⟨exec_event ha hg ?_, exec_event ha hg ?_⟩
    · simp only [h1, if_true]
      rfl
    · simp only [h1, Bool.false_eq_true, if_false]
      rfl
  · refine exec_frameEvent ha (by simp [h1, h2]) ?_
    simp only [Nat.not_lt.mpr h3, if_false]
  · refine exec_frameEvent ha (by simp [h1, h2]) ?_
    simp only [h3]
    rfl
  · simp [scrubCell, codewordLost, codewordMended, h1, h2, h3]
  · simp [scrubCell, codewordLost, codewordMended, h1, Nat.not_lt.mpr h2, h2, h3, h4]
  · simp [scrubCell, codewordLost, h1, h2, h3]
  · simp [scrubCell, codewordLost, h1, h2]

end Sys2Proof.Machine
end

section
/-! SUPPORT. Host queues and rings (19 R517 to R523). -/

namespace Sys2Proof.Machine

/-- Disabling an enabled queue cuts its program; an entry size other than the enabled one is counted (R517). -/
theorem disableQueue_enabled {q v : Nat} {a b : State} (he : (getQueue a q).enabled = true)
    (hb : b = bump 20 0 5 48 (if v % 16 = (getQueue a q).size then 0 else 1) a) :
    disableQueue q v a = cutQueue q true b := by
  refine (if_pos he).trans (congrArg (cutQueue q true) (Eq.trans ?_ hb.symm))
  by_cases h : v % 16 = (getQueue a q).size
  · simp [h, bumpHost, bn]
  · simp [h, bumpHost, bn]

/-- Cutting a queue with a program (R316): at an instruction boundary the program ends at once. -/
theorem cutQueue_of_prog {q : Nat} {b : State} {p : Prog} (hp : (getQueue b q).prog = some p) :
    cutQueue q true b =
      let r := (getCtx b (queueCtx q)).run
      let c := setQueue b q { getQueue b q with fetched := none, prog := some { p with cut := some true } }
      if atBoundary r && executing b && (getCtx b (queueCtx q)).due.isNone then endProgram q stAborted c
      else if isCopying r then
        commit (setCtx (setQueue b q { getQueue b q with
            fetched := none, prog := none, enabled := (getQueue b q).enabled && !true }) (queueCtx q)
          { getCtx b (queueCtx q) with run := .idle })
      else c := by
  simp only [cutQueue, hp]

/-- A ring that has entries offers the oldest punt, or takes the next entry (R522, R523). -/
theorem puntDeliver_on {n : Nat} {a : State} (h1 : n < 2) (h2 : a.hostIf.linkUp = true) (h3 : (getRing a n).enabled = true)
    (h4 : (getRing a n).producer ≠ (getRing a n).consumer) :
    (decide (n < 2) && a.hostIf.linkUp && (getRing a n).enabled &&
      decide ((getRing a n).producer ≠ (getRing a n).consumer)) = true := by
  simp [h1, h2, h3, h4]

theorem injectTake_on {n : Nat} {a : State} (h1 : n < 2) (h2 : a.hostIf.linkUp = true)
    (h3 : (getRing a (2 + n)).enabled = true) (h4 : (getRing a (2 + n)).producer ≠ (getRing a (2 + n)).consumer) :
    (decide (n < 2) && a.hostIf.linkUp && (tabHas a.hostIf.injectRead n || ((getRing a (2 + n)).enabled &&
      decide ((getRing a (2 + n)).producer ≠ (getRing a (2 + n)).consumer)))) = true := by
  simp [h1, h2, h3, h4]

/-- Settles O33, clause by clause. -/
theorem hostQueues : Obligations.HostQueues := by
  unfold Obligations.HostQueues
  refine ⟨fun t q v s a n ha h1 h2 hn h3 h4 => ?_, fun t q v s a n ha h1 h2 hn h3 => ?_,
    fun t q v s a n ha h1 h2 hn h3 h4 => ?_, fun t q v s a b n ha h1 h2 hn h3 h4 hb h5 => ?_,
    fun t q v s a b n p ha h1 h2 hn h3 h4 hb h5 h6 h7 h8 => ?_,
    fun t q v s a b n p ha h1 h2 hn h3 h4 hb h5 h6 h7 => ?_, fun t r v s a n ha h1 h2 hn h3 => ?_,
    fun t r v s a n ha h1 h2 hn h3 h4 => ?_, fun t r v s a n ha h1 h2 h3 hn h4 h5 => ?_, fun r s h1 => ?_,
    fun r s h1 => ?_, fun t n x s a b c f l v ha h1 h2 h3 h4 h5 hv h6 h7 h8 hc => ?_,
    fun t n x s a b f l v ha h1 h2 h3 h4 h5 hv h6 h7 h8 => ?_, fun t n x s a f l v ha h1 h2 h3 h4 h5 hv h6 h7 => ?_,
    fun t n s a f l ha h1 h2 h3 => ?_, fun t n x y s a v ha h1 h2 h3 h4 h5 hv h6 => ?_,
    fun t n x s a v l ha h1 h2 h3 h4 h5 hv h6 h7 => ?_, fun t k s a c ha h1 h2 h3 h4 => ?_,
    fun t n s a c l ha h1 h2 => ?_⟩
  · subst hn
    refine exec_event ha (by simp [h1, h2]) ?_
    simp only [h3, h4, Bool.not_true, Bool.or_self, Bool.false_eq_true, if_false, doorFits, decide_eq_true_eq]
    rfl
  · subst hn
    refine exec_event ha (by simp [h1, h2]) ?_
    simp only [h3]
    rfl
  · subst hn
    exact exec_event ha (by simp [h1, h2, h4]) (if_neg (by simp [h3]))
  · subst hn
    refine exec_event ha (by simp [h1, h2, h4]) ((disableQueue_enabled h3 hb).trans ?_)
    have hq : getQueue b q = getQueue a q := by rw [hb, getQueue_bump]
    simp only [cutQueue, hq, h5, if_true]
  · subst hn
    refine exec_event ha (by simp [h1, h2, h4]) ((disableQueue_enabled h3 hb).trans ?_)
    have hq : getQueue b q = getQueue a q := by rw [hb, getQueue_bump]
    have hc : getCtx b (queueCtx q) = getCtx a (queueCtx q) := by rw [hb, getCtx_bump]
    rw [cutQueue_of_prog (hq ▸ h5)]
    simp only [hc, hq]
    exact if_pos (by simp [h6, h7, h8])
  · subst hn
    refine exec_event ha (by simp [h1, h2, h4]) ((disableQueue_enabled h3 hb).trans ?_)
    have hq : getQueue b q = getQueue a q := by rw [hb, getQueue_bump]
    have hc : getCtx b (queueCtx q) = getCtx a (queueCtx q) := by rw [hb, getCtx_bump]
    have hn : (atBoundary (getCtx a (queueCtx q)).run && executing b && (getCtx a (queueCtx q)).due.isNone) = false := by
      rcases h6 with h | h | h
      · simp [h]
      · simp [h]
      · simp [Option.isNone_eq_false_iff, Option.isSome_iff_ne_none, h]
    rw [cutQueue_of_prog (hq ▸ h5)]
    simp only [hc, hq, hn, h7, Bool.false_eq_true, if_false]
  · subst hn
    refine exec_event ha (by simp [h1, h2]) ?_
    simp only [h3, Bool.not_true, Bool.false_eq_true, if_false, doorFits, decide_eq_true_eq]
    rfl
  · subst hn
    exact exec_event ha (by simp [h1, h2, h4]) (if_neg (by simp [h3]))
  · subst hn
    have hr : ¬r < 2 := Nat.not_lt.mpr h1
    have hb : bn (decide (v % 16 ≠ (getRing a r).size)) = if v % 16 = (getRing a r).size then 0 else 1 := by
      by_cases h : v % 16 = (getRing a r).size
      · simp [h, bn]
      · simp [h, bn]
    refine exec_frameEvent ha (by simp [h2, h3, h5]) ?_
    simp only [disableRing, h4, if_true, hb, hr, if_false]
    rfl
  · exact if_pos h1
  · exact if_neg (Nat.not_le.mpr h1)
  · subst hv
    refine exec_frameEvent ha (puntDeliver_on h1 h2 h3 h4) ?_
    simp only [h5, puntDeliver, h6, stOk, ne_eq, not_true_eq_false, if_false, Nat.not_lt.mpr h7, h8, puntSend,
      Bool.false_eq_true, ← hc]
    rfl
  · subst hv
    refine exec_frameEvent ha (puntDeliver_on h1 h2 h3 h4) ?_
    simp only [h5, puntDeliver, h6, stOk, ne_eq, not_true_eq_false, if_false, Nat.not_lt.mpr h7, h8, puntSend, if_true]
  · subst hv
    refine exec_frameEvent ha (puntDeliver_on h1 h2 h3 h4) ?_
    simp only [h5, puntDeliver, h6, stOk, ne_eq, not_true_eq_false, if_false, h7, if_true]
    rfl
  · refine exec_frameEvent ha (by simp [h1, h2, h3, expired, msec]) ?_
    simp only [h2]
    rfl
  · subst hv
    refine exec_frameEvent ha (injectTake_on h1 h2 h3 h4) ?_
    simp only [h5, injectHead, stOk, ne_eq, h6, not_false_eq_true, if_true]
  · subst hv
    refine exec_frameEvent ha (injectTake_on h1 h2 h3 h4) ?_
    simp only [h5, injectHead, stOk, ne_eq, h6, not_true_eq_false, if_false, h7, if_true, injectRead]
  · have hx : executing (bump 20 0 2 48 1 a) = true := h2
    exact exec_event ha (by simp [h1, h2, h3, expired, usec, h4]) ((if_pos h1).trans (if_pos hx))
  · refine exec_event ha (by simp [h1, h2, expired, usec]) ?_
    simp [h1]
    rfl

end Sys2Proof.Machine
end

section
/-! SUPPORT. Windows and registers of the host (19 R511 to R521). -/

namespace Sys2Proof.Machine

/-- With no cause set, enabling interrupts signals no vector (R520). -/
theorem signalEnabled_of_none {v : Nat} {a : State} (h : a.hostIf.intCause = 0) :
    (List.range 32).foldl (fun s k => if nb v k && nb s.hostIf.intCause k then signalVector k s else s) a = a := by
  induction List.range 32 with
  | nil => rfl
  | cons k l ih =>
    have hk : (nb v k && nb a.hostIf.intCause k) = false := by simp [h, nb]
    rw [List.foldl_cons, hk]
    exact ih

/-- Settles O34, clause by clause. -/
theorem hostWindows : Obligations.HostWindows := by
  unfold Obligations.HostWindows
  refine ⟨fun t v s a ha h1 => ?_, fun k s h1 => ?_, fun k s h1 h2 => ?_, fun k s old h1 h2 => ?_,
    fun t v s a ha h1 h2 => ?_, fun t v s a b ha h1 h2 hb => ?_, fun t s a ha h1 => ?_, fun t n s a ha h1 hn => ?_,
    fun t v s a ha h1 => ?_, fun t v s a ha h1 => ?_, fun t s a b ha h1 hb => ?_, fun s => ?_, fun s q h1 => ?_,
    fun s r h1 => ?_, fun s => ?_, fun s x o h1 => ?_, fun t s a ha h1 h2 => ?_, fun t s a ha h1 h2 => ?_,
    fun t o f s a b st l x ha h1 h2 h3 hx h4 => ?_, fun t o v f g s a b st l x ha h1 h2 h3 hx h4 => ?_,
    fun st s b hb => ?_, fun t s a ha h1 h2 => ?_, fun t s a st old ha h1 h2 => ?_⟩
  · exact exec_event ha (by simp [h1]) rfl
  · exact if_pos (by simp [h1])
  · refine (if_neg (by simp [h1])).trans (if_neg ?_)
    cases hx : tabFind s.hostIf.causeAt k with
    | none => simp [causeFresh, hx]
    | some x => simp [causeFresh, hx, h2 x hx]
  · refine (if_neg (by simp [h1])).trans ((if_pos (by simp [causeFresh, h2])).trans ?_)
    simp only [h2, Option.any_some, Bool.and_eq_true]
  · exact exec_event ha h1 (signalEnabled_of_none h2)
  · subst hb
    exact exec_event ha (by simp [h1, h2]) rfl
  · exact exec_event ha (by simp [h1]) rfl
  · have hk : n < 4 ∧ n ≠ 0 ∧ n ≠ 3 := by omega
    obtain ⟨hlt, h0, h3⟩ := hk
    refine exec_event ha (by simp [h1, hlt]) ?_
    simp only [crustRead, h0, h3, if_false]
  · exact exec_event ha (by simp [h1]) rfl
  · exact exec_event ha (by simp [h1]) rfl
  · subst hb
    exact exec_event ha (by simp [h1]) rfl
  · rfl
  · have h64 : (0x10000 + 64 * q + 0x14) % 0x40 = 0x14 := by omega
    simp only [regWord, h64, if_true]
    rw [if_pos (by omega)]
    rfl
  · have h32 : (32 * r + 0x0C) % 0x20 = 0x0C := by omega
    simp only [regWord, h32]
    rw [if_neg (by decide), if_pos ⟨trivial, by omega⟩]
    rfl
  · exact ⟨rfl, rfl⟩
  · have h4 : o / 4 * 4 = o := by omega
    simp [regRead, h4, h1]
  · exact exec_event ha (by simp [h1, h2]) rfl
  · exact exec_event ha (by simp [h1, h2]) (if_neg (by simp))
  · subst hx
    refine exec_event ha (by simp [h1, h2, h3]) ?_
    simp only [apertureAddr, h4]
    rfl
  · subst hx
    refine exec_event ha (by simp [h1, h2, h3]) ?_
    simp only [apertureAddr, h4]
    rfl
  · subst hb
    rfl
  · have hs : mgStatRead a = (a.hostIf.mgStat, 0) := by
      cases hx : a.hostIf.mgNew with
      | none => simp only [mgStatRead, hx]
      | some x => simp only [mgStatRead, hx, h2 x hx, if_false]
    refine exec_event ha h1 ?_
    simp only [hs]
    rfl
  · have hs : mgStatRead a = (old, st) := by simp only [mgStatRead, h2, if_true]
    refine exec_event ha h1 ?_
    simp only [hs]
    rfl

end Sys2Proof.Machine
end

section
/-! SUPPORT. Boot and the Vintage statement (14 R408 to R414). -/

namespace Sys2Proof.Machine

/-- The statement at the front of the queue is over: how it ends (R414). -/
theorem exec_vintageComplete {r : PressRun} {s a b u : State} {v : VintReq} {l : List VintReq} {m : Bytes}
    (ha : a = comeTo r.t s) (hq : a.press.vintages = v :: l) (hs : v.snap = some m)
    (hb : b = { a with press := { a.press with vintages := l } }) (hu : vintageDone v m r.upset b = u) :
    exec (.vintageComplete r) s = .next (serveKeyx u) := by
  refine exec_event ha (by simp [vintageTaken, hq, hs]) ?_
  simp only [vintageEnds, hq, hs, Option.getD_some, ← hb, hu]

/-- The Boot ROM after it has recovered the vault and counted the boot (R408). -/
theorem bootRom_of {a b : State} (selfTest drbg : Bool) (h x y : Bytes)
    (hb : b = { bootVault a with boot := { (bootVault a).boot with
      bootCount := ((bootVault a).boot.bootCount + 1) % 2 ^ 32
      cells := tabSet 0 (bootVault a).boot.cells 2 ((tabGet 0 (bootVault a).boot.cells 2 + 1) % 64) } }) :
    bootRom selfTest drbg h x y a =
      if !selfTest then enterRecovery 1 { b with vault := { b.vault with drbgStopped := true, drbgAttempts := 3 } }
      else if !drbg then enterRecovery 2 { b with vault := { b.vault with drbgStopped := true, drbgAttempts := 3 } }
      else bootImages h x y (deriveIdentity (fit 32 Config.uds)
        (if (drbgInstantiated b).vault.vaultEmpty then newMaskArea (drbgInstantiated b) else drbgInstantiated b)) := by
  rw [hb]
  rfl

/-- The check of an image's signature leaves the host interface. -/
theorem imageServed_hostIf (n : Nat) (m : Bytes) (s : State) : (imageServed n m s).hostIf = s.hostIf := by
  simp only [imageServed]
  split <;> rfl

/-- Settles O35, clause by clause. -/
theorem bootAndVintage : Obligations.BootAndVintage := by
  unfold Obligations.BootAndVintage
  refine ⟨fun t h x y s a b c d ha h1 h2 h3 h4 hb hc hd => ?_, fun t m s a b c n l st ha h1 hl hst hc hb => ?_,
    fun t s a n ha h1 => ?_, fun t s a n ha h1 h2 => ?_, fun t v s a ha h1 h2 => ?_,
    fun t m s a o q st ha h1 hst => ?_, fun n m s => ?_, fun w s k e a v h he ha hv => ?_, fun s v l h1 => ?_,
    fun t s v l e x h1 h2 h3 => ?_, fun r s a v l m b ha h1 h2 h3 hb => ?_, fun r s a b v l m ha h1 h2 h3 h4 hb => ?_⟩
  · have hg : (a.power.booting && a.power.powerGood && !a.power.held && decide (a.boot.code = 0)) = true := by
      simp [h1, h2, h3, h4]
    refine ⟨exec_event ha hg ?_, exec_event ha hg ?_, exec_event ha hg ?_⟩
    · rw [bootRom_of false true h x y hb, hd]
      rfl
    · rw [bootRom_of true false h x y hb, hd]
      rfl
    · rw [bootRom_of true true h x y hb, hc]
      rfl
  · subst hl hst
    refine exec_event ha (by simp [h1]) ?_
    have hd : (draw { c with boot := { c.boot with rstatus := stOk, reading := none } }).2 = b := hb.symm
    have hn : (draw { c with boot := { c.boot with rstatus := stOk, reading := none } }).1 = Config.measured c.drawn := rfl
    have hh : c.hostIf = a.hostIf := by rw [hc, imageServed_hostIf]
    simp only [recoveryRead, ← hc, hd, hn]
    rw [hh]
    rfl
  · exact exec_event ha (by simp [h1]) rfl
  · exact exec_event ha (by simp [h1, h2, expired, msec]) rfl
  · exact exec_event ha (by simp [h1, h2]) rfl
  · subst hst
    refine exec_event ha (by simp [h1]) ?_
    simp only [h1]
    rfl
  · rfl
  · have hk : e.k = k := congrArg Env.k he
    subst hv
    refine exec_cmd h he ha ?_
    simp only [sysVintageCmd, hk]
  · simp only [startVintage, h1]
  · simp only [settleSnap, h1, h2, h3, Option.isNone_none, Bool.true_and, decide_eq_true_eq]
  · refine exec_vintageComplete ha h1 h2 hb ?_
    have hd : (b.vault.drbgStopped || !b.hostIf.linkUp) = true := by
      rw [hb]
      simpa using h3
    simp only [vintageDone, hd, if_true]
  · refine exec_vintageComplete ha h1 h2 hb ?_
    have hd : (b.vault.drbgStopped || !b.hostIf.linkUp) = false := by
      rw [hb]
      simp [h3, h4]
    simp only [vintageDone, hd, Bool.false_eq_true, if_false]

end Sys2Proof.Machine
end

section
/-! SUPPORT. Power, reset and references (01 R21 to R32, 20 R528 to R541). -/

namespace Sys2Proof.Machine

/-- Settles O36, clause by clause. -/
theorem powerAndClocks : Obligations.PowerAndClocks := by
  unfold Obligations.PowerAndClocks
  refine ⟨fun t s a b ha h1 => ?_, fun t s => ?_, fun t r s a ha h1 => ?_, fun t y r s a ha h1 => ?_,
    fun t s a b ha h1 hb => ?_, fun t r s a ha h1 h2 => ?_, fun t r s a b ha h1 h2 h3 hb => ?_,
    fun t r s a ha h1 h2 h3 => ?_, fun t r s a ha h1 h2 => ?_, fun t s a ha h1 h2 h3 => ?_,
    fun t s a ha h1 h2 h3 => ?_, fun t s a ha h1 h2 h3 => ?_, fun t s a ha h1 h2 => ?_, fun t s a i ha h1 h2 h3 => ?_,
    fun t s a ha h1 h2 => ?_, fun t s a u ha h1 h2 h3 => ?_, fun t s a u ha h1 h2 h3 => ?_⟩
  · have hb : b = resetCommon a := by
      have hn : exec (.npor t) s = .next (resetCommon a) := exec_event ha rfl rfl
      rw [hn] at h1
      injection h1 with hb
      exact hb.symm
    rw [hb]
    and_intros <;> rfl
  · exact exec_event rfl rfl rfl
  · exact exec_event ha (by simp [h1]) rfl
  · exact exec_event ha (by simp [h1]) rfl
  · have hk : b.book.recs = a.book.recs ∧ b.book.count = a.book.count ∧ b.book.frozen = a.book.frozen := by
      rw [hb]
      exact ⟨rfl, rfl, rfl⟩
    obtain ⟨hr, hc, hf⟩ := hk
    refine ⟨hr, hc, hf, exec_event ha h1 ?_⟩
    rw [hb]
    rfl
  · refine exec_event ha (decide_eq_true h1) ?_
    simp only [railsFail, h2, Bool.false_eq_true, if_false]
  · refine exec_event ha (decide_eq_true h1) ?_
    simp only [railsFail, h2, h3, if_true, hb, List.isEmpty_nil, Bool.not_true, bn, Bool.false_eq_true, if_false, Nat.zero_mul]
  · exact exec_event ha (by simp at *; simp [h1, h2, h3]) rfl
  · exact exec_event ha (by simp at *; simp [h1, h2]) rfl
  · refine exec_event ha (by simp [h1]) ?_
    cases hB : a.power.refBGood with
    | true => simp only [refLost, refGood, noteRefFault, setRef, h2, h3, hB, if_true]; rfl
    | false => simp only [refLost, refGood, noteRefFault, setRef, h2, h3, hB, if_true]; rfl
  · refine exec_event ha (by simp [h1]) ((if_pos (.inr ?_)).trans rfl)
    intro h
    exact absurd (h3.symm.trans h) (by decide)
  · refine exec_event ha (by simp [h1, refGood, h2, waited, refFault, msec, h3]) ?_
    rfl
  · exact congrArg Host.Outcome.next (event_off ha (by simp [waited, refFault, msec, h2]))
  · exact exec_event ha (by simp [h1, h2, h3]) rfl
  · exact exec_event ha (by simp [h1, h2]) rfl
  · refine exec_event ha h1 ?_
    have hw : decide (a.clk.root ≤ u + 10 * msec) = true := decide_eq_true h3
    simp only [pllRelock, h2, hw, Bool.and_self, if_true]
  · refine exec_event ha h1 ?_
    have hw : expired a (u + 10 * msec) = true := decide_eq_true h3
    simp only [pllRelock, h2, hw, Bool.false_and, Bool.not_false, Bool.and_self, Bool.false_eq_true, if_true, if_false]

end Sys2Proof.Machine
end

section
/-! SUPPORT. Trellis links (18 R490 to R500). -/

namespace Sys2Proof.Machine

/-- The far end of a port that says it is the other side (R490). -/
theorem eastSide_of {p : Nat} {x : Bool} (hp : p < 2) (h : x = decide (p = 0)) : ¬x = (p == 1) := by
  have hc : p = 0 ∨ p = 1 := by omega
  rcases hc with rfl | rfl <;> simp [h]

/-- A mode that a port has held for 1 ms, or that it does not hold, is decided (R496). -/
theorem exec_linkModeHeld {t p : Nat} {held : Bool} {s a u : State} (ha : a = comeTo t s) (hp : p < 2)
    (hm : (getTPort a p).step = .mode) (hw : held = true → (getTPort a p).heldFrom + 10000000 ≤ a.clk.root)
    (hu : modeHeld p held a = u) : exec (.linkModeHeld t p held) s = .next u := by
  refine exec_event ha ?_ hu
  cases held with
  | false => simp [hp, hm]
  | true => simp [hp, hm, waited, msec, hw rfl]

/-- Settles O37, clause by clause. -/
theorem trellisLinks : Obligations.TrellisLinks := by
  unfold Obligations.TrellisLinks
  refine ⟨fun w s k e a x h he ha h1 hx => ?_, fun w s k e a h he ha h1 => ?_,
    fun w s k e a b x l rest h he ha h1 h2 hb => ?_, fun w s k a h ha h1 => ?_, fun w s k e a b h he ha hb => ?_,
    fun t p s a ha h1 h2 => ?_, fun t p s a ha h1 h2 h3 => ?_, fun t p h s a b ha h1 h2 h3 h4 hb => ?_,
    fun t p h s a ha h1 h2 h3 => ?_, fun t s a b ha h1 h2 hb => ?_, fun t s a b ha h1 h2 hb => ?_,
    fun t p s a h ha h1 h2 h3 => ?_, fun t p s a ha h1 h2 h3 => ?_, fun t p s a ha h1 h2 h3 => ?_⟩
  · subst hx
    exact exec_cmd h he ha (if_neg (by simp [h1]))
  · exact exec_cmd h he ha (if_pos h1)
  · have hx : hostFlag e = false := by
      rw [he]
      show (w.x.toNat % 2 == 1) = false
      rw [h2]
      rfl
    refine exec_cmd h he ha ?_
    simp only [trRecvCmd, h1, addrWrite, hx, Bool.false_eq_true, if_false, hb]
  · refine exec_cmd h rfl ha ?_
    simp only [trRecvCmd, h1]
    rfl
  · subst hb
    exact exec_cmd h he ha rfl
  · exact exec_event ha (by simp [h1, h2]) rfl
  · exact exec_event ha (by simp [h1, h2, h3, waited, usec]) rfl
  · refine exec_event ha (by simp [h1, h2]) ((if_neg (by simp [eastSide_of h1 h3, h4])).trans ?_)
    rw [hb]
    rfl
  · refine exec_event ha (by simp [h1, h2]) (if_pos ?_)
    have he : h.east = (p == 1) := by
      rw [h3, Bool.beq_eq_decide_eq]
    simp [he]
  · refine exec_linkModeHeld ha (by decide) h1 (fun _ => h2) ?_
    rw [hb]
    rfl
  · refine exec_linkModeHeld ha (by decide) h1 (fun _ => h2) ?_
    rw [hb]
    rfl
  · refine exec_linkModeHeld ha h1 h2 (fun h => absurd h (by decide)) ?_
    simp only [modeHeld, Bool.false_eq_true, if_false, h3]
  · exact exec_event ha (by simp [h1, h2, h3, expired, msec]) (if_neg (by simp [h2]))
  · exact exec_event ha (by simp [h1, h2, h3, waited, msec]) (if_pos h2)

end Sys2Proof.Machine
end

section
/-! SUPPORT. Security of the Trellis (18 R498, R499). -/

namespace Sys2Proof.Machine

/-- A port whose session comes up or is up takes messages of the key exchange (R498). -/
theorem inSession_of {s : State} {p : Nat} (h : (getTPort s p).step = .session) : inSession s p = true :=
  decide_eq_true (.inl h)

/-- What a frame that opens has passed: its keys and their last LSEQ, its length and its LSEQ (R499). -/
theorem trOpen_some {q : TPort} {l : Bytes} {f : TFrame} (h : trOpen q l = some f) :
    ∃ k, (if f.phase = q.phase then some (q.keyRx, q.seqRx) else q.oldRx) = some k ∧ f.lseq = mf l 8 8 ∧
      l.length = 40 + mf l 16 2 ∧ k.2 < f.lseq := by
  simp only [trOpen] at h
  split at h
  · cases h
  · next k hk =>
    split at h
    · cases h
    · next hg =>
      split at h
      · next x hx =>
        cases h
        simp only [not_or, ne_eq, not_not] at hg
        obtain ⟨hlen, _, _, _, _, _, _, hseq⟩ := hg
        exact ⟨k, hk, rfl, hlen, Nat.lt_of_not_le hseq⟩
      · cases h

/-- Settles O38, clause by clause. -/
theorem trellisSecurity : Obligations.TrellisSecurity := by
  unfold Obligations.TrellisSecurity
  refine ⟨fun r p m s a b ha h1 h2 hb h3 => ?_, fun r p m s a b ha h1 h2 hb h3 h4 h5 => ?_,
    fun p m u s h1 h2 h3 => ?_, fun i x y u s h1 h2 => ?_, fun p x y z u s h1 h2 h3 h4 h5 => ?_,
    fun t p l s a ha h1 h2 h3 => ?_, fun p s b h1 hb => ?_, fun t p l s a f ha h1 h2 h3 => ?_, fun q l f h1 => ?_,
    fun t s a ha h1 h2 => ?_, fun t p s a ha h1 h2 => ?_⟩
  · refine exec_event ha (by simp [h1, inSession_of h2]) ?_
    have hs : serveKeyx b = b := if_pos (by simp [h3])
    have hb' : bumpTr (8 * p + 4) 1 a = b := hb.symm
    simp only [keyxArrives, hb', hs, h3, if_true]
  · refine exec_event ha (by simp [h1, inSession_of h2]) ?_
    have hs : serveKeyx b = b := if_pos (by simp [h4, h5])
    have hb' : bumpTr (8 * p + 4) 1 a = b := hb.symm
    simp only [keyxArrives, hb', hs, h3, Bool.false_eq_true, if_false]
  · simp only [keyxTaken, inSession_of h2, Bool.not_true, Bool.false_eq_true, if_false, h3, if_true]
  · simp only [keyxTaken, inSession_of h1, Bool.not_true, Bool.false_eq_true, if_false, h2]
    rfl
  · simp only [keyxTaken, inSession_of h2, Bool.not_true, Bool.false_eq_true, if_false, h3, keyxMeans, h4, h5, Bool.and_self,
      if_true]
  · exact exec_event ha (by simp [linkIsUp, h1, h2]) (by simp only [trArrives, h3])
  · simp only [trRejected, ← hb]
  · exact exec_event ha (by simp [linkIsUp, h1, h2]) (by simp only [trArrives, h3])
  · obtain ⟨k, hk, hseq, hlen, hlt⟩ := trOpen_some h1
    refine ⟨hseq, hlen, fun hp => ?_, fun hp => ?_⟩
    · rw [if_pos hp] at hk
      cases hk
      exact hlt
    · rw [if_neg hp] at hk
      exact ⟨k.1, k.2, hk, hlt⟩
  · have hu : (getTPort a 1).step = .up := h1
    have hk : waited a (getTPort a 1).keyedAt (86400000 * msec) = true := decide_eq_true h2
    exact exec_event ha (by simp [hu, hk]) rfl
  · exact exec_event ha (by simp [linkIsUp, h1, h2]) rfl

end Sys2Proof.Machine
end

section
/-! SUPPORT. Services and time on the Trellis (18 R497 to R508). -/

namespace Sys2Proof.Machine

theorem linkIsUp_of {p : Nat} {s : State} (hp : p < 2) (hu : (getTPort s p).step = .up) : linkIsUp p s = true := by
  simp [linkIsUp, hp, hu]

theorem getTPort_setTPort_same (s : State) (p : Nat) (v : TPort) : getTPort (setTPort s p v) p = v := by
  by_cases h : p = 0 <;> simp [getTPort, setTPort, h]

/-- Settles O39, clause by clause. -/
theorem trellisTraffic : Obligations.TrellisTraffic := by
  unfold Obligations.TrellisTraffic
  refine ⟨fun t s a f ha h1 => ?_, fun t x y s a f ha h1 h2 => ?_, fun t p l s a ha h1 h2 h3 => ?_,
    fun t s a b ha h1 h2 h3 h4 hb => ?_, fun t p x1 x2 x3 x4 s a b ha h1 h2 hb => ?_,
    fun t s a l ha h1 h2 h3 h4 h5 => ?_, fun t x s a b c ha h1 h2 h3 hc hb => ?_, fun t x s a ha h1 h2 => ?_,
    fun p s h1 => ?_, fun t n s a ha h1 h2 => ?_, fun t p x s a ha h1 h2 => ?_⟩
  · have hw := List.find?_some h1
    refine exec_event ha (List.any_eq_true.mpr ⟨f, List.mem_of_find?_eq_some h1, hw⟩) ?_
    simp only [h1]
  · have hk : (f.src == x && f.relay == y) = true := List.find?_some (p := fun f : Frags => f.src == x && f.relay == y) h1
    have he : expired a (f.since + msec) = true := decide_eq_true h2
    refine exec_event ha (List.any_eq_true.mpr ⟨f, List.mem_of_find?_eq_some h1, by rw [hk, he]; rfl⟩) ?_
    simp only [h1]
    rfl
  · exact exec_event ha (by simp [linkIsUp_of h1 h2, h3]) rfl
  · have hw : waited a a.trellis.tsyncAt (125 * usec * trSyncp a.trellis.setting) = true := decide_eq_true h4
    refine exec_event ha (by simp [h1, trEn, h2, h3, hw]) ?_
    rw [hb]
  · refine exec_event ha (linkIsUp_of h1 h2) ?_
    rw [hb]
  · refine exec_event ha (by simp [h1, h2, h3, h4, h5]) ?_
    simp only [h1, h3]
  · have hx : (!x.locked || expired a ((getTPort a x.port).lastRx + 10 * usec)) = true := by
      rcases h3 with h | h
      · simp [h]
      · simp [expired, usec, h]
    refine exec_event ha (by simp [linkIsUp_of h1 h2, hx]) ?_
    have hc' : setStep x.port .lock (bumpTr (8 * x.port + 6) 1 (sessionFails x.port a)) = c := hc.symm
    simp only [linkDown, hc', ← hb]
    rfl
  · exact congrArg Host.Outcome.next (event_off ha (by simp [h1, expired, usec, Nat.not_lt.mpr h2]))
  · simp [sessionFails, getTPort_setTPort_same]
  · exact exec_event ha (by simp [h1, h2, expired, msec]) rfl
  · exact exec_event ha (linkIsUp_of h1 h2) rfl

end Sys2Proof.Machine
end

section
/-! SUPPORT. Events of the Press and the vault (12 R363, 13 R391). -/

namespace Sys2Proof.Machine

/-- A message that is armed goes straight to its commit (R363). -/
theorem graftWork_of_armed {run : GraftRun} {a : State} {v : Serving} (h : a.vault.serving = some v)
    (hp : v.phase = .armed) (hu : run.upTo = .committed) : graftWork run a = graftCommit a := by
  have ht : graftTake a = a := by simp only [graftTake, h]
  have hc : graftCheck run a = a := by simp [graftCheck, graftStruck, h, hp]
  have hn : graftCount run a = a := by simp [graftCount, h, hp]
  have hr : graftArm a = a := by simp [graftArm, h, hp]
  simp [graftWork, hu, ht, hc, hn, hr]

/-- Settles O43: what is not said of the Press already is a Graft message, a re-mask pass and the DRBG. -/
theorem pressEventsComplete : Obligations.PressEventsComplete := by
  obtain ⟨hPkShape, hEcdsaVerify, hEcMul, hModexp, hRsaPkcs1, hRsaPss, hDsaVerify, _, hEcPub, hEcdsaSign, hEcdhMac,
    hKemPub, hKemMac, hDsaPub, hDsaSign⟩ := pressAlgorithms
  obtain ⟨_, _, _, _, _, hPressOpStart, hPressOpStartAgain, hPressOpComplete, _⟩ := pressOperations
  unfold Obligations.PressEventsComplete
  refine ⟨hPkShape, hEcPub, hEcdsaSign, hEcdsaVerify, hEcdhMac, hEcMul, hModexp, hRsaPkcs1, hRsaPss, hKemPub, hKemMac,
    hDsaPub, hDsaSign, hDsaVerify, hPressOpStart, hPressOpStartAgain, hPressOpComplete,
    fun run s a b v ha h1 h2 h3 h4 h5 hb => ?_, fun run s a b ha h1 h2 h3 h4 h5 hb => ?_,
    fun t s a b ha h1 h2 hb => ?_, fun t raw s a ha h1 h2 h3 => ?_, fun t s a ha h1 h2 h3 h4 => ?_,
    fun t s a ha h1 h2 => ?_⟩
  · refine exec_event ha (by simp [h1]) ((graftWork_of_armed h1 h2 h4).trans ?_)
    have hb' : bumpVault 16 1 (extendReg 5 (sha384 (v.msg.octets.take (opsEnd v.msg.octets)))
        (v.ops.foldl (fun s o => applyOp o s) { a with vault := { a.vault with serving := none } })) = b := hb.symm
    simp only [graftCommit, h1, h2, if_true, hb', h5]
    rfl
  · have hw : waited a a.vault.remaskAt (1000 * msec) = true := decide_eq_true h4
    refine exec_event ha (by simp [h1, h2, h3, h5, hw]) ?_
    simp only [remaskTo, h5, h3, Nat.min_self, ← hb, if_true]
    rfl
  · subst hb
    exact exec_event ha (by simp [h1, h2]) rfl
  · exact exec_event ha (by simp [h1, h2, h3]) rfl
  · have hw : waited a a.vault.drbgFailedAt (10 * msec * a.vault.drbgAttempts) = true := decide_eq_true h4
    have hg : (a.vault.drbgStopped && !a.vault.drbgErased && decide (a.vault.drbgAttempts < 3) &&
        waited a a.vault.drbgFailedAt (10 * msec * a.vault.drbgAttempts)) = true := by simp [h1, h2, h3, hw]
    refine ⟨exec_event ha hg (if_pos rfl), exec_event ha hg ((if_neg (by simp)).trans ?_)⟩
    by_cases hn : a.vault.drbgAttempts = 2
    · simp only [hn, if_true]
    · have h3' : a.vault.drbgAttempts + 1 ≠ 3 := by omega
      simp only [hn, h3', if_false]
  · exact exec_event ha (by simp [h1, h2]) rfl

end Sys2Proof.Machine
end

section
/-! SUPPORT. Events of frames, cache, cipher, Cask and rings. -/

namespace Sys2Proof.Machine

/-- Settles O44: each event as the chapter of its block has it. -/
theorem frameEventsComplete : Obligations.FrameEventsComplete := by
  obtain ⟨hHostFrameReceive, _, _, _, _, _, _, _, _, _, _, hLineFrameReceive, _⟩ := framesArrive
  obtain ⟨hSpillReadComplete, hSpillTimeout, hFillComplete, _, _, hFillTimeout, hIcvCheck, _⟩ := framesChecked
  obtain ⟨_, _, _, _, _, _, _, _, hPeerFlushComplete, hPendingAgeExpiry⟩ := peerTable
  obtain ⟨hEgressSelect, _, _, hFrameTransmit, _, _, _, _, hAgeCheck⟩ := framesLeave
  obtain ⟨_, _, _, _, _, _, _, _, hSysReconcile, _, hWriteBackComplete, hCacheEvict, _⟩ := channels
  obtain ⟨hProofRefill, hSliceFault, hRotationStep, hSliceTestComplete, hCaskScrub, _⟩ := cipherAndScrub
  obtain ⟨_, _, _, _, _, _, _, _, _, _, hRetireTimeReached, hRollStraddleWindow⟩ := associations
  obtain ⟨_, _, _, _, _, _, _, _, _, _, _, hPuntDeliver, _, _, hPuntWaitExpiry, _, hInjectTake, hHostTransferTimeout,
    _⟩ := hostQueues
  unfold Obligations.FrameEventsComplete
  exact ⟨hHostFrameReceive, hLineFrameReceive, hSpillReadComplete, hSpillTimeout, hPendingAgeExpiry,
    hPeerFlushComplete, hEgressSelect, hFrameTransmit, hIcvCheck, hFillComplete, hFillTimeout, hCacheEvict,
    hWriteBackComplete, hProofRefill, hSliceFault, hRotationStep, hSliceTestComplete, hRetireTimeReached,
    hRollStraddleWindow, hCaskScrub, hAgeCheck, hPuntDeliver, hPuntWaitExpiry, hInjectTake, hHostTransferTimeout,
    hSysReconcile⟩

end Sys2Proof.Machine
end

section
/-! SUPPORT. Events of lanes, ports, pause, gates, time and pins. -/

namespace Sys2Proof.Machine

/-- Settles O45: each event as the chapter of its block has it. -/
theorem portEventsComplete : Obligations.PortEventsComplete := by
  obtain ⟨hLinkLoss, _, hFaultSequenceChange, hVerifyTimeout, hVerifyRespondReceive, _, hPauseFrameReceive, _,
    hPauseTimeExpiry, hPauseLimitRelease⟩ := portsAndPause
  obtain ⟨_, _, _, _, _, _, hPauseRefresh, _⟩ := framesLeave
  obtain ⟨_, _, _, _, _, _, _, _, _, hGateSwapChange, hGateEntryChange, hCalendarSlotReached⟩ := scheduling
  obtain ⟨_, _, _, _, hTemporaryIncrementEnd, hSecondsWrap, _, hPpsSetEdge, hPpsSetTimeout, _, hCaptureEdge, _, _, _,
    _, hTriggerPulse⟩ := networkTime
  obtain ⟨_, _, _, _, _, hProbeTimeout⟩ := stampQueuesAndProbes
  obtain ⟨hAnResolved, hTrainingComplete, hTrainingTimeout, hAlignmentHeld, hAlignmentTimeout,
    hNegotiationRestartWait⟩ := portBringUp
  obtain ⟨_, _, _, hCheckerLock, hCheckerLossOfLock, hRateInjection, _, _, _, _, hCalibrationStart,
    hCalibrationComplete, hSynceUnsquelch, hEyeMarginCheck⟩ := lanes
  unfold Obligations.PortEventsComplete
  exact ⟨hPauseFrameReceive, hPauseTimeExpiry, hPauseLimitRelease, hPauseRefresh, hCalendarSlotReached,
    hGateEntryChange, hGateSwapChange, hTemporaryIncrementEnd, hSecondsWrap, hPpsSetEdge, hPpsSetTimeout,
    hCaptureEdge, hTriggerPulse, hProbeTimeout, hVerifyTimeout, hVerifyRespondReceive, hAnResolved, hTrainingComplete,
    hTrainingTimeout, hAlignmentHeld, hAlignmentTimeout, hNegotiationRestartWait, hLinkLoss, hFaultSequenceChange,
    hSynceUnsquelch, hEyeMarginCheck, hCalibrationStart, hCalibrationComplete, hCheckerLock, hCheckerLossOfLock,
    hRateInjection⟩

end Sys2Proof.Machine
end

section
/-! SUPPORT. Events of programs, complexes, boot, power, the Crust and memory. -/

namespace Sys2Proof.Machine

/-- Settles O46: each event as the chapter of its block has it. -/
theorem systemEventsComplete : Obligations.SystemEventsComplete := by
  obtain ⟨_, hSysSwitchGo, _, _, _, _, hComplexFault, _, hInstructionWatchdog, hStandbySelfTest, _, hRepairSelfTest,
    hHoldoffExpiry, _⟩ := complexes
  obtain ⟨hProgramStart, _, hProgramCopyTimeout, hProgramTimeLimit, _⟩ := programFlow
  obtain ⟨_, _, _, hEventRecord, _, hHandlerStart, hWaitEvTimeout, _, hWaitTExpiry, _, hCommandTimeout,
    hCommandCompletion, _⟩ := handlersAndWaits
  obtain ⟨hBootRom, hRecoveryReadComplete, _, hRecoveryReadTimeout, hRecCtlGo, hStageComplete, _, _, _, _, _,
    hVintageComplete⟩ := bootAndVintage
  obtain ⟨_, hNpor, _, hPowerGood, hNreset, _, hBrownOut, hRailWarning, hRailWarningClear, hReferenceLoss, _,
    hReferenceGood, _, hPullInComplete, hRootPllLockLoss, hRootPllRelock, _⟩ := powerAndClocks
  obtain ⟨_, _, _, _, _, _, _, _, hCrustInjectTimeout, hReservoirCharged, hCrustColdStart⟩ := crustCommands
  obtain ⟨hCrustAlarm, _⟩ := crustSamples
  obtain ⟨hMgTrainingComplete, _, _, hMgAccess, hMgAccessAgain, _, hMemoryPortCopy, hPatrolScrub⟩ := memoryAccesses
  obtain ⟨_, _, _, _, _, _, _, _, hMgRotationComplete, hMgRebuildComplete, hMgScrubComplete⟩ := regions
  unfold Obligations.SystemEventsComplete
  exact ⟨hSysSwitchGo, hProgramStart, hProgramCopyTimeout, hProgramTimeLimit, hWaitEvTimeout, hWaitTExpiry,
    hCommandTimeout, hCommandCompletion, hInstructionWatchdog, hComplexFault, hStandbySelfTest, hRepairSelfTest,
    hHoldoffExpiry, hStageComplete, hEventRecord, hHandlerStart, hBootRom, hRecoveryReadComplete,
    hRecoveryReadTimeout, hRecCtlGo, hVintageComplete, hPowerGood, hNpor, hNreset, hRailWarning, hRailWarningClear,
    hBrownOut, hReferenceLoss, hReferenceGood, hRootPllLockLoss, hRootPllRelock, hPullInComplete, hReservoirCharged,
    hCrustAlarm, hCrustInjectTimeout, hCrustColdStart, hMgTrainingComplete, hMgAccess, hMgAccessAgain,
    hMemoryPortCopy, hMgRotationComplete, hMgRebuildComplete, hMgScrubComplete, hPatrolScrub⟩

end Sys2Proof.Machine
end

section
/-! SUPPORT. Events of the Trellis and the host interface. -/

namespace Sys2Proof.Machine

/-- Settles O47: each event as the chapter of its block has it. -/
theorem linkEventsComplete : Obligations.LinkEventsComplete := by
  obtain ⟨_, _, _, hPkAbort, _⟩ := pressOperations
  obtain ⟨_, _, _, _, _, hTrellisLinkLock, hHelloSend, hHelloReceive, _, hLinkModeHeld, hLinkModeHeldAgain, _,
    hTrellisStepTimeout, _⟩ := trellisLinks
  obtain ⟨_, hKeyxReceive, _, _, _, _, _, hTrellisFrameReceive, _, hLinkRekey, hKeepaliveSend⟩ := trellisSecurity
  obtain ⟨hServiceReceive, hGraftFragmentTimeout, hTsyncReceive, hTsyncSend, hDelayRequest, hEventBatchSend,
    hTrellisLinkDown, _, _, hNodeLost, hTopoReceive⟩ := trellisTraffic
  obtain ⟨hIntCauseWrite, _, _, _, hIntEnableWrite, hTodLatch, hCrustWindowRead, _, hRegisterWrite, _,
    hPcieFunctionReset, _, _, _, _, _, hPcieLinkChange, _, hMgwinRead, hMgwinWrite, _, hMgwinStatRead,
    _⟩ := hostWindows
  obtain ⟨hQdoorWrite, _, hQueueEnable, hQueueDisable, _, _, hRdoorWrite, hRingEnable, hRingDisable, _⟩ := hostQueues
  obtain ⟨_, _, _, _, _, _, _, hCbWindowRead, hCbWindowReadAgain⟩ := bookInstructions
  unfold Obligations.LinkEventsComplete
  exact ⟨hPkAbort, hTrellisLinkLock, hHelloReceive, hLinkModeHeld, hLinkModeHeldAgain, hKeyxReceive,
    hTrellisStepTimeout, hTrellisFrameReceive, hServiceReceive, hGraftFragmentTimeout, hTsyncReceive, hTsyncSend,
    hDelayRequest, hTopoReceive, hKeepaliveSend, hTrellisLinkDown, hNodeLost, hLinkRekey, hEventBatchSend,
    hPcieFunctionReset, hPcieLinkChange, hQdoorWrite, hQueueEnable, hQueueDisable, hRingEnable, hRingDisable,
    hRdoorWrite, hIntCauseWrite, hIntEnableWrite, hTodLatch, hCbWindowRead, hCbWindowReadAgain, hCrustWindowRead,
    hMgwinRead, hMgwinWrite, hMgwinStatRead, hRegisterWrite, hHelloSend⟩

end Sys2Proof.Machine
end

section
/-! SUPPORT. Every instruction that runs completes (10 R308 to R335). -/

namespace Sys2Proof.Machine

/-- A command that runs completes: its block applies it and its context goes on with the answer (R308, R321). -/
theorem runCmd_done {c : Cmd} {w : IWord} {s : State} {k : Nat} (h : runs c w s k = true) :
    (.next (runCmd c w s) : Host.Outcome State Fault Refusal) = .next (done c w s k) :=
  congrArg _ (runCmd_runs h)

/-- Settles O40: each of these instructions is a command of its block. -/
theorem commandsComplete : Obligations.CommandsComplete := by
  unfold Obligations.CommandsComplete
  and_intros <;> exact fun _ _ _ h => runCmd_done h

/-- Settles O41: each of these instructions is a command of its block. -/
theorem vaultCommandsComplete : Obligations.VaultCommandsComplete := by
  unfold Obligations.VaultCommandsComplete
  and_intros <;> exact fun _ _ _ h => runCmd_done h

/-- Settles O42: each of these instructions is a command of its block. -/
theorem systemCommandsComplete : Obligations.SystemCommandsComplete := by
  unfold Obligations.SystemCommandsComplete
  and_intros <;> exact fun _ _ _ h => runCmd_done h

end Sys2Proof.Machine
end
